-- ==== Sys2Proof/Word.lean ====
section
/-! DEFINITION. The word types of the Kazfior and the plain records that instructions and events carry:
packets and flits of the mesh (R51, R52), messages (R163), controller requests (R24), translated accesses (R196). -/

namespace Sys2Proof

/-- A word is 32 bits (R3). -/
abbrev Word := BitVec 32
abbrev Byte := BitVec 8
/-- A line is 64 bytes (R3), byte i in bits 8i+7..8i. -/
abbrev Line := BitVec 512
/-- A general register number, g0 to g31 (R293). -/
abbrev Reg := BitVec 5
/-- An accumulator tile number, ac0 to ac63 (R281). -/
abbrev Tile := BitVec 6

/-- The two packed integer sizes: `.h` and `.b` (R326). -/
inductive PackSize where
  | h
  | b
  deriving DecidableEq, Repr

/-- The access codes of a fault record (R196). -/
inductive AccessKind where
  | fetch | load | store | atomic | fullEmpty | matrix | other
  deriving DecidableEq, Repr

/-- An access as translation sees it: its fault-record code and the page rights it needs (R238). -/
structure Access where
  kind : AccessKind
  r : Bool := false
  w : Bool := false
  x : Bool := false
  fe : Bool := false
  deriving DecidableEq, Repr

/-- A mesh packet: the header fields of R52 and the payload flits that follow it. -/
structure Packet where
  dstDev : BitVec 6 := 0
  dstCol : BitVec 5 := 0
  dstRow : BitVec 5 := 0
  dstEp : Byte := 0
  srcDev : BitVec 6 := 0
  srcCol : BitVec 5 := 0
  srcRow : BitVec 5 := 0
  srcEp : Byte := 0
  opcode : Byte := 0
  tag : BitVec 16 := 0
  count : BitVec 4 := 0
  gen : BitVec 4 := 0
  err : BitVec 5 := 0
  detour : BitVec 4 := 0
  pa : BitVec 48 := 0
  param : Word := 0
  more : BitVec 2 := 0
  inline : BitVec 256 := 0
  payload : List Line := []
  vn : Bool := false
  cls : BitVec 2 := 0
  deriving DecidableEq, Repr

/-- A flit: 512 data bits and the sideband of R51; in a Trizen link word, the trailer's extended sequence and its piggybacked
acknowledgement (R78). `valid` counts the words of a stream's data flit (R68, log 48). -/
structure Flit where
  data : Line := 0
  crc : BitVec 16 := 0
  seq : Byte := 0
  ctl : Bool := false
  mark : Bool := false
  abort : Bool := false
  last : Bool := false
  first : Bool := false
  vn : Bool := false
  cls : BitVec 2 := 0
  ext : BitVec 16 := 0
  ack : Option (BitVec 16) := none
  valid : BitVec 5 := 0
  deriving DecidableEq, Repr

/-- A message of R163 or a device-source message of R425. `caller` is 2^16 × the sending flat core + the tag of its packet;
`pc` and `ctl` are its entry of the vector table as its arrival read it (R165). -/
structure Message where
  typ : Byte := 0
  sender : Word := 0
  seq : BitVec 16 := 0
  words : List Word := []
  reply : Bool := false
  cls : BitVec 2 := 0
  caller : Nat := 0
  device : Bool := false
  pc : Word := 0
  ctl : Word := 0
  deriving DecidableEq, Repr

/-- What a host controller sends a host port beside activations, precharges, reads and writes (R82). -/
inductive HostCmd where
  /-- REF, RFM, self refresh and power-down. -/
  | refresh
  | modeWrite (reg : Nat) (value : Byte)
  | modeRead (reg : Nat)
  deriving DecidableEq, Repr

/-- A slice's request to a memory controller, stamped with its map generation (R24). `line` is PA[38:6]. -/
structure McReq where
  slice : Nat := 0
  line : Nat := 0
  stamp : BitVec 4 := 0
  write : Bool := false
  data : Line := 0
  full : BitVec 16 := 0
  /-- Its class: its cause's, with timed carried as urgent; a writeback is bulk (R56). -/
  cls : BitVec 2 := 0
  /-- The controller had accepted it when its DRAIN began (R30). -/
  accepted : Bool := false
  /-- How many times in a row it has been bounced (R33). -/
  bounces : Nat := 0
  deriving DecidableEq, Repr

end Sys2Proof
end

