-- ==== Sys2Proof/Config.lean ====
section
/-! DEFINITION. What one device fixes (fuses, R115, R119, R405) and the free values, which the spec leaves open. None of these
constants has a body: a statement that mentions one holds whatever its value is. -/

namespace Sys2Proof.Config

/-- A value the spec leaves open; the argument is the state's counter of such values (log 8). -/
opaque freeWord : Nat → Word
/-- What a peer device answers to an access of this device: an error code of R54, or 0 with the data read (log 8). -/
opaque peerAnswer : Nat → BitVec 5 × BitVec 128
/-- The device serial number (R119, R405). -/
opaque serial : BitVec 64
/-- The SHA-384 hashes of key slot s: `false` the ECDSA key, `true` the LMS key (R115). -/
opaque keyHash : Nat → Bool → BitVec 384
/-- The thermometer SVN fuses of KIND 1 and KIND 2 as they stand before the model's run (R115). -/
opaque svnFuse : Nat → BitVec 64
/-- The bits that a signed request inside the body of a KIND 1 container raises in the SVN fuse of a KIND; the request's form is the
firmware's (R116, log 9). -/
opaque svnRequest : List Byte → Nat → BitVec 64
/-- The unique device secret and the identity key (R118). -/
opaque deviceSecret : BitVec 256
opaque identityKey : BitVec 384
/-- An ECDSA P-384 signature of a message by a private key, whose random number is the signer's (R118, R119, log 9). -/
opaque ecdsaSign : BitVec 384 → List Byte → List Byte
/-- The bytes of the alias certificate for an alias key and MS before its signature (R118, log 9). -/
opaque aliasCertBody : BitVec 384 → BitVec 384 → List Byte
/-- Whether the module form (KZ-4M) is present, with its carrier controller (R1, R20). -/
opaque module : Bool

end Sys2Proof.Config
end

