-- ==== Sys2Proof/Machine/Sparse.lean ====
section
/-! DEFINITION. Sparse stores: a list of (key, value) pairs with strictly rising keys and no entry equal to the value that an
unlisted key reads as. Equal stores are equal lists. Every array of the machine (registers, banks, slots, memory) is one. -/

namespace Sys2Proof.Machine

/-- A store keyed by numbers. -/
abbrev SMap (α : Type) := List (Nat × α)

/-- The value at a key; `d` where the key is not listed. -/
def smGet {α : Type} (d : α) : SMap α → Nat → α
  | [], _ => d
  | (k, v) :: r, i => if k = i then v else smGet d r i

/-- Insert or replace an entry. -/
def smPut {α : Type} : SMap α → Nat → α → SMap α
  | [], i, x => [(i, x)]
  | (k, v) :: r, i, x =>
    if i < k then (i, x) :: (k, v) :: r else if i = k then (i, x) :: r else (k, v) :: smPut r i x

/-- Remove an entry. -/
def smDel {α : Type} : SMap α → Nat → SMap α
  | [], _ => []
  | (k, v) :: r, i => if k = i then smDel r i else (k, v) :: smDel r i

/-- Store a value; storing what an unlisted key reads as removes the entry. -/
def smSet {α : Type} [DecidableEq α] (d : α) (m : SMap α) (i : Nat) (x : α) : SMap α :=
  if x = d then smDel m i else smPut m i x

/-- Every key is above `lo` and keys rise strictly. -/
def smRising {α : Type} : Option Nat → SMap α → Bool
  | _, [] => true
  | lo, (k, _) :: r => (match lo with | none => true | some l => decide (l < k)) && smRising (some k) r

/-- The canonical form: rising keys, no entry equal to the default. -/
def smWf {α : Type} [DecidableEq α] (d : α) (m : SMap α) : Bool :=
  smRising none m && m.all fun e => decide (e.2 ≠ d)

/-- Change the value at one key. -/
def smMod {α : Type} [DecidableEq α] (d : α) (m : SMap α) (i : Nat) (f : α → α) : SMap α := smSet d m i (f (smGet d m i))

/-- Change every listed value by an `f` that keeps the default. -/
def smEach {α : Type} [DecidableEq α] (d : α) (m : SMap α) (f : Nat → α → α) : SMap α :=
  m.foldl (fun r e => smSet d r e.1 (f e.1 (smGet d m e.1))) m

end Sys2Proof.Machine
end

