-- ==== Sys2Proof/Syntax.lean ====
section
/-! DEFINITION. The steps of the machine: one constructor per row of the table of operations and events.
An encoded instruction carries its fields by the names of the encoding tables (R297, R299), low bits first; an event
carries the unit it happens at and what arrives there; an argument with a default is one that most events of the kind do not need. -/

namespace Sys2Proof

inductive Instr where
  /-- R17. PORSTN_ASSERT -/
  | porstnAssert (cycled : Bool := false)
  /-- R11. RAIL_FAULT -/
  | railFault
  /-- R18. BOOT -/
  | boot
  /-- R425. BURSAR_START -/
  | bursarStart (die : Nat)
  /-- R41. BURSAR_INIT -/
  | bursarInit (die : Nat)
  /-- R106. PARTITION_RESET -/
  | partitionReset (p : Nat)
  /-- R405. MPRST_REQ -/
  | mprstReq (p : Nat)
  /-- R128. PRESET -/
  | preset (die : Nat) (value : Word)
  /-- R128. I3C_PRIVATE_WRITE -/
  | i3cPrivateWrite (die : Nat) (index : Byte) (value : Option Word) (addr : BitVec 7 := BitVec.ofNat 7 (0x30 + die))
  /-- R128. I3C_DYNAMIC_ADDRESS -/
  | i3cDynamicAddress (die : Nat) (addr : BitVec 7)
  /-- R16. DIE_THERMAL_TRIP -/
  | dieThermalTrip (die : Nat)
  /-- R122. THERMAL_SAMPLE -/
  | thermalSample (die : Nat) (temps : List (BitVec 16))
  /-- R122. TALSTAT_CLEAR -/
  | talstatClear (die : Nat) (value : Word)
  /-- R13. PWRALERTN_EDGE -/
  | pwralertnEdge (level : Bool) (cause : BitVec 3 := 0)
  /-- R123. CLTHR_WRITE -/
  | clthrWrite (cluster : Nat) (bursar csr : Option Word)
  /-- R123. THROTTLE_APPLY -/
  | throttleApply (cluster : Nat)
  /-- R124. STACK_TEMP_UPDATE -/
  | stackTempUpdate (die i : Nat) (temp : Byte)
  /-- R147. CLRST -/
  | clrst (cluster : Nat)
  /-- R147. CLUSTER_RESET_DONE -/
  | clusterResetDone (cluster : Nat)
  /-- R24. MC_REQUEST -/
  | mcRequest (ctl : Nat)
  /-- R34. REFRESH_WINDOW_END -/
  | refreshWindowEnd (ctl : Nat)
  /-- R35. RELEASE -/
  | release (slice stack : Nat)
  /-- R36. DECLINE -/
  | decline (ctl line : Nat) (parity : Bool)
  /-- R42. PATROL_SCRUB -/
  | patrolScrub (ctl line : Nat)
  /-- R25. LEND_START -/
  | lendStart (ctl pair : Nat)
  /-- R26. LEND_ACK -/
  | lendAck (ctl pair : Nat)
  /-- R26. LEND_ABORT -/
  | lendAbort (ctl pair : Nat)
  /-- R26. LEND_DRAIN_DONE -/
  | lendDrainDone (ctl pair : Nat)
  /-- R26. LEND_QUIESCE_DONE -/
  | lendQuiesceDone (ctl pair : Nat)
  /-- R26. LEND_RETRAIN_DONE -/
  | lendRetrainDone (ctl pair : Nat) (good : Bool)
  /-- R27. LEND_RECLAIM_START -/
  | lendReclaimStart (ctl pair : Nat)
  /-- R26. LEND_RECLAIM_DONE -/
  | lendReclaimDone (ctl pair : Nat) (good : Bool)
  /-- R30. MCMAP_RETIRE -/
  | mcmapRetire (ctl : Nat)
  /-- R30. MCMAP_FENCE -/
  | mcmapFence (ctl : Nat)
  /-- R31. COPY_GRANULE -/
  | copyGranule (ctl : Nat)
  /-- R30. MAP_DRAIN_START -/
  | mapDrainStart (ctl : Nat)
  /-- R30. MAP_ACTIVATE -/
  | mapActivate (ctl : Nat)
  /-- R32. MAP_RECEIVE -/
  | mapReceive (slice stack : Nat)
  /-- R32. REMAP -/
  | remap (slice stack : Nat) (gen : BitVec 4) (req : McReq)
  /-- R57. FLIT_TRANSMIT -/
  | flitTransmit (router port : Nat)
  /-- R63. LINK_FLIT_RECEIVE -/
  | linkFlitReceive (router port : Nat) (flit : Flit)
  /-- R63. LINK_ACK -/
  | linkAck (router port : Nat) (seq : BitVec 16) (nak : Bool) (stop : BitVec 4 := 0)
  /-- R63. ACK_SEND -/
  | ackSend (router port : Nat)
  /-- R49. PACKET_ROUTE -/
  | packetRoute (router port : Nat)
  /-- R64. LINK_TRAINING_START -/
  | linkTrainingStart (router port : Nat)
  /-- R64. LINK_TRAINING_END -/
  | linkTrainingEnd (router port : Nat) (good : Bool) (half : Bool := false)
  /-- R65. LINK_LOST -/
  | linkLost (router port : Nat)
  /-- R64. LNKSTAT_RESTART -/
  | lnkstatRestart (die trizen : Nat)
  /-- R66. REPLY_TIMEOUT -/
  | replyTimeout (origin : Nat) (tag : BitVec 16)
  /-- R66. LOST_HANDLING -/
  | lostHandling (origin : Nat) (tag : BitVec 16) (code : BitVec 5)
  /-- R68. STREAM_FLUSH -/
  | streamFlush (core port : Nat)
  /-- R69. STREAM_IDLE_EXPIRE -/
  | streamIdleExpire (core port : Nat)
  /-- R68. STREAM_FORCED_CLOSE -/
  | streamForcedClose (core port : Nat)
  /-- R354. STREAM_DATA_ARRIVE -/
  | streamDataArrive (core input sender : Nat) (words : List Word) (fin : Option (BitVec 2)) (suspend : Bool)
  /-- R70. SLICE_RD -/
  | sliceRd (slice : Nat) (pkt : Packet)
  /-- R70. SLICE_WR -/
  | sliceWr (slice : Nat) (pkt : Packet)
  /-- R71. SLICE_TEL -/
  | sliceTel (slice : Nat) (pkt : Packet)
  /-- R72. SLICE_FE -/
  | sliceFe (slice : Nat) (pkt : Packet)
  /-- R72. SLICE_WAITER_RETRY -/
  | sliceWaiterRetry (slice word : Nat)
  /-- R70. SLICE_FILL -/
  | sliceFill (slice line : Nat) (data : BitVec 512) (full : BitVec 16) (capture parity : Bool)
  /-- R73. SLICE_FLUSH -/
  | sliceFlush (slice stack : Nat) (invalidate : Bool) (chan : Option Nat := none)
  /-- R75. SLICE_QPUT -/
  | sliceQput (slice : Nat) (pkt : Packet)
  /-- R75. SLICE_QTAKE -/
  | sliceQtake (slice : Nat) (pkt : Packet)
  /-- R72. REQUEST_RESEND -/
  | requestResend (origin : Nat) (tag : BitVec 16)
  /-- R82. HOST_ACTIVATE -/
  | hostActivate (die ch bank row : Nat)
  /-- R82. HOST_PRECHARGE -/
  | hostPrecharge (die ch bank : Nat)
  /-- R82. HOST_REFRESH -/
  | hostRefresh (die : Nat) (cmd : HostCmd := .refresh)
  /-- R85. HOST_READ -/
  | hostRead (die ch bank col len : Nat)
  /-- R85. HOST_WRITE -/
  | hostWrite (die ch bank col : Nat) (bytes : List (Option Byte))
  /-- R87. INBOUND_WRITE -/
  | inboundWrite (die ap off : Nat) (bytes : List (Option Byte))
  /-- R87. INBOUND_FORWARD -/
  | inboundForward (die : Nat)
  /-- R87. INBOUND_ACK -/
  | inboundAck (die : Nat) (err : Option (BitVec 5))
  /-- R88. NOTIFICATION -/
  | notification (die ap q : Nat) (value : Word)
  /-- R89. NOTIFY_FORWARD -/
  | notifyForward (die : Nat)
  /-- R90. COMPLETION_RECORD_WRITE -/
  | completionRecordWrite (die ap q : Nat)
  /-- R94. OUTBOUND_WRITE -/
  | outboundWrite (die ap off : Nat) (bytes : List Byte)
  /-- R110. MBDOOR -/
  | mbdoor (die : Nat)
  /-- R110. MBSET -/
  | mbset (die : Nat)
  /-- R119. ATTCMD -/
  | attcmd (die : Nat)
  /-- R119. ATTEST_REPORT -/
  | attestReport (die : Nat)
  /-- R97. ETH_FRAME_RECEIVE -/
  | ethFrameReceive (die : Nat) (frame : List Byte) (fcs : Bool)
  /-- R98. ETH_SEGMENT_REFUSED -/
  | ethSegmentRefused (die slice q : Nat)
  /-- R99. ETH_PAUSE -/
  | ethPause (die : Nat)
  /-- R95. ETH_PAUSE_RECEIVE -/
  | ethPauseReceive (die : Nat) (pfc : Option Byte) (pause : Bool)
  /-- R100. ETH_TX_QUEUE_WRITE -/
  | ethTxQueueWrite (die q : Nat) (bytes : List Byte)
  /-- R100. ETH_TRANSMIT -/
  | ethTransmit (die : Nat)
  /-- R108. VIBIND_WRITE -/
  | vibindWrite (die v word : Nat) (value : Word) (src : Nat := 0)
  /-- R129. I3C_GO -/
  | i3cGo (die : Nat)
  /-- R129. I3C_ROLE_GRANT -/
  | i3cRoleGrant (die : Nat)
  /-- R129. I3C_ROLE_TIMEOUT -/
  | i3cRoleTimeout (die : Nat)
  /-- R129. I3C_TRANSFER_DONE -/
  | i3cTransferDone (die : Nat) (nack err : Bool) (data : List Byte) (cool : Word := 0)
  /-- R129. I3C_REL -/
  | i3cRel (die : Nat)
  /-- R125. ELPOST -/
  | elpost (die : Nat) (value : Word)
  /-- R125. ELCTL_WRITE -/
  | elctlWrite (die : Nat) (value : Word)
  /-- R5. REGISTER_WRITE -/
  | registerWrite (pa : Nat) (value : Word) (src : Nat := 0)
  /-- R133. LAUNCH_DISPATCH -/
  | launchDispatch (p : Nat)
  /-- R136. LAUNCH_SETUP -/
  | launchSetup (cluster : Nat)
  /-- R147. BURSAR_LAUNCH -/
  | bursarLaunch (cluster : Nat)
  /-- R141. CLUSTER_DRAINED -/
  | clusterDrained (cluster : Nat)
  /-- R141. DRAINED -/
  | drained (root cluster epoch : Nat)
  /-- R141. CONFIRM -/
  | confirm (cluster : Nat)
  /-- R141. CONFIRM_ANSWER -/
  | confirmAnswer (root : Nat)
  /-- R142. CLOSE -/
  | close (cluster : Nat)
  /-- R142. CORE_DONE -/
  | coreDone (core : Nat)
  /-- R142. DONE_MESSAGE -/
  | doneMessage (core : Nat)
  /-- R175. STALL_ALL -/
  | stallAll (root : Nat)
  /-- R143. PREEMPT -/
  | preempt (cluster : Nat)
  /-- R143. PREEMPT_SAVE -/
  | preemptSave (cluster : Nat)
  /-- R146. RESTORE -/
  | restore (cluster : Nat)
  /-- R147. CANCEL -/
  | cancel (cluster : Nat)
  /-- R147. LOWNER_WRITE -/
  | lownerWrite (cluster : Nat) (value : Word)
  /-- R148. IDLE_SLOT_WORK_SEARCH -/
  | idleSlotWorkSearch (slot : Nat)
  /-- R158. READY_QUEUE_TAKE -/
  | readyQueueTake (cluster : Nat) (slots : List Nat)
  /-- R155. STEAL_REQUEST -/
  | stealRequest (victim thief : Nat)
  /-- R155. STEAL_TIMEOUT -/
  | stealTimeout (victim : Nat)
  /-- R155. STEAL_REPLY -/
  | stealReply (thief : Nat)
  /-- R156. REMOTE_SPAWN -/
  | remoteSpawn (core : Nat) (pc : Word) (args : List Word) (req : Packet)
  /-- R359. TASK_RELEASE_REQUEST -/
  | taskReleaseRequest (cluster tcb : Nat)
  /-- R163. MESSAGE_ARRIVE -/
  | messageArrive (core : Nat) (msg : Message)
  /-- R167. HANDLER_START -/
  | handlerStart (slot : Nat)
  /-- R186. REPLY_ARRIVAL -/
  | replyArrival (slot id : Nat) (pkt : Option Packet := none)
  /-- R164. MRECV_TIMEOUT -/
  | mrecvTimeout (slot : Nat)
  /-- R171. BARRIER_ARRIVAL -/
  | barrierArrival (cluster : Nat) (b : BitVec 5) (member : Nat) (value : Word) (record : Option Word)
  /-- R190. DEADLINE_EXPIRY -/
  | deadlineExpiry (cluster timer : Nat)
  /-- R216. WITHDRAWAL -/
  | withdrawal (slot : Nat)
  /-- R192. DEADLINE_TRAP -/
  | deadlineTrap
  /-- R194. DEFERRED_MEMERR -/
  | deferredMemerr
  /-- R392. STEP_BREAK -/
  | stepBreak
  /-- R197. FBTAIL_WRITE -/
  | fbtailWrite (cluster : Nat) (value : Word)
  /-- R198. FBWAKE_RETRY -/
  | fbwakeRetry (cluster slot : Nat)
  /-- R198. FBWAKE_KILL -/
  | fbwakeKill (cluster slot : Nat) (cause : Byte)
  /-- R199. CORE_HALT -/
  | coreHalt (core : Nat)
  /-- R199. CORE_RESUME -/
  | coreResume (core : Nat)
  /-- R200. CORE_STEP -/
  | coreStep (core : Nat)
  /-- R184. ICACHE_FILL -/
  | icacheFill (slot va : Nat)
  /-- R239. TLB2_LOOKUP -/
  | tlb2Lookup (slot va : Nat) (acc : Access)
  /-- R239. WALK -/
  | walk (cluster : Nat)
  /-- R209. BANK_GRANT -/
  | bankGrant (bank : Nat)
  /-- R216. WAITLIST_RETRY -/
  | waitlistRetry (word : Nat)
  /-- R216. FE_RESEND -/
  | feResend (slot : Nat)
  /-- R207. LINE_PORT_ACCESS -/
  | linePortAccess (bank : Nat)
  /-- R218. VAULT_CORRECT_REWRITE -/
  | vaultCorrectRewrite (word : Nat)
  /-- R217. REMOTE_VAULT_ACCESS -/
  | remoteVaultAccess (cluster : Nat) (pkt : Packet)
  /-- R279. RING_STEP -/
  | ringStep (quadrant : Nat)
  /-- R279. RING_STEP_COMPLETE -/
  | ringStepComplete (quadrant : Nat)
  /-- R380. COPY_ACCEPT -/
  | copyAccept (group : Nat)
  /-- R382. COPY_COMPLETE -/
  | copyComplete (group id : Nat)
  /-- R393. WAIT_EXPIRE -/
  | waitExpire (slot : Nat)
  /-- R272. MATRIX_COMMAND_TAKEN -/
  | matrixCommandTaken (group : Nat)
  /-- R273. MATRIX_RETIRE -/
  | matrixRetire (group : Nat)
  /-- R240. TLB_INVALIDATION -/
  | tlbInvalidation (cluster slot : Nat)
  /-- R100. ETH_LINK_DOWN -/
  | ethLinkDown (die : Nat)
  /-- R100. ETH_LINK_UP -/
  | ethLinkUp (die : Nat)
  /-- R6. ILLEGAL_ENCODING -/
  | illegalEncoding
  /-- R296. FETCH_FAILURE -/
  | fetchFailure
  /-- R321. ADD -/
  | add (d a b : Reg)
  /-- R321. SUB -/
  | sub (d a b : Reg)
  /-- R321. ADDS -/
  | adds (d a b : Reg)
  /-- R321. SUBS -/
  | subs (d a b : Reg)
  /-- R321. AND -/
  | and (d a b : Reg)
  /-- R321. OR -/
  | or (d a b : Reg)
  /-- R321. XOR -/
  | xor (d a b : Reg)
  /-- R321. ANDN -/
  | andn (d a b : Reg)
  /-- R321. SLL -/
  | sll (d a b : Reg)
  /-- R321. SRL -/
  | srl (d a b : Reg)
  /-- R321. SRA -/
  | sra (d a b : Reg)
  /-- R321. ROR -/
  | ror (d a b : Reg)
  /-- R321. SLT -/
  | slt (d a b : Reg)
  /-- R321. SLTN -/
  | sltn (d a b : Reg)
  /-- R321. MIN -/
  | min (d a b : Reg)
  /-- R321. MAX -/
  | max (d a b : Reg)
  /-- R321. MINN -/
  | minn (d a b : Reg)
  /-- R321. MAXN -/
  | maxn (d a b : Reg)
  /-- R321. BEXT -/
  | bext (d a b : Reg)
  /-- R321. BEXTS -/
  | bexts (d a b : Reg)
  /-- R321. LZC -/
  | lzc (d a : Reg)
  /-- R321. TZC -/
  | tzc (d a : Reg)
  /-- R321. ONES -/
  | ones (d a : Reg)
  /-- R321. BSWAP -/
  | bswap (d a : Reg)
  /-- R321. BREV -/
  | brev (d a : Reg)
  /-- R321. EXTB -/
  | extb (d a : Reg)
  /-- R321. EXTH -/
  | exth (d a : Reg)
  /-- R322. ADDI -/
  | addi (d a : Reg) (i : BitVec 15)
  /-- R322. ANDI -/
  | andi (d a : Reg) (i : BitVec 15)
  /-- R322. ORI -/
  | ori (d a : Reg) (i : BitVec 15)
  /-- R322. XORI -/
  | xori (d a : Reg) (i : BitVec 15)
  /-- R323. SLLI -/
  | slli (d a : Reg) (n : BitVec 5)
  /-- R323. SRLI -/
  | srli (d a : Reg) (n : BitVec 5)
  /-- R323. SRAI -/
  | srai (d a : Reg) (n : BitVec 5)
  /-- R323. RORI -/
  | rori (d a : Reg) (n : BitVec 5)
  /-- R322. SLTI -/
  | slti (d a : Reg) (i : BitVec 15)
  /-- R322. SLTNI -/
  | sltni (d a : Reg) (i : BitVec 15)
  /-- R324. LUI -/
  | lui (d : Reg) (i : BitVec 20)
  /-- R324. PCREL -/
  | pcrel (d : Reg) (i : BitVec 20)
  /-- R325. MUL -/
  | mul (d a b : Reg)
  /-- R325. MULQ -/
  | mulq (d a b : Reg)
  /-- R325. MULH -/
  | mulh (d a b : Reg)
  /-- R325. MULHN -/
  | mulhn (d a b : Reg)
  /-- R325. MULHSN -/
  | mulhsn (d a b : Reg)
  /-- R325. DIV -/
  | div (d a b : Reg)
  /-- R325. DIVN -/
  | divn (d a b : Reg)
  /-- R325. REM -/
  | rem (d a b : Reg)
  /-- R325. REMN -/
  | remn (d a b : Reg)
  /-- R327. PADD -/
  | padd (d a b : Reg) (z : PackSize)
  /-- R327. PSUB -/
  | psub (d a b : Reg) (z : PackSize)
  /-- R327. PADDS -/
  | padds (d a b : Reg) (z : PackSize)
  /-- R327. PSUBS -/
  | psubs (d a b : Reg) (z : PackSize)
  /-- R327. PADDSN -/
  | paddsn (d a b : Reg) (z : PackSize)
  /-- R327. PSUBSN -/
  | psubsn (d a b : Reg) (z : PackSize)
  /-- R327. PMIN -/
  | pmin (d a b : Reg) (z : PackSize)
  /-- R327. PMAX -/
  | pmax (d a b : Reg) (z : PackSize)
  /-- R327. PMINN -/
  | pminn (d a b : Reg) (z : PackSize)
  /-- R327. PMAXN -/
  | pmaxn (d a b : Reg) (z : PackSize)
  /-- R327. PAVG -/
  | pavg (d a b : Reg) (z : PackSize)
  /-- R327. PMUL -/
  | pmul (d a b : Reg) (z : PackSize)
  /-- R327. PMULQ -/
  | pmulq (d a b : Reg) (z : PackSize)
  /-- R327. PSLL -/
  | psll (d a b : Reg) (z : PackSize)
  /-- R327. PSRL -/
  | psrl (d a b : Reg) (z : PackSize)
  /-- R327. PSRA -/
  | psra (d a b : Reg) (z : PackSize)
  /-- R327. PDOT -/
  | pdot (d a b : Reg) (z : PackSize)
  /-- R327. PPKL -/
  | ppkl (d a b : Reg) (z : PackSize)
  /-- R327. PPKH -/
  | ppkh (d a b : Reg) (z : PackSize)
  /-- R328. CADD -/
  | cadd (d a b : Reg)
  /-- R328. CSUB -/
  | csub (d a b : Reg)
  /-- R328. CMUL -/
  | cmul (d a b : Reg)
  /-- R328. CMULC -/
  | cmulc (d a b : Reg)
  /-- R328. CCONJ -/
  | cconj (d a : Reg)
  /-- R328. CMULJ -/
  | cmulj (d a : Reg)
  /-- R328. CMAG2 -/
  | cmag2 (d a : Reg)
  /-- R328. CSHR -/
  | cshr (d a b : Reg)
  /-- R329. PDOTA_H -/
  | pdotaH (d a b c : Reg)
  /-- R329. PDOTA_B -/
  | pdotaB (d a b c : Reg)
  /-- R329. PDOTAS_H -/
  | pdotasH (d a b c : Reg)
  /-- R329. PDOTAS_B -/
  | pdotasB (d a b c : Reg)
  /-- R329. CMAC -/
  | cmac (d a b c : Reg)
  /-- R329. CMACC -/
  | cmacc (d a b c : Reg)
  /-- R332. FADD -/
  | fadd (d a b : Reg) (p : Bool)
  /-- R332. FSUB -/
  | fsub (d a b : Reg) (p : Bool)
  /-- R332. FMUL -/
  | fmul (d a b : Reg) (p : Bool)
  /-- R332. FDIV -/
  | fdiv (d a b : Reg) (p : Bool)
  /-- R332. FSQRT -/
  | fsqrt (d a : Reg) (p : Bool)
  /-- R332. FMIN -/
  | fmin (d a b : Reg) (p : Bool)
  /-- R332. FABS -/
  | fabs (d a : Reg) (p : Bool)
  /-- R332. FNEG -/
  | fneg (d a : Reg) (p : Bool)
  /-- R332. FCPYS -/
  | fcpys (d a b : Reg) (p : Bool)
  /-- R332. FXORS -/
  | fxors (d a b : Reg) (p : Bool)
  /-- R332. FCMPEQ -/
  | fcmpeq (d a b : Reg) (p : Bool)
  /-- R332. FCMPLT -/
  | fcmplt (d a b : Reg) (p : Bool)
  /-- R332. FCMPLE -/
  | fcmple (d a b : Reg) (p : Bool)
  /-- R332. FCLASS -/
  | fclass (d a : Reg) (p : Bool)
  /-- R332. FMAX -/
  | fmax (d a b : Reg) (p : Bool)
  /-- R333. FMADD -/
  | fmadd (d a b c : Reg) (p : Bool)
  /-- R333. FMSUB -/
  | fmsub (d a b c : Reg) (p : Bool)
  /-- R333. FNMSUB -/
  | fnmsub (d a b c : Reg) (p : Bool)
  /-- R333. FNMADD -/
  | fnmadd (d a b c : Reg) (p : Bool)
  /-- R334. FCVT_W_F -/
  | fcvtWF (d a : Reg)
  /-- R334. FCVT_WN_F -/
  | fcvtWnF (d a : Reg)
  /-- R334. FCVT_F_W -/
  | fcvtFW (d a : Reg)
  /-- R334. FCVT_F_WN -/
  | fcvtFWn (d a : Reg)
  /-- R334. FCVT_H2_F -/
  | fcvtH2F (d a b : Reg)
  /-- R334. FCVT_F_HL -/
  | fcvtFHl (d a : Reg)
  /-- R334. FCVT_F_HH -/
  | fcvtFHh (d a : Reg)
  /-- R334. FCVT_H2_H2 -/
  | fcvtH2H2 (d a : Reg)
  /-- R340. LB -/
  | lb (t a : Reg) (s : BitVec 3) (i : BitVec 9)
  /-- R340. LBN -/
  | lbn (t a : Reg) (s : BitVec 3) (i : BitVec 9)
  /-- R340. LH -/
  | lh (t a : Reg) (s : BitVec 3) (i : BitVec 9)
  /-- R340. LHN -/
  | lhn (t a : Reg) (s : BitVec 3) (i : BitVec 9)
  /-- R341. LW -/
  | lw (t a : Reg) (s : BitVec 3) (i : BitVec 9)
  /-- R340. LD -/
  | ld (t a : Reg) (s : BitVec 3) (i : BitVec 9)
  /-- R340. LQ -/
  | lq (t a : Reg) (s : BitVec 3) (i : BitVec 9)
  /-- R340. SB -/
  | sb (t a : Reg) (s : BitVec 3) (i : BitVec 9)
  /-- R340. SH -/
  | sh (t a : Reg) (s : BitVec 3) (i : BitVec 9)
  /-- R340. SW -/
  | sw (t a : Reg) (s : BitVec 3) (i : BitVec 9)
  /-- R340. SD -/
  | sd (t a : Reg) (s : BitVec 3) (i : BitVec 9)
  /-- R340. SQ -/
  | sq (t a : Reg) (s : BitVec 3) (i : BitVec 9)
  /-- R343. LWF -/
  | lwf (t a : Reg) (s : BitVec 3) (i : BitVec 9)
  /-- R343. LWT -/
  | lwt (t a : Reg) (s : BitVec 3) (i : BitVec 9)
  /-- R343. SWP -/
  | swp (t a : Reg) (s : BitVec 3) (i : BitVec 9)
  /-- R343. SWF -/
  | swf (t a : Reg) (s : BitVec 3) (i : BitVec 9)
  /-- R343. FERD -/
  | ferd (t a : Reg) (s : BitVec 3) (i : BitVec 9)
  /-- R343. FESET -/
  | feset (t a : Reg) (s : BitVec 3) (i : BitVec 9)
  /-- R344. TADD -/
  | tadd (d a b : Reg) (s : BitVec 3)
  /-- R344. TAND -/
  | tand (d a b : Reg) (s : BitVec 3)
  /-- R344. TOR -/
  | tor (d a b : Reg) (s : BitVec 3)
  /-- R344. TXOR -/
  | txor (d a b : Reg) (s : BitVec 3)
  /-- R344. TMIN -/
  | tmin (d a b : Reg) (s : BitVec 3)
  /-- R344. TMAX -/
  | tmax (d a b : Reg) (s : BitVec 3)
  /-- R344. TMINN -/
  | tminn (d a b : Reg) (s : BitVec 3)
  /-- R344. TMAXN -/
  | tmaxn (d a b : Reg) (s : BitVec 3)
  /-- R344. TSWAP -/
  | tswap (d a b : Reg) (s : BitVec 3)
  /-- R344. TCAS -/
  | tcas (d a b : Reg) (s : BitVec 3)
  /-- R344. TFADD -/
  | tfadd (d a b : Reg) (s : BitVec 3)
  /-- R344. TWINC -/
  | twinc (d a b : Reg) (s : BitVec 3)
  /-- R345. FENCE_V -/
  | fenceV
  /-- R345. FENCE_G -/
  | fenceG
  /-- R345. FENCE_A -/
  | fenceA
  /-- R345. IFENCE -/
  | ifence
  /-- R335. BEQ -/
  | beq (a b : Reg) (o : BitVec 12)
  /-- R335. BNE -/
  | bne (a b : Reg) (o : BitVec 12)
  /-- R335. BLT -/
  | blt (a b : Reg) (o : BitVec 12)
  /-- R335. BGE -/
  | bge (a b : Reg) (o : BitVec 12)
  /-- R335. BLTN -/
  | bltn (a b : Reg) (o : BitVec 12)
  /-- R335. BGEN -/
  | bgen (a b : Reg) (o : BitVec 12)
  /-- R335. BBS -/
  | bbs (a : Reg) (n : BitVec 5) (o : BitVec 12)
  /-- R335. BBC -/
  | bbc (a : Reg) (n : BitVec 5) (o : BitVec 12)
  /-- R336. JAL -/
  | jal (d : Reg) (o : BitVec 20)
  /-- R336. JALR -/
  | jalr (d a : Reg) (i : BitVec 15)
  /-- R347. BARA -/
  | bara (d : Reg) (n : BitVec 5)
  /-- R172. BARW -/
  | barw (d a : Reg) (n : BitVec 5)
  /-- R347. BARSUM -/
  | barsum (d a : Reg) (n : BitVec 5)
  /-- R173. BARSTMT -/
  | barstmt (d a : Reg) (n : BitVec 5)
  /-- R347. BARCFG -/
  | barcfg (a : Reg) (n : BitVec 5)
  /-- R349. MSEND -/
  | msend (d a b : Reg) (c : BitVec 3)
  /-- R349. MCALL -/
  | mcall (d a b : Reg) (c : BitVec 3)
  /-- R350. MRECV -/
  | mrecv (d a b : Reg) (c : BitVec 3)
  /-- R350. MRECVT -/
  | mrecvt (d a b : Reg) (c : BitVec 3)
  /-- R350. MPOLL -/
  | mpoll (d a b : Reg) (c : BitVec 3)
  /-- R351. MREPLY -/
  | mreply (d : Reg) (c : BitVec 3)
  /-- R353. QPUT -/
  | qput (d a : Reg) (c : BitVec 3)
  /-- R353. QPUTT -/
  | qputt (d a b : Reg) (c : BitVec 3)
  /-- R353. QTAKE -/
  | qtake (d a b : Reg) (s c : BitVec 3)
  /-- R353. QTAKET -/
  | qtaket (d a b : Reg) (c : BitVec 3)
  /-- R354. SOPEN -/
  | sopen (a : Reg) (p : BitVec 2)
  /-- R354. SPUT -/
  | sput (a : Reg) (p : BitVec 2)
  /-- R354. SCLOSE -/
  | sclose (p : BitVec 2)
  /-- R354. SGET -/
  | sget (d b : Reg) (i : BitVec 2)
  /-- R151. SPAWN -/
  | spawn (a b : Reg) (s : BitVec 3)
  /-- R152. SPRET -/
  | spret (a : Reg) (s : BitVec 3)
  /-- R154. JOIN -/
  | join (a : Reg) (s : BitVec 3)
  /-- R358. RSPAWN -/
  | rspawn (d a b : Reg)
  /-- R359. TSUBMIT -/
  | tsubmit (a : Reg)
  /-- R360. TDONE -/
  | tdone
  /-- R361. WID -/
  | wid (d : Reg) (k : BitVec 3)
  /-- R361. COREID -/
  | coreid (d : Reg)
  /-- R363. DLARM -/
  | dlarm (d a : Reg)
  /-- R363. DLARMM -/
  | dlarmm (d a : Reg) (y : BitVec 8)
  /-- R363. DLDIS -/
  | dldis (d : Reg)
  /-- R369. MZERO -/
  | mzero (t : Tile)
  /-- R370. MLDB -/
  | mldb (a : Reg) (s : BitVec 3)
  /-- R371. MLDS_A -/
  | mldsA (a : Reg) (s : BitVec 3)
  /-- R371. MLDS_B -/
  | mldsB (a : Reg) (s : BitVec 3)
  /-- R372. MWRA -/
  | mwra (t : Tile) (a : Reg) (s : BitVec 3)
  /-- R369. MRING -/
  | mring
  /-- R369. MMOVT -/
  | mmovt (t u : Tile)
  /-- R369. MRSN -/
  | mrsn (a : Reg)
  /-- R373. MMA -/
  | mma (t : Tile) (a : Reg) (s : BitVec 3)
  /-- R373. MMAS -/
  | mmas (t : Tile) (a : Reg) (s : BitVec 3)
  /-- R373. MMAZ -/
  | mmaz (t : Tile) (a : Reg) (s : BitVec 3)
  /-- R374. MEPI_ADD -/
  | mepiAdd (t u b : Tile)
  /-- R374. MEPI_MUL -/
  | mepiMul (t u b : Tile)
  /-- R374. MEPI_MAX -/
  | mepiMax (t u b : Tile)
  /-- R374. MEPI_SCALE -/
  | mepiScale (t u : Tile) (a : Reg)
  /-- R374. MEPI_BIAS_ROW -/
  | mepiBiasRow (t u : Tile) (a : Reg)
  /-- R374. MEPI_BIAS_COL -/
  | mepiBiasCol (t u : Tile) (a : Reg)
  /-- R374. MEPI_EXP2 -/
  | mepiExp2 (t u : Tile)
  /-- R374. MEPI_SIGMOID -/
  | mepiSigmoid (t u : Tile)
  /-- R374. MEPI_SILU -/
  | mepiSilu (t u : Tile)
  /-- R374. MEPI_TANH -/
  | mepiTanh (t u : Tile)
  /-- R374. MEPI_RECIP -/
  | mepiRecip (t u : Tile)
  /-- R374. MEPI_RSQRT -/
  | mepiRsqrt (t u : Tile)
  /-- R375. MSTT -/
  | mstt (u : Tile) (a : Reg) (s : BitVec 3)
  /-- R375. MSTT_F -/
  | msttF (u : Tile) (a : Reg) (s : BitVec 3)
  /-- R376. MTRAN -/
  | mtran (t u : Tile)
  /-- R376. MRED_ROWMAX -/
  | mredRowmax (u : Tile) (a : Reg) (n : Bool)
  /-- R376. MRED_ROWSUM -/
  | mredRowsum (u : Tile) (a : Reg) (n : Bool)
  /-- R376. MRED_COLMAX -/
  | mredColmax (u : Tile) (a : Reg) (n : Bool)
  /-- R376. MRED_COLSUM -/
  | mredColsum (u : Tile) (a : Reg) (n : Bool)
  /-- R287. MPOTRF -/
  | mpotrf (t : Tile) (a : Reg)
  /-- R288. MGETRF -/
  | mgetrf (t : Tile) (a : Reg)
  /-- R289. MTRSM -/
  | mtrsm (t v : Tile) (a : Reg) (o : BitVec 2) (r q p : Bool)
  /-- R290. MDELTA -/
  | mdelta (a : Reg)
  /-- R291. MSHIFT_DUP -/
  | mshiftDup (a : Reg)
  /-- R291. MSHIFT_ZERO -/
  | mshiftZero (a : Reg)
  /-- R381. BCOPY -/
  | bcopy (d a b : Reg) (s e : BitVec 3) (k : Bool)
  /-- R381. BCOPY2 -/
  | bcopy2 (d a b : Reg) (s e : BitVec 3) (k : Bool)
  /-- R381. BFILL -/
  | bfill (d a b : Reg) (e : BitVec 3) (k : Bool)
  /-- R381. BGATH -/
  | bgath (d a b : Reg) (s e : BitVec 3) (k : Bool)
  /-- R381. BSCAT -/
  | bscat (d a b : Reg) (s e : BitVec 3) (k : Bool)
  /-- R383. BCANCEL -/
  | bcancel (d b : Reg)
  /-- R383. BSTAT -/
  | bstat (d : Reg)
  /-- R386. MQNT -/
  | mqnt (u : Tile) (a : Reg) (s : BitVec 3)
  /-- R386. MDQNT -/
  | mdqnt (t : Tile) (a : Reg) (s : BitVec 3)
  /-- R387. CVTBLK -/
  | cvtblk (d a b : Reg) (s e : BitVec 3)
  /-- R387. CVTUNB -/
  | cvtunb (d a b : Reg) (s e : BitVec 3)
  /-- R387. CVTV -/
  | cvtv (d a : Reg) (s e : BitVec 3)
  /-- R390. SYSCALL -/
  | syscall
  /-- R390. BREAK -/
  | brk
  /-- R391. ERET -/
  | eret
  /-- R392. DRET -/
  | dret
  /-- R393. WAIT -/
  | wait (d a : Reg)
  /-- R394. YIELD -/
  | yield
  /-- R395. HALT -/
  | halt
  /-- R396. SEGLD -/
  | segld (n : BitVec 3) (a : Reg)
  /-- R396. SEGRD -/
  | segrd (d : Reg) (n : BitVec 3)
  /-- R397. TLBINV -/
  | tlbinv (a b : Reg)
  /-- R396. SEGNULL -/
  | segnull (n : BitVec 3)
  /-- R398. MINTLD -/
  | mintld (a : Reg) (n : BitVec 3)
  /-- R398. MINTSV -/
  | mintsv (a : Reg) (n : BitVec 3)
  /-- R399. CSRR -/
  | csrr (d : Reg) (c : BitVec 12)
  /-- R399. CSRW -/
  | csrw (a : Reg) (c : BitVec 12)
  /-- R399. CSRX -/
  | csrx (d a : Reg) (c : BitVec 12)
  /-- R399. CSRM -/
  | csrm (v m : Reg) (c : BitVec 12)
  /-- R301. C_ADDI -/
  | cAddi (d : BitVec 3) (i : BitVec 8)
  /-- R301. C_LI -/
  | cLi (d : BitVec 3) (i : BitVec 8)
  /-- R301. C_MV -/
  | cMv (d : BitVec 3) (s : Reg)
  /-- R302. C_ADD -/
  | cAdd (d a : BitVec 3)
  /-- R302. C_SUB -/
  | cSub (d a : BitVec 3)
  /-- R302. C_AND -/
  | cAnd (d a : BitVec 3)
  /-- R302. C_OR -/
  | cOr (d a : BitVec 3)
  /-- R302. C_XOR -/
  | cXor (d a : BitVec 3)
  /-- R302. C_SLL -/
  | cSll (d a : BitVec 3)
  /-- R302. C_SRL -/
  | cSrl (d a : BitVec 3)
  /-- R302. C_SRA -/
  | cSra (d a : BitVec 3)
  /-- R301. C_LW -/
  | cLw (d a : BitVec 3) (f : Reg)
  /-- R301. C_SW -/
  | cSw (d a : BitVec 3) (f : Reg)
  /-- R301. C_BEQZ -/
  | cBeqz (a : BitVec 3) (o : BitVec 8)
  /-- R301. C_BNEZ -/
  | cBnez (a : BitVec 3) (o : BitVec 8)
  /-- R301. C_J -/
  | cJ (o : BitVec 11)
  /-- R302. C_NOP -/
  | cNop
  /-- R302. C_YIELD -/
  | cYield
  /-- R303. MOVX_TO_X -/
  | movxToX (n : BitVec 2) (g : Reg)
  /-- R303. MOVX_TO_G -/
  | movxToG (n : BitVec 2) (g : Reg)
  /-- R303. LOX -/
  | lox (n : BitVec 2) (b : BitVec 8)
  /-- R304. FMT -/
  | fmt (r : BitVec 3) (a b : BitVec 4)
  /-- R304. REL -/
  | rel
  /-- R304. CLASS -/
  | cls (c : BitVec 2)
  deriving DecidableEq, Repr

end Sys2Proof
end

