-- ==== Sys2Proof/Machine/State.lean ====
section
/-! DEFINITION. The state of the whole device as plain data: every register, memory and queue that the spec names, in records
of sparse stores. Keys are the flat numbers of R2; the default of each store is its reset record. -/

namespace Sys2Proof.Machine

/-- Why the machine stops. -/
inductive Fault where
  /-- Raised by `step` when every clock is stopped (a failed rail, R11) and no event that could end this is due. Safe: the
  device issues nothing in this state. -/
  | clocksStopped
  deriving DecidableEq, Repr

/-- Why an instruction has no meaning. -/
inductive Refusal where
  /-- Raised by an arm of `exec` whose meaning is not written. Safe: nothing can be concluded about it. -/
  | notModelled (mnemonic : String)
  deriving DecidableEq, Repr

/-! ### Thread slots -/

/-- What a relaxed access or a waiter acts on: a vault or SRAM word store, or a physical address with its home (R43). -/
inductive Place where
  /-- An interleaved byte offset in the local store `unit` (clusters 0 to 15, bursar SRAM 16 + die); `remote` over the mesh
  (R217). -/
  | vault (unit : Nat) (off : Nat) (remote : Bool)
  /-- A main-memory address homed at a flat slice (R43). -/
  | home (slice : Nat) (pa : Nat)
  /-- Remote main memory behind a Trizen port: device and address (R237 PEER). -/
  | peer (dev pa : Nat)
  /-- An I/O address (R233). -/
  | io (pa : Nat)
  /-- A mint window offset (R219). -/
  | mint (unit : Nat) (off : Nat)
  deriving DecidableEq, Repr

/-- A relaxed access that has not been answered (R186, R243). -/
structure Relaxed where
  id : Nat := 0
  store : Bool := false
  place : Place := .vault 0 0 false
  size : Nat := 4
  data : BitVec 128 := 0
  dst : Reg := 0
  signed : Bool := false
  /-- Its class (R56). -/
  cls : Nat := 1
  /-- Words of a vault access that its banks have not performed yet (R211), and the work cycle in which the last datum so far
  reaches the core (R208), and that of its issue, where it has a slack to keep. -/
  left : Nat := 0
  ready : Nat := 0
  issued : Option Nat := none
  err : Option (BitVec 5) := none
  deriving DecidableEq, Repr

/-- What becomes of a thread's vault access with its last datum (R210, R211): a load's registers, a store, the register of a
teller's or a full/empty operation's answer, the JoinAdd of a SPAWN with its child's pc or of a SPRET. -/
inductive VaultUse where
  | load (dst : Reg) (signed : Bool)
  | store
  | word (dst : Option Reg)
  | join (child : Option Word)
  /-- The write of MSGVEC, which reads the slot-class map; the register of the old value (R165). -/
  | classMap (v : Word) (old : Option (Reg × Word))
  /-- SEGLD of table entry `i` into s[n] (R232). -/
  | segment (n i : Nat)
  /-- MINTLD (R398). -/
  | mint
  deriving DecidableEq, Repr

/-- The vault access that keeps a thread BUSY, or parked (R185, R210): its words not performed yet, the work cycle in which its last
datum so far arrives, the one in which it was issued, or none where no slack is kept, and the first error. -/
structure VaultAccess where
  use_ : VaultUse := .store
  size : Nat := 4
  /-- The byte of the first word at which it begins. -/
  lane : Nat := 0
  data : BitVec 128 := 0
  /-- The words read beyond the fourth (R398). -/
  more : SMap Word := []
  left : Nat := 0
  ready : Nat := 0
  issued : Option Nat := none
  err : Option (BitVec 5) := none
  deriving DecidableEq, Repr

/-- What an access cannot pass for now: a line that its slice cannot fill or perform yet (R26, R30, R32, R70, R71), or the route from
a router to another, on which a link holds traffic (R64), or for a bulk access a stream holds an output (R68). -/
inductive Obst where
  | line (slice line : Nat)
  /-- A line with requests on their way to its controller, which a write without a fill follows. -/
  | queued (slice line : Nat)
  | route (src dst : Nat) (bulk : Bool)
  /-- A Trizen link that is training (R64). -/
  | link (r port : Nat)
  /-- A group's remote port, which holds 32 requests (R217). -/
  | port (group : Nat)
  deriving DecidableEq, Repr

/-- Conditions a parked instruction waits on before it issues again (R185). -/
inductive Cond where
  /-- The registers it names, one bit each, one of which carries a relaxed mark (R186). -/
  | mark (regs : Word)
  /-- The inter-slot queues it takes from and those it fills, one bit each (R187). -/
  | queue (src dst : BitVec 4)
  /-- Room for a send; `sendHeld` that of an instruction that no DEADLINE withdraws (R174). -/
  | sendReq | sendRsp | sendHeld
  | order | engine | bulk | relaxedLimit | stream (port : Nat)
  /-- No relaxed access outstanding; also every matrix command retired; also every copy complete (R244, R395). -/
  | relaxed | retired | quiet
  /-- An access whose line or route is held. -/
  | access (o : Obst)
  deriving DecidableEq, Repr

/-- What a parked thread waits for (R185). -/
inductive Wait where
  /-- The condition; the instruction at pc issues again when it holds. -/
  | cond (c : Cond)
  /-- An instruction line or a translation; the instruction issues again when it is installed (R184, R239). -/
  | fill (va : Nat)
  /-- A full/empty operation on a wait list; `dst` takes its answer (R216, R72). JOIN waits so, as a load when full that returns
  nothing (R154). -/
  | fullEmpty (dst : Option Reg)
  /-- A full/empty request that found its wait list full: it is sent again in the work cycle `at_`, of a remote home the mesh cycle;
  `interval` is the next one (R216, R72). -/
  | resend (place : Place) (code : Nat) (data : Word) (dst : Option Reg) (interval at_ : Nat)
  /-- A teller operation, a join or a remote access whose reply is due (R185, R210). -/
  | vault
  /-- BARW: barrier, generation named, destination (R172). -/
  | barw (b : BitVec 5) (gen : Word) (dst : Reg)
  /-- MRECV or MRECVT: sender, sequence, registers; the work cycle in which the timeout runs out (R164, R350). -/
  | mrecv (sender : Word) (seq : BitVec 16) (d b : Reg) (cnt : Nat) (until_ : Option Nat)
  /-- MCALL: the tag of its packet and the registers the reply is delivered into (R349). -/
  | mcall (id : Nat) (d b : Reg) (cnt : Nat)
  /-- RSPAWN: the register of the answer and the tag of its packet (R358). -/
  | rspawn (d : Reg) (tag : Nat)
  /-- SGET on an empty input (R354). -/
  | sget (input : Nat) (d b : Reg)
  /-- QPUT of a value, refused with FULL by a queue of a slice: it is sent again in the mesh cycle `at_`; `interval` is the next one
  (R353, R72). -/
  | qput (cls slice q v interval at_ : Nat)
  /-- QTAKE waiting at the slice, or to be sent again in a mesh cycle, with the interval after that (R353, R72). -/
  | qtake (cls : Nat) (d : Reg) (cnt : Nat) (slice q : Nat) (dest : List Place) (polling : Option (Nat × Nat))
  /-- QTAKE with its entry: it goes on when every line of its destination can be sent (R353). -/
  | entry (cls v : Nat) (d : Reg) (cnt : Nat) (dest : List Place)
  /-- WAIT until the work cycle named; `d` takes what is left (R393). -/
  | wait (until_ : Nat) (d : Reg)
  /-- A matrix command in its engine's queue (R272). -/
  | matrix
  /-- A copy in its engine's queue (R380). -/
  | copy
  /-- BCANCEL until the completions of these copies are written; the register of their number (R383). -/
  | cancel (ids : List Nat) (n : Nat) (d : Reg)
  /-- TLBINV: the context, the start and the number of pages (R397). -/
  | tlbinv (bursar : Bool) (vi va pages : Nat)
  deriving DecidableEq, Repr

/-- The states of R178. BUSY is `ready` before the work cycle `busyUntil`, or `busy` until a vault datum arrives; HALTED belongs to the
core. -/
inductive Run where
  | idle
  | ready
  | busy
  | parked (why : Wait)
  | faulted
  | stopped
  deriving DecidableEq, Repr

/-- A queue entry taken by an instruction that is still in progress, or reserved for its result (R187). -/
structure QEntry where
  val : Option Word := none
  /-- 0, or slot + 1 for an instruction in progress; a relaxed load adds 2^20 × (its id + 1). -/
  owner : Nat := 0
  /-- A reservation for a result, not an entry taken. -/
  res : Bool := false
  /-- The work cycle from which it can be taken. -/
  ready : Nat := 0
  deriving DecidableEq, Repr

/-- What the issue of an instruction changed of its core and slot, for one that does not issue after all (R187): counters 7 and 9, STEP,
the slot's busy time, whether it had been counted. -/
structure IssueUndo where
  issued : Word := 0
  lent : Word := 0
  step : Bool := false
  busyUntil : Nat := 0
  counted : Bool := false
  deriving DecidableEq, Repr

/-- A thread slot: the 288-byte record of R177, and the state of the slot that lies outside it (R145, R177, R307). -/
structure Slot where
  pc : Word := 0
  g : SMap Word := []
  x : SMap Word := []
  sg : SMap (BitVec 128) := []
  status : Word := 0
  epc : Word := 0
  eval : Word := 0
  escratch : Word := 0
  widLo : Word := 0
  widHi : Word := 0
  ecause : Word := 0
  icnt : BitVec 6 := 0
  qmap : Word := 0
  dlstat : Word := 0
  fmtdef : Word := 0
  fflags : Word := 0
  run : Run := .idle
  /-- The work cycle from which the thread may issue again (R179). -/
  busyUntil : Nat := 0
  /-- Pending prefixes (R306). -/
  pend : BitVec 16 := 0
  /-- PV: `pend` was loaded by ERET or DRET (R307). -/
  pv : Bool := false
  /-- Offset of the first prefix of the chain in progress (R307). -/
  chain : Option Word := none
  /-- Marked registers (R186). -/
  marks : Word := 0
  relaxed : List Relaxed := []
  access : Option VaultAccess := none
  nextId : Nat := 0
  /-- Deferred MEMERR: its code and whether further errors were lost (R194). -/
  deferred : Option (BitVec 5 × Bool) := none
  /-- A pending DEADLINE with the number of its timer (R190). -/
  deadline : Option (BitVec 4) := none
  /-- A BREAK is due after the stepped instruction (R392). -/
  stepDue : Bool := false
  /-- The fault's access, kept for its re-issue (R196). -/
  faultVa : Nat := 0
  faultAcc : AccessKind := .load
  /-- The instruction is issued again after a fault or a fill: a pending DEADLINE waits until it completes (R190). -/
  reissue : Bool := false
  /-- The instruction at pc has been counted as issued (R201). -/
  counted : Bool := false
  undo : Option IssueUndo := none
  /-- YIELD: BUSY until the end of the first own cycle from `busyUntil` on (R394). -/
  yielding : Bool := false
  cyclehLatch : Word := 0
  /-- TV and the TCB's vault offset (R145, R360). -/
  tcb : Option Nat := none
  /-- HC, RO and the handled message (R145, R168, R169). -/
  handler : Bool := false
  replyOwed : Bool := false
  msg : Message := {}
  /-- Queue entries taken by the parked instruction (R187). -/
  taken : List (Nat × Word) := []
  /-- The bits of the instruction in execution and its length in bytes. -/
  ir : Word := 0
  irLen : Nat := 4
  /-- Position in the slot's deterministic list (R138). -/
  detIdx : Nat := 0
  deriving DecidableEq, Repr

/-! ### Cores -/

/-- A deque entry (R150). -/
structure DequeEntry where
  pc : Word := 0
  g2 : Word := 0
  g3 : Word := 0
  slot : BitVec 4 := 0
  icnt : BitVec 6 := 0
  deriving DecidableEq, Repr

/-- A stream send port (R68, R145, R354). -/
structure SendPort where
  /-- 0 CLOSED, 1 OPEN, 2 FORCED. -/
  state : BitVec 2 := 0
  bound : Bool := false
  dst : Word := 0
  words : List Word := []
  lost : Nat := 0
  /-- The route has been opened and no marker has ended it. -/
  route : Bool := false
  /-- Mesh cycles since the last word was written (R68). -/
  idle : Nat := 0
  /-- The next flit opens the route of a suspended stream again (R145). -/
  resume : Bool := false
  /-- The tag of the route's packet. -/
  tag : BitVec 16 := 0
  deriving DecidableEq, Repr

/-- A stream receive input (R145, R354). -/
structure StreamIn where
  words : List Word := []
  /-- 0 open or none, 1 closed, 2 forced close, 3 ABORT. -/
  fin : BitVec 2 := 0
  suspended : Bool := false
  /-- The sending port of the stream it holds, as 4 × core + port. -/
  sender : Nat := 0
  active : Bool := false
  waiters : List Nat := []
  deriving DecidableEq, Repr

/-- An instruction cache line: its virtual line address and its bytes (R184). -/
structure ICLine where
  va : Nat := 0
  data : Line := 0
  used : Nat := 0
  deriving DecidableEq, Repr

/-- A translation: the page's virtual base and size code with what the leaf gives (R235, R239). -/
structure TlbEntry where
  va : Nat := 0
  size : Nat := 0
  leaf : BitVec 64 := 0
  used : Nat := 0
  deriving DecidableEq, Repr

/-- A core: the state its slots share (R177) and its units. Bursar cores are numbered 16,384 + die. -/
structure Core where
  tvec : Word := 0
  srkeyLo : Word := 0
  srkeyHi : Word := 0
  segtab : Word := 0
  msgvec : Word := 0
  widshape : Word := 0
  classMap : Word := 0
  counters : SMap Word := []
  queues : SMap (List QEntry) := []
  deque : List DequeEntry := []
  mailbox : List (Nat × Nat) := []
  /-- How far past the next flat core the victim pointer stands (R155). -/
  victim : Nat := 0
  stealing : Bool := false
  heldSteal : Option DequeEntry := none
  rxbuf : List Message := []
  parkedRecv : List Nat := []
  /-- Packets in the send queues of REQ and RSP (R163), and the tag of the next one. -/
  sendReq : List Packet := []
  sendRsp : List Packet := []
  nextTag : BitVec 16 := 0
  icache : List ICLine := []
  tlb : List TlbEntry := []
  stamp : Nat := 0
  ports : SMap SendPort := []
  inputs : SMap StreamIn := []
  /-- ERRBITS, COUNT and FIRST of R142; FIRST holds the cause and the slot. -/
  errbits : Word := 0
  count : BitVec 64 := 0
  first : Option (Byte × Nat) := none
  halt : Bool := false
  step : Bool := false
  brkhalt : Bool := false
  sslot : BitVec 4 := 0
  brkhit : Bool := false
  bslot : BitVec 4 := 0
  /-- CLOSE has reached the core; its own done message is sent (R142). -/
  closing : Bool := false
  done : Bool := false
  got : List (BitVec 64 × Word × Option (Nat × Byte × Nat)) := []
  deriving DecidableEq, Repr

/-! ### Clusters -/

/-- A budget timer (R189, R203). -/
structure Timer where
  count : Word := 0
  armed : Bool := false
  msgwait : Bool := false
  typ : Byte := 0
  owner : Nat := 0
  /-- The work cycle of its first decrement (R189). -/
  start : Nat := 0
  deriving DecidableEq, Repr

/-- A barrier (R170). Arrivals are (core, slot) member numbers; statements carry their counters and offset (R173). -/
structure Barrier where
  cores : BitVec 1024 := 0
  slots : BitVec 16 := 0
  gen : Word := 0
  arr0 : List Nat := []
  arr1 : List Nat := []
  sum0 : Word := 0
  sum1 : Word := 0
  sumLast : Word := 0
  stm0 : List (Nat × List Word × Word) := []
  stm1 : List (Nat × List Word × Word) := []
  deriving DecidableEq, Repr

/-- A launch as the cluster holds it: the record, the header and its placement (R130, R131, R133). -/
structure Launch where
  bursar : Bool := false
  vi : Nat := 0
  die : Nat := 0
  queue : Nat := 0
  slotNo : Nat := 0
  /-- The binding of its aperture (R108). -/
  binding : Nat := 0
  tag : Word := 0
  vc : Nat := 0
  clusters : List Nat := []
  nc : Nat := 0
  ng : Nat := 0
  rotmode : Bool := false
  slotmask : BitVec 16 := 0
  place : Nat := 0
  dmode : Nat := 0
  widshape : Word := 0
  entry : Word := 0
  widbase : BitVec 64 := 0
  ntask : Nat := 0
  bsize : Nat := 0
  stkbase : Word := 0
  stksize : Word := 0
  fmtdef : Word := 0
  tvec : Word := 0
  srkeyLo : Word := 0
  srkeyHi : Word := 0
  segtab : Word := 0
  msgvec : Word := 0
  mintptr : BitVec 64 := 0
  minten : BitVec 16 := 0
  segs : SMap (BitVec 128) := []
  args : SMap Word := []
  mint : SMap Word := []
  freq : SMap Word := []
  /-- STEALWAIT of the cluster's own TASKCTL, as read at dispatch (R176). -/
  stealWait : Nat := 0x100
  stallEn : Bool := false
  stallMsg : Byte := 0
  /-- ERRBITS that the launch units set: bits 0, 6 and 7 (R142). -/
  errbits : Word := 0
  /-- STALL-ALL has been raised and no thread has run since (R175). -/
  stalled : Bool := false
  deriving DecidableEq, Repr

/-- A fault record (R196): its eight words. -/
structure FaultRec where
  va : Nat := 0
  pc : Word := 0
  slot : Nat := 0
  /-- Flat physical and virtual cluster. -/
  phys : Nat := 0
  vcl : Nat := 0
  access : Nat := 0
  kind : Nat := 0
  lnum : Nat := 0
  owner : Word := 0
  seq : Nat := 0
  deriving DecidableEq, Repr

/-- A miss in the walker queue: the slot that waits and what it needs (R239). -/
structure WalkReq where
  slot : Nat := 0
  va : Nat := 0
  acc : Access := { kind := .load }
  deriving DecidableEq, Repr

/-- A cluster: registers of its control block (R147, R176, R203) and its shared units. -/
structure Cluster where
  -- LOWNER, LPREEMPT, LSAVE, LCTL, LBREC, LBCOMP, CLRST (R147)
  owEn : Bool := false
  owBursar : Bool := false
  owState : BitVec 2 := 0
  owVi : BitVec 7 := 0
  owVc : BitVec 4 := 0
  prGo : Bool := false
  prRestore : Bool := false
  prVault : Bool := false
  prIgn : Bool := false
  prErr : Bool := false
  lsave : BitVec 22 := 0
  lcancel : Bool := false
  lcause : Byte := 0
  lbrecLo : Word := 0
  lbrecHi : BitVec 16 := 0
  lbcompLo : Word := 0
  lbcompHi : BitVec 16 := 0
  lbmsg : Byte := 0
  clrst : Bool := false
  -- TASKCTL, TASKSTAT (R176)
  stallEn : Bool := false
  stallMsg : Byte := 0
  stealWait : BitVec 16 := 0x0100
  stall : Bool := false
  -- fault buffer (R197, R203)
  fbmsg : Byte := 0
  stopmsg : Byte := 0
  badwake : Bool := false
  fbOvf : BitVec 16 := 0
  fbHead : BitVec 16 := 0
  fbTail : BitVec 16 := 0
  fbRing : SMap FaultRec := []
  fbHeld : List FaultRec := []
  fbLast : Nat := 0
  fbSeq : Nat := 0
  lnum : BitVec 16 := 0
  dbgsel : BitVec 14 := 0
  timers : SMap Timer := []
  -- time and throttle (R123, R179, R183, R403, R404)
  cycle : BitVec 64 := 0
  rpos : BitVec 4 := 0
  idleDue : Bool := false
  rotmode : Bool := false
  /-- Rotation modes written and not in force yet, oldest first, each from the first rotation at or after its work cycle (R404). -/
  rotNext : List (Nat × Bool) := []
  k : BitVec 4 := 0
  applied : BitVec 4 := 0
  /-- Values to apply, oldest first, each from the first rotation at or after its work cycle (R13, R123). -/
  applies : List (Nat × BitVec 4) := []
  -- the launch (R136, R140, R141)
  launch : Option Launch := none
  prevVi : Option Nat := none
  /-- The context whose translations the TLBs hold: bursar launch, interface (R240). -/
  ctx : Option (Bool × Nat) := none
  epoch : Nat := 0
  drainedSent : Bool := false
  reports : SMap Nat := []
  confirming : Bool := false
  answers : SMap Nat := []
  closeSent : Bool := false
  rootGot : List (BitVec 64 × Word × Option (Nat × Byte × Nat)) := []
  /-- STATUS and ECAUSE of a launch that LCTL or a failed save ends (R146, R147). -/
  ending : Option (Nat × Byte) := none
  -- task unit (R158): head and tail TCB offsets per priority
  heads : SMap Nat := []
  tails : SMap Nat := []
  qlen : Nat := 0
  /-- Tasks released in this work cycle, which join their lists in the order of R158 at its end. -/
  released : List Nat := []
  barriers : SMap Barrier := []
  -- mint state (R220) and second-level TLB (R239)
  mint : SMap Word := []
  freq : SMap Word := []
  root : BitVec 64 := 0
  tlb2 : List TlbEntry := []
  walkQueue : List WalkReq := []
  tlbStamp : Nat := 0
  deriving DecidableEq, Repr

/-! ### Vault banks -/

/-- What a word port or a home performs on one word (R207, R213, R215). -/
inductive WordOp where
  | read
  | write (mask : BitVec 4) (data : Word)
  | teller (code : Nat) (v v2 : Word)
  | fe (code : Nat) (v : Word)
  /-- JoinAdd by 1 up or down (R149, R151, R152). -/
  | join (up : Bool)
  deriving DecidableEq, Repr

/-- Who asked for a word operation: a slot's access (part) or relaxed access (id and part), a slot's full/empty operation, a packet,
or nobody. -/
inductive Asker where
  | access (slot part : Nat)
  | relaxed (slot id part : Nat)
  | thread (slot : Nat)
  | packet (p : Packet)
  /-- A packet at a remote port: its number there and the word (R217). -/
  | remote (id part : Nat)
  /-- An engine of a unit, which reads or writes a remote vault; the copy of a bulk copy engine. -/
  | engine (unit e job : Nat) (word : Nat)
  | none
  deriving DecidableEq, Repr

/-- A packet's access at a remote port: words not performed yet, the data read, the first error (R217). -/
structure RemoteJob where
  pkt : Packet := {}
  left : Nat := 0
  data : Line := 0
  err : Option (BitVec 5) := none
  deriving DecidableEq, Repr

/-- A held request at a bank (R209): requester number, word, operation, and the work cycle of its arrival. -/
structure BankReq where
  requester : Nat := 0
  word : Nat := 0
  op : WordOp := .read
  asker : Asker := .none
  arrive : Nat := 0
  /-- After how long it is sent again when it finds the wait list full (R216, R72). -/
  interval : Nat := 16
  deriving DecidableEq, Repr

/-- An engine's line-port access: 16 bytes of rows 4m to 4m+3, with a byte mask (R207). Engines 0 to 63 of a cluster are the matrix
engines of its groups, 64 to 127 the bulk copy engines; `job` is the copy. -/
structure LineReq where
  engine : Nat := 0
  job : Nat := 0
  row : Nat := 0
  write : Bool := false
  mask : BitVec 16 := 0
  data : BitVec 128 := 0
  /-- The words that the write sets full, or the bits it leaves. -/
  setFull : Bool := false
  arrive : Nat := 0
  deriving DecidableEq, Repr

/-- A bank (R207, R209, R216). -/
structure Bank where
  last : Nat := 1024
  held : List BankReq := []
  waiters : List BankReq := []
  /-- Words whose waiters are to be retried, and the work cycle of the first retry. -/
  retries : List (Nat × Nat) := []
  /-- Corrected words to be rewritten (R218). -/
  rewrites : List Nat := []
  lineLast : Nat := 127
  lineHeld : List LineReq := []
  deriving DecidableEq, Repr

/-- A vault word that an engine is to write: mask, data, whether it sets the word full; a status word is written after all others. -/
structure LinePut where
  word : Nat := 0
  mask : BitVec 4 := 0xF
  data : Word := 0
  setFull : Bool := false
  late : Bool := false
  /-- It goes over the mesh to a remote port (R217). -/
  far : Bool := false
  deriving DecidableEq, Repr

/-- What an engine's command or copy has to do with the line ports (R207): words read so far, none for an uncorrectable one;
accesses under way; words still to be written; whether its writes have begun; the first error of a write. -/
structure LineIO where
  got : List (Nat × Option Word) := []
  want : Nat := 0
  puts : List LinePut := []
  writing : Bool := false
  err : Option (BitVec 5) := none
  /-- What a command shows when it retires (R268). -/
  fx : Word := 0
  deriving DecidableEq, Repr

/-! ### Matrix and bulk copy engines -/

/-- A B latch (R278): elements as one bit string (element bytes in ascending order), scales, tag (format, K). -/
structure Latch where
  elems : BitVec 8192 := 0
  scales : BitVec 256 := 0
  tag : Option (Nat × Nat) := none
  deriving DecidableEq, Repr

/-- The operations of the matrix engine (R364 to R387). -/
inductive MOp where
  | zero (td : Tile)
  | ldb
  | lds (b : Bool)
  | wra (td : Tile)
  | ring
  | movt (td ta : Tile)
  | rsn (d : Reg)
  /-- `kind` 0 MMA, 1 MMAS, 2 MMAZ. -/
  | mma (kind : Nat) (td : Tile)
  /-- `fn` 0 ADD, 1 MUL, 2 MAX. -/
  | epi2 (fn : Nat) (td ta tb : Tile)
  | epiScale (td ta : Tile)
  | epiBias (col : Bool) (td ta : Tile)
  /-- `fn` 5 EXP2 to 10 RSQRT (R374). -/
  | epi1 (fn : Nat) (td ta : Tile)
  | stt (setFull : Bool) (ta : Tile)
  | tran (td ta : Tile)
  | red (kind : Nat) (neg : Bool) (ta : Tile)
  | potrf (td : Tile)
  | getrf (td : Tile)
  | trsm (right upper unit : Bool) (op : Nat) (td ta : Tile)
  | delta
  | shift (zero : Bool)
  | qnt (ta : Tile)
  | dqnt (td : Tile)
  /-- `fn` 0 CVTBLK, 1 CVTUNB, 2 CVTV. -/
  | cvt (fn : Nat)
  deriving DecidableEq, Repr

/-- A matrix command: what the core captured at issue (R366). -/
structure MCmd where
  op : MOp := .ring
  slot : Nat := 0
  /-- Source (or only) and destination descriptors and offsets. -/
  seg : BitVec 128 := 0
  off : Word := 0
  seg2 : BitVec 128 := 0
  off2 : Word := 0
  gb : Word := 0
  x0 : Word := 0
  x1 : Word := 0
  x2 : Word := 0
  fa : Nat := 0
  fb : Nat := 0
  rnd : Nat := 0
  key : BitVec 64 := 0
  widLo : Word := 0
  /-- The class of a CLASS prefix (R56). -/
  cls : Option Nat := none
  deriving DecidableEq, Repr

/-- A matrix engine (R272 to R282). Tiles are stores keyed by 256 × tile + 16i + j. -/
structure Engine where
  tiles : SMap Word := []
  escrow : SMap Word := []
  l0 : Latch := {}
  l1 : Latch := {}
  act : Bool := false
  scaleA : BitVec 256 := 0
  rsn : Word := 0
  arrivals : Word := 0
  queue : List MCmd := []
  /-- The command that the engine has taken and not answered, and its line-port accesses. -/
  cmd : Option MCmd := none
  io : LineIO := {}
  /-- Commands that have committed and not retired: slot and flags (R273). -/
  retiring : List (Nat × Word) := []
  deriving DecidableEq, Repr

/-- A bulk copy (R379 to R383). -/
structure Copy where
  id : Nat := 0
  /-- 0 BCOPY, 1 BCOPY2, 2 BFILL, 3 BGATH, 4 BSCAT. -/
  fn : Nat := 0
  setFull : Bool := false
  src : BitVec 128 := 0
  dst : BitVec 128 := 0
  so : Word := 0
  do_ : Word := 0
  pattern : Word := 0
  x0 : Word := 0
  x1 : Word := 0
  x2 : Word := 0
  x3 : Word := 0
  comp : Option Nat := none
  slot : Nat := 0
  /-- The class of a CLASS prefix (R56). -/
  cls : Option Nat := none
  /-- The thread that issued it has ended: it belongs to its launch alone (R382). -/
  orphan : Bool := false
  accepted : Bool := false
  stopCode : Option Nat := none
  /-- The units of 64 bytes moved, the accesses of the next, the index of its row, and what the copy has overwritten, oldest first:
  place, bytes and their value (R381, R384). -/
  unit : Nat := 0
  io : LineIO := {}
  index : Nat := 0
  before : List (Place × Nat × Nat) := []
  /-- The payload has ended and the completion word is being written with this code (R382). -/
  ending : Option Nat := none
  deriving DecidableEq, Repr

/-- A bulk copy engine (R380, R384). -/
structure BulkEngine where
  copies : List Copy := []
  nextId : Nat := 0
  deriving DecidableEq, Repr

/-! ### Slices, routers, links -/

/-- A line in a slice (R70). -/
structure SliceLine where
  valid : Bool := false
  data : Line := 0
  full : BitVec 16 := 0xFFFF
  dirty : Bool := false
  captured : Bool := false
  used : Nat := 0
  deriving DecidableEq, Repr

/-- A slice queue descriptor (R74) and its waiters. -/
structure SQueue where
  tail : BitVec 16 := 0
  head : BitVec 16 := 0
  base : BitVec 42 := 0
  en : Bool := false
  entlines : BitVec 3 := 0
  log2n : BitVec 4 := 4
  waiters : List Asker := []
  deriving DecidableEq, Repr

/-- A slice's copy of a stack's map (R24, R29): generation, retired channel, fenced channels, window parity (R35). -/
structure StackMap where
  gen : BitVec 4 := 0
  retired : Option Nat := none
  fenced : Word := 0
  parity : Bool := false
  deriving DecidableEq, Repr

/-- A full/empty waiter at a slice (R72); `word` is PA div 4. -/
structure SliceWaiter where
  word : Nat := 0
  op : WordOp := .read
  asker : Asker := .none
  deriving DecidableEq, Repr

/-- A cache slice (R70 to R76). -/
structure Slice where
  lines : SMap SliceLine := []
  stamp : Nat := 0
  waiters : List SliceWaiter := []
  queues : SMap SQueue := []
  maps : SMap StackMap := []
  /-- Tracked misses: line and the requests that joined it (R70). -/
  misses : List (Nat × List Packet) := []
  /-- Bounced requests in their original order (R32, R33). -/
  bounced : List McReq := []
  deriving DecidableEq, Repr

/-- The states of a link (R64). -/
inductive LinkState where
  | down | training | up | lost
  deriving DecidableEq, Repr

/-- One end of a link: an output with its replay state and the receiving side's sequence (R62 to R64, R78, R81). SEQ is the low 8
bits of a sequence number, all of it on a Trizen link. -/
structure Link where
  st : LinkState := .down
  seq : BitVec 16 := 0
  expect : BitVec 16 := 0
  /-- Flits sent and not acknowledged, and those of them to be sent again. -/
  replay : List Flit := []
  resend : List Flit := []
  /-- Packets whose last flit is in the replay buffer: its sequence number and the header. -/
  tails : List (BitVec 16 × Packet) := []
  naks : Nat := 0
  fails : Nat := 0
  half : Bool := false
  msgen : Bool := false
  restart : Bool := false
  retrains : Byte := 0
  replays : BitVec 16 := 0
  /-- An acknowledgement is owed; `true` inside for a NAK. -/
  owed : Option Bool := none
  /-- The mesh cycle by which an acknowledgement of the flits received is to be sent (R63). -/
  ackBy : Option Nat := none
  /-- Stop signals of the device at the other end of a Trizen link, bit 2 × VN + class (R62). -/
  stop : BitVec 4 := 0
  deriving DecidableEq, Repr

/-- What an input of a router holds of a (VN, class) pair (R57, R58, R61). -/
structure InBuf where
  /-- The flits not yet sent on, each with the mesh cycle of its arrival. -/
  flits : List (Flit × Nat) := []
  /-- A packet has begun to arrive: its header and the payload flits received; or the rest of one is discarded as it arrives. -/
  part : Option (Packet × Nat) := none
  drop : Bool := false
  /-- The packet at the front: its header, the output it takes, whether its header has been sent on. -/
  pkt : Packet := {}
  out : Option Nat := none
  started : Bool := false
  /-- The mesh cycle in which a flit was last sent on. -/
  last : Nat := 0
  deriving DecidableEq, Repr

/-- A router (R48, R57, R58, R61, R81). Ports: 0 N, 1 E, 2 S, 3 W, 4 local, 5 to 7 edge. Inputs: the ports but for 4; 16 + e for
endpoint e of the group, 271 for the router itself, 272 + 4c + p for stream port p of core c. -/
structure Router where
  /-- Keyed 6 × input + 3 × VN + class. -/
  ins : SMap InBuf := []
  /-- The input whose packet is open at an output, plus 1, keyed 6 × port + 3 × VN + class; 0 for none (R57). -/
  owner : SMap Nat := []
  /-- The packet arriving at the group's endpoints, per 3 × VN + class: its flits so far. -/
  sink : SMap (List Flit) := []
  /-- The mesh cycle from which the local input is free (R48). -/
  localFree : Nat := 0
  /-- The mesh cycle after the one in which an output last sent a flit. -/
  sent : SMap Nat := []
  lastWin : SMap Nat := []
  lastVn : SMap Bool := []
  ucount : SMap Nat := []
  links : SMap Link := []
  tmdrop : Byte := 0
  detours : Byte := 0
  unroute : Bool := false
  firewall : Bool := false
  proto : Bool := false
  replayed : Bool := false
  lost : BitVec 4 := 0
  routecfg : BitVec 20 := 0
  tslot : SMap (BitVec 64) := []
  deriving DecidableEq, Repr

/-- A request that its originating port tracks (R66, R72). `origin` is 256 × router + endpoint, `slot` the thread that asked. -/
structure Request where
  origin : Nat := 0
  slot : Nat := 0
  tag : BitVec 16 := 0
  pkt : Packet := {}
  losses : Nat := 0
  interval : Nat := 0
  /-- The mesh cycle of the origin's die in which it was sent last; that in which it is to be sent again (R66, R72). -/
  since : Nat := 0
  again : Option Nat := none
  /-- The reply or report the port gave its requester: none while outstanding. -/
  answer : Option (BitVec 5) := none
  deriving DecidableEq, Repr

/-! ### Memory controllers -/

/-- The lending states of R26. -/
inductive Lend where
  | normal | request | drain | quiesce | retrain | lent | reclaim
  deriving DecidableEq, Repr

/-- A lending pair (R25 to R28): its state, whether the odd channel borrows, failures in a row. -/
structure Pair where
  st : Lend := .normal
  odd : Bool := false
  fails : Nat := 0
  /-- A lender request waits for LENT (R27). -/
  lenderWaits : Bool := false
  deriving DecidableEq, Repr

/-- A bank tracker (R34 to R36). -/
structure Tracker where
  entries : List (Nat × Nat) := []
  capture : List Nat := []
  /-- Rows that reached the threshold in this window while the list was full (R36). -/
  fell : List Nat := []
  paced : Bool := false
  acts : Nat := 0
  open_ : Option Nat := none
  deriving DecidableEq, Repr

/-- A memory controller (R21 to R46, R124). -/
structure Ctl where
  gen : BitVec 4 := 0
  state : BitVec 2 := 0
  resvUsed : Bool := false
  retired : Option Nat := none
  target : BitVec 5 := 0
  /-- The channel of the change in progress. -/
  chan : Nat := 0
  refused : Bool := false
  fence : Bool := false
  retire : Bool := false
  fenced : Word := 0
  pairEn : BitVec 16 := 0
  idle : BitVec 16 := 0x0400
  pairs : SMap Pair := []
  thresh : BitVec 12 := 0x200
  pace : Byte := 0x40
  fallback : Byte := 0
  ce : BitVec 16 := 0
  ue : BitVec 16 := 0
  ueLine : Nat := 0
  ueSource : BitVec 2 := 0
  ueMore : Bool := false
  ueValid : Bool := false
  trackers : SMap Tracker := []
  parity : Bool := false
  copyNext : Nat := 0
  queue : List McReq := []
  stkTemp : Byte := 0
  stkHot : Bool := false
  rfms : Nat := 0
  deriving DecidableEq, Repr

/-! ### Dies: host port, Ethernet, management -/

/-- A virtual-interface aperture at a host port (R84, R93, R108). -/
structure Aperture where
  en : Bool := false
  outsize : BitVec 7 := 0
  inbase : BitVec 25 := 0
  vcnm1 : BitVec 4 := 0
  hole : Bool := false
  werr : Bool := false
  ovf : Bool := false
  qerr : Bool := false
  irqen : BitVec 16 := 0
  irqpend : BitVec 16 := 0
  chead : SMap (BitVec 7) := []
  tail : SMap Nat := []
  head : SMap Nat := []
  /-- The tail that the launch unit knows of, per queue (R89). -/
  known : SMap Nat := []
  /-- Completion ring tail and wrap parity per ring (R90). -/
  ctail : SMap Nat := []
  cwrap : SMap Bool := []
  /-- Completions held while a ring is full, oldest first: eight words each (R90). -/
  held : SMap (List (List Word)) := []
  /-- How often the aperture has been unbound: a launch completes only under the binding it was taken under (R108). -/
  binding : Nat := 0
  /-- Records taken and not completed, per queue, oldest first: their slots (R130 WAITPREV). -/
  running : SMap (List Nat) := []
  deriving DecidableEq, Repr

/-- An inbound buffer entry (R87). -/
structure Inbound where
  ap : Nat := 0
  off : Nat := 0
  bytes : List (Option Byte) := []
  sent : Bool := false
  deriving DecidableEq, Repr

/-- A host port (R82 to R94, R110). The store is keyed by 16 MiB × aperture + offset. -/
structure HostPort where
  rows : SMap (Option Nat) := []
  /-- Mode registers of the memory device (R82). -/
  modes : SMap Byte := []
  open_ : Bool := false
  store : SMap Byte := []
  aps : SMap Aperture := []
  inbuf : List Inbound := []
  /-- Notifications that wait for inbound writes: aperture, queue, tail value, inbound writes ahead (R89). -/
  notes : List (Nat × Nat × Nat × Nat) := []
  mbirq : Bool := false
  mbtype : Byte := 0
  attcmd : BitVec 2 := 0
  attNonce : List Byte := []
  attRep : SMap Byte := []
  /-- What the last read burst returned. -/
  readOut : List Byte := []
  deriving DecidableEq, Repr

/-- A received frame waiting for delivery (R97, R98): target slice and queue, class, rule, arrival, bytes, next segment. -/
structure RxFrame where
  slice : Nat := 0
  queue : Nat := 0
  cls : Nat := 0
  rule : Nat := 0
  arrival : Nat := 0
  bytes : List Byte := []
  /-- Segments delivered. -/
  seg : Nat := 0
  /-- LOSTSEG of its entries (R97). -/
  lost : Bool := false
  deriving DecidableEq, Repr

/-- An Ethernet port (R95 to R101). Rules are 128-bit images; counters in the order of R101. -/
structure Eth where
  en : Bool := false
  pauseen : Bool := false
  pfcen : Byte := 0
  xoff : Byte := 0xC0
  xon : Byte := 0x80
  counters : SMap Word := []
  rules : SMap (BitVec 128) := []
  rx : List RxFrame := []
  rxBytes : Nat := 0
  /-- The pause in force at the peer: 802.3, or PFC for the priorities named (R99). -/
  pausing : Option (Option Byte) := none
  /-- Priorities stopped by PFC, and transmission stopped by 802.3 pause (R95). -/
  paused : Byte := 0
  pausedAll : Bool := false
  tx : SMap (List (List Byte)) := []
  wire : List (List Byte) := []
  up : Bool := false
  /-- LOSTSEG is due for the next frame to this queue, keyed 8 × slice + queue (R98). -/
  lostseg : SMap Bool := []
  deriving DecidableEq, Repr

/-- The thermal block (R121, R122). -/
structure Thermal where
  sens : SMap (BitVec 16) := []
  valid : Bool := false
  en : Bool := false
  msgtype : Byte := 0
  high : Byte := 0x69
  low : Byte := 0x5F
  hot : Bool := false
  cool : Bool := false
  maxidx : BitVec 6 := 0
  maxtemp : BitVec 16 := 0
  deriving DecidableEq, Repr

/-- The error log block (R125 to R127). -/
structure ErrLog where
  base : Word := 0
  en : Bool := false
  basehi : BitVec 4 := 0
  log2n : BitVec 4 := 7
  msgtype : Byte := 0
  head : BitVec 16 := 0
  tail : BitVec 16 := 0
  drop : Word := 0
  post : SMap Word := []
  wrap : Bool := false
  dropped : Bool := false
  /-- Records that have reached the log unit and are not written yet: word 0 and the rest (R126). -/
  pend : List (Nat × Nat) := []
  deriving DecidableEq, Repr

/-- The I3C target and controller blocks (R128, R129). -/
structure I3c where
  index : Byte := 0
  dyn : Option (BitVec 7) := none
  nack : Bool := false
  ctl : Word := 0
  go : Bool := false
  rel : Bool := false
  busy : Bool := false
  role : Bool := false
  done : Bool := false
  nackS : Bool := false
  err : Bool := false
  msgtype : Byte := 0
  data0 : Word := 0
  data1 : Word := 0
  deriving DecidableEq, Repr

/-- A die: its ports and management blocks. -/
structure Die where
  stopped : Bool := false
  trip : Bool := false
  mc : BitVec 64 := 0
  host : HostPort := {}
  eth : Eth := {}
  therm : Thermal := {}
  log : ErrLog := {}
  i3c : I3c := {}
  sidle : BitVec 12 := 0x040
  rto : BitVec 4 := 8
  mergeen : Bool := true
  devroute : SMap Byte := []
  windows : SMap (BitVec 128) := []
  deriving DecidableEq, Repr

/-! ### Package, boot and strongroom -/

/-- A partition (R102, R106, R117): measurement, image SVN, placement block by word (R44, R234). -/
structure Part where
  mp : BitVec 384 := 0
  svn : Word := 0
  imageLen : Nat := 0
  place : SMap Word := []
  requested : Bool := false
  resetting : Bool := false
  /-- Last (v, q) pair dispatched, as 128 × q + v; 2047, so that visits begin with pair 0, before any (R133, log 2). -/
  lastVq : Nat := 2047
  deriving DecidableEq, Repr

/-- The strongroom and the package (R11 to R20, R102 to R119). -/
structure Strongroom where
  powered : Bool := true
  porstn : Bool := true
  thermtrip : Bool := false
  pwralertn : Bool := true
  booted : Bool := false
  stage : BitVec 4 := 0
  fail : BitVec 4 := 0
  failp : BitVec 3 := 0
  dieup : BitVec 4 := 0
  flash : SMap Byte := []
  pcfg : Option (List Byte) := none
  ms : BitVec 384 := 0
  devnum : BitVec 6 := 0
  aliasKey : Option (BitVec 384) := none
  idcert : List Byte := []
  aliascert : List Byte := []
  /-- What the self test of step 1, the training of step 4 and the release of step 6, by partition, find (R18). -/
  selfTested : Bool := true
  stacksTrained : Bool := true
  releaseFails : BitVec 3 := 0
  /-- Bits raised in the SVN fuses since manufacture, by KIND (R116). -/
  fuses : SMap (BitVec 64) := []
  /-- KZMCOOL as the carrier of a KZ-4M shows it (R20). -/
  kzmcool : Word := 0
  deriving DecidableEq, Repr

/-! ### The device -/

/-- The device. -/
structure State where
  sr : Strongroom := {}
  parts : SMap Part := []
  dies : SMap Die := []
  ctls : SMap Ctl := []
  /-- Main memory bytes by physical address (R23). -/
  mem : List Host.Cell := []
  /-- Error patterns of stored lines: (symbol, difference) pairs by PA[38:6]; full/empty bits stored with each line (R38). -/
  flips : SMap (List (Nat × BitVec 16)) := []
  memFull : SMap (BitVec 16) := []
  /-- Vault and bursar SRAM bytes (key unit × 2^25 + offset) and full/empty bits (key word). -/
  vault : List Host.Cell := []
  vfull : SMap Bool := []
  /-- Words whose stored code has errors: 1 correctable, 2 not (R218). -/
  verr : SMap Nat := []
  banks : SMap Bank := []
  /-- Packets at the remote ports (R217). -/
  remotes : SMap RemoteJob := []
  slices : SMap Slice := []
  routers : SMap Router := []
  requests : List Request := []
  clusters : SMap Cluster := []
  cores : SMap Core := []
  slots : SMap Slot := []
  engines : SMap Engine := []
  bulk : SMap BulkEngine := []
  /-- Routers with flits, acknowledgements or arbitration counts to move on; mesh cycles still due in this work cycle, and where
  the work cycle stands in the three that hold four mesh cycles (R4). -/
  busy : List Nat := []
  mcDue : Nat := 0
  mcPhase : Nat := 0
  /-- Banks whose ports have something to do; the ports have acted in this work cycle (R207). -/
  hot : List Nat := []
  ported : Bool := false
  /-- The model's own: the slot in execution, the core whose issue comes next, events due, the counter of free values. -/
  cur : Nat := 0
  turn : Nat := 0
  due : List Instr := []
  /-- Events that wait for a line or a route and are due again in the next work cycle. -/
  later : List Instr := []
  fresh : Nat := 0
  deriving DecidableEq, Repr

/-- The machine when power has come up and PORSTN has just risen: every field at its reset value, the boot due (R18). -/
def State.reset : State := { due := [.boot] }

end Sys2Proof.Machine
end

