-- ==== Sys2Proof/Machine/Ops.lean ====
section
/-! DEFINITION. The named operations over the state: numbering (R2), access to the records, bytes and bits, events due, traps
(R192, R193), parks (R185), page faults (R196), completion, and the return from a trap (R391). -/

namespace Sys2Proof.Machine

/-! ### Fields of words -/

/-- The field of `n` bits from bit `lo`, as a number. -/
def fieldOf {w : Nat} (x : BitVec w) (lo n : Nat) : Nat := (x.toNat >>> lo) % 2 ^ n

/-- `x` with the field of `n` bits at `lo` replaced. -/
def putField {w : Nat} (x : BitVec w) (lo n v : Nat) : BitVec w :=
  (x &&& ~~~(BitVec.ofNat w (2 ^ n - 1) <<< lo)) ||| (BitVec.ofNat w (v % 2 ^ n) <<< lo)

/-- One bit of a word. -/
def bitOf {w : Nat} (x : BitVec w) (i : Nat) : Bool := x.getLsbD i

/-- A bit as a word of any width. -/
def ofBit (w : Nat) (b : Bool) : BitVec w := if b then 1 else 0

/-- A word from a number, wrapping (R7). -/
def word (n : Nat) : Word := BitVec.ofNat 32 n

/-- A word from an integer, wrapping. -/
def wordI (n : Int) : Word := BitVec.ofInt 32 n

/-! ### Numbering (R2); bursar cores are cores 16,384 + die and their SRAM and timers are unit 16 + die (R425) -/

def coreOf (slot : Nat) : Nat := slot / 16
def slotIn (slot : Nat) : Nat := slot % 16
/-- The unit that holds a core's vault, timers and cycle count: its cluster, or 16 + die for a bursar core. -/
def unitOf (core : Nat) : Nat := if core < 16384 then core / 1024 else core - 16368
def groupOf (core : Nat) : Nat := core / 16
def dieOfCluster (c : Nat) : Nat := if c < 16 then c / 4 else c - 16
def isBursar (core : Nat) : Bool := 16384 ≤ core
def bursarCore (die : Nat) : Nat := 16384 + die

/-! ### Records -/

namespace State

def slot (s : State) (k : Nat) : Slot := smGet {} s.slots k
def setSlot (s : State) (k : Nat) (v : Slot) : State := { s with slots := smSet {} s.slots k v }
def modSlot (s : State) (k : Nat) (f : Slot → Slot) : State := s.setSlot k (f (s.slot k))
/-- The slot in execution. -/
def me (s : State) : Slot := s.slot s.cur
def modMe (s : State) (f : Slot → Slot) : State := s.modSlot s.cur f
def core (s : State) (k : Nat) : Core := smGet {} s.cores k
def setCore (s : State) (k : Nat) (v : Core) : State := { s with cores := smSet {} s.cores k v }
def modCore (s : State) (k : Nat) (f : Core → Core) : State := s.setCore k (f (s.core k))
def myCore (s : State) : Nat := coreOf s.cur
def myUnit (s : State) : Nat := unitOf s.myCore
def cluster (s : State) (k : Nat) : Cluster := smGet {} s.clusters k
def setCluster (s : State) (k : Nat) (v : Cluster) : State := { s with clusters := smSet {} s.clusters k v }
def modCluster (s : State) (k : Nat) (f : Cluster → Cluster) : State := s.setCluster k (f (s.cluster k))
def bank (s : State) (k : Nat) : Bank := smGet {} s.banks k
def modBank (s : State) (k : Nat) (f : Bank → Bank) : State := { s with banks := smMod {} s.banks k f }
def engine (s : State) (k : Nat) : Engine := smGet {} s.engines k
def modEngine (s : State) (k : Nat) (f : Engine → Engine) : State := { s with engines := smMod {} s.engines k f }
def bulkOf (s : State) (k : Nat) : BulkEngine := smGet {} s.bulk k
def modBulk (s : State) (k : Nat) (f : BulkEngine → BulkEngine) : State := { s with bulk := smMod {} s.bulk k f }
def slice (s : State) (k : Nat) : Slice := smGet {} s.slices k
def modSlice (s : State) (k : Nat) (f : Slice → Slice) : State := { s with slices := smMod {} s.slices k f }
def router (s : State) (k : Nat) : Router := smGet {} s.routers k
def modRouter (s : State) (k : Nat) (f : Router → Router) : State := { s with routers := smMod {} s.routers k f }
def ctl (s : State) (k : Nat) : Ctl := smGet {} s.ctls k
def modCtl (s : State) (k : Nat) (f : Ctl → Ctl) : State := { s with ctls := smMod {} s.ctls k f }
def die (s : State) (k : Nat) : Die := smGet {} s.dies k
def modDie (s : State) (k : Nat) (f : Die → Die) : State := { s with dies := smMod {} s.dies k f }
def part (s : State) (k : Nat) : Part := smGet {} s.parts k
def modPart (s : State) (k : Nat) (f : Part → Part) : State := { s with parts := smMod {} s.parts k f }

/-- Let an event be due after those already due. -/
def push (s : State) (e : Instr) : State := { s with due := s.due ++ [e] }
def pushAll (s : State) (es : List Instr) : State := { s with due := s.due ++ es }
/-- An event that is due before those that wait. -/
def pushFirst (s : State) (e : Instr) : State := { s with due := e :: s.due }
/-- An event that waits until the next work cycle. -/
def defer (s : State) (e : Instr) : State := { s with later := s.later ++ [e] }

end State

/-- Apply `f` to the numbers `lo`, …, `lo + n - 1` in order. -/
def forUp {α : Type} (lo : Nat) : Nat → α → (Nat → α → α) → α
  | 0, a, _ => a
  | n + 1, a, f => forUp (lo + 1) n (f lo a) f

/-! ### Bytes of a store, little-endian (R3) -/

/-- `n` bytes at `a` as a number. -/
def rdBytes (m : SMap Byte) (a : Nat) : Nat → Nat
  | 0 => 0
  | n + 1 => (smGet 0 m a).toNat + 256 * rdBytes m (a + 1) n

/-- Store the low `n` bytes of `v` at `a`. -/
def wrBytes (m : SMap Byte) (a v : Nat) : Nat → SMap Byte
  | 0 => m
  | n + 1 => wrBytes (smSet 0 m a (BitVec.ofNat 8 v)) (a + 1) (v / 256) n

/-- A list of bytes as a number, first byte lowest. -/
def bytesNat : List Byte → Nat
  | [] => 0
  | b :: r => b.toNat + 256 * bytesNat r

/-- The low `n` bytes of a number, lowest first. -/
def natBytes (v : Nat) : Nat → List Byte
  | 0 => []
  | n + 1 => BitVec.ofNat 8 v :: natBytes (v / 256) n

/-- The memory's canonical form: addresses strictly rising, no entry equal to what an unlisted address reads as. -/
def Memory.wf (m : List Host.Cell) : Bool := smWf (0 : Byte) m

/-! ### Stops of an instruction -/

/-- How an instruction ends other than by completing. -/
inductive Stop where
  /-- `Trap(cause, v)` (R192). -/
  | trap (cause : Nat) (eval : Word)
  /-- `Park(reason)` (R185). -/
  | park (why : Wait)
  /-- A page fault: access, kind (1 NOTPRESENT to 4 REMAP-EXHAUSTED) and virtual address (R196). -/
  | pageFault (acc : AccessKind) (kind va : Nat)
  /-- The thread is BUSY until the datum of its vault access arrives (R178, R210). -/
  | busy
  /-- A command of an engine reads these vault words through the line ports, and those over the mesh, before it goes on (R207, R217). -/
  | lines (near far : List Nat)
  deriving DecidableEq, Repr

/-- A computation of an instruction: it changes the state and answers, or stops. -/
abbrev M := EStateM Stop State

/-- What an instruction does to the pc when it completes. -/
inductive Next where
  | seq
  | jump (target : Word)
  /-- The completion has been taken care of (the thread ended, or ERET set the pc). -/
  | taken
  deriving DecidableEq, Repr

/-- Causes of R195. -/
def cILLEGAL : Nat := 1
def cPRIVILEGE : Nat := 2
def cSEGLIMIT : Nat := 3
def cSEGRIGHTS : Nat := 4
def cMISALIGN : Nat := 5
def cMINTSTORE : Nat := 6
def cMEMERR : Nat := 7
def cOVERDRAFT : Nat := 8
def cBREAK : Nat := 9
def cSYSCALL : Nat := 10
def cDEADLINE : Nat := 11
def cMATRIX : Nat := 12
def cQUEUEMAP : Nat := 13
def cSTREAM : Nat := 14
def cBARRIER : Nat := 15
def cTASK : Nat := 16

/-- `Trap(cause, v)` (R308). -/
def trap {α : Type} (cause : Nat) (eval : Word := 0) : M α := throw (.trap cause eval)

/-- `Park(reason)` (R308). -/
def park {α : Type} (why : Wait) : M α := throw (.park why)

/-! ### Event counters (R201) -/

/-- Add to counter `i` of a core, saturating. -/
def countN (core i n : Nat) (s : State) : State :=
  s.modCore core fun c =>
    { c with counters := smMod 0 c.counters i fun v => word (Nat.min (v.toNat + n) 0xFFFFFFFF) }

def count (core i : Nat) (s : State) : State := countN core i 1 s

/-! ### Inter-slot queues (R187) -/

/-- Release what slot `k` took and reserved without completing. -/
def qRelease (k : Nat) (q : List QEntry) : List QEntry :=
  (q.filter fun e => !(e.owner = k + 1 && e.val.isNone || e.owner = k + 1 && e.res)).map fun e =>
    if e.owner = k + 1 then { e with owner := 0 } else e

/-- Complete: entries that slot `k` took leave, its written reservations become readable when its result is complete, in work cycle
`at_`. -/
def qSettle (k at_ : Nat) (q : List QEntry) : List QEntry :=
  (q.filter fun e => !(e.owner = k + 1 && (!e.res || e.val.isNone))).map fun e =>
    if e.owner = k + 1 then { e with owner := 0, res := false, ready := at_ } else e

/-- Slot `k` has taken or reserved an entry. -/
def qOwned (k : Nat) (c : Core) : Bool := c.queues.any fun q => q.2.any fun e => e.owner = k + 1

/-- Apply a function to the four queues of a slot's core, if the slot has entries there, and forget what the slot took. -/
def qAll (k : Nat) (f : List QEntry → List QEntry) (s : State) : State :=
  if qOwned k (s.core (coreOf k)) then
    (s.modCore (coreOf k) fun c =>
      { c with queues := forUp 0 4 c.queues fun q m => smMod [] m q f }).modSlot k fun sl => { sl with taken := [] }
  else s

/-! ### Messages to a bursar (R120, R425) -/

/-- Send a device-source message to die `d`'s bursar; type 0 sends nothing. `pos` is laid out as header bits 47:30. -/
def deviceMessage (d pos : Nat) (typ : Byte) (words : List Word) (s : State) : State :=
  if typ = 0 then s
  else s.push (.messageArrive (bursarCore d)
    { typ := typ, sender := word (2 ^ 31 + pos), words := words, cls := 1, device := true })

/-- The position of endpoint `ep` at router (col, row) as in header bits 47:30 (R52, R425). -/
def position (col row ep : Nat) : Nat := col + 32 * row + 1024 * ep

/-- Router column and row of a flat group (R47). -/
def groupCol (g : Nat) : Nat :=
  let c := g / 64; let q := g % 64 / 16; let gq := g % 16
  16 * (c / 4 % 2) + 8 * (c % 4 % 2) + 4 * (q % 2) + gq % 4
def groupRow (g : Nat) : Nat :=
  let c := g / 64; let q := g % 64 / 16; let gq := g % 16
  16 * (c / 4 / 2) + 8 * (c % 4 / 2) + 4 * (q / 2) + gq / 4

/-- A message from a shared unit of a cluster, endpoint 0x5 with index `ix` at group 0 (R48). -/
def clusterMessage (c ix : Nat) (typ : Byte) (words : List Word) (s : State) : State :=
  deviceMessage (dieOfCluster c) (position (groupCol (64 * c)) (groupRow (64 * c)) (0x50 + ix)) typ words s

/-- A message from a core to its die's bursar (R193). -/
def coreMessage (core : Nat) (typ : Byte) (words : List Word) (s : State) : State :=
  deviceMessage (dieOfCluster (unitOf core))
    (position (groupCol (groupOf core)) (groupRow (groupOf core)) (core % 16)) typ words s

/-! ### Ways an instruction or a thread ends -/

/-- The slot with its instruction to be issued again from its chain's first prefix; prefixes that ERET or DRET loaded are
kept (R307). -/
def Slot.rewind (sl : Slot) : Slot :=
  if sl.pv then { sl with taken := [] } else { sl with pc := sl.chain.getD sl.pc, pend := 0, chain := none, taken := [] }

/-- The offset that a fault record or stop message reports (R307). -/
def Slot.reportPc (sl : Slot) : Word := if sl.pv then sl.pc else sl.chain.getD sl.pc

/-- EPC, ECAUSE, EVAL and STATUS.PP as a trap writes them (R192). -/
def Slot.saveTrap (cause : Nat) (eval : Word) (sl : Slot) : Slot :=
  { sl with epc := sl.pc, ecause := word cause, eval := eval, status := putField sl.status 16 16 sl.pend.toNat }

/-- The slot in the handler (R192). DSTEP clears (R392). -/
def Slot.enter (cause : Nat) (eval tvec : Word) (sl : Slot) : Slot :=
  let sl := sl.saveTrap cause eval
  { sl with
    status := putField (putField sl.status 0 1 1) 1 1 0, pc := tvec &&& 0xFFFFFFFE, pend := 0, pv := false
    chain := none, run := .ready, stepDue := false, faultVa := 0, reissue := false, counted := false }

/-- The slot stopped by a trap (R193). -/
def Slot.stop (cause : Nat) (eval : Word) (sl : Slot) : Slot :=
  let sl := if bitOf sl.status 0 then sl else sl.saveTrap cause eval
  { sl.rewind with status := putField sl.status 1 1 0, run := .stopped, stepDue := false, reissue := false, counted := false }

/-- Set ERRBITS of a core (R142). -/
def errBit (core : Nat) (b : Word) (s : State) : State :=
  if b = 0 then s else s.modCore core fun c => { c with errbits := c.errbits ||| b }

/-- Take a trap in slot `k`: enter the handler or stop the thread, with the counters of R201 and the report of R193. -/
def takeTrapAt (k cause : Nat) (eval : Word) (s : State) : State :=
  let core := coreOf k
  let s := qAll k (qRelease k) s
  let s := count core 15 s
  let s := if cause = cDEADLINE then count core 14 s else if cause = cOVERDRAFT then count core 13 s else s
  let s := errBit core (if cause = cMEMERR then 4 else if cause = cDEADLINE then 8 else if cause = cOVERDRAFT then 32 else 0) s
  let tvec := (s.core core).tvec
  let sl := s.slot k
  if bitOf sl.status 0 || !bitOf tvec 0 then
    coreMessage core (s.cluster (unitOf core)).stopmsg [word (k % 16384), word cause, sl.reportPc]
      (s.setSlot k (sl.stop cause eval))
  else s.setSlot k (sl.enter cause eval tvec)

/-- Take a trap in the slot in execution (R192). -/
def takeTrap (cause : Nat) (eval : Word) (s : State) : State := takeTrapAt s.cur cause eval s

/-- Return from a trap (R391): `step` arms the software step of R392. -/
def returnFromTrap (step : Bool) (s : State) : State :=
  s.modMe fun sl =>
    let st := putField (putField sl.status 16 16 0) 0 1 0
    { sl with
      pc := sl.epc, pend := BitVec.ofNat 16 (fieldOf sl.status 16 16), pv := true, chain := none, run := .ready, faultVa := 0
      reissue := false, counted := false
      status := if step then putField st 1 1 1 else st }

/-- Enter PARKED (R185); the counter of parks advances (R201), but for an access that is to be sent when its line or route lets it,
whose one park is counted then. -/
def parkAt (k : Nat) (why : Wait) (s : State) : State :=
  let s := s.modSlot k fun sl => { sl with run := .parked why }
  match why with
  | .cond (.access _) => s
  | _ => count (coreOf k) 5 s

/-- Post a fault record, or hold it while the ring is full (R196, R197). -/
def postRecord (c : Nat) (r : FaultRec) (s : State) : State :=
  let cl := s.cluster c
  if (cl.fbHead - cl.fbTail).toNat < 256 then
    let s' := s.setCluster c
      { cl with fbRing := smSet {} cl.fbRing (cl.fbHead.toNat % 256) { r with seq := cl.fbSeq }
                fbHead := cl.fbHead + 1, fbSeq := (cl.fbSeq + 1) % 2 ^ 32, fbLast := r.slot }
    if cl.fbHead = cl.fbTail then clusterMessage c 4 cl.fbmsg [] s' else s'
  else
    s.setCluster c
      { cl with fbHeld := cl.fbHeld ++ [r], fbOvf := if cl.fbOvf = 0xFFFF then cl.fbOvf else cl.fbOvf + 1 }

def accCode : AccessKind → Nat
  | .fetch => 0 | .load => 1 | .store => 2 | .atomic => 3 | .fullEmpty => 4 | .matrix => 5 | .other => 6

/-- Write the STATUS of the TCB at vault offset `off` of unit `u` (R157, R159). -/
def setTcbStatus (u off st : Nat) (s : State) : State :=
  { s with vault := smMod 0 s.vault (u * 2 ^ 25 + off + 28) fun b => putField b 4 3 st }

/-- Make slot `k` FAULTED and post its record (R196); the task it runs becomes FAULTED (R159). -/
def faultAt (k : Nat) (acc : AccessKind) (kind va : Nat) (s : State) : State :=
  let s := qAll k (qRelease k) s
  let core := coreOf k
  let c := unitOf core
  let cl := s.cluster c
  let sl := s.slot k
  let r : FaultRec :=
    { va := va, pc := sl.reportPc, slot := k % 16384, phys := c, vcl := (cl.launch.map (·.vc)).getD 0, access := accCode acc
      kind := kind, lnum := cl.lnum.toNat, owner := ofBit 32 cl.owBursar <<< 31 ||| cl.owVi.setWidth 32 }
  let s := match sl.tcb with
    | some off => setTcbStatus c off 6 s
    | none => s
  postRecord c r (count core 6 (s.setSlot k { sl.rewind with run := .faulted, faultVa := va, faultAcc := acc, counted := false }))

/-- The end of an instruction that completed: what it took leaves the queues, the pending prefixes are cleared, the pc moves
on, and an armed software step becomes due (R187, R306, R296, R392). -/
def completeAt (k : Nat) (next : Next) (s : State) : State :=
  match next with
  | .taken => qAll k (qSettle k (s.slot k).busyUntil) s
  | n =>
    (qAll k (qSettle k (s.slot k).busyUntil) s).modSlot k fun sl =>
      { sl with
        pc := match n with
          | .jump t => t
          | _ => sl.pc + word sl.irLen
        pend := 0, pv := false, chain := none, run := .ready, faultVa := 0, reissue := false, counted := false
        stepDue := sl.stepDue || bitOf sl.status 1, status := putField sl.status 1 1 0 }

/-- Run the body of an instruction in the slot in execution and end it. -/
def finish (k : Nat) : EStateM.Result Stop State Next → State
  | .ok n s => completeAt k n s
  | .error (.trap c v) s => takeTrapAt k c v s
  | .error (.park w) s => parkAt k w s
  | .error (.pageFault a d va) s => faultAt k a d va s
  | .error .busy s => s.modSlot k fun sl => { sl with run := .busy }
  | .error (.lines ..) s => s

end Sys2Proof.Machine
end

