-- ==== Sys2Proof/Machine/Formats.lean ====
section
/-! DEFINITION. Numbers: exact values, the operand formats of R252 to R257, the mint mixer (R226) that stochastic rounding draws
from (R267), rounding (R262 to R266), and the exact arithmetic of R331 to R333. -/

namespace Sys2Proof.Machine

/-! ### The mixer (R226) -/

/-- One round on (x, K). -/
def mixRound (i : Nat) (x k : BitVec 64) : BitVec 64 × BitVec 64 :=
  let x := x + k + BitVec.ofNat 64 ((i + 1) * 0x6A09E667F3BCC909)
  let x := x ^^^ (x >>> 31)
  let x := x * (if i % 2 = 0 then 0xA3B195F47C2D6E4B else 0xC8D32A61E7F53B1D)
  let x := x ^^^ (x >>> 29)
  (x, k.rotateLeft 23)

/-- `Mixer(K, C)`. -/
def mixer (k c : BitVec 64) : Word :=
  let x := (forUp 0 6 (c, k) fun i p => mixRound i p.1 p.2).1
  (x >>> 32).setWidth 32 ^^^ x.setWidth 32

/-! ### Exact values -/

/-- An exact value. `fin neg m e st` is ±m × 2^e; with `st` the magnitude lies strictly between m × 2^e and (m + 1) × 2^e. -/
inductive Val where
  | nan
  | inf (neg : Bool)
  | fin (neg : Bool) (m : Nat) (e : Int) (st : Bool)
  deriving DecidableEq, Repr

namespace Val

def zero (neg : Bool) : Val := .fin neg 0 0 false
def ofInt (n : Int) : Val := .fin (decide (n < 0)) n.natAbs 0 false
def isNan : Val → Bool
  | .nan => true
  | _ => false
def isInf : Val → Bool
  | .inf _ => true
  | _ => false
def isZero : Val → Bool
  | .fin _ 0 _ st => !st
  | _ => false
def sign : Val → Bool
  | .nan => false
  | .inf n => n
  | .fin n .. => n
def neg : Val → Val
  | .nan => .nan
  | .inf n => .inf !n
  | .fin n m e st => .fin (!n) m e st
/-- Multiply by 2^k, exactly. -/
def scale (k : Int) : Val → Val
  | .fin n m e st => .fin n m (e + k) st
  | v => v

end Val

/-- floor(log2) of a non-zero magnitude m × 2^e. -/
def magLog (m : Nat) (e : Int) : Int := (Nat.log2 m : Int) + e

/-- ±m × 2^e as an integer multiple of 2^u, u ≤ e. -/
def atUnit (neg : Bool) (m : Nat) (e u : Int) : Int :=
  let n : Int := m * 2 ^ (e - u).toNat
  if neg then -n else n

/-- The exact order of two values that are not NaN. -/
def valLt (a b : Val) : Bool :=
  match a, b with
  | .nan, _ => false
  | _, .nan => false
  | .inf n, .inf k => n && !k
  | .inf n, _ => n
  | _, .inf k => !k
  | .fin n m e _, .fin k p f _ => let u := Min.min e f; decide (atUnit n m e u < atUnit k p f u)

def valEq (a b : Val) : Bool :=
  match a, b with
  | .nan, _ => false
  | _, .nan => false
  | .inf n, .inf k => n = k
  | .fin n m e _, .fin k p f _ => let u := Min.min e f; decide (atUnit n m e u = atUnit k p f u)
  | _, _ => false

/-- Compare magnitudes. -/
def magLt (a b : Val) : Bool :=
  let f := fun
    | Val.nan => Val.nan
    | .inf _ => .inf false
    | .fin _ m e st => .fin false m e st
  valLt (f a) (f b)

/-! ### Exact arithmetic (R331); the Bool says that the operation is invalid or has a NaN operand (R265) -/

/-- Sum; an exact zero of opposite signs is −0 under RDN, else +0. -/
def vAdd (rdn : Bool) (a b : Val) : Val × Bool :=
  match a, b with
  | .nan, _ => (.nan, true)
  | _, .nan => (.nan, true)
  | .inf n, .inf k => if n = k then (.inf n, false) else (.nan, true)
  | .inf n, _ => (.inf n, false)
  | _, .inf k => (.inf k, false)
  | .fin n m e s, .fin k p f t =>
    if m = 0 && p = 0 then (.zero (if n = k then n else rdn), false)
    else if m = 0 then (.fin k p f t, false)
    else if p = 0 then (.fin n m e s, false)
    else
      let u := Min.min e f
      let z := atUnit n m e u + atUnit k p f u
      (if z = 0 then .zero rdn else .fin (decide (z < 0)) z.natAbs u false, false)

/-- Product. -/
def vMul (a b : Val) : Val × Bool :=
  match a, b with
  | .nan, _ => (.nan, true)
  | _, .nan => (.nan, true)
  | .inf n, .inf k => (.inf (n != k), false)
  | .inf n, .fin k p _ _ => if p = 0 then (.nan, true) else (.inf (n != k), false)
  | .fin n m _ _, .inf k => if m = 0 then (.nan, true) else (.inf (n != k), false)
  | .fin n m e _, .fin k p f _ => (.fin (n != k) (m * p) (if m * p = 0 then 0 else e + f) false, false)

/-- Quotient m / p × 2^e with at least 96 significant bits. -/
def divVal (neg : Bool) (m p : Nat) (e : Int) : Val :=
  let k := 96 + (Nat.log2 p - Nat.log2 m)
  .fin neg ((m <<< k) / p) (e - k) (decide ((m <<< k) % p ≠ 0))

/-- Quotient; the second Bool says finite non-zero by zero (DZ). -/
def vDiv (a b : Val) : Val × Bool × Bool :=
  match a, b with
  | .nan, _ => (.nan, true, false)
  | _, .nan => (.nan, true, false)
  | .inf _, .inf _ => (.nan, true, false)
  | .inf n, .fin k .. => (.inf (n != k), false, false)
  | .fin n .., .inf k => (.zero (n != k), false, false)
  | .fin n m e _, .fin k p f _ =>
    if p = 0 then (if m = 0 then (.nan, true, false) else (.inf (n != k), false, true))
    else if m = 0 then (.zero (n != k), false, false)
    else (divVal (n != k) m p (e - f), false, false)

/-- The integer square root, bit by bit from bit `i`. -/
def sqrtBits (n : Nat) : Nat → Nat → Nat
  | 0, r => r
  | i + 1, r => let t := r + 2 ^ i; sqrtBits n i (if t * t ≤ n then t else r)

def natSqrt (n : Nat) : Nat := sqrtBits n (Nat.log2 n / 2 + 1) 0

/-- √(m × 2^e) for m ≠ 0 with at least 96 significant bits. -/
def sqrtVal (m : Nat) (e : Int) : Val :=
  let k := 192 + (if (e - 192) % 2 = 0 then 0 else 1)
  let n := m <<< k
  let r := natSqrt n
  .fin false r ((e - k) / 2) (decide (r * r ≠ n))

/-- Square root. -/
def vSqrt : Val → Val × Bool
  | .nan => (.nan, true)
  | .inf true => (.nan, true)
  | .inf false => (.inf false, false)
  | .fin n 0 _ _ => (.zero n, false)
  | .fin true _ _ _ => (.nan, true)
  | .fin false m e _ => (sqrtVal m e, false)

/-! ### Floating-point formats (R252 to R254) -/

/-- A floating-point format: width, mantissa bits, bias, the code of its largest finite value, whether the next code is
infinity, and its canonical NaN. -/
structure FFmt where
  w : Nat
  mb : Nat
  bias : Nat
  top : Nat
  hasInf : Bool
  nan : Option Nat
  deriving DecidableEq, Repr

def fFP32 : FFmt := { w := 32, mb := 23, bias := 127, top := 0x7F7FFFFF, hasInf := true, nan := some 0x7FC00000 }
def fBF16 : FFmt := { w := 16, mb := 7, bias := 127, top := 0x7F7F, hasInf := true, nan := some 0x7FC0 }
def fFP16 : FFmt := { w := 16, mb := 10, bias := 15, top := 0x7BFF, hasInf := true, nan := some 0x7E00 }
def fE4M3 : FFmt := { w := 8, mb := 3, bias := 7, top := 0x7E, hasInf := false, nan := some 0x7F }
def fE5M2 : FFmt := { w := 8, mb := 2, bias := 15, top := 0x7B, hasInf := true, nan := some 0x7E }
def fE3M2 : FFmt := { w := 6, mb := 2, bias := 3, top := 0x1F, hasInf := false, nan := none }
def fE2M3 : FFmt := { w := 6, mb := 3, bias := 1, top := 0x1F, hasInf := false, nan := none }
def fE2M1 : FFmt := { w := 4, mb := 1, bias := 1, top := 0x7, hasInf := false, nan := none }

/-- The exponent of the smallest subnormal. -/
def FFmt.unit (f : FFmt) : Int := 1 - f.bias - f.mb

/-- The value of an encoding (R253, R254). -/
def FFmt.decode (f : FFmt) (x : Nat) : Val :=
  let neg := decide (x / 2 ^ (f.w - 1) % 2 = 1)
  let ix := x % 2 ^ (f.w - 1)
  if ix ≤ f.top then
    let e := ix / 2 ^ f.mb
    if e = 0 then .fin neg ix (if ix = 0 then 0 else f.unit) false
    else .fin neg (2 ^ f.mb + ix % 2 ^ f.mb) (f.unit + (e - 1 : Nat)) false
  else if f.hasInf && ix = f.top + 1 then .inf neg
  else .nan

/-! ### Rounding (R262 to R267) -/

/-- What rounding reads: the mode 0 to 6 (R262), the key and WIDLO of a stochastic draw. -/
structure RCtx where
  mode : Nat
  key : BitVec 64 := 0
  widLo : Word := 0
  deriving DecidableEq, Repr

def RCtx.sat (r : RCtx) : Bool := r.mode = 4 || r.mode = 6
def RCtx.rdn (r : RCtx) : Bool := r.mode = 2

/-- What an instruction's results show: FFLAGS bits, stochastic draws, a NaN produced. -/
structure Fx where
  fl : BitVec 6 := 0
  draws : Nat := 0
  nan : Bool := false
  deriving DecidableEq, Repr

def Fx.or (a b : Fx) : Fx := { fl := a.fl ||| b.fl, draws := a.draws + b.draws, nan := a.nan || b.nan }

/-- FFLAGS bits (R268). -/
def fNX : BitVec 6 := 1
def fUF : BitVec 6 := 2
def fOV : BitVec 6 := 4
def fDZ : BitVec 6 := 8
def fNV : BitVec 6 := 16
def fCZ : BitVec 6 := 32

/-- Whether the mode picks the larger magnitude: `q` is the smaller, the value lies rem / 2^sh of a step above it. -/
def roundsUp (r : RCtx) (lane : Nat) (neg : Bool) (q rem sh : Nat) (st : Bool) : Bool :=
  match r.mode with
  | 1 => false
  | 2 => neg
  | 3 => !neg
  | 5 | 6 =>
    let d := rem * 2 ^ 24 / 2 ^ sh
    let c := BitVec.ofNat 64 (r.widLo.toNat * 2 ^ 32 + lane % 256 * 2 ^ 24 + d)
    decide (fieldOf (mixer r.key c) 8 24 < d)
  | _ => decide (2 ^ sh < 2 * rem) || (decide (2 * rem = 2 ^ sh) && (st || decide (q % 2 = 1)))

/-- The candidate chosen at unit 2^u: its magnitude in units, whether the value was inexact. -/
def roundAt (r : RCtx) (lane : Nat) (neg : Bool) (m : Nat) (e u : Int) (st : Bool) : Nat × Bool :=
  if u ≤ e then (m <<< (e - u).toNat, st)
  else
    let sh := (u - e).toNat
    let q := m >>> sh
    let rem := m % 2 ^ sh
    if rem = 0 && !st then (q, false)
    else (if roundsUp r lane neg q rem sh st then q + 1 else q, true)

/-- The draws of one inexact element. -/
def drawOf (r : RCtx) (inexact : Bool) : Nat := if inexact && (r.mode = 5 || r.mode = 6) then 1 else 0

/-- The encoding of a sign and a magnitude code. -/
def FFmt.enc (f : FFmt) (neg : Bool) (ix : Nat) : Nat := ix + (if neg then 2 ^ (f.w - 1) else 0)

/-- An overflow resolves to infinity (R264). -/
def toInf (f : FFmt) (r : RCtx) (neg : Bool) : Bool :=
  f.hasInf && match r.mode with
    | 0 | 5 => true
    | 2 => neg
    | 3 => !neg
    | _ => false

/-- `Round(v, F, mode)` (R263 to R265): the code and what it shows. A NaN in a format without NaN gives 0. -/
def FFmt.round (f : FFmt) (r : RCtx) (lane : Nat) (v : Val) : Nat × Fx :=
  match v with
  | .nan => (f.nan.getD 0, { fl := fNV, nan := f.nan.isSome })
  | .inf n =>
    if f.hasInf && !r.sat then (f.enc n (f.top + 1), {}) else (f.enc n f.top, { fl := fOV })
  | .fin n 0 _ _ => (f.enc n 0, {})
  | .fin n m e st =>
    let uTop := f.unit + (f.top / 2 ^ f.mb - 1 : Nat)
    let u := Min.min (Max.max (magLog m e - f.mb) f.unit) uTop
    let (q, inexact) := roundAt r lane n m e u st
    let ix := (u - f.unit).toNat * 2 ^ f.mb + q
    let d := drawOf r inexact
    if f.top < ix then
      (f.enc n (if toInf f r n then f.top + 1 else f.top), { fl := fOV ||| fNX, draws := d })
    else
      (f.enc n ix,
        { fl := (if inexact then fNX else 0) ||| (if inexact && decide (ix < 2 ^ f.mb) then fUF else 0), draws := d })

/-- Round to an integer in [lo, hi] (R264 to R266). -/
def roundInt (lo hi : Int) (r : RCtx) (lane : Nat) (v : Val) : Int × Fx :=
  match v with
  | .nan => (0, { fl := fNV })
  | .inf n => (if n then lo else hi, { fl := fOV })
  | .fin n m e st =>
    let (q, inexact) := roundAt r lane n m e 0 st
    let z : Int := if n then -q else q
    let fx : BitVec 6 := if inexact then fNX else 0
    let d := drawOf r inexact
    if z < lo then (lo, { fl := fx ||| fOV, draws := d })
    else if hi < z then (hi, { fl := fx ||| fOV, draws := d })
    else (z, { fl := fx, draws := d })

/-- Round to `bits` significant bits at any exponent (R263, R261): a value again. -/
def roundSig (bits : Nat) (r : RCtx) (lane : Nat) (v : Val) : Val × Fx :=
  match v with
  | .fin n m e st =>
    if m = 0 then (v, {})
    else
      let u := magLog m e - (bits - 1 : Nat)
      let (q, inexact) := roundAt r lane n m e u st
      (.fin n q u false, { fl := if inexact then fNX else 0, draws := drawOf r inexact })
  | v => (v, {})

def rneCtx : RCtx := { mode := 0 }

/-- Round to FP32 and decode again: the value that an FP32 step leaves. -/
def toFp32 (r : RCtx) (lane : Nat) (v : Val) : Word × Fx :=
  let (c, fx) := fFP32.round r lane v
  (word c, fx)

def ofFp32 (w : Word) : Val := fFP32.decode w.toNat

/-- The FP32 step of an operation: NV when it was invalid. -/
def fp32Step (p : Val × Bool) : Word × Fx :=
  let (w, fx) := toFp32 rneCtx 0 p.1
  (w, if p.2 then { fx with fl := fx.fl ||| fNV } else fx)

/-! ### Element formats -/

/-- The floating-point format of a code of R252, where it has one (E4M3 and E5M2 stand for their MX elements too). -/
def fmtOf (code : Nat) : Option FFmt :=
  match code with
  | 0 => some fFP32 | 1 => some fBF16 | 2 => some fFP16 | 3 => some fE4M3 | 4 => some fE5M2
  | 5 => some fE4M3 | 6 => some fE5M2 | 7 => some fE3M2 | 8 => some fE2M3 | 9 => some fE2M1
  | _ => none

/-- Element bits (R252); a CF8 element has 8 on average. -/
def elemBits (code : Nat) : Nat :=
  match code with
  | 0 => 32 | 1 => 16 | 2 => 16 | 7 => 6 | 8 => 6 | 9 => 4 | 12 => 4 | 13 => 32 | 14 => 32
  | _ => 8

/-- A format whose elements stand in MX blocks with a scale (R252). -/
def isMx (code : Nat) : Bool := 5 ≤ code && code ≤ 10

/-- The signed integer of `w` bits. -/
def sInt (w x : Nat) : Int :=
  let x := x % 2 ^ w
  if 2 ^ (w - 1) ≤ x then (x : Int) - 2 ^ w else x

/-- The exact value of a real element before any scale (R253, R255). -/
def elemVal (code x : Nat) : Val :=
  match fmtOf code with
  | some f => f.decode x
  | none =>
    match code with
    | 10 => (Val.ofInt (sInt 8 x)).scale (-6)
    | 12 => .ofInt (sInt 4 x)
    | _ => .ofInt (sInt 8 x)

/-- The value of an E8M0 scale (R257); none is NaN. -/
def e8m0 (s : Nat) : Option Int := if s = 0xFF then none else some ((s : Int) - 127)

/-- A decoded MX element: its value times the block's scale. -/
def scaled (s : Nat) (v : Val) : Val :=
  match e8m0 s with
  | some k => v.scale k
  | none => .nan

end Sys2Proof.Machine
end

