-- ==== Sys2Proof/Machine/Blocks.lean ====
section
/-! DEFINITION. Blocks of 32 elements: MX blocks (R257, R258), CF8 blocks (R259 to R261), and the elements of a row (R256). -/

namespace Sys2Proof.Machine

/-- Merge what the parts of a result show. -/
def fxAll (l : List Fx) : Fx := l.foldl Fx.or {}

/-- The bits of `n` elements of a row of format `f` that starts at byte `b` of an operand. -/
def rowElems (f data b n : Nat) : List Nat :=
  (List.range n).map fun k => (data >>> (8 * b + elemBits f * k)) % 2 ^ elemBits f

/-- A row's bytes from element codes of `bits` bits. -/
def packRow (bits : Nat) (l : List Nat) : Nat := l.foldr (fun c a => c % 2 ^ bits + 2 ^ bits * a) 0

/-! ### MX blocks (R258) -/

/-- emax of an MX element format. -/
def mxEmax (f : Nat) : Int :=
  match f with
  | 5 => 8 | 6 => 15 | 7 => 4 | 8 => 2 | 9 => 2
  | _ => 0

/-- One MX element's code. -/
def mxElem (f : Nat) (r : RCtx) (lane : Nat) (v : Val) : Nat × Fx :=
  match fmtOf f with
  | some g => g.round r lane v
  | none =>
    let p := roundInt (-128) 127 r lane (v.scale 6)
    ((p.1 % 256).toNat, p.2)

/-- The exponent of the largest magnitude; none when all are zero. -/
def maxLog (l : List Val) : Option Int :=
  l.foldl (fun a v => match v with
    | .fin _ m e _ => if m = 0 then a else some (match a with
      | some x => Max.max x (magLog m e)
      | none => magLog m e)
    | _ => a) none

/-- Quantise 32 values into the scale and codes of one MX block; lanes count from `lane`. -/
def mxQuantise (f : Nat) (r : RCtx) (lane : Nat) (vs : List Val) : Nat × List Nat × Fx :=
  if vs.any fun v => v.isNan || v.isInf then (0xFF, vs.map fun _ => 0, { fl := fNV })
  else match maxLog vs with
    | none => (0x7F, vs.map fun _ => 0, {})
    | some x =>
      let s : Int := Min.min (Max.max (x - mxEmax f + 127) 0) 254
      let p := vs.mapIdx fun i v => mxElem f r ((lane + i) % 256) (v.scale (127 - s))
      (s.toNat, p.map (·.1), fxAll (p.map (·.2)))

/-! ### CF8 blocks (R259 to R261) -/

/-- The 256-bit stream of a block's 32 bytes: stream bit p is bit 255 − p; and back. -/
def cf8Stream (d : Nat) : Nat := bytesNat (natBytes d 32).reverse

/-- `n` stream bits from bit `p`, followed by zeros past the end. -/
def cf8Field (st p n : Nat) : Nat := (st * 2 ^ 32) >>> (288 - p - n) % 2 ^ n

/-- The token at bit `p`: its delta (none for a zero element) and its length. -/
def cf8Token (st p : Nat) : Option Nat × Nat :=
  let t := cf8Field st p 6
  if t < 32 then (some 0, 1)
  else if t < 48 then (some 1, 2)
  else if t < 56 then (some 2, 3)
  else if t < 60 then (some 3, 4)
  else if t < 62 then (some (4 + cf8Field st (p + 5) 2), 7)
  else if t = 62 then (some (8 + cf8Field st (p + 6) 3), 9)
  else (none, 6)

/-- `n` tokens from bit `p`, and where they end; none past the block. -/
def cf8Tokens (st : Nat) : Nat → Nat → Option (List (Option Nat) × Nat)
  | 0, p => some ([], p)
  | n + 1, p =>
    let t := cf8Token st p
    if 256 < p + t.2 then none
    else (cf8Tokens st n (p + t.2)).map fun r => (t.1 :: r.1, r.2)

/-- The value of an element with `m` mantissa bits. -/
def cf8Value (mb : Nat) (eb : Int) (s : Bool) (man : Nat) (d : Option Nat) : Val :=
  match d with
  | none => .zero s
  | some d => .fin s (2 ^ mb + man) (eb - d - 31 - mb) false

/-- Decode a block; the flag says that it is malformed. -/
def cf8Decode (data : Nat) : List Val × Bool :=
  let st := cf8Stream data
  let mode := cf8Field st 0 2
  let eb : Int := cf8Field st 2 6
  let bad : List Val × Bool := (List.replicate 32 (.zero false), true)
  if mode = 3 then bad
  else if mode = 2 then
    if cf8Field st 232 24 ≠ 0 then bad
    else ((List.range 32).map fun i =>
      let v := cf8Field st (8 + 7 * i + 1) 3
      cf8Value 3 eb (cf8Field st (8 + 7 * i) 1 = 1) (cf8Field st (8 + 7 * i + 4) 3) (if v = 7 then none else some v), false)
  else
    let mb := if mode = 0 then 4 else 3
    match cf8Tokens st 32 (8 + 32 * (1 + mb)) with
    | none => bad
    | some (ts, p) =>
      if st % 2 ^ (256 - p) ≠ 0 then bad
      else (ts.mapIdx fun i d =>
        cf8Value mb eb (cf8Field st (8 + (1 + mb) * i) 1 = 1) (cf8Field st (8 + (1 + mb) * i + 1) mb) d, false)

/-- The token of a delta: its bits and length. -/
def cf8TokenOf (d : Option Nat) : Nat × Nat :=
  match d with
  | none => (63, 6)
  | some d =>
    if d < 4 then (2 ^ (d + 1) - 2, d + 1)
    else if d < 8 then (0b11110 * 4 + (d - 4), 7)
    else (0b111110 * 8 + (d - 8), 9)

/-- Join fields written most significant bit first. -/
def joinFields (l : List (Nat × Nat)) : Nat × Nat := l.foldl (fun a f => (a.1 * 2 ^ f.2 + f.1, a.2 + f.2)) (0, 0)

/-- An element as a trial of a mode leaves it: sign, mantissa, delta, flags. -/
def cf8Elem (mb reach : Nat) (top : Int) (v : Val) (p : Val × Fx) : Bool × Nat × Option Nat × Fx :=
  match p.1 with
  | .fin s m e _ =>
    if m = 0 then (v.sign, 0, none, p.2)
    else if top < magLog m e then (s, 2 ^ mb - 1, some 0, { p.2 with fl := p.2.fl ||| fOV })
    else
      let d := (top - magLog m e).toNat
      if reach < d then (v.sign, 0, none, { p.2 with fl := p.2.fl ||| fCZ })
      else (s, m * 2 ^ mb / 2 ^ Nat.log2 m % 2 ^ mb, some d, p.2)
  | .inf s => (s, 2 ^ mb - 1, some 0, { p.2 with fl := p.2.fl ||| fOV })
  | .nan => (false, 0, none, p.2)

/-- One mode tried on a block: its stream and flags, or none when its tokens do not fit. -/
def cf8Try (mode : Nat) (r : RCtx) (lane : Nat) (vs : List Val) : Option (Nat × Fx) :=
  let mb := if mode = 0 then 4 else 3
  let reach := if mode = 2 then 6 else 15
  let rs := vs.mapIdx fun i v => roundSig (1 + mb) r ((lane + i) % 256) v
  let eb : Int :=
    if rs.any fun p => p.1.isInf then 63
    else match maxLog (rs.map (·.1)) with
      | some x => Min.min (Max.max x (-31)) 32 + 31
      | none => 0
  let es := List.zipWith (cf8Elem mb reach (eb - 31)) vs rs
  let head := [(mode, 2), (eb.toNat, 6)]
  let fx := fxAll (es.map (·.2.2.2))
  if mode = 2 then
    let f := joinFields (head ++ es.flatMap fun e => [(e.1.toNat, 1), (e.2.2.1.getD 7, 3), (e.2.1, 3)])
    some (f.1 * 2 ^ (256 - f.2), fx)
  else
    let f := joinFields (head ++ (es.flatMap fun e => [(e.1.toNat, 1), (e.2.1, mb)]) ++ es.map fun e => cf8TokenOf e.2.2.1)
    if f.2 ≤ 256 then some (f.1 * 2 ^ (256 - f.2), fx) else none

/-- Encode 32 values into the 32 bytes of one CF8 block. -/
def cf8Encode (r : RCtx) (lane : Nat) (vs : List Val) : Nat × Fx :=
  if vs.any Val.isNan then
    let f := joinFields ([(2, 2), (0, 6)] ++ (List.replicate 32 [(0, 1), (7, 3), (0, 3)]).flatten)
    (cf8Stream (f.1 * 2 ^ (256 - f.2)), { fl := fNV })
  else
    match [0, 1, 2].findSome? fun m => cf8Try m r lane vs with
    | some p => (cf8Stream p.1, p.2)
    | none => (0, {})

/-! ### Elements of any format -/

/-- `n` decoded elements of a row of format `f` at byte `b`, without scales; a malformed CF8 block shows NV (R252 to R260). -/
def rowVals (f data b n : Nat) : List Val × Fx :=
  if f = 15 then
    let bs := (List.range (n / 32)).map fun h => cf8Decode ((data >>> (8 * (b + 32 * h))) % 2 ^ 256)
    (bs.flatMap (·.1), { fl := if bs.any (·.2) then fNV else 0 })
  else ((rowElems f data b n).map (elemVal f), {})

end Sys2Proof.Machine
end

