-- ==== Sys2Proof/Machine/Operands.lean ====
section
/-! DEFINITION. Operands: registers with g0 and the queue mapping (R187, R293), the tests that come before every instruction
(R192, R186, R305), and memory operands (R229 to R231). -/

namespace Sys2Proof.Machine

/-! ### Registers -/

/-- g[r] of slot `k`: g0 reads 0; a register whose queue entry the instruction took reads that entry (R293, R187). -/
def regAt (k : Nat) (r : Reg) (s : State) : Word :=
  if r = 0 then 0
  else match (s.slot k).taken.lookup (r.toNat - 28) with
    | some v => if 28 ≤ r.toNat then v else smGet 0 (s.slot k).g r.toNat
    | none => smGet 0 (s.slot k).g r.toNat

def State.reg (s : State) (r : Reg) : Word := regAt s.cur r s

/-- Write a reservation of `owner` in a queue; `none` when there is none. -/
def qFill (owner : Nat) (v : Word) : List QEntry → Option (List QEntry)
  | [] => none
  | e :: r =>
    if e.res && e.owner = owner && e.val.isNone then some ({ e with val := some v } :: r)
    else (qFill owner v r).map (e :: ·)

/-- Write g[r] of slot `k`: g0 discards; a reserved queue entry takes the value of a mapped register (R293, R187). -/
def setRegOwned (owner k : Nat) (r : Reg) (v : Word) (s : State) : State :=
  if r = 0 then s
  else
    let plain := s.modSlot k fun sl => { sl with g := smSet 0 sl.g r.toNat v }
    if r.toNat < 28 then plain
    else match qFill owner v (smGet [] (s.core (coreOf k)).queues (r.toNat - 28)) with
      | some q => s.modCore (coreOf k) fun c => { c with queues := smSet [] c.queues (r.toNat - 28) q }
      | none => plain

def setRegAt (k : Nat) (r : Reg) (v : Word) (s : State) : State := setRegOwned (k + 1) k r v s
def State.setReg (s : State) (r : Reg) (v : Word) : State := setRegAt s.cur r v s

/-- Write consecutive registers from `r`. -/
def setRegsAt (k : Nat) (r : Reg) : List Word → State → State
  | [], s => s
  | v :: vs, s => setRegsAt k (r + 1) vs (setRegAt k r v s)

/-- The values of `n` consecutive registers from `r`. -/
def State.regs (s : State) (r : Reg) : Nat → List Word
  | 0 => []
  | n + 1 => s.reg r :: State.regs s (r + 1) n

/-- x[n] of the slot in execution (R294). -/
def State.xreg (s : State) (n : Nat) : Word := smGet 0 s.me.x n

/-- s[n] of the slot in execution (R294). -/
def State.seg (s : State) (n : Nat) : BitVec 128 := smGet 0 s.me.sg n

/-- The level of the thread: 0 U, 1 S, 3 M (R402). -/
def State.prv (s : State) : Nat := fieldOf s.me.status 8 2

/-! ### The pending prefix (R305, R306, R308) -/

def State.fv (s : State) : Bool := bitOf s.me.pend 15
def State.relaxed (s : State) : Bool := bitOf s.me.pend 3
def State.cv (s : State) : Bool := bitOf s.me.pend 2
/-- `FmtA()` and `FmtB()` (R308, R268). -/
def State.fmtA (s : State) : Nat := if s.fv then fieldOf s.me.pend 4 4 else fieldOf s.me.fmtdef 0 4
def State.fmtB (s : State) : Nat := if s.fv then fieldOf s.me.pend 8 4 else fieldOf s.me.fmtdef 4 4

/-! ### The tests before an instruction -/

/-- What an instruction accepts and names. -/
structure Form where
  /-- Prefixes accepted (R305). -/
  fmt : Bool := false
  rel : Bool := false
  cls : Bool := false
  /-- A field value or format that the instruction refuses. -/
  illegal : Bool := false
  /-- Absent on a bursar core (R425). -/
  noBursar : Bool := false
  /-- Needs S (R111, R389), with the EVAL of its PRIVILEGE trap. -/
  priv : Bool := false
  privEval : Word := 0
  /-- The base of a memory operand, and ranges of registers read or written (R188). -/
  base : Option Reg := none
  ranges : List (Reg × Nat) := []
  src : List Reg := []
  dst : List Reg := []

/-- How the tests end. -/
inductive Gate where
  | go
  | trap (cause : Nat) (eval : Word)
  | park (c : Cond)
  deriving DecidableEq, Repr

/-- gi+28 is mapped onto qi (R187). -/
def State.mapped (s : State) (r : Reg) : Bool := decide (28 ≤ r.toNat) && bitOf s.me.qmap (r.toNat - 28)

/-- Every register of a range. -/
def rangeRegs : Reg → Nat → List Reg
  | _, 0 => []
  | r, n + 1 => r :: rangeRegs (r + 1) n

/-- An FMT pair that joins a complex format with one that is not (R304). -/
def mixedPair (pend : BitVec 16) : Bool :=
  decide (13 ≤ fieldOf pend 4 4 ∧ fieldOf pend 4 4 ≤ 14) != decide (13 ≤ fieldOf pend 8 4 ∧ fieldOf pend 8 4 ≤ 14)

/-- A pending prefix that the form does not accept (R305, R306). -/
def Form.refuses (f : Form) (pend : BitVec 16) : Bool :=
  (bitOf pend 15 && (!f.fmt || mixedPair pend)) || (bitOf pend 3 && !f.rel) || (bitOf pend 2 && (!f.cls || fieldOf pend 0 2 = 3))

/-- A register that R188 forbids. -/
def Form.queueMap (f : Form) (s : State) : Option Reg :=
  (f.base.toList ++ f.ranges.flatMap fun p => rangeRegs p.1 p.2).find? s.mapped

/-- Numbers as the set bits of a word. -/
def bitsOf (w : Nat) (l : List Nat) : BitVec w := l.foldl (fun m n => m ||| BitVec.ofNat w (2 ^ n)) 0

/-- The registers that the form names. -/
def Form.named (f : Form) : Word :=
  bitsOf 32 ((f.base.toList ++ f.src ++ f.dst ++ f.ranges.flatMap fun p => rangeRegs p.1 p.2).map (·.toNat))

/-- The queues that a list of registers is mapped onto. -/
def State.queuesOf (s : State) (l : List Reg) : BitVec 4 := bitsOf 4 ((l.filter s.mapped).map fun r => r.toNat - 28)

/-- A source queue has no head entry that can be taken in work cycle `now`, or a destination queue no free entry (R187). -/
def queueBlocked (now : Nat) (c : Core) (src dst : BitVec 4) : Bool :=
  (List.range 4).any fun i =>
    (bitOf src i && match smGet [] c.queues i with
      | [] => true
      | e :: _ => e.val.isNone || e.owner ≠ 0 || decide (now < e.ready)) ||
    (bitOf dst i && decide (8 ≤ (smGet [] c.queues i).length))

/-- The work cycle of a core (R403). -/
def nowAt (s : State) (core : Nat) : Nat := (s.cluster (unitOf core)).cycle.toNat

/-- The tests of R192 that come before an instruction's own, then the waits of IS (R186, R187). -/
def gate (f : Form) (s : State) : Gate :=
  if f.refuses s.me.pend || f.illegal || (f.noBursar && isBursar s.myCore) then .trap cILLEGAL s.me.ir
  else if f.priv && s.prv = 0 then .trap cPRIVILEGE f.privEval
  else match f.queueMap s with
    | some r => .trap cQUEUEMAP (r.setWidth 32)
    | none =>
      if s.me.marks &&& f.named ≠ 0 then .park (.mark f.named)
      else if !qOwned s.cur (s.core s.myCore) && queueBlocked (nowAt s s.myCore) (s.core s.myCore) (s.queuesOf f.src) (s.queuesOf f.dst) then
        .park (.queue (s.queuesOf f.src) (s.queuesOf f.dst))
      else .go

/-- Take the head of a source queue. -/
def takeHead (s : State) (r : Reg) : State :=
  let c := s.core s.myCore
  match smGet [] c.queues (r.toNat - 28) with
  | e :: q =>
    (s.setCore s.myCore { c with queues := smSet [] c.queues (r.toNat - 28) ({ e with owner := s.cur + 1 } :: q) }).modMe
      fun sl => { sl with taken := sl.taken ++ [(r.toNat - 28, e.val.getD 0)] }
  | [] => s

/-- Reserve the tail of a destination queue. -/
def reserveTail (owner : Nat) (s : State) (r : Reg) : State :=
  s.modCore s.myCore fun c =>
    { c with queues := smMod [] c.queues (r.toNat - 28) fun q => q ++ [{ owner := owner, res := true }] }

/-- Take and reserve what the form names through mapped registers (R187). -/
def claim (f : Form) (s : State) : State :=
  let src := (f.src.filter s.mapped).dedup
  let dst := (f.dst.filter s.mapped).dedup
  if src.isEmpty && dst.isEmpty || qOwned s.cur (s.core s.myCore) then s
  else dst.foldl (reserveTail (s.cur + 1)) (src.foldl takeHead s)

/-- An instruction that a queue holds back has not issued: nothing is counted but a bubble, the thread is not BUSY, and a step is still to
be made (R187, R200, R201). -/
def unissue (s : State) : State :=
  match s.me.undo with
  | none => s
  | some b =>
    let n := s.myCore
    let s := (s.modCore n fun c => { c with counters := smSet 0 (smSet 0 c.counters 7 b.issued) 9 b.lent, step := b.step }).modMe fun sl =>
      { sl with busyUntil := b.busyUntil, counted := b.counted, undo := none }
    if (s.core n).halt then s else count n 8 s

/-- What the instruction's park takes back: one on a queue is no issue (R187). -/
def heldBack (c : Cond) (s : State) : State :=
  match c with
  | .queue .. => unissue s
  | _ => s

/-- An instruction: its tests, then its body. -/
def instr (f : Form) (body : M Next) (s : State) : Host.Outcome State Fault Refusal :=
  .next <| match gate f s with
    | .go => finish s.cur (body (claim f s))
    | .trap c v => takeTrap c v s
    | .park c => parkAt s.cur (.cond c) (heldBack c s)

/-- An instruction that only changes the state and goes on. -/
def instrUpd (f : Form) (body : State → State) (s : State) : Host.Outcome State Fault Refusal :=
  instr f (fun s => .ok .seq (body s)) s

/-- d from a and b. -/
def op3 (d a b : Reg) (f : Word → Word → Word) (s : State) : Host.Outcome State Fault Refusal :=
  instrUpd { src := [a, b], dst := [d] } (fun s => s.setReg d (f (s.reg a) (s.reg b))) s

/-- d from a. -/
def op2 (d a : Reg) (f : Word → Word) (s : State) : Host.Outcome State Fault Refusal :=
  instrUpd { src := [a], dst := [d] } (fun s => s.setReg d (f (s.reg a))) s

/-- The state of the computation. -/
def look {α : Type} (f : State → α) : M α := fun s => .ok (f s) s
def upd (f : State → State) : M Unit := fun s => .ok () (f s)

/-! ### Segment descriptors (R229, R230) -/

def segBase (d : BitVec 128) : Nat := fieldOf d 0 56
def segType (d : BitVec 128) : Nat := fieldOf d 56 3
def segLimit (d : BitVec 128) : Nat := fieldOf d 64 32
def segRights (d : BitVec 128) : Nat := fieldOf d 96 5
def segClass (d : BitVec 128) : Nat := fieldOf d 101 2
def segCluster (d : BitVec 128) : Nat := fieldOf d 103 4
def segOwn (d : BitVec 128) : Bool := bitOf d 107

/-- A descriptor is valid (R230; `bursar` as R425). `nc` is the launch's NCLUSTER. -/
def segValid (bursar : Bool) (nc : Nat) (d : BitVec 128) : Bool :=
  fieldOf d 108 20 = 0 && fieldOf d 59 5 = 0 && segClass d ≠ 3 &&
  match segType d with
  | 0 => d = 0
  | 1 => bitOf d 98 && !bitOf d 97 && !bitOf d 99 && !bitOf d 100 && segBase d % 2 = 0 &&
      decide (segBase d + segLimit d ≤ if bursar then 0x400000 else 2 ^ 56) && !segOwn d && segCluster d = 0
  | 2 => !bitOf d 98 && decide (segBase d + segLimit d ≤ 2 ^ 56) && !segOwn d && segCluster d = 0
  | 3 => !bitOf d 98 && decide (segBase d + segLimit d ≤ if bursar then 0x400000 else 0x8000000) &&
      (if segOwn d then decide (segCluster d = 0) else !bursar && decide (segCluster d < nc))
  | 4 => !bursar && segRights d = 1 && decide (0x4000000 ≤ segBase d) && decide (segBase d + segLimit d ≤ 0x8000000) &&
      !segOwn d && segCluster d = 0
  | _ => false

/-- `Cls(seg)` (R308). -/
def State.clsOf (s : State) (d : BitVec 128) : Nat := if s.cv then fieldOf s.me.pend 0 2 else segClass d

/-! ### Memory operands (R231) -/

/-- The accesses of R231 and R238. -/
def aLoad : Access := { kind := .load, r := true }
def aStore : Access := { kind := .store, w := true }
def aFetch : Access := { kind := .fetch, x := true }
def aTeller : Access := { kind := .atomic, r := true, w := true }
def aLwf : Access := { kind := .fullEmpty, r := true, fe := true }
def aLwt : Access := { kind := .fullEmpty, r := true, w := true, fe := true }
def aSwp : Access := { kind := .fullEmpty, w := true, fe := true }

/-- The segment's type and rights allow the access (the table of R231). -/
def segAllows (d : BitVec 128) (acc : Access) : Bool :=
  (!acc.r || bitOf d 96) && (!acc.w || bitOf d 97) && (!acc.x || bitOf d 98) && (!acc.fe || bitOf d 99) &&
  (acc.kind ≠ .atomic || bitOf d 100) &&
  (if acc.x then decide (segType d = 1)
   else if acc.w || acc.fe then decide (segType d = 2) || decide (segType d = 3)
   else decide (1 ≤ segType d) && decide (segType d ≤ 4))

/-- The vault bound of R204, R217 and R425: the address lies where the segment's store does not reach. -/
def vaultBeyond (bursar : Bool) (d : BitVec 128) (a : Nat) : Bool :=
  if segType d = 3 || segType d = 4 || (bursar && segType d = 1) then
    if bursar then decide (0x400000 ≤ a)
    else decide (0x8000000 ≤ a) || (decide (segType d = 3) && !segOwn d && decide (0x4000000 ≤ a))
  else false

/-- The checks of R231 in the order of R192 on `n` bytes at offset `o`, aligned on `al`; `none` when all pass. -/
def segTest (bursar : Bool) (d : BitVec 128) (o n al : Nat) (acc : Access) : Option Nat :=
  let a := segBase d + o
  if a % al ≠ 0 then some cMISALIGN
  else if segLimit d < o + n || vaultBeyond bursar d (a + (n - 1)) then some cSEGLIMIT
  else if !segAllows d acc then some cSEGRIGHTS
  else if !bursar && segType d = 3 && (acc.w || acc.fe) && decide (0x4000000 < a + n) then some cMINTSTORE
  else none

/-- The checks as a computation, with EVAL = `o`; answers the address BASE + o. -/
def segCheck (d : BitVec 128) (o n al : Nat) (acc : Access) : M Nat := fun s =>
  match segTest (isBursar s.myCore) d o n al acc with
  | some c => .error (.trap c (word o)) s
  | none => .ok (segBase d + o) s

/-- A vault offset in the interleaved view (R205). -/
def interleaved (v : Nat) : Nat :=
  if v < 0x2000000 then v
  else
    let g := (v - 0x2000000) / 0x80000
    let u := (v - 0x2000000) % 0x80000 / 4
    4 * (2048 * (u / 32) + 32 * g + u % 32) + v % 4

/-- The offset of a memory operand: base register + immediate (R231). -/
def State.memOffset (s : State) (a : Reg) (imm : Word) : Nat := (s.reg a + imm).toNat

end Sys2Proof.Machine
end

