-- ==== Sys2Proof/Machine/Flags.lean ====
section
/-! DEFINITION. FFLAGS, the event counters that go with it (R201, R268), the rounding mode (R262, R308), and flags of saturation
(R321, R325, R326). -/

namespace Sys2Proof.Machine

/-- OR flags into slot `k`'s FFLAGS (R268). -/
def flagSlot (k : Nat) (fx : Fx) (s : State) : State :=
  if fx.fl = 0 then s else s.modSlot k fun sl => { sl with fflags := sl.fflags ||| fx.fl.setWidth 32 }

/-- Advance the counters 0x060 to 0x063 of a core (R201). -/
def countFx (core : Nat) (fx : Fx) (s : State) : State :=
  let s := if bitOf fx.fl 2 then countN core 0 1 s else s
  let s := if bitOf fx.fl 1 then countN core 1 1 s else s
  let s := if fx.nan then countN core 2 1 s else s
  if fx.draws = 0 then s else countN core 3 fx.draws s

/-- Show what an instruction's results raised in slot `k` and its core. -/
def raiseAt (k : Nat) (fx : Fx) (s : State) : State := countFx (coreOf k) fx (flagSlot k fx s)

def State.raise (s : State) (fx : Fx) : State := raiseAt s.cur fx s

/-- `Rnd()` (R308, R262): the field of a pending FMT or FMTDEF.RND; 7 defers to FMTDEF.RND and then to RNE. -/
def State.rndMode (s : State) : Nat :=
  let d := fieldOf s.me.fmtdef 8 3
  let r := if s.fv then fieldOf s.me.pend 12 3 else d
  let r := if r = 7 then d else r
  if r = 7 then 0 else r

/-- SRKEYHI and SRKEYLO of a core (R267). -/
def srKey (core : Nat) (s : State) : BitVec 64 :=
  BitVec.ofNat 64 ((s.core core).srkeyHi.toNat * 2 ^ 32 + (s.core core).srkeyLo.toNat)

/-- The rounding context of the instruction in execution. -/
def State.rctx (s : State) : RCtx := { mode := s.rndMode, key := srKey s.myCore s, widLo := s.me.widLo }

/-- OV when a result was clamped. -/
def ovIf (b : Bool) : Fx := { fl := if b then fOV else 0 }

/-- Clamp to [lo, hi] and say whether it clamped. -/
def clamp (lo hi v : Int) : Int × Bool := if v < lo then (lo, true) else if hi < v then (hi, true) else (v, false)

/-- `SatS` for w bits (R326). -/
def satS (w : Nat) (v : Int) : Int × Bool := clamp (-(2 ^ (w - 1))) (2 ^ (w - 1) - 1) v
/-- `SatN` (R326). -/
def satN (w : Nat) (v : Int) : Int × Bool := clamp 0 (2 ^ w - 1) v
/-- `RQ(v, q)` (R326). -/
def rq (v : Int) (q : Nat) : Int := (v + 2 ^ (q - 1)) / 2 ^ q

/-- A word result with a saturation flag written to d. -/
def setSat (d : Reg) (p : Int × Bool) (s : State) : State := (s.setReg d (wordI p.1)).raise (ovIf p.2)

end Sys2Proof.Machine
end

