-- ==== Sys2Proof/Machine/Route.lean ====
section
/-! DEFINITION. Places on the mesh and the routes between them: positions of the units (R9, R47, R48), the output that a router
chooses (R49, R50, R67, R77, R79), and the whole route of an access that is performed in one step. Ports of a router: 0 N, 1 E,
2 S, 3 W, 4 local, 5 to 7 edge ports 0 to 2. -/

namespace Sys2Proof.Machine

/-! ### Partitions and positions -/

/-- The partition that owns a die (R102). -/
def State.partOf (s : State) (d : Nat) : Nat :=
  match s.sr.pcfg with
  | some b => (b.getD 1 0).toNat / 4 ^ d % 4
  | none => 0

/-- The lowest-numbered die of a partition. -/
def State.primaryDie (s : State) (p : Nat) : Nat := ((List.range 4).find? fun d => s.partOf d = p).getD 0

/-- The corner router of a die (R48). -/
def cornerCol (d : Nat) : Nat := if d % 2 = 0 then 0 else 31
def cornerRow (d : Nat) : Nat := if d / 2 = 0 then 0 else 31

/-- The router at a position (R47); routers carry their group's flat number. -/
def routerAt (col row : Nat) : Nat :=
  64 * (4 * (col / 16 + 2 * (row / 16)) + (col % 16 / 8 + 2 * (row % 16 / 8))) + 16 * (col % 8 / 4 + 2 * (row % 8 / 4)) +
    (col % 4 + 4 * (row % 4))

def dieOfRouter (r : Nat) : Nat := r / 256

/-- A router's position as the error log shows it: column in bits 4:0, row in 9:5 (R126). -/
def routerPos (r : Nat) : Nat := groupCol r + 32 * groupRow r

/-- The corner router of a die. -/
def cornerRouter (d : Nat) : Nat := routerAt (cornerCol d) (cornerRow d)

/-- The edge routers at which the controller of stack `st` attaches, in ascending place along the edge (R9). -/
def ctlRouters (st : Nat) : List Nat :=
  let d := st / 2 % 4
  let lo := fun (far : Bool) => if far then 20 else 4
  (List.range 8).map fun i =>
    if st % 2 = 0 then routerAt (lo (d % 2 = 1) + i) (cornerRow d) else routerAt (cornerCol d) (lo (d / 2 = 1) + i)

/-- The one of them that stands for the controller as a source of packets and records (log 40). -/
def ctlRouter (st : Nat) : Nat := (ctlRouters st).headD 0

/-- The router that Trizen port t of die d attaches to (R48). -/
def trizenRouter (d t : Nat) : Nat :=
  let c := cornerCol d
  let w := cornerRow d
  let ci := if c = 0 then 1 else 30
  let wi := if w = 0 then 1 else 30
  if t = 0 then routerAt ci w else if t = 1 then routerAt c wi else routerAt c w

/-- The router and endpoint of a core (R48). -/
def coreRouter (n : Nat) : Nat := if isBursar n then cornerRouter (n - 16384) else groupOf n
def coreEndpoint (n : Nat) : Nat := if isBursar n then 0xC0 else n % 16

/-! ### Links -/

def oppPort (p : Nat) : Nat := (p + 2) % 4

/-- The router at the other end of a mesh port; none at the package edge and for local and edge ports. -/
def neighbour (r p : Nat) : Option Nat :=
  let c := groupCol r
  let w := groupRow r
  match p with
  | 0 => if w = 0 then none else some (routerAt c (w - 1))
  | 1 => if c = 31 then none else some (routerAt (c + 1) w)
  | 2 => if w = 31 then none else some (routerAt c (w + 1))
  | 3 => if c = 0 then none else some (routerAt (c - 1) w)
  | _ => none

def linkOf (s : State) (r p : Nat) : Link := smGet {} (s.router r).links p
def modLink (r p : Nat) (f : Link → Link) (s : State) : State := s.modRouter r fun x => { x with links := smMod {} x.links p f }

/-! ### The output of a router -/

/-- Dimension-ordered output toward (col, row); `yx` takes the column first (R49). -/
def outputToward (r col row : Nat) (yx : Bool) : Nat :=
  let c := groupCol r
  let w := groupRow r
  let x := if c < col then 1 else 3
  let y := if w < row then 2 else 0
  if yx then (if w ≠ row then y else if c ≠ col then x else 4) else (if c ≠ col then x else if w ≠ row then y else 4)

/-- The output of router `r` toward a router: YX order only toward another die for which ROUTECFG.DIEYX selects it (R49, R50). -/
def stepToward (s : State) (r dst : Nat) : Nat :=
  outputToward r (groupCol dst) (groupRow dst)
    (dieOfRouter dst ≠ dieOfRouter r && bitOf (s.router r).routecfg (16 + dieOfRouter dst))

/-- The alternate of a lost output: 1 to 4 name N to W (R67, R81). -/
def alternate (cfg : BitVec 20) (out : Nat) : Option Nat :=
  let v := fieldOf cfg (4 * out) 4
  if 1 ≤ v && v ≤ 4 then some (v - 1) else none

/-- A mesh output leads across a bridge to another partition (R77). -/
def foreignOut (s : State) (r out : Nat) : Bool :=
  match neighbour r out with
  | some n => s.partOf (dieOfRouter n) ≠ s.partOf (dieOfRouter r)
  | none => false

/-- What a router does with a packet that goes on (R49, R64, R67, R77). -/
inductive Turn where
  /-- It takes an output, by a detour or not. -/
  | go (out : Nat) (detoured : Bool)
  /-- The output's link is DOWN: it waits. -/
  | hold (out : Nat)
  | refuse (code : BitVec 5)
  /-- No way on: UNROUTE. -/
  | lost
  deriving DecidableEq, Repr

/-- The output toward `out` under the links' states; `detour` is the packet's count so far. An alternate that leads off the mesh
names no link, so it is a LOST one (log 40). -/
def turnFor (s : State) (r out : Nat) (detour : Nat) : Turn :=
  if foreignOut s r out then .refuse 2
  else match (linkOf s r out).st with
    | .down => if out = 4 then .go out false else .hold out
    | .up | .training => .go out false
    | .lost =>
      match alternate (s.router r).routecfg out with
      | none => .lost
      | some a =>
        if foreignOut s r a then .refuse 2
        else if (neighbour r a).isNone || detour = 15 then .lost
        else match (linkOf s r a).st with
          | .lost => .lost
          | .down => .hold a
          | _ => .go a true

/-- What router `r` does with a packet for another router (R49, R67, R77, R79). -/
def chooseOutput (s : State) (r : Nat) (p : Packet) : Turn :=
  if p.dstDev ≠ s.sr.devnum then
    let d := dieOfRouter r
    let t := (smGet 0 (s.die d).devroute p.dstDev.toNat).toNat
    if 3 ≤ t then .refuse 7
    else if trizenRouter d t ≠ r then turnFor s r (stepToward s r (trizenRouter d t)) p.detour.toNat
    else match (linkOf s r (5 + t)).st with
      | .lost => .lost
      | .down => .hold (5 + t)
      | _ => .go (5 + t) false
  else turnFor s r (stepToward s r (routerAt p.dstCol.toNat p.dstRow.toNat)) p.detour.toNat

/-! ### The route of an access performed in one step -/

/-- An output is held by a stream's route: its open bulk REQ packet is a stream, so no other bulk REQ packet uses it (R68). -/
def streamHolds (s : State) (r out : Nat) : Bool :=
  match smGet 0 (s.router r).owner (6 * out) with
  | 0 => false
  | i + 1 => (smGet {} (s.router r).ins (6 * i)).pkt.opcode = 0x09

/-- Where a packet from one router to another ends. -/
inductive Route where
  /-- It arrives; the routers that detoured it. -/
  | there (detours : List Nat)
  | held
  /-- Router `r` refuses it, or finds no way on. -/
  | refused (r : Nat) (code : BitVec 5)
  | lost (r : Nat)
  deriving DecidableEq, Repr

/-- Follow the outputs of the routers from `r`, for a bulk request or another packet; `n` bounds the hops. -/
def routeFrom (s : State) (dst : Nat) (bulk : Bool) : Nat → Nat → List Nat → Route
  | 0, r, _ => .lost r
  | n + 1, r, ds =>
    if r = dst then (if bulk && streamHolds s r 4 then .held else .there ds)
    else
      let out := stepToward s r dst
      match turnFor s r out ds.length with
      | .refuse c => .refused r c
      | .lost => .lost r
      | .hold _ => .held
      | .go o detoured =>
        if (linkOf s r o).st ≠ .up || (bulk && streamHolds s r o) then .held
        else match neighbour r o with
          | some m => routeFrom s dst bulk n m (if detoured then r :: ds else ds)
          | none => .lost r

/-- The route from a router to another. With at most 15 detours of at most 62 hops each, 1024 hops reach every place that a
packet can reach. -/
def routeOf (s : State) (src dst : Nat) (bulk : Bool := false) : Route := routeFrom s dst bulk 1024 src []

/-- The route holds traffic now. -/
def routeBlocked (s : State) (src dst : Nat) (bulk : Bool) : Bool := routeOf s src dst bulk = .held

/-- A route's marks in its routers: detours counted, UNROUTE where it ends (R67, R81). -/
def routeMarks (x : Route) (s : State) : State :=
  match x with
  | .there ds => ds.foldl (fun s r => s.modRouter r fun x =>
      { x with detours := if x.detours = 0xFF then x.detours else x.detours + 1 }) s
  | .lost r => s.modRouter r fun x => { x with unroute := true }
  | .refused r 2 => s.modRouter r fun x => { x with firewall := true }
  | _ => s

end Sys2Proof.Machine
end

