-- ==== Sys2Proof/Machine/Flits.lean ====
section
/-! DEFINITION. Flits and packets (R51, R52), the input buffers of the routers, and what an endpoint sends (R48, R53). -/

namespace Sys2Proof.Machine

/-! ### Flits and packets (R51, R52) -/

/-- The header flit of a packet (R52). -/
def packHeader (p : Packet) : Line :=
  BitVec.ofNat 512 <|
    p.dstDev.toNat + p.dstCol.toNat * 2 ^ 6 + p.dstRow.toNat * 2 ^ 11 + p.dstEp.toNat * 2 ^ 16 + p.srcDev.toNat * 2 ^ 24 +
      p.srcCol.toNat * 2 ^ 30 + p.srcRow.toNat * 2 ^ 35 + p.srcEp.toNat * 2 ^ 40 + p.opcode.toNat * 2 ^ 48 +
      p.tag.toNat * 2 ^ 56 + p.count.toNat * 2 ^ 72 + p.gen.toNat * 2 ^ 76 + p.err.toNat * 2 ^ 80 +
      p.detour.toNat * 2 ^ 85 + p.pa.toNat * 2 ^ 96 + p.param.toNat * 2 ^ 144 + p.more.toNat * 2 ^ 176 +
      p.inline.toNat * 2 ^ 256

/-- The packet that a header flit opens (R52). -/
def unpackHeader (h : Line) (vn : Bool) (cls : BitVec 2) : Packet :=
  let f := fun lo n => fieldOf h lo n
  { dstDev := BitVec.ofNat 6 (f 0 6), dstCol := BitVec.ofNat 5 (f 6 5), dstRow := BitVec.ofNat 5 (f 11 5)
    dstEp := BitVec.ofNat 8 (f 16 8), srcDev := BitVec.ofNat 6 (f 24 6), srcCol := BitVec.ofNat 5 (f 30 5)
    srcRow := BitVec.ofNat 5 (f 35 5), srcEp := BitVec.ofNat 8 (f 40 8), opcode := BitVec.ofNat 8 (f 48 8)
    tag := BitVec.ofNat 16 (f 56 16), count := BitVec.ofNat 4 (f 72 4), gen := BitVec.ofNat 4 (f 76 4)
    err := BitVec.ofNat 5 (f 80 5), detour := BitVec.ofNat 4 (f 85 4), pa := BitVec.ofNat 48 (f 96 48)
    param := word (f 144 32), more := BitVec.ofNat 2 (f 176 2), inline := BitVec.ofNat 256 (f 256 256), vn := vn, cls := cls }

/-- The flits of a packet: header, then payload. -/
def packetFlits (p : Packet) : List Flit :=
  let n := p.payload.length
  { data := packHeader p, first := true, last := n = 0, vn := p.vn, cls := p.cls } ::
    p.payload.zipIdx.map fun x => { data := x.1, last := x.2 + 1 = n, vn := p.vn, cls := p.cls }

/-- The packet that a header flit opens, in the flit's network and class. -/
def flitHeader (f : Flit) : Packet := unpackHeader f.data f.vn f.cls

/-- One bit of CRC-16 with x^16 + x^12 + x^5 + 1. -/
def crcBit (c : BitVec 16) (b : Bool) : BitVec 16 := (c <<< 1) ^^^ (if bitOf c 15 != b then 0x1021 else 0)

/-- The top `n` bits downward of a number through the CRC. -/
def crcBits (v : Nat) : Nat → BitVec 16 → BitVec 16
  | 0, c => c
  | n + 1, c => crcBits v n (crcBit c (v.testBit n))

/-- The sideband of a flit, bits 15:0 (R51). -/
def flitSide (f : Flit) : Nat :=
  f.seq.toNat * 256 + f.ctl.toNat * 128 + f.mark.toNat * 64 + f.abort.toNat * 32 + f.last.toNat * 16 + f.first.toNat * 8 +
    f.vn.toNat * 4 + f.cls.toNat

/-- The CRC over data bits 511:0, then sideband bits 15:0, from 0xFFFF (R51). -/
def flitCrc (f : Flit) : BitVec 16 := crcBits (flitSide f) 16 (crcBits f.data.toNat 512 0xFFFF)

/-! ### The buffers of a router -/

/-- The (VN, class) pair of a flit: 3 × VN + class. -/
def pairIx (vn : Bool) (c : Nat) : Nat := 3 * vn.toNat + c

/-- The key of an input's buffer for a pair. -/
def inKey (inp pair : Nat) : Nat := 6 * inp + pair

def inBuf (s : State) (r k : Nat) : InBuf := smGet {} (s.router r).ins k
def modIn (r k : Nat) (f : InBuf → InBuf) (s : State) : State := s.modRouter r fun x => { x with ins := smMod {} x.ins k f }

/-- The mesh cycle of a router's die. -/
def mcAt (s : State) (r : Nat) : Nat := (s.die (dieOfRouter r)).mc.toNat

/-- A router has something to do in the mesh cycles to come. -/
def wake (r : Nat) (s : State) : State := if s.busy.contains r then s else { s with busy := s.busy ++ [r] }

/-- The tail that closes a packet unfinished (R51, R65). -/
def abortTail (vn : Bool) (cls : BitVec 2) : Flit := { abort := true, last := true, vn := vn, cls := cls }

/-- Add a flit to an input's buffer; what is left of a discarded packet goes no further. -/
def InBuf.add (b : InBuf) (f : Flit) (at_ : Nat) : InBuf :=
  if b.drop && !f.first then { b with drop := !f.last }
  else
    { b with
      flits := b.flits ++ [(f, at_)], drop := false
      part := if f.last then none else if f.first then some (flitHeader f, 0) else b.part.map fun p => (p.1, p.2 + 1) }

/-- Flits of an endpoint enter its router's local input, one a mesh cycle (R48). -/
def enterLocal (r inp : Nat) (fs : List Flit) (s : State) : State :=
  let t := Nat.max (mcAt s r) (s.router r).localFree
  wake r (s.modRouter r fun x =>
    { x with
      localFree := t + fs.length
      ins := fs.zipIdx.foldl (fun m f => smMod {} m (inKey inp (pairIx f.1.vn f.1.cls.toNat)) fun b => b.add f.1 (t + f.2)) x.ins })

/-- An endpoint hands a packet to its router's local port. -/
def sendPacket (p : Packet) (s : State) : State :=
  enterLocal (routerAt p.srcCol.toNat p.srcRow.toNat) (16 + p.srcEp.toNat) (packetFlits p) s

/-- The reply to a request: from its destination back to its source, in its class (R53, R56). -/
def replyTo (q : Packet) (opcode : Byte) (param : Word) (err : BitVec 5) (data : Nat) (full : Option Line) : Packet :=
  { dstDev := q.srcDev, dstCol := q.srcCol, dstRow := q.srcRow, dstEp := q.srcEp
    srcDev := q.dstDev, srcCol := q.dstCol, srcRow := q.dstRow, srcEp := q.dstEp
    opcode := opcode, tag := q.tag, param := param, err := err, pa := q.pa, inline := BitVec.ofNat 256 data
    payload := full.toList, count := if full.isSome then 1 else 0, vn := true, cls := q.cls }

def replyData (q : Packet) (data : Nat) (s : State) : State := sendPacket (replyTo q 0x40 0 0 data none) s
/-- ACK: status 0 done, 1 FULL, 2 RETRY. -/
def replyAck (q : Packet) (status : Word) (s : State) : State := sendPacket (replyTo q 0x41 status 0 0 none) s
def replyErr (q : Packet) (code : BitVec 5) (s : State) : State := sendPacket (replyTo q 0x42 0 code 0 none) s

end Sys2Proof.Machine
end

