-- ==== Sys2Proof/Machine/Home.lean ====
section
/-! DEFINITION. The homes of global lines: placement (R43, R44), the memory controllers with the line code and hot-row capture
(R23 to R42), the cache slices (R70 to R72), the error log (R125 to R127), and the operations a home performs on a word
(R213 to R215). -/

namespace Sys2Proof.Machine

/-! ### Placement (R43, R44) -/

/-- A device-source message from a block of die `d` behind its management port (R425). -/
def dieMessage (d ep : Nat) (typ : Byte) (words : List Word) (s : State) : State :=
  deviceMessage d (position (cornerCol d) (cornerRow d) ep) typ words s

/-- The slices of a subset in ascending order (R44). -/
def subsetMembers (place : SMap Word) (k : Nat) : List Nat :=
  (List.range 32).flatMap fun i =>
    let w := smGet 0 place ((0x1000 + 128 * k) / 4 + i)
    if w = 0 then [] else ((List.range 32).filter fun j => bitOf w j).map fun j => 32 * i + j

/-- HASH over a subset (R43); none when the subset is empty. -/
def hashHome (place : SMap Word) (k pa : Nat) : Option Nat :=
  let l := pa / 64
  let h := l % 2048 ^^^ l / 2048 % 2048 ^^^ l / 4194304 % 2048
  let m := subsetMembers place k
  m[h % m.length]?

/-! ### Tellers and full/empty operations (R213 to R215) -/

def fp32Nan : Word := 0x7FC00000

/-- The greatest n with 2^n ≤ m (m > 0). -/
def log2Nat (m : Nat) : Nat := Nat.log2 m

/-- An FP32 number as an integer multiple of 2^-149; none for infinities and NaN. -/
def fp32Int (w : Word) : Option Int :=
  let e := fieldOf w 23 8
  let m := fieldOf w 0 23
  if e = 255 then none
  else
    let n : Int := if e = 0 then m else (2 ^ 23 + m) * 2 ^ (e - 1)
    some (if bitOf w 31 then -n else n)

/-- A natural multiple of 2^-149 rounded to FP32 with RNE, without its sign (R214). -/
def fp32OfMag (n : Nat) : Word :=
  if n < 2 ^ 24 then word n
  else
    let sh := log2Nat n - 23
    let q := n >>> sh
    let r := n % 2 ^ sh
    let q := if 2 ^ sh < 2 * r || (2 * r = 2 ^ sh && q % 2 = 1) then q + 1 else q
    let v := sh * 2 ^ 23 + q
    if 255 * 2 ^ 23 ≤ v then 0x7F800000 else word v

/-- FADD of the tellers (R214). -/
def tellerFadd (a b : Word) : Word :=
  match fp32Int a, fp32Int b with
  | some x, some y =>
    let z := x + y
    if z = 0 then (if bitOf a 31 && bitOf b 31 then 0x80000000 else 0)
    else fp32OfMag z.natAbs ||| (if z < 0 then 0x80000000 else 0)
  | x, y =>
    let nan := fun (w : Word) => fieldOf w 23 8 = 255 && fieldOf w 0 23 ≠ 0
    if nan a || nan b then fp32Nan
    else match x, y with
      | none, none => if a = b then a else fp32Nan
      | none, some _ => a
      | _, _ => b

/-- The new value of a teller operation (R213); none for a reserved code. -/
def tellerNew (code : Nat) (old v v2 : Word) : Option Word :=
  match code with
  | 0 => some (old + v)
  | 1 => some (old &&& v)
  | 2 => some (old ||| v)
  | 3 => some (old ^^^ v)
  | 4 => some (if old.slt v then old else v)
  | 5 => some (if old.slt v then v else old)
  | 6 => some (if old < v then old else v)
  | 7 => some (if old < v then v else old)
  | 8 => some v
  | 9 => some (if old = v then v2 else old)
  | 10 => some (tellerFadd old v)
  | 11 => some (if v ≤ old then 0 else old + 1)
  | _ => none

/-- A full/empty operation on a word and its bit (R215): none while its condition fails; else the new word, the new bit and
what it returns. -/
def feStep (code : Nat) (v old : Word) (full : Bool) : Option (Word × Bool × Word) :=
  match code with
  | 0 => if full then some (old, true, old) else none
  | 1 => if full then some (old, false, old) else none
  | 2 => if full then none else some (v, true, 0)
  | 3 => some (v, true, 0)
  | 4 => some (old, full, ofBit 32 full)
  | 5 => some (old, bitOf v 0, 0)
  | _ => none

/-! ### Main memory as stored -/

def memLine (s : State) (line : Nat) : Line := BitVec.ofNat 512 (rdBytes s.mem (64 * line) 64)
def memFullOf (s : State) (line : Nat) : BitVec 16 := smGet 0xFFFF s.memFull line

/-- Store a line with its full/empty bits and valid check symbols (R38). -/
def putLine (line : Nat) (data : Line) (full : BitVec 16) (s : State) : State :=
  { s with
    mem := wrBytes s.mem (64 * line) data.toNat 64
    memFull := smSet 0xFFFF s.memFull line full, flips := smSet [] s.flips line [] }

/-! ### The error log (R125 to R127) -/

/-- A record reaches die `d`'s log unit, which writes it later: word 0 without PHASE and DROPPED, and words 1 to 7 (R126). With
EN = 0 nothing is written (R127). -/
def logWords (d : Nat) (w0 rest : Nat) (s : State) : State :=
  s.modDie d fun e => if e.log.en then { e with log := { e.log with pend := e.log.pend ++ [(w0, rest)] } } else e

/-- The hardware's record of an event: code, unit, router position, address and detail words (R126). -/
def logRecord (d : Nat) (code : Nat) (unit router pa : Nat) (detail : Nat) (s : State) : State :=
  logWords d (code * 2 ^ 16 + unit)
    (router + pa * 2 ^ 32 + (s.die d).mc.toNat * 2 ^ 96 + detail % 2 ^ 64 * 2 ^ 160) s

/-- The position of a die's corner router, at which its blocks stand (R48). -/
def cornerPos (d : Nat) : Nat := cornerCol d + 32 * cornerRow d

/-- A record of the controller of stack `st`, in its own die's log (R126; its router: log 40). -/
def ctlRecord (st code pa detail : Nat) (s : State) : State :=
  logRecord (st / 2) code (0x80 + st % 2) (routerPos (ctlRouter st)) pa detail s

/-! ### The address map (R23, R29) -/

def stackOf (line : Nat) : Nat := line / 2 ^ 30 % 8
/-- The channel of a line in the generation-0 map. -/
def channel0 (line : Nat) : Nat := line / 8 % 32 ^^^ line / 1024 % 32

/-- Channel, pseudo-channel, bank and row of a line, with the retired channel redirected (R29). -/
def coords (retired : Option Nat) (line : Nat) : Nat × Nat × Nat × Nat :=
  let row := line / 65536 % 16384
  let bank := line / 1024 % 64
  let gr := line / 256 % 4
  let pc := line / 4 % 2
  if retired = some (channel0 line) then
    let i := ((row * 64 + bank) * 4 + gr) * 2 + pc
    let t := channel0 line
    let k := i / 31
    let ch := i % 31
    (if ch < t then ch else ch + 1, k % 2, k / 8 % 64, 16384 + k / 512 % 1024)
  else (channel0 line, pc, bank, row)

/-! ### The line code (R38, R39) -/

/-- One step of multiplication by α in GF(2^16). -/
def gfX (a : BitVec 16) : BitVec 16 := (a <<< 1) ^^^ (if bitOf a 15 then 0x100B else 0)

def gfMulN (a : BitVec 16) (b : Nat) : Nat → BitVec 16
  | 0 => 0
  | n + 1 => (if b % 2 = 1 then a else 0) ^^^ gfMulN (gfX a) (b / 2) n

def gfMul (a b : BitVec 16) : BitVec 16 := gfMulN a b.toNat 16

def gfPow : Nat → BitVec 16
  | 0 => 1
  | n + 1 => gfX (gfPow n)

/-- The syndromes of an error pattern: (exponent, difference) pairs. -/
def syndrome (j : Nat) (e : List (Nat × BitVec 16)) : BitVec 16 :=
  e.foldl (fun a p => a ^^^ gfMul p.2 (gfPow (j * p.1))) 0

/-- The decoder of R39 on an error pattern: none UNCORRECTABLE, else the pattern left after correction. -/
def decodePattern (e : List (Nat × BitVec 16)) : Option (List (Nat × BitVec 16)) :=
  let s0 := syndrome 0 e
  let s1 := syndrome 1 e
  let s2 := syndrome 2 e
  if s0 = 0 && s1 = 0 && s2 = 0 then some e
  else if s0 ≠ 0 && gfMul s1 s1 = gfMul s0 s2 then
    match (List.range 36).find? fun q => gfMul s0 (gfPow q) = s1 with
    | some q => some (e ++ [(q, s0)])
    | none => none
  else none

/-- Apply a pattern to data and full/empty bits: exponent 3 + i is symbol i (R38). -/
def applyPattern (e : List (Nat × BitVec 16)) (d : Line) (f : BitVec 16) : Line × BitVec 16 :=
  e.foldl (fun a p =>
    if p.1 < 3 then a
    else if p.1 < 35 then (a.1 ^^^ BitVec.ofNat 512 (p.2.toNat <<< (16 * (p.1 - 3))), a.2)
    else (a.1, a.2 ^^^ p.2)) (d, f)

/-! ### The controller -/

/-- One RFM and pacing (R36). A further fallback of a bank in the same window starts its count of 256 activations again
(DESIGN CHOICE, log 41). -/
def hotFallback (st key line : Nat) (s : State) : State :=
  let s := s.modCtl st fun c =>
    { c with
      rfms := c.rfms + 1, fallback := if c.fallback = 0xFF then c.fallback else c.fallback + 1
      trackers := smMod {} c.trackers key fun t => { t with paced := true, acts := 0 } }
  let (_, _, b, r) := coords (s.ctl st).retired line
  ctlRecord st 0x02 0 (b + r * 2 ^ 32) s

/-- Count an activation of a row in the tracker's 16 entries (R34). -/
def trackRow (row : Nat) (es : List (Nat × Nat)) : List (Nat × Nat) :=
  if es.any fun e => e.1 = row then es.map fun e => if e.1 = row then (row, e.2 + 1) else e
  else if es.length < 16 then es ++ [(row, 1)]
  else
    let low := es.foldl (fun m e => Nat.min m e.2) (es.headD (0, 0)).2
    let i := es.findIdx fun e => e.2 = low
    es.set i (row, low + 1)

/-- The state of a channel's lending pair and whether the channel is the lender (R25). -/
def lendOf (s : State) (st ch : Nat) : Lend × Bool :=
  let p := smGet {} (s.ctl st).pairs (ch / 2)
  (p.st, (ch % 2 = 1) != p.odd)

/-- A request for a channel can be issued now, its pair's lanes permitting (R26). -/
def chanServed (s : State) (st ch : Nat) : Bool :=
  match lendOf s st ch with
  | (.normal, _) | (.request, _) | (.drain, true) | (.lent, false) => true
  | _ => false

/-- A request for a channel ends the lending of its lanes (R26, R27). -/
def lendTouch (st ch : Nat) (s : State) : State :=
  match lendOf s st ch with
  | (.request, true) | (.drain, true) => s.push (.lendAbort st (ch / 2))
  | (.lent, true) => s.push (.lendReclaimStart st (ch / 2))
  | (.quiesce, true) | (.retrain, true) =>
    s.modCtl st fun c => { c with pairs := smMod {} c.pairs (ch / 2) fun p => { p with lenderWaits := true } }
  | _ => s

/-- An activation of a row of a bank: it is counted, and a row at or above the threshold is captured, or falls back once in the
window when the list is full (R34 to R36). An access activates its row unless it is the row of the bank's last access (DESIGN
CHOICE, log 41). -/
def activateAt (st line : Nat) (at_ : Nat × Nat × Nat × Nat) (s : State) : State × Bool :=
  let c := s.ctl st
  let (ch, pc, bank, row) := at_
  let key := (ch * 2 + pc) * 64 + bank
  let t := smGet {} c.trackers key
  if t.open_ = some row then (s, t.capture.contains row)
  else
    let es := trackRow row t.entries
    let acts := if t.paced then t.acts + 1 else t.acts
    let t' := { t with open_ := some row, entries := es, acts := acts % 256 }
    let s := s.modCtl st fun c =>
      { c with trackers := smSet {} c.trackers key t', rfms := if t.paced && acts = 256 then c.rfms + 1 else c.rfms }
    let n := ((es.find? fun e => e.1 = row).getD (0, 0)).2
    let set := fun (f : Tracker → Tracker) => s.modCtl st fun c => { c with trackers := smMod {} c.trackers key f }
    if c.thresh.toNat ≤ n && !t.capture.contains row && !t.fell.contains row then
      if t.capture.length < 4 then (set fun t => { t with capture := t.capture ++ [row] }, true)
      else (hotFallback st key line (set fun t => { t with fell := t.fell ++ [row] }), false)
    else (s, t.capture.contains row)

/-- An access to a line at its controller (R34 to R36). Answers whether the row is on its bank's capture list. -/
def activate (st line : Nat) (s : State) : State × Bool :=
  let at_ := coords (s.ctl st).retired line
  activateAt st line at_ (lendTouch st at_.1 s)

/-- Log an UNCORRECTABLE line (R40, R46): the first since VALID was cleared is held. -/
def logUncorrectable (st line source : Nat) (s : State) : State :=
  let s := s.modCtl st fun c =>
    if c.ueValid then { c with ueMore := true }
    else { c with ueValid := true, ueLine := line, ueSource := BitVec.ofNat 2 source }
  ctlRecord st 0x01 (64 * line) source s

/-- A read of a line as stored, decoded under R39; `source` as MCUEHI. None is UNCORRECTABLE. -/
def mcRead (st line source : Nat) (s : State) : Option (Line × BitVec 16) × State :=
  let e := smGet [] s.flips line
  if e = [] then (some (memLine s line, memFullOf s line), s)
  else match decodePattern e with
    | some e' =>
      let s := if e' = e then s else s.modCtl st fun c => { c with ce := if c.ce = 0xFFFF then c.ce else c.ce + 1 }
      (some (applyPattern e' (memLine s line) (memFullOf s line)), s)
    | none =>
      (none, logUncorrectable st line source
        (s.modCtl st fun c => { c with ue := if c.ue = 0xFFFF then c.ue else c.ue + 1 }))

/-- Why a home does not answer. -/
inductive HErr where
  /-- An ERR reply with a code of R54. -/
  | err (code : BitVec 5)
  /-- REMAP-EXHAUSTED from this device's own controller (R33). -/
  | fenced
  /-- It cannot answer yet: the request waits. -/
  | wait (o : Obst)
  deriving DecidableEq, Repr

/-- The code that a requester other than a core's thread sees. -/
def HErr.code : HErr → BitVec 5
  | .err c => c
  | _ => 5

/-- A computation at a home. -/
abbrev HM := EStateM HErr State

/-- The controller refuses the line's channel (R33): the channel that R23 gives the line, wherever R29 has moved its granule
(DESIGN CHOICE, log 41). -/
def mcFenced (s : State) (line : Nat) : Bool := bitOf (s.ctl (stackOf line)).fenced (channel0 line)

/-- Of a stack's edge routers, the one at which its controller takes a slice's requests for a channel (log 40). -/
def mcPort (st ch : Nat) : Nat := (ctlRouters st).getD (ch / 4) 0

/-- The channel of a line under slice `sl`'s copy of the map (R24). -/
def sliceChannel (s : State) (sl line : Nat) : Nat := (coords (smGet {} (s.slice sl).maps (stackOf line)).retired line).1

/-- A request of slice `sl` for a line cannot be performed by its controller now: requests to that stack are held (R32), the
copy's generation is not the active one (R24), the controller drains (R30), the channel's lanes are away (R26), or an earlier
request for the line is queued. -/
def mcBusy (s : State) (sl line : Nat) : Bool :=
  let st := stackOf line
  let x := s.slice sl
  let c := s.ctl st
  (x.bounced.any fun b => stackOf b.line = st) || (smGet {} x.maps st).gen ≠ c.gen || c.state = 2 ||
    !chanServed s st (sliceChannel s sl line) || c.queue.any fun r => r.line = line

/-- The routes of slice `sl`'s requests for a line to the controller, and back. -/
def mcRoutes (s : State) (sl line : Nat) : Route × Route :=
  let port := mcPort (stackOf line) (sliceChannel s sl line)
  (routeOf s sl port, routeOf s port sl)

/-- A miss on a line cannot be served now: misses of the line are tracked, or 32 of others (R70, R71), or the controller or
the route to it is busy. -/
def lineBlocked (s : State) (sl line : Nat) : Bool :=
  (s.slice sl).misses.any (fun m => m.1 = line) || decide (32 ≤ (s.slice sl).misses.length) || mcBusy s sl line ||
    (mcRoutes s sl line).1 = .held || (mcRoutes s sl line).2 = .held

/-- Requests for a line are on their way to its controller. -/
def lineQueued (s : State) (sl line : Nat) : Bool :=
  (s.slice sl).misses.any (fun m => m.1 = line) || (s.slice sl).bounced.any (fun b => b.line = line) ||
    (s.ctl (stackOf line)).queue.any fun r => r.line = line

/-- The request that a word at a bank belongs to. -/
def Asker.whole : Asker → Asker
  | .access k _ => .access k 0
  | .relaxed k id _ => .relaxed k id 0
  | .remote id _ => .remote id 0
  | .engine u e job _ => .engine u e job 0
  | a => a

/-- A group's remote port holds 32 requests at its banks, as requester 1,024 of each (R217). -/
def portFull (s : State) (g : Nat) : Bool :=
  decide (32 ≤ (((List.range 32).flatMap fun b =>
    ((s.bank (32 * g + b)).held.filter fun r => r.requester = 1024).map fun r => r.asker.whole).dedup).length)

/-- What `o` names is still held. -/
def Obst.blocked (s : State) (o : Obst) : Bool :=
  match o with
  | .line sl l => lineBlocked s sl l
  | .queued sl l => lineQueued s sl l
  | .route a b bulk => routeBlocked s a b bulk || routeBlocked s b a false
  | .link r p => (linkOf s r p).st = .down || (linkOf s r p).st = .training
  | .port g => portFull s g

/-- What a request that waits does meanwhile: one for a lender's channel ends the lending (R26, R27). -/
def Obst.touch (o : Obst) (s : State) : State :=
  match o with
  | .line sl l =>
    if (s.slice sl).bounced = [] then lendTouch (stackOf l) (sliceChannel s sl l) s else s
  | _ => s

/-- A refusal at router `r` of a packet from `(src, ep)`: logged in the log of the sender's partition (R77, R105, R126). -/
def routeRecord (src ep r : Nat) (code : BitVec 5) (pa opcode : Nat) (s : State) : State :=
  if code = 2 then
    logRecord (dieOfRouter src) 0x10 0 (routerPos r) pa (opcode + (position (groupCol src) (groupRow src) ep) * 2 ^ 32) s
  else s

/-- Perform an access that goes from endpoint `ep` of router `src` to router `dst`, if its route and the reply's let it: one that is
held waits (R64, R68); one that no route takes is reported after its three re-issues, unperformed when its request is lost, performed
when its reply is (R66, R67); a bridge to another partition refuses it (R77). -/
def overRoute {α : Type} (src ep dst opcode pa : Nat) (bulk : Bool) (x : HM α) : HM α := fun s =>
  if src = dst then x s
  else match routeOf s src dst bulk, routeOf s dst src with
    | .held, _ | .there _, .held => .error (.wait (.route src dst bulk)) s
    | .there ds, .there ds' => x (routeMarks (.there ds') (routeMarks (.there ds) s))
    | .there ds, y =>
      (match x (routeMarks (.there ds) s) with
      | .ok _ s => .error (.err 4) (routeMarks y s)
      | .error e s => .error e s)
    | .refused r c, _ => .error (.err c) (routeRecord src ep r c pa opcode (routeMarks (.refused r c) s))
    | y, _ => .error (.err 3) (routeMarks y s)

/-! ### Slices (R70) -/

def sliceSetOf (line : Nat) : Nat := line % 256 ^^^ line / 256 % 256

/-- A slice's request enters its controller's queue, stamped with the generation of the slice's map copy; it waits behind
bounced ones to that stack (R24, R32). -/
def mcSend (r : McReq) (s : State) : State :=
  let st := stackOf r.line
  if (s.slice r.slice).bounced.any fun b => stackOf b.line = st then
    s.modSlice r.slice fun c => { c with bounced := c.bounced ++ [r] }
  else
    let r := { r with stamp := (smGet {} (s.slice r.slice).maps st).gen }
    (s.modCtl st fun c => { c with queue := c.queue ++ [r] }).push (.mcRequest st)

/-- A slice writes a line back: at once where its controller takes it, else as a queued request. A fenced channel refuses it
(R33), and a writeback that no route takes is reported and its line is lost (R66). -/
def writeBack (sl line : Nat) (data : Line) (full : BitVec 16) (s : State) : State :=
  let st := stackOf line
  let port := mcPort st (sliceChannel s sl line)
  if mcBusy s sl line || routeBlocked s sl port true then
    mcSend { slice := sl, line := line, write := true, data := data, full := full } s
  else match (mcRoutes s sl line).1 with
    | .there ds =>
      if mcFenced s line then s else putLine line data full (activate st line (routeMarks (.there ds) s)).1
    | x => logRecord (sl / 256) 0x05 0x10 (routerPos sl) (64 * line) 0 (routeMarks x s)

/-- Choose a victim when the set is full, and write it back if dirty (R70). -/
def sliceEvict (sl line : Nat) (s : State) : State :=
  let ls := (s.slice sl).lines.filter fun e => sliceSetOf e.1 = sliceSetOf line && e.2.valid
  if ls.length < 16 then s
  else match ls.filter fun e => !e.2.captured with
    | [] => s
    | v :: vs =>
      let v := vs.foldl (fun a e => if e.2.used < a.2.used then e else a) v
      let s := s.modSlice sl fun c => { c with lines := smDel c.lines v.1 }
      if v.2.dirty then writeBack sl v.1 v.2.data v.2.full s else s

/-- Install a line; a capture flag of the current window is honoured while its set holds fewer than two captured lines,
otherwise DECLINE goes to the controller (R35). -/
def sliceInstall (sl line : Nat) (data : Line) (full : BitVec 16) (dirty capture parity : Bool) (s : State) : State :=
  let st := stackOf line
  let s := sliceEvict sl line s
  let c := s.slice sl
  let held := (c.lines.filter fun e => sliceSetOf e.1 = sliceSetOf line && e.2.captured).length
  let take := capture && (smGet {} c.maps st).parity = parity && held < 2
  let s := s.modSlice sl fun c =>
    { c with stamp := c.stamp + 1
             lines := smSet {} c.lines line { valid := true, data := data, full := full, dirty := dirty, captured := take
                                              used := c.stamp + 1 } }
  if capture && !take then s.push (.decline st line parity) else s

/-- Make a line resident: a hit is touched, a miss is filled from the controller (R70, R24, R33, R40), or waits. A fill whose
request or reply no route takes is reported to the requester after its three re-issues (R66). -/
def sliceEnsure (sl line : Nat) : HM Unit := fun s =>
  let e := smGet {} (s.slice sl).lines line
  let st := stackOf line
  if e.valid then
    .ok () (s.modSlice sl fun c =>
      { c with stamp := c.stamp + 1, lines := smSet {} c.lines line { e with used := c.stamp + 1 } })
  else if lineBlocked s sl line then .error (.wait (.line sl line)) s
  else match mcRoutes s sl line with
    | (.there ds, .there ds') =>
      let s := routeMarks (.there ds') (routeMarks (.there ds) s)
      if mcFenced s line then .error .fenced s
      else
        let (s, cap) := activate st line s
        match mcRead st line 0 s with
        | (some (d, f), s) => .ok () (sliceInstall sl line d f false cap (s.ctl st).parity s)
        | (none, s) => .error (.err 1) s
    | (.there _, x) => .error (.err 4) (routeMarks x s)
    | (x, _) => .error (.err 3) (routeMarks x s)

/-- The resident line. -/
def sliceLine (s : State) (sl line : Nat) : SliceLine := smGet {} (s.slice sl).lines line

/-- Change a resident line. -/
def sliceMod (sl line : Nat) (f : SliceLine → SliceLine) (s : State) : State :=
  s.modSlice sl fun c => { c with lines := smMod {} c.lines line f }

/-- Read `n` bytes at `pa` at its home, inside one line. -/
def homeRead (sl pa n : Nat) : HM Nat := fun s =>
  match sliceEnsure sl (pa / 64) s with
  | .ok _ s => .ok (fieldOf (sliceLine s sl (pa / 64)).data (8 * (pa % 64)) (8 * n)) s
  | .error e s => .error e s

/-- Write `n` bytes at `pa` at its home; a full line is allocated without a fill, in the order of the line's requests
(R70, R71). -/
def homeWrite (sl pa n v : Nat) : HM Unit := fun s =>
  let line := pa / 64
  let put := fun s => sliceMod sl line (fun e => { e with data := putField e.data (8 * (pa % 64)) (8 * n) v, dirty := true }) s
  if n = 64 && !(sliceLine s sl line).valid && !mcFenced s line then
    if lineQueued s sl line then .error (.wait (.queued sl line)) s
    else .ok () (sliceInstall sl line (BitVec.ofNat 512 v) (memFullOf s line) true false false s)
  else match sliceEnsure sl line s with
    | .ok _ s => .ok () (put s)
    | .error e s => .error e s

/-- Let the waiters on a word be retried when its bit changed (R72). -/
def sliceWake (sl word : Nat) (s : State) : State :=
  if (s.slice sl).waiters.any fun w => w.word = word then s.push (.sliceWaiterRetry sl word) else s

/-- Set the full/empty bit of the word at `pa` in its resident line. -/
def homeSetFull (sl pa : Nat) (b : Bool) (s : State) : State :=
  let j := pa % 64 / 4
  let e := sliceLine s sl (pa / 64)
  if bitOf e.full j = b then s
  else sliceWake sl (pa / 4) (sliceMod sl (pa / 64) (fun e => { e with full := putField e.full j 1 b.toNat, dirty := true }) s)

/-- A teller operation at a home (R71, R213). -/
def homeTeller (sl pa code : Nat) (v v2 : Word) : HM Word := do
  let old ← homeRead sl pa 4
  match tellerNew code (word old) v v2 with
  | some x => do
    homeWrite sl pa 4 x.toNat
    pure (word old)
  | none => throw (.err 6)

/-- A full/empty operation at a home: `none` while its condition fails (R72, R215). -/
def homeFe (sl pa code : Nat) (v : Word) : HM (Option Word) := do
  sliceEnsure sl (pa / 64)
  let e ← fun s => .ok (sliceLine s sl (pa / 64)) s
  let old := word (fieldOf e.data (8 * (pa % 64)) 32)
  if 6 ≤ code then throw (.err 6)
  match feStep code v old (bitOf e.full (pa % 64 / 4)) with
  | none => pure none
  | some (x, b, r) => do
    (if x = old then pure () else homeWrite sl pa 4 x.toNat)
    (fun s => .ok () (homeSetFull sl pa b s))
    pure (some r)

end Sys2Proof.Machine
end

