-- ==== Sys2Proof/Machine/Vault.lean ====
section
/-! DEFINITION. The vault and the bursar SRAM (R204 to R218, R425): words, full/empty bits, errors, the word and line ports of the
banks with their wait lists, and the answers that homes send to threads and packets. -/

namespace Sys2Proof.Machine

/-! ### Banks (R204, R208, R209) -/

/-- The key of a byte of unit `u`'s store. -/
def vKey (u off : Nat) : Nat := u * 2 ^ 25 + off

/-- The bank of a word key (R204, R425). -/
def bankOf (w : Nat) : Nat :=
  let u := w / 2 ^ 23
  if u < 16 then 2048 * u + w % 2048 else 32768 + 32 * (u - 16) + w % 32

/-- The unit whose store a bank belongs to, and its work cycle. -/
def unitOfBank (b : Nat) : Nat := if b < 32768 then b / 2048 else 16 + (b - 32768) / 32
def bankNow (s : State) (b : Nat) : Nat := (s.cluster (unitOfBank b)).cycle.toNat

/-- When a core's request reaches a bank, after the work cycle of its issue, and how long after the grant its datum reaches the core:
LOCAL, NEAR, FAR (R208); a bursar's are LOCAL (R425). -/
def vaultPath (core b : Nat) : Nat × Nat :=
  let g := core % 1024 / 16
  let h := b % 2048 / 32
  if isBursar core || g = h then (2, 2) else if g / 16 = h / 16 then (3, 4) else (6, 6)

/-- A bank's ports have something to do. -/
def heat (b : Nat) (s : State) : State := if s.hot.contains b then s else { s with hot := s.hot ++ [b] }

/-- A request on its way to a bank's word port (R209). -/
def hold (r : BankReq) (s : State) : State :=
  let b := bankOf r.word
  heat b (s.modBank b fun x => { x with held := x.held ++ [r] })

/-! ### Answers -/

/-- What engine `e` of unit `u` does at the line ports, for copy `job` of a bulk copy engine. -/
def modIO (u e job : Nat) (f : LineIO → LineIO) (s : State) : State :=
  if e < 64 then s.modEngine (64 * u + e) fun x => { x with io := f x.io }
  else s.modBulk (64 * u + e - 64) fun x =>
    { x with copies := x.copies.map fun c => if c.id = job then { c with io := f c.io } else c }

def ioOf (s : State) (u e job : Nat) : LineIO :=
  if e < 64 then (s.engine (64 * u + e)).io
  else (((s.bulkOf (64 * u + e - 64)).copies.find? fun c => c.id = job).map (·.io)).getD {}

/-- The event of an engine whose line accesses are done. -/
def lineDone (u e job : Nat) : Instr := if e < 64 then .matrixCommandTaken (64 * u + e) else .copyComplete (64 * u + e - 64) job

/-- One of an engine's accesses is done; with the last the engine goes on. -/
def ioStep (u e job : Nat) (f : LineIO → LineIO) (s : State) : State :=
  let s := modIO u e job (fun x => { f x with want := x.want - 1 }) s
  if (ioOf s u e job).want = 0 then s.push (lineDone u e job) else s

/-- The number by which REPLY_ARRIVAL names a slot's vault access; those of relaxed accesses stay below it. -/
def accessId : Nat := 2 ^ 20

/-- A vault access of slot `k` is answered in work cycle `at_`: REPLY_ARRIVAL is due then (R186, R210). -/
def replyDue (k at_ : Nat) (s : State) : State :=
  match (s.slot k).access with
  | some a => if a.left = 0 && decide (at_ ≤ nowAt s (coreOf k)) then s.push (.replyArrival k accessId none) else s
  | none => s

/-- A waiting full/empty operation of a thread is answered: its reply reaches the core in work cycle `at_` (R185, R216). -/
def answerThread (k : Nat) (v : Word) (at_ : Nat) (s : State) : State :=
  match (s.slot k).run with
  | .parked (.fullEmpty dst) =>
    replyDue k at_ (s.modSlot k fun sl =>
      { sl with run := .parked .vault, access := some { use_ := .word dst, data := v.setWidth 128, ready := at_ } })
  | _ => s

/-- A word of the slot's vault access has been performed (R211). -/
def answerAccess (k part : Nat) (v : Word) (err : Option (BitVec 5)) (at_ : Nat) (s : State) : State :=
  replyDue k at_ (s.modSlot k fun sl =>
    { sl with access := sl.access.map fun a =>
        { a with
          left := a.left - 1, ready := Nat.max a.ready at_, err := a.err.or err
          data := if a.use_ = .store || 4 ≤ part then a.data else putField a.data (32 * part) 32 v.toNat
          more := if a.use_ = .mint && 4 ≤ part then smSet 0 a.more part v else a.more } })

/-- A word of a relaxed access has been performed; with the last datum its reply is due (R186, R211). -/
def answerRelaxed (k id part : Nat) (v : Word) (err : Option (BitVec 5)) (at_ : Nat) (s : State) : State :=
  s.modSlot k fun sl =>
    { sl with relaxed := sl.relaxed.map fun r =>
        if r.id = id then
          { r with
            left := r.left - 1, ready := Nat.max r.ready at_, err := r.err.or err
            data := if r.store then r.data else putField r.data (32 * part) 32 v.toNat }
        else r }

/-- A word of a packet's access has been performed; with the last one the packet is answered (R217). -/
def answerRemote (id part : Nat) (v : Word) (err : Option (BitVec 5)) (s : State) : State :=
  match s.remotes.lookup id with
  | none => s
  | some j =>
    let j := { j with
      left := j.left - 1, err := j.err.or err, data := putField j.data (32 * part) 32 v.toNat }
    if j.left ≠ 0 then { s with remotes := smSet {} s.remotes id j }
    else
      let s := { s with remotes := smDel s.remotes id }
      match j.err with
      | some c => replyErr j.pkt c s
      | none =>
        let p := j.pkt
        if p.opcode = 0x01 && fieldOf p.param 0 3 = 4 then sendPacket (replyTo p 0x40 0 0 0 (some j.data)) s
        else if p.opcode = 0x01 || p.opcode = 0x03 || (p.opcode = 0x04 && (fieldOf p.param 0 3 < 2 || fieldOf p.param 0 3 = 4)) then
          replyData p j.data.toNat s
        else replyAck p 0 s

/-- Answer whoever asked for a word operation: with a value, or with an error code; a core's reply arrives in work cycle `at_`. -/
def answer (a : Asker) (isRead : Bool) (v : Except (BitVec 5) Word) (at_ : Nat) (s : State) : State :=
  match a, v with
  | .none, _ => s
  | .thread k, .ok w => answerThread k w at_ s
  | .thread k, .error c =>
    match (s.slot k).run with
    | .parked _ =>
      let s := s.modSlot k fun sl => { sl with busyUntil := Nat.max sl.busyUntil at_ }
      -- REMAP-EXHAUSTED: the instruction issues again and takes its own page fault (R33)
      if c = 5 then s.modSlot k fun sl => { sl with run := .ready, reissue := true }
      else takeTrapAt k cMEMERR (c.setWidth 32) (s.modSlot k fun sl => { sl with run := .ready })
    | _ => s
  | .access k part, .ok w => answerAccess k part w none at_ s
  | .access k part, .error c => answerAccess k part 0 (some c) at_ s
  | .relaxed k id part, .ok w => answerRelaxed k id part w none at_ s
  | .relaxed k id part, .error c => answerRelaxed k id part 0 (some c) at_ s
  | .remote id part, .ok w => answerRemote id part w none s
  | .remote id part, .error c => answerRemote id part 0 (some c) s
  | .engine u e job k, .ok w => ioStep u e job (fun x => if isRead then { x with got := x.got ++ [(k, some w)] } else x) s
  | .engine u e job k, .error c =>
    ioStep u e job (fun x => if isRead then { x with got := x.got ++ [(k, none)] } else { x with err := x.err.or (some c) }) s
  | .packet p, .ok w => if isRead then replyData p w.toNat s else replyAck p 0 s
  | .packet p, .error c => replyErr p c s

/-! ### Words of a local store -/

/-- The word keys that `n` bytes at byte key `k` touch. -/
def wordsOf (k n : Nat) : List Nat := (List.range ((k % 4 + n + 3) / 4)).map fun i => k / 4 + i

def vErr (s : State) (w : Nat) : Nat := smGet 0 s.verr w
def vFullOf (s : State) (w : Nat) : Bool := smGet true s.vfull w
def vWord (s : State) (w : Nat) : Word := word (rdBytes s.vault (4 * w) 4)

/-- A corrected word is to be rewritten in an idle cycle of its bank's word port (R218). -/
def vTouch (w : Nat) (s : State) : State :=
  if vErr s w = 1 && !(s.bank (bankOf w)).rewrites.contains w then
    heat (bankOf w) (s.modBank (bankOf w) fun x => { x with rewrites := x.rewrites ++ [w] })
  else s

/-- Read bytes of a store (R204, R218). -/
def vRead (k n : Nat) : HM Nat := fun s =>
  if (wordsOf k n).any fun w => vErr s w = 2 then .error (.err 1) s
  else .ok (rdBytes s.vault k n) ((wordsOf k n).foldl (fun s w => vTouch w s) s)

/-- Write bytes of a store: only the bytes named change; a whole word gets fresh check bits (R206, R218). -/
def vWrite (k n v : Nat) : HM Unit := fun s =>
  if n < 4 && (wordsOf k n).any fun w => vErr s w = 2 then .error (.err 1) s
  else
    .ok () { s with
      vault := wrBytes s.vault k v n
      verr := if n < 4 then s.verr else (wordsOf k n).foldl (fun m w => smSet 0 m w 0) s.verr }

/-- Set a word's full/empty bit; from the next work cycle on its bank retries the waiters on the word when it changed (R216). -/
def vSetFull (w : Nat) (b : Bool) (s : State) : State :=
  if vFullOf s w = b then s
  else
    let s := { s with vfull := smSet true s.vfull w b }
    let k := bankOf w
    let x := s.bank k
    if (x.waiters.any fun r => r.word = w) && !(x.retries.any fun r => r.1 = w) then
      heat k (s.modBank k fun x => { x with retries := x.retries ++ [(w, bankNow s k + 1)] })
    else s

/-- A teller operation on a word (R213). -/
def vTeller (w code : Nat) (v v2 : Word) : HM Word := fun s =>
  if vErr s w = 2 then .error (.err 1) s
  else match tellerNew code (vWord s w) v v2 with
    | some x => .ok (vWord s w) { vTouch w s with vault := wrBytes s.vault (4 * w) x.toNat 4 }
    | none => .error (.err 6) s

/-- A full/empty operation on a word: `none` while its condition fails (R215). -/
def vFe (w code : Nat) (v : Word) : HM (Option Word) := fun s =>
  if vErr s w = 2 then .error (.err 1) s
  else if 6 ≤ code then .error (.err 6) s
  else match feStep code v (vWord s w) (vFullOf s w) with
    | none => .ok none s
    | some (x, b, r) =>
      .ok (some r) (vSetFull w b { vTouch w s with vault := wrBytes s.vault (4 * w) x.toNat 4 })

/-- JoinAdd by one up or down: the bit is full exactly when the count is 0 (R149). A count that would pass its range stays (R151,
R152). The old count is answered. -/
def joinStep (up : Bool) (old : Word) : Option Word :=
  if up then (if old = 0xFFFFFFFF then none else some (old + 1)) else if old = 0 then none else some (old - 1)

def vJoin (w : Nat) (up : Bool) : HM Word := fun s =>
  if vErr s w = 2 then .error (.err 1) s
  else match joinStep up (vWord s w) with
    | none => .ok (vWord s w) s
    | some x => .ok (vWord s w) (vSetFull w (x = 0) { vTouch w s with vault := wrBytes s.vault (4 * w) x.toNat 4 })

/-- The bytes of a word that a mask names, from `new`. -/
def maskWord (mask : BitVec 4) (old new : Word) : Word :=
  (List.range 4).foldl (fun a i => if bitOf mask i then putField a (8 * i) 8 (fieldOf new (8 * i) 8) else a) old

/-- Write the bytes of a word that a mask names; a part of an uncorrectable word is not written (R206, R218). -/
def vWriteWord (w : Nat) (mask : BitVec 4) (data : Word) : HM Unit := fun s =>
  if mask ≠ 0xF && vErr s w = 2 then .error (.err 1) s else vWrite (4 * w) 4 (maskWord mask (vWord s w) data).toNat s

/-- Perform a word operation at its bank; `none` when a full/empty condition fails (R207). -/
def wordOp (w : Nat) (op : WordOp) : HM (Option Word) :=
  match op with
  | .read => do
    let v ← vRead (4 * w) 4
    pure (some (word v))
  | .write mask data => do
    vWriteWord w mask data
    pure (some 0)
  | .teller code v v2 => do
    let r ← vTeller w code v v2
    pure (some r)
  | .fe code v => vFe w code v
  | .join up => do
    let r ← vJoin w up
    pure (some r)

/-- The operation's answer carries data. -/
def WordOp.isRead : WordOp → Bool
  | .read | .teller .. | .join _ => true
  | .write .. => false
  | .fe code _ => code = 0 || code = 1 || code = 4

/-! ### The word port (R209 to R211, R216, R217) -/

/-- The core of an asker. -/
def Asker.core (a : Asker) : Option Nat :=
  match a with
  | .access k _ | .relaxed k _ _ | .thread k => some (coreOf k)
  | _ => Option.none

/-- When the answer to a request granted now reaches its core: over the mesh at once, the mesh's time being none of the model's. -/
def answerAt (s : State) (r : BankReq) : Nat :=
  match r.asker.core with
  | some n => if r.requester = 1024 then nowAt s n else nowAt s n + (vaultPath n (bankOf r.word)).2
  | none => 0

/-- A full/empty request finds the wait list full: it is sent again after its interval, which doubles up to 1,024 wc, or 4,096 mc from
a remote port (R216, R217, R72). -/
def listFull (r : BankReq) (s : State) : State :=
  match r.asker, r.op with
  | .thread k, .fe code v =>
    let n := coreOf k
    let far := r.requester = 1024
    let now := if far then mcAt s (coreRouter n) else answerAt s r
    let u := r.word / 2 ^ 23
    s.modSlot k fun sl => match sl.run with
      | .parked (.fullEmpty dst) =>
        { sl with run := .parked (.resend (.vault u (4 * (r.word % 2 ^ 23)) far) code v dst
            (Nat.min (2 * r.interval) (if far then 4096 else 1024)) (now + r.interval)) }
      | _ => sl
  | .remote id _, _ =>
    match s.remotes.lookup id with
    | some j => replyAck j.pkt 2 { s with remotes := smDel s.remotes id }
    | none => s
  | _, _ => s

/-- Perform a granted request; a full/empty operation whose condition fails joins the wait list of 8 (R216). -/
def bankPerform (r : BankReq) (s : State) : State :=
  match wordOp r.word r.op s with
  | .ok (some v) s => answer r.asker r.op.isRead (.ok v) (answerAt s r) s
  | .ok none s =>
    let b := bankOf r.word
    if (s.bank b).waiters.length < 8 then s.modBank b fun x => { x with waiters := x.waiters ++ [r] } else listFull r s
  | .error e s => answer r.asker r.op.isRead (.error e.code) (answerAt s r) s

/-- The next requester after LAST in the round-robin of R209, with its oldest request, of those that have arrived. -/
def bankPick (now : Nat) (x : Bank) : Option BankReq :=
  let dist := fun r : BankReq => (r.requester + 1024 - x.last) % 1025
  (x.held.filter fun r => decide (r.arrive ≤ now)).foldl (fun a r => match a with
    | none => some r
    | some q => if dist r < dist q then some r else a) none

/-- BANK_GRANT: the word port grants one held request (R209). -/
def execBankGrant (b : Nat) (s : State) : Host.Outcome State Fault Refusal :=
  .next <| match bankPick (bankNow s b) (s.bank b) with
    | none => s
    | some r => bankPerform r (s.modBank b fun x => { x with held := x.held.erase r, last := r.requester })

/-- WAITLIST_RETRY: the first waiter on a word is retried; the next one in the next work cycle when it was performed (R216). -/
def execWaitlistRetry (w : Nat) (s : State) : Host.Outcome State Fault Refusal :=
  .next <|
    let b := bankOf w
    let s := s.modBank b fun x => { x with retries := x.retries.filter fun r => r.1 ≠ w }
    let again := fun (r : BankReq) (s : State) => s.modBank b fun x =>
      let ws := x.waiters.erase r
      { x with
        waiters := ws
        retries := if (ws.any fun q => q.word = w) && !(x.retries.any fun q => q.1 = w) then x.retries ++ [(w, bankNow s b + 1)]
          else x.retries }
    match (s.bank b).waiters.find? fun r => r.word = w with
    | none => s
    | some r =>
      match wordOp r.word r.op s with
      | .ok none s => s
      | .ok (some v) s => answer r.asker r.op.isRead (.ok v) (answerAt s r) (again r s)
      | .error e s => answer r.asker r.op.isRead (.error e.code) (answerAt s r) (again r s)

/-- FE_RESEND: the port sends a full/empty request again (R216, R72). -/
def execFeResend (k : Nat) (s : State) : Host.Outcome State Fault Refusal :=
  .next <| match (s.slot k).run with
    | .parked (.resend pl code v dst iv _) =>
      let wait := fun (s : State) => s.modSlot k fun sl => { sl with run := .parked (.fullEmpty dst) }
      let n := coreOf k
      match pl with
      | .vault u off far =>
        let w := vKey u off / 4
        hold { requester := if far then 1024 else n % 1024, word := w, op := .fe code v, asker := .thread k, interval := iv
               arrive := if far then bankNow s (bankOf w) else nowAt s n + (vaultPath n (bankOf w)).1 - 1 } (wait s)
      | .home sl pa =>
        match homeFe sl pa code v s with
        | .ok (some r) s => answerThread k r 0 (wait s)
        | .ok none s =>
          if (s.slice sl).waiters.length < 16 then
            wait (s.modSlice sl fun x => { x with waiters := x.waiters ++ [{ word := pa / 4, op := .fe code v, asker := .thread k }] })
          else
            s.modSlot k fun t => { t with run := .parked (.resend pl code v dst (Nat.min (2 * iv) 4096) (mcAt s (coreRouter n) + iv)) }
        | .error (.wait _) _ => s
        | .error e s => answer (.thread k) false (.error e.code) 0 s
      | _ => s
    | _ => s

/-- VAULT_CORRECT_REWRITE: the bank rewrites a corrected word (R218). -/
def execVaultCorrectRewrite (w : Nat) (s : State) : Host.Outcome State Fault Refusal :=
  .next <|
    let s := s.modBank (bankOf w) fun x => { x with rewrites := x.rewrites.filter (· ≠ w) }
    if vErr s w = 1 then { s with verr := smSet 0 s.verr w 0 } else s

/-! ### The line port (R207, R212) -/

/-- The key of the bytes that a line-port access covers: byte lane `i` (0 to 15) of words in rows 4m to 4m + 3 of a bank
(R207, R204). -/
def lineKey (bank row i : Nat) : Nat :=
  vKey (bank / 2048) (4 * (2048 * (row / 4 * 4 + i / 4) + bank % 2048) + i % 4)

/-- The row of a word in its bank. -/
def rowOf (w : Nat) : Nat := w % 2 ^ 23 / 2048

/-- Line accesses of an engine enter its banks: they take part from the next work cycle on (R209, R216). -/
def lineAsk (u e job : Nat) (rs : List (Nat × LineReq)) (s : State) : State :=
  let s := rs.foldl (fun s r => heat r.1 (s.modBank r.1 fun x =>
    { x with lineHeld := x.lineHeld ++ [{ r.2 with engine := e, job := job, arrive := bankNow s r.1 + 1 }] })) s
  modIO u e job (fun x => { x with want := x.want + rs.length }) s

/-- The line access that a word belongs to joins a list: one for each bank, four rows and kind. -/
def lineJoin (w : Nat) (write setFull : Bool) (mask : BitVec 4) (data : Word) (rs : List (Nat × LineReq)) : List (Nat × LineReq) :=
  let b := bankOf w
  let lane := rowOf w % 4
  let same := fun r : Nat × LineReq => r.1 = b && r.2.row / 4 = rowOf w / 4 && r.2.setFull = setFull
  let put := fun r : LineReq =>
    { r with
      mask := putField r.mask (4 * lane) 4 (fieldOf r.mask (4 * lane) 4 ||| mask.toNat)
      data := putField r.data (32 * lane) 32 (maskWord mask (word (fieldOf r.data (32 * lane) 32)) data).toNat }
  if rs.any same then rs.map fun r => if same r then (r.1, put r.2) else r
  else rs ++ [(b, put { row := rowOf w / 4 * 4, write := write, setFull := setFull })]

/-- Word accesses of an engine to a remote vault: a group's remote port performs them as requester 1,024 (R217). -/
def farAsk (u e job : Nat) (ops : List (Nat × WordOp)) (s : State) : State :=
  let s := ops.foldl (fun s o =>
    hold { requester := 1024, word := o.1, op := o.2, asker := .engine u e job o.1, arrive := bankNow s (bankOf o.1) } s) s
  modIO u e job (fun x => { x with want := x.want + ops.length }) s

/-- An engine asks for words, those of its own cluster through the line ports. -/
def lineReads (u e job : Nat) (near far : List Nat) (s : State) : State :=
  farAsk u e job (far.map fun w => (w, .read)) (lineAsk u e job (near.foldl (fun rs w => lineJoin w false false 0xF 0 rs) []) s)

/-- An engine's writes: those of status words wait for the others. -/
def lineWrites (u e job : Nat) (s : State) : State :=
  let io := ioOf s u e job
  let now := if io.puts.any fun p => !p.late then io.puts.filter fun p => !p.late else io.puts
  let s := modIO u e job (fun x => { x with puts := x.puts.filter fun p => !now.contains p, writing := true }) s
  let near := (now.filter fun p => !p.far).foldl (fun rs p => lineJoin p.word true p.setFull p.mask p.data rs) []
  let far := (now.filter (·.far)).map fun p => (p.word, if p.setFull then WordOp.fe 3 p.data else .write p.mask p.data)
  farAsk u e job far (lineAsk u e job near s)

/-- Perform a line access on one of its words. -/
def lineWord (b : Nat) (r : LineReq) (lane : Nat) (s : State) : State :=
  let w := lineKey b r.row (4 * lane) / 4
  let u := unitOfBank b
  let mask := BitVec.ofNat 4 (fieldOf r.mask (4 * lane) 4)
  if mask = 0 then s
  else if r.write then
    match vWriteWord w mask (word (fieldOf r.data (32 * lane) 32)) s with
    | .ok _ s => if r.setFull then vSetFull w true s else s
    | .error e s => modIO u r.engine r.job (fun x => { x with err := x.err.or (some e.code) }) s
  else
    let v := if vErr s w = 2 then none else some (vWord s w)
    vTouch w (modIO u r.engine r.job (fun x => { x with got := x.got ++ [(w, v)] }) s)

/-- LINE_PORT_ACCESS: the line port performs one held access, round-robin among the 128 engines (R207, R212). -/
def execLinePortAccess (b : Nat) (s : State) : Host.Outcome State Fault Refusal :=
  .next <|
    let x := s.bank b
    let u := unitOfBank b
    let dist := fun r : LineReq => (r.engine + 127 - x.lineLast) % 128
    match (x.lineHeld.filter fun r => decide (r.arrive ≤ bankNow s b)).foldl (fun (a : Option LineReq) r => match a with
        | none => some r
        | some q => if dist r < dist q then some r else a) none with
    | none => s
    | some r =>
      let s := s.modBank b fun x => { x with lineHeld := x.lineHeld.erase r, lineLast := r.engine }
      ioStep u r.engine r.job id ((List.range 4).foldl (fun s j => lineWord b r j s) s)

/-! ### The ports in a work cycle -/

/-- What a bank's ports do in this work cycle: a retry before a grant, a rewrite where the word port is idle, and the line port after
the word port (R207, R209, R212, R216, R218). -/
def bankEvents (s : State) (b : Nat) : List Instr :=
  let x := s.bank b
  let now := bankNow s b
  (match x.retries.find? fun r => decide (r.2 ≤ now) with
    | some r => [.waitlistRetry r.1]
    | none =>
      if x.held.any fun r => decide (r.arrive ≤ now) then [.bankGrant b]
      else (x.rewrites.take 1).map .vaultCorrectRewrite) ++
    if x.lineHeld.any fun r => decide (r.arrive ≤ now) then [.linePortAccess b] else []

/-- A bank whose ports have nothing to do. -/
def Bank.quiet (x : Bank) : Bool := x.held.isEmpty && x.retries.isEmpty && x.rewrites.isEmpty && x.lineHeld.isEmpty

/-- The ports of every bank act, after the cores of this work cycle have issued. -/
def portTick (s : State) : State :=
  { s.pushAll (s.hot.flatMap (bankEvents s)) with ported := true, hot := s.hot.filter fun b => !(s.bank b).quiet }

/-! ### The remote port (R217) -/

/-- The bytes of a vault that a packet's write names, as words with their masks. -/
def remoteWords (c : Nat) (p : Packet) : List (Nat × BitVec 4 × Word) :=
  let v := p.pa.toNat % 2 ^ 26
  let bytes := match p.payload with
    | l :: _ => (natBytes l.toNat 64).zipIdx
    | [] => ((List.range 32).filter fun i => bitOf p.param i).map fun i => (BitVec.ofNat 8 (fieldOf p.inline (8 * i) 8), i)
  bytes.foldl (fun ws x =>
    let k := vKey c (interleaved (v + x.2))
    let put := fun (e : BitVec 4 × Word) => (e.1 ||| (1 <<< (k % 4)), putField e.2 (8 * (k % 4)) 8 x.1.toNat)
    if ws.any fun e => e.1 = k / 4 then ws.map fun e => if e.1 = k / 4 then (e.1, put e.2) else e
    else ws ++ [(k / 4, put (0, 0))]) []

/-- REMOTE_VAULT_ACCESS: the group's remote port takes a packet's access: a request for each of its words, as requester 1,024 of the
word's bank (R211, R217). -/
def execRemoteVaultAccess (c : Nat) (p : Packet) (s : State) : Host.Outcome State Fault Refusal :=
  .next <|
    let v := p.pa.toNat % 2 ^ 26
    let key := fun i => vKey c (interleaved (v + 4 * i)) / 4
    let ops : List (Nat × WordOp) := match p.opcode with
      | 0x01 => (List.range (2 ^ fieldOf p.param 0 3)).map fun i => (key i, .read)
      | 0x02 => (remoteWords c p).map fun e => (e.1, .write e.2.1 e.2.2)
      | 0x03 => [(key 0, .teller (fieldOf p.param 0 4) (word (fieldOf p.inline 0 32)) (word (fieldOf p.inline 32 32)))]
      | _ => [(key 0, .fe (fieldOf p.param 0 3) (word (fieldOf p.inline 0 32)))]
    if p.opcode = 0x01 && 5 ≤ fieldOf p.param 0 3 then replyErr p 6 s
    else if ops = [] then replyAck p 0 s
    else
      let id := (s.remotes.getLast?.map (·.1)).getD 0 + 1
      ops.zipIdx.foldl (fun s x => hold { requester := 1024, word := x.1.1, op := x.1.2, asker := .remote id x.2, arrive := bankNow s (bankOf x.1.1) } s)
        { s with remotes := s.remotes ++ [(id, { pkt := p, left := ops.length })] }

end Sys2Proof.Machine
end

