-- ==== Sys2Proof/Machine/Ctl.lean ====
section
/-! DEFINITION. The memory controllers' events (R24 to R42): requests, hot-row windows, patrol scrub, lane lending, channel
retirement and fencing, and the slices' side of a map change. -/

namespace Sys2Proof.Machine

/-- The slices of the partition that owns a stack. -/
def State.slicesOf (s : State) (st : Nat) : List Nat :=
  (List.range 4).flatMap fun d => if s.partOf d = s.partOf (st / 2) then (List.range 256).map fun i => 256 * d + i else []

/-- The request packets of a merged read: the packet itself and its further requesters in record order (R52, R76). -/
def mergedRequests (p : Packet) : List Packet :=
  p :: (List.range p.more.toNat).map fun i =>
    let r := fieldOf p.inline (40 * i) 40
    { p with
      srcCol := BitVec.ofNat 5 r, srcRow := BitVec.ofNat 5 (r / 32), srcEp := BitVec.ofNat 8 (r / 1024)
      tag := BitVec.ofNat 16 (r / 2 ^ 24), more := 0 }

/-- A write of a full line, which needs no fill (R70). -/
def fullWrite (p : Packet) : Bool := p.opcode = 0x02 && p.payload ≠ []

/-- Perform a request on a resident line, or a write of a full line, and answer it (R71, R72). Neither waits. -/
def slicePerform (sl : Nat) (p : Packet) (s : State) : State :=
  let pa := p.pa.toNat
  match p.opcode with
  | 0x01 =>
    (mergedRequests p).foldl (fun s q =>
      let n := 4 * 2 ^ fieldOf q.param 0 3
      match homeRead sl pa n s with
      | .ok v s =>
        if n = 64 then sendPacket (replyTo q 0x40 0 0 0 (some (BitVec.ofNat 512 v))) s else replyData q v s
      | .error e s => replyErr q e.code s) s
  | 0x02 =>
    match p.payload with
    | l :: _ => match homeWrite sl (pa / 64 * 64) 64 l.toNat s with
      | .ok _ s => replyAck p 0 s
      | .error e s => replyErr p e.code s
    | [] =>
      let s := (List.range 32).foldl (fun s i =>
        if bitOf p.param i then
          match homeWrite sl (pa + i) 1 (fieldOf p.inline (8 * i) 8) s with
          | .ok _ s => s
          | .error _ s => s
        else s) s
      replyAck p 0 s
  | 0x03 =>
    match homeTeller sl pa (fieldOf p.param 0 4) (word (fieldOf p.inline 0 32)) (word (fieldOf p.inline 32 32)) s with
    | .ok v s => replyData p v.toNat s
    | .error e s => replyErr p e.code s
  | 0x04 =>
    let op := WordOp.fe (fieldOf p.param 0 3) (word (fieldOf p.inline 0 32))
    match homeFe sl pa (fieldOf p.param 0 3) (word (fieldOf p.inline 0 32)) s with
    | .ok (some v) s => if op.isRead then replyData p v.toNat s else replyAck p 0 s
    | .ok none s =>
      if (s.slice sl).waiters.length < 16 then
        s.modSlice sl fun c => { c with waiters := c.waiters ++ [{ word := pa / 4, op := op, asker := .packet p }] }
      else replyAck p 2 s
    | .error e s => replyErr p e.code s
  | _ => replyErr p 6 s

/-- Answer every request that joined a miss with an error, in order (R33, R40). A write of a full line is performed where the
line's stored bits were the error, and the requests after it find the line. -/
def missError (sl line : Nat) (code : BitVec 5) (s : State) : State :=
  let ps := ((s.slice sl).misses.filter fun m => m.1 = line).flatMap (·.2)
  ps.foldl (fun s p =>
      if (sliceLine s sl line).valid || (code = 1 && fullWrite p) then slicePerform sl p s else replyErr p code s)
    (s.modSlice sl fun c => { c with misses := c.misses.filter fun m => m.1 ≠ line })

/-- Send a miss's request to the controller; one that no route takes is reported after its three re-issues (R66). -/
def missSend (r : McReq) (s : State) : State :=
  match (mcRoutes s r.slice r.line).1 with
  | .there ds => mcSend r (routeMarks (.there ds) s)
  | .held => mcSend r s
  | x => missError r.slice r.line 3 (routeMarks x s)

/-- A queued request can be served now, its pair's lanes permitting (R26). -/
def servable (s : State) (st : Nat) (r : McReq) : Bool := chanServed s st (coords (s.ctl st).retired r.line).1

/-- A read's fill goes back to its slice (R24, R40), or is reported when no route takes it (R66). -/
def mcAnswer (st : Nat) (r : McReq) (cap : Bool) (s : State) : State :=
  match mcRead st r.line 0 s with
  | (none, s) => missError r.slice r.line 1 s
  | (some (d, f), s) =>
    match (mcRoutes s r.slice r.line).2 with
    | .refused .. | .lost _ => missError r.slice r.line 4 (routeMarks (mcRoutes s r.slice r.line).2 s)
    | x => (routeMarks x s).push (.sliceFill r.slice r.line d f cap (s.ctl st).parity)

/-- MC_REQUEST: the oldest request that can be served is performed, bounced or refused (R24, R30, R33). -/
def execMcRequest (st : Nat) (s : State) : Host.Outcome State Fault Refusal :=
  .next <|
    let s := (s.ctl st).queue.foldl (fun s r => lendTouch st (coords (s.ctl st).retired r.line).1 s) s
    match (s.ctl st).queue.find? (servable s st) with
    | none => s
    | some r =>
      let s := s.modCtl st fun c => { c with queue := c.queue.erase r }
      let c := s.ctl st
      if r.stamp ≠ c.gen then s.push (.remap r.slice st c.gen r)
      else if c.state = 2 && !r.accepted then s.push (.remap r.slice st (c.gen + 1) r)
      else if mcFenced s r.line then missError r.slice r.line 5 s
      else
        let (s, cap) := activate st r.line s
        if r.write then putLine r.line r.data r.full s else mcAnswer st r cap s

/-- REFRESH_WINDOW_END: counts, capture lists, pacing and FALLBACK clear, and RELEASE goes to every slice (R34, R35). -/
def execRefreshWindowEnd (st : Nat) (s : State) : Host.Outcome State Fault Refusal :=
  .next <|
    let s := s.modCtl st fun c =>
      { c with
        trackers := smEach {} c.trackers fun _ t => { open_ := t.open_, entries := t.entries.map fun e => (e.1, 0) }
        parity := !c.parity, fallback := 0 }
    s.pushAll ((s.slicesOf st).map fun sl => .release sl st)

/-- RELEASE: the slice's captured lines of the stack become ordinary and its window advances (R35). -/
def execRelease (sl st : Nat) (s : State) : Host.Outcome State Fault Refusal :=
  .next <| s.modSlice sl fun c =>
    { c with
      lines := c.lines.map fun l => if stackOf l.1 = st then (l.1, { l.2 with captured := false }) else l
      maps := smMod {} c.maps st fun m => { m with parity := !m.parity } }

/-- DECLINE: a refused capture of the current window falls back to pacing (R35, R36). -/
def execDecline (st line : Nat) (parity : Bool) (s : State) : Host.Outcome State Fault Refusal :=
  .next <|
    let (ch, pc, bank, _) := coords (s.ctl st).retired line
    if parity = (s.ctl st).parity then hotFallback st ((ch * 2 + pc) * 64 + bank) line s else s

/-! ### Reserve lines (R21, R29, R42) -/

/-- The key of line `l` of a place of a stack's reserve rows (log 42). -/
def reserveKey (st ch pc bank row l : Nat) : Nat :=
  2 ^ 33 + st * 2 ^ 30 + ((((row - 16384) * 64 + bank) * 32 + ch) * 2 + pc) * 16 + l

/-- Line `l` of granule `i` of channel `t` (R23, R29). -/
def granuleLine (st t i l : Nat) : Nat :=
  let bank := i / 8 % 64
  st * 2 ^ 30 + i / 512 % 16384 * 65536 + bank * 1024 + i / 2 % 4 * 256 + (t ^^^ bank % 32) * 8 + i % 2 * 4 + l

/-- The reserve line that takes line `l` of granule `i` of retired channel `t` (R29). -/
def granuleReserve (st t i l : Nat) : Nat :=
  let (ch, pc, bank, row) := coords (some t) (granuleLine st t i 0)
  reserveKey st ch pc bank row (i / 31 / 2 % 4 * 4 + l)

/-- The mapped line that a reserve line holds, when its channel is retired (R29). -/
def reserveHolds (t : Option Nat) (st key : Nat) : Option Nat :=
  let r := key % 2 ^ 30
  let ch := r / 32 % 32
  let k := ((r / 65536) * 64 + r / 1024 % 64) * 8 + r % 16 / 4 * 2 + r / 16 % 2
  match t with
  | some t =>
    let i := k * 31 + (if ch < t then ch else ch - 1)
    if ch = t || 8388608 ≤ i then none else some (granuleLine st t i (r % 4))
  | none => none

/-- Channel, pseudo-channel, bank and row of a reserve line. -/
def reserveCoords (key : Nat) : Nat × Nat × Nat × Nat :=
  let r := key % 2 ^ 30
  (r / 32 % 32, r / 16 % 2, r / 1024 % 64, 16384 + r / 65536)

/-- The mapped or unused reserve line that a patrol read at `line` meets, with its place (R42). -/
def patrolPlace (s : State) (st line : Nat) : Nat × (Nat × Nat × Nat × Nat) :=
  let t := (s.ctl st).retired
  if line < 2 ^ 33 then (line, coords t line)
  else match reserveHolds t st line with
    | some l => (l, coords t l)
    | none => (line, reserveCoords line)

/-- PATROL_SCRUB of one mapped or reserve line: the read activates its row; a corrected line is written back unless a slice holds
a dirty copy (R42, R34). It waits while its channel's lanes are away (R26). -/
def execPatrolScrub (st line : Nat) (s : State) : Host.Outcome State Fault Refusal :=
  .next <|
    let (l, at_) := patrolPlace s st line
    if !chanServed s st at_.1 then (lendTouch st at_.1 s).defer (.patrolScrub st line)
    else
      let bad := smGet [] s.flips l ≠ []
      let s := (activateAt st l at_ (lendTouch st at_.1 s)).1
      match mcRead st l 2 s with
      | (some (d, f), s) =>
        if bad && !(s.slices.any fun sl => (smGet {} sl.2.lines l).dirty) then
          if l < 2 ^ 33 then putLine l d f s else { s with flips := smSet [] s.flips l [] }
        else s
      | (none, s) => s

/-! ### Lane lending (R25 to R28) -/

def modPair (st j : Nat) (f : Pair → Pair) (s : State) : State := s.modCtl st fun c => { c with pairs := smMod {} c.pairs j f }
def pairOf (s : State) (st j : Nat) : Pair := smGet {} (s.ctl st).pairs j

/-- Requests queued for a channel. -/
def queuedFor (s : State) (st ch : Nat) : Nat :=
  ((s.ctl st).queue.filter fun r => (coords (s.ctl st).retired r.line).1 = ch).length

def channelUsable (c : Ctl) (ch : Nat) : Bool := c.retired ≠ some ch && !bitOf c.fenced ch

/-- LEND_START: the busy channel of an enabled pair asks for the idle one's lanes (R25). -/
def execLendStart (st j : Nat) (s : State) : Host.Outcome State Fault Refusal :=
  .next <|
    let c := s.ctl st
    let a := queuedFor s st (2 * j)
    let b := queuedFor s st (2 * j + 1)
    if bitOf c.pairEn j && channelUsable c (2 * j) && channelUsable c (2 * j + 1) && !c.retire &&
        (pairOf s st j).st = .normal && ((16 ≤ a && b = 0) || (16 ≤ b && a = 0)) then
      modPair st j (fun p => { p with st := .request, odd := decide (16 ≤ b), lenderWaits := false }) s
    else s

/-- A lending state passes to the next when its action is done (R26). -/
def lendMove (st j : Nat) (src dst : Lend) (s : State) : State :=
  if (pairOf s st j).st = src then modPair st j (fun p => { p with st := dst }) s else s

/-- Count a failed training; the third in a row disables the pair, and its count begins again (R28). -/
def lendFail (st j : Nat) (s : State) : State :=
  let s := modPair st j (fun p => { p with fails := p.fails + 1 }) s
  if 3 ≤ (pairOf s st j).fails then
    ctlRecord st 0x03 0 j
      ((modPair st j (fun p => { p with fails := 0 }) s).modCtl st fun c => { c with pairEn := putField c.pairEn j 1 0 })
  else s

/-- Let queued requests be looked at again. -/
def mcWake (st : Nat) (s : State) : State := s.pushAll ((s.ctl st).queue.map fun _ => .mcRequest st)

def pairsNormal (c : Ctl) : Bool := c.pairs.all fun p => p.2.st = .normal

/-- A retirement or a fence that waited for the pairs of its stack goes on once all are NORMAL (R27, R30): a fence's FLUSH begins,
or COPY goes on. -/
def mapProceed (st : Nat) (s : State) : State :=
  let c := s.ctl st
  if c.state ≠ 1 || !pairsNormal c then s
  else s.pushAll (if c.fence then ((s.slicesOf st).map fun sl => .sliceFlush sl st true (some c.chan)) ++ [.mapDrainStart st]
    else [.mapDrainStart st])

def execLendAck (st j : Nat) (s : State) : Host.Outcome State Fault Refusal := .next (lendMove st j .request .drain s)
def execLendAbort (st j : Nat) (s : State) : Host.Outcome State Fault Refusal :=
  .next (mapProceed st (mcWake st (lendMove st j .request .normal (lendMove st j .drain .normal s))))
def execLendDrainDone (st j : Nat) (s : State) : Host.Outcome State Fault Refusal := .next (lendMove st j .drain .quiesce s)
def execLendQuiesceDone (st j : Nat) (s : State) : Host.Outcome State Fault Refusal :=
  .next (lendMove st j .quiesce .retrain s)

/-- LEND_RETRAIN_DONE: LENT, or RECLAIM after a failed training; RECLAIM starts at once where a lender's request or a map change
waits (R26, R27). A good training of RETRAIN ends a row of failures, a good one of RECLAIM does not (DESIGN CHOICE, log 41). -/
def execLendRetrainDone (st j : Nat) (good : Bool) (s : State) : Host.Outcome State Fault Refusal :=
  .next <|
    if (pairOf s st j).st ≠ .retrain then s
    else if good then
      let s' := mcWake st (modPair st j (fun p => { p with st := .lent, fails := 0, lenderWaits := false }) s)
      if (pairOf s st j).lenderWaits || (s.ctl st).state = 1 then s'.push (.lendReclaimStart st j) else s'
    else lendFail st j (modPair st j (fun p => { p with st := .reclaim }) s)

/-- LEND_RECLAIM_START (R27). -/
def execLendReclaimStart (st j : Nat) (s : State) : Host.Outcome State Fault Refusal := .next (lendMove st j .lent .reclaim s)

/-- LEND_RECLAIM_DONE: NORMAL on the original lanes (R26, R28). -/
def execLendReclaimDone (st j : Nat) (good : Bool) (s : State) : Host.Outcome State Fault Refusal :=
  .next <|
    if (pairOf s st j).st ≠ .reclaim then s
    else
      let s := modPair st j (fun p => { p with st := .normal, lenderWaits := false }) s
      mapProceed st (mcWake st (if good then s else lendFail st j s))

/-! ### Map changes (R29 to R33) -/

/-- Every lent pair starts RECLAIM (R27). -/
def reclaimAll (st : Nat) (s : State) : State :=
  s.pushAll ((s.ctl st).pairs.filterMap fun p => if p.2.st = .lent then some (.lendReclaimStart st p.1) else none)

/-- A RETIRE or FENCE of TARGET is refused (R46). -/
def mapRefused (retire : Bool) (c : Ctl) : Bool :=
  (retire && c.resvUsed) || !channelUsable c c.target.toNat || c.state ≠ 0

/-- MCMAP_RETIRE (R30, R46). MCMAP.STATE shows COPY from now on, also while pairs return to NORMAL (DESIGN CHOICE, log 41). -/
def execMcmapRetire (st : Nat) (s : State) : Host.Outcome State Fault Refusal :=
  .next <|
    if mapRefused true (s.ctl st) then s.modCtl st fun c => { c with refused := true }
    else reclaimAll st (s.modCtl st fun c => { c with retire := true, state := 1, copyNext := 0, chan := c.target.toNat })

/-- MCMAP_FENCE: every slice of the partition flushes the channel once every pair is NORMAL (R27, R30, R46). MCMAP.STATE shows
FLUSH from now on (DESIGN CHOICE, log 41). -/
def execMcmapFence (st : Nat) (s : State) : Host.Outcome State Fault Refusal :=
  .next <|
    if mapRefused false (s.ctl st) then s.modCtl st fun c => { c with refused := true }
    else mapProceed st (reclaimAll st (s.modCtl st fun c => { c with fence := true, state := 1, chan := c.target.toNat }))

/-- COPY_GRANULE: one granule is read and copied as one step; uncorrectable lines are logged (R31). Both its rows are activated
(R34), and what stood in the reserve lines goes. -/
def execCopyGranule (st : Nat) (s : State) : Host.Outcome State Fault Refusal :=
  .next <|
    let c := s.ctl st
    if c.retire && c.state = 1 && pairsNormal c && c.copyNext < 8388608 then
      let line := granuleLine st c.chan c.copyNext 0
      let s := (activateAt st line (coords (some c.chan) line) (activateAt st line (coords none line) s).1).1
      let s := (List.range 4).foldl (fun s l =>
        let s := (mcRead st (granuleLine st c.chan c.copyNext l) 1 s).2
        { s with flips := smSet [] s.flips (granuleReserve st c.chan c.copyNext l) [] }) s
      let s := s.modCtl st fun c => { c with copyNext := c.copyNext + 1 }
      if c.copyNext + 1 = 8388608 then s.push (.mapDrainStart st) else s
    else s

/-- A slice of the partition still holds a line of the channel. -/
def channelHeld (s : State) (st t : Nat) : Bool :=
  (s.slicesOf st).any fun sl => (s.slice sl).lines.any fun l => stackOf l.1 = st && channel0 l.1 = t && l.2.valid

/-- MAP_DRAIN_START: COPY or FLUSH is done and requests stamped n that arrive are bounced; those queued are accepted (R30). A FLUSH
that is not done is looked at again. -/
def execMapDrainStart (st : Nat) (s : State) : Host.Outcome State Fault Refusal :=
  .next <|
    let c := s.ctl st
    if c.state = 1 && pairsNormal c &&
        (if c.retire then decide (c.copyNext = 8388608) else !channelHeld s st c.chan) then
      (s.modCtl st fun c => { c with state := 2, queue := c.queue.map fun r => { r with accepted := true } }).push (.mapActivate st)
    else if c.state = 1 && pairsNormal c && c.fence then
      { s with later := s.later ++ ((s.slicesOf st).map fun sl => .sliceFlush sl st true (some c.chan)) ++ [.mapDrainStart st] }
    else s

/-- MAP_ACTIVATE: generation n + 1 serves and its map is broadcast, once every accepted request is complete. Correctable lines of a
retired channel were copied corrected (R30, R31). -/
def execMapActivate (st : Nat) (s : State) : Host.Outcome State Fault Refusal :=
  .next <|
    let c := s.ctl st
    let t := c.chan
    if c.state ≠ 2 then s
    else if c.queue.any (·.accepted) then s.defer (.mapActivate st)
    else
      let s := if c.retire then
          s.flips.foldl (fun s f =>
            if stackOf f.1 = st && channel0 f.1 = t then
              match decodePattern f.2 with
              | some e => putLine f.1 (applyPattern e (memLine s f.1) (memFullOf s f.1)).1
                  (applyPattern e (memLine s f.1) (memFullOf s f.1)).2 s
              | none => s
            else s) s
        else s
      let s := s.modCtl st fun c =>
        { c with
          gen := c.gen + 1, state := 3, retire := false, fence := false
          retired := if c.retire then some t else c.retired, resvUsed := c.resvUsed || c.retire
          fenced := if c.retire then c.fenced else c.fenced ||| (1 <<< t) }
      let s := ctlRecord st 0x04 0 ((s.ctl st).gen.toNat + t * 2 ^ 32) s
      s.pushAll ((s.slicesOf st).map fun sl => .mapReceive sl st)

/-- MAP_RECEIVE: the slice takes the new map and re-issues its bounced requests in order; with the last slice the change ends
(R30, R32). -/
def execMapReceive (sl st : Nat) (s : State) : Host.Outcome State Fault Refusal :=
  .next <|
    let c := s.ctl st
    let mine := (s.slice sl).bounced.filter fun b => stackOf b.line = st
    let s := s.modSlice sl fun x =>
      { x with
        maps := smMod {} x.maps st fun m => { m with gen := c.gen, retired := c.retired, fenced := c.fenced }
        bounced := x.bounced.filter fun b => stackOf b.line ≠ st }
    let s := mine.foldl (fun s r => mcSend r s) s
    if c.state = 3 && (s.slicesOf st).all fun x => (smGet {} (s.slice x).maps st).gen = c.gen then
      s.modCtl st fun c => { c with state := 0 }
    else s

/-- REMAP: the slice holds the bounced request until its map has the generation; four in a row exhaust it (R32, R33). -/
def execRemap (sl st : Nat) (gen : BitVec 4) (r : McReq) (s : State) : Host.Outcome State Fault Refusal :=
  .next <|
    let r := { r with bounces := r.bounces + 1 }
    if r.bounces = 4 then missError sl r.line 5 s
    else if (smGet {} (s.slice sl).maps st).gen = gen then mcSend r s
    else s.modSlice sl fun c => { c with bounced := c.bounced ++ [r] }

end Sys2Proof.Machine
end

