-- ==== Sys2Proof/Machine/Slices.lean ====
section
/-! DEFINITION. The cache slices' events (R70 to R73): packets from the mesh, fills, waiters and flushes. -/

namespace Sys2Proof.Machine

/-- A request reaches a slice: a hit is performed, a miss joins or starts a fill (R70, R71). -/
def sliceRequest (sl : Nat) (p : Packet) (s : State) : State :=
  let line := p.pa.toNat / 64
  if (s.slice sl).misses.any fun m => m.1 = line then
    s.modSlice sl fun c => { c with misses := c.misses.map fun m => if m.1 = line then (line, m.2 ++ [p]) else m }
  else if (sliceLine s sl line).valid || (fullWrite p && !lineQueued s sl line && !mcFenced s line) then slicePerform sl p s
  else
    missSend { slice := sl, line := line, cls := if p.cls = 0 then 0 else 1 }
      (s.modSlice sl fun c => { c with misses := c.misses ++ [(line, [p])] })

/-- A request taken from the slice's REQ input: a miss on a new line with 32 tracked holds the input (R70). -/
def sliceInput (i : Instr) (sl : Nat) (p : Packet) (s : State) : Host.Outcome State Fault Refusal :=
  .next <|
    let line := p.pa.toNat / 64
    if 32 ≤ (s.slice sl).misses.length && !((s.slice sl).misses.any fun m => m.1 = line) && !(sliceLine s sl line).valid then
      s.defer i
    else sliceRequest sl p s

def execSliceRd (sl : Nat) (p : Packet) (s : State) : Host.Outcome State Fault Refusal := sliceInput (.sliceRd sl p) sl p s
def execSliceWr (sl : Nat) (p : Packet) (s : State) : Host.Outcome State Fault Refusal := sliceInput (.sliceWr sl p) sl p s
def execSliceTel (sl : Nat) (p : Packet) (s : State) : Host.Outcome State Fault Refusal := sliceInput (.sliceTel sl p) sl p s
def execSliceFe (sl : Nat) (p : Packet) (s : State) : Host.Outcome State Fault Refusal := sliceInput (.sliceFe sl p) sl p s

/-- SLICE_FILL: the line is installed and the joined requests are performed in order (R70, R35). -/
def execSliceFill (sl line : Nat) (data : BitVec 512) (full : BitVec 16) (cap parity : Bool) (s : State) :
    Host.Outcome State Fault Refusal :=
  .next <|
    let ps := ((s.slice sl).misses.filter fun m => m.1 = line).flatMap (·.2)
    let s := s.modSlice sl fun c => { c with misses := c.misses.filter fun m => m.1 ≠ line }
    let s := if (sliceLine s sl line).valid then s else sliceInstall sl line data full false cap parity s
    ps.foldl (fun s p => slicePerform sl p s) s

/-- SLICE_WAITER_RETRY: the first waiter on a word is retried; the next is due when it was performed (R72). -/
def execSliceWaiterRetry (sl w : Nat) (s : State) : Host.Outcome State Fault Refusal :=
  .next <| match (s.slice sl).waiters.find? fun x => x.word = w with
    | none => s
    | some x =>
      let drop := fun (s : State) => s.modSlice sl fun c => { c with waiters := c.waiters.erase x }
      match x.op with
      | .fe code v =>
        match homeFe sl (4 * w) code v s with
        | .ok none s => s
        | .ok (some r) s => (answer x.asker x.op.isRead (.ok r) 0 (drop s)).push (.sliceWaiterRetry sl w)
        | .error (.wait _) _ => s.defer (.sliceWaiterRetry sl w)
        | .error e s => (answer x.asker x.op.isRead (.error e.code) 0 (drop s)).push (.sliceWaiterRetry sl w)
      | _ => drop s

/-- SLICE_FLUSH: the dirty lines of a stack are written back, and its lines invalidated when asked, captured ones kept (R73, R37).
The FLUSH of R30 names a channel: it takes that channel's lines, captured ones too. -/
def execSliceFlush (sl st : Nat) (inval : Bool) (s : State) (chan : Option Nat := none) : Host.Outcome State Fault Refusal :=
  .next <|
    let mine := fun (l : Nat) => stackOf l = st && (match chan with
      | some t => channel0 l = t
      | none => true)
    let s := (s.slice sl).lines.foldl (fun s l =>
      if mine l.1 && l.2.valid && l.2.dirty then writeBack sl l.1 l.2.data l.2.full s else s) s
    s.modSlice sl fun x =>
      { x with lines := smEach {} x.lines fun l e =>
          if !mine l || !e.valid then e
          else if inval && (chan.isSome || !e.captured) then {} else { e with dirty := false } }

end Sys2Proof.Machine
end

