-- ==== Sys2Proof/Machine/HostPort.lean ====
section
/-! DEFINITION. The host port (R82 to R94, R110, R119): the window as a memory device, inbound data, notifications, completion
rings, outbound pages and attestation. -/

namespace Sys2Proof.Machine

def State.port (s : State) (d : Nat) : HostPort := (s.die d).host
def modPort (d : Nat) (f : HostPort → HostPort) (s : State) : State := s.modDie d fun x => { x with host := f x.host }
def State.ap (s : State) (d a : Nat) : Aperture := smGet {} (s.port d).aps a
def modAp (d a : Nat) (f : Aperture → Aperture) (s : State) : State :=
  modPort d (fun h => { h with aps := smMod {} h.aps a f }) s

/-- The key of a byte of an aperture in the port store. -/
def apKey (a off : Nat) : Nat := a * 0x1000000 + off

/-- INCRED (R93). -/
def increds (h : HostPort) : Nat := 4096 - h.inbuf.length

/-- PSTAT of an aperture (R93). -/
def pstat (h : HostPort) (x : Aperture) : Word :=
  word (h.open_.toNat * 2 ^ 31 + x.hole.toNat * 16 + x.werr.toNat * 8 + x.ovf.toNat * 4 + x.qerr.toNat * 2)

/-- The register page of an aperture (R93). -/
def apReg (h : HostPort) (x : Aperture) (off : Nat) : Word :=
  if off = 0 then pstat h x
  else if off = 4 then word (increds h)
  else if off = 8 then x.irqen.setWidth 32
  else if off = 12 then x.irqpend.setWidth 32
  else if 0x40 ≤ off && off < 0x80 then (smGet 0 x.chead ((off - 0x40) / 4)).setWidth 32
  else if off = 0x80 then x.outsize.setWidth 32
  else 0

/-- A byte of a word. -/
def byteOf (w : Word) (i : Nat) : Byte := BitVec.ofNat 8 (fieldOf w (8 * i) 8)

/-- The port control aperture (R110). -/
def ctlByte (s : State) (d off : Nat) : Byte :=
  let h := s.port d
  let at_ := fun (l : List Byte) i => l.getD i 0
  if off < 4 then
    byteOf (word (s.sr.devnum.toNat + d * 2 ^ 8 + s.partOf d * 2 ^ 12 + h.open_.toNat * 2 ^ 31)) off
  else if 0x10 ≤ off && off < 0x20 then
    let i := (off - 0x10) / 4
    byteOf ((List.range 32).foldl (fun w j =>
      let x := smGet {} h.aps (32 * i + j)
      if x.irqpend &&& x.irqen = 0 then w else w ||| (1 <<< j)) 0) (off % 4)
  else if (0x100 ≤ off && off < 0x140) || (0x200 ≤ off && off < 0x240) then smGet 0 h.store (apKey 255 off)
  else if off = 0x240 then ofBit 8 h.mbirq
  else if 0x1000 ≤ off && off < 0x1020 then at_ h.attNonce (off - 0x1000)
  else if off = 0x1020 then h.attcmd.setWidth 8
  else if 0x1100 ≤ off && off < 0x1200 then smGet 0 h.attRep (off - 0x1100)
  else if 0x2000 ≤ off && off < 0x4000 then at_ s.sr.idcert (off - 0x2000)
  else if 0x4000 ≤ off && off < 0x5000 then at_ s.sr.aliascert (off - 0x4000)
  else 0

/-- HOSTIRQN is driven low (R92, R110). -/
def hostIrqLow (s : State) (d : Nat) : Bool :=
  (s.port d).mbirq || (s.port d).aps.any fun a => a.2.en && a.2.irqpend &&& a.2.irqen ≠ 0

/-- An offset of a bound aperture that is not backed for reads (R85). -/
def apHole (x : Aperture) (off : Nat) : Bool :=
  (decide (0x21000 ≤ off) && decide (off < 0x80000)) || decide (0x80000 + x.outsize.toNat * 65536 ≤ off) ||
    decide (0x800000 ≤ off)

/-- A byte of the window (R84 to R86). -/
def hostByte (s : State) (d w : Nat) : Byte :=
  let h := s.port d
  let a := w / 0x1000000
  let off := w % 0x1000000
  let x := smGet {} h.aps a
  if !h.open_ then 0
  else if a = 255 then ctlByte s d off
  else if !x.en || 128 ≤ a || apHole x off then 0
  else if off < 0x10000 && off % 4096 < 64 then
    let n := off / 4096
    let i := off % 64
    if i < 4 then byteOf (word (smGet 0 x.tail n)) i else if i < 8 then byteOf (word (smGet 0 x.head n)) (i - 4) else 0
  else if 0x20000 ≤ off && off < 0x21000 then byteOf (apReg h x (off % 4096 / 4 * 4)) (off % 4)
  else smGet 0 h.store (apKey a off)

/-- The window offset of a device address (R83). -/
def windowOffset (row bank ch col : Nat) : Nat := row % 65536 * 65536 + bank % 16 * 4096 + ch % 2 * 2048 + col % 2048

/-- HOST_ACTIVATE, HOST_PRECHARGE and HOST_REFRESH: only the banks' rows are state (R82). -/
def execHostActivate (d ch bank row : Nat) (s : State) : Host.Outcome State Fault Refusal :=
  .next (modPort d (fun h => { h with rows := smSet none h.rows (16 * ch + bank) (some row) }) s)
def execHostPrecharge (d ch bank : Nat) (s : State) : Host.Outcome State Fault Refusal :=
  .next (modPort d (fun h => { h with rows := smSet none h.rows (16 * ch + bank) none }) s)

/-- The bits of a mode register that belong to options the port does not support: DVFSC in MR19, data copy and write-X in MR21, link
ECC in MR22, the segment mask of partial-array self refresh in MR23 (R82; the registers are JESD209-5's, PRESUMED, log 45). -/
def modeAbsent : Nat → Byte
  | 19 => 0x03
  | 21 => 0x77
  | 22 => 0xF0
  | 23 => 0xFF
  | _ => 0

/-- HOST_REFRESH: refresh, self refresh and power-down have no effect; a mode register keeps what is written, but for the fields of
options that are not supported, which read 0 (R82). -/
def execHostRefresh (d : Nat) (s : State) (cmd : HostCmd := .refresh) : Host.Outcome State Fault Refusal :=
  .next <| match cmd with
    | .refresh => s
    | .modeWrite r v => modPort d (fun h => { h with modes := smSet 0 h.modes r (v &&& ~~~modeAbsent r) }) s
    | .modeRead r => modPort d (fun h => { h with readOut := [smGet 0 h.modes r] }) s

/-- An access to an unbacked place sets HOLE (R85). -/
def setHole (d a : Nat) (s : State) : State := modAp d a (fun x => { x with hole := true }) s

/-- HOST_READ: a burst from the open row (R82 to R86). -/
def execHostRead (d ch bank col len : Nat) (s : State) : Host.Outcome State Fault Refusal :=
  .next <| match smGet none (s.port d).rows (16 * ch + bank) with
    | none => s
    | some row =>
      let w := windowOffset row bank ch col
      let a := w / 0x1000000
      let x := s.ap d a
      let bytes := (List.range len).map fun i => hostByte s d (w + i)
      let s := modPort d (fun h => { h with readOut := bytes }) s
      if (s.port d).open_ && a < 128 && x.en && (List.range len).any fun i => apHole x ((w + i) % 0x1000000) then setHole d a s
      else s

/-- The value of the bytes present, and the mask of their bits. -/
def maskedWord (bs : List (Option Byte)) : Word × Word :=
  bs.zipIdx.foldl (fun a b => match b.1 with
    | some v => (a.1 ||| (v.setWidth 32 <<< (8 * b.2)), a.2 ||| (0xFF <<< (8 * b.2)))
    | none => a) (0, 0)

/-- A host write to a register of an aperture's register page (R93). -/
def apRegWrite (d a off : Nat) (v m : Word) (s : State) : State :=
  if off = 0 then
    modAp d a (fun x => { x with hole := x.hole && !bitOf v 4, werr := x.werr && !bitOf v 3, ovf := x.ovf && !bitOf v 2,
                                 qerr := x.qerr && !bitOf v 1 }) s
  else if off = 8 then modAp d a (fun x => { x with irqen := (x.irqen &&& ~~~(m.setWidth 16)) ||| v.setWidth 16 }) s
  else if off = 12 then modAp d a (fun x => { x with irqpend := x.irqpend &&& ~~~(v.setWidth 16) }) s
  else if 0x40 ≤ off && off < 0x80 then
    let n := (off - 0x40) / 4
    (modAp d a (fun x =>
      { x with chead := smMod 0 x.chead n (fun c => (c &&& ~~~(m.setWidth 7)) ||| v.setWidth 7) }) s).push (.completionRecordWrite d a n)
  else s

/-- Store host bytes. -/
def storeBytes (d key : Nat) (bs : List (Option Byte)) (s : State) : State :=
  let put := fun (m : SMap Byte) (b : Option Byte × Nat) => match b.1 with
    | some v => smSet 0 m (key + b.2) v
    | none => m
  modPort d (fun h => { h with store := bs.zipIdx.foldl put h.store }) s

/-- A host write of up to four bytes of one word of the port control aperture (R110, R119). -/
def ctlWrite (d off : Nat) (bs : List (Option Byte)) (s : State) : State :=
  let h := s.port d
  let (v, m) := maskedWord bs
  if 0x100 ≤ off && off < 0x140 then storeBytes d (apKey 255 off) bs s
  else if off = 0x140 then s.push (.mbdoor d)
  else if off = 0x240 then (if bitOf v 0 then modPort d (fun h => { h with mbirq := false }) s else s)
  else if 0x1000 ≤ off && off < 0x1020 then
    if h.attcmd = 1 then s
    else
      let put := fun (l : List Byte) (b : Option Byte × Nat) => match b.1 with
        | some v => l.set (off - 0x1000 + b.2) v
        | none => l
      let old := if h.attNonce.length = 32 then h.attNonce else List.replicate 32 0
      modPort d (fun h => { h with attNonce := bs.zipIdx.foldl put old }) s
  else if off = 0x1020 && fieldOf m 0 8 = 255 && fieldOf v 0 8 = 1 && h.attcmd ≠ 1 then s.push (.attcmd d)
  else s

/-- One aligned word of a host write burst (R84, R85, R88). -/
def hostWriteWord (d w : Nat) (bs : List (Option Byte)) (s : State) : State :=
  let a := w / 0x1000000
  let off := w % 0x1000000
  let x := s.ap d a
  if bs.all Option.isNone then s
  else if a = 255 then ctlWrite d off bs s
  else if !x.en || 128 ≤ a then s
  else if off < 0x10000 then
    if off % 4096 < 64 then
      if off % 4096 = 0 then
        if bs.all Option.isSome && bs.length = 4 then s.push (.notification d a (off / 4096) (maskedWord bs).1)
        else modAp d a (fun x => { x with qerr := true }) s
      else s
    else storeBytes d (apKey a off) bs s
  else if off < 0x20000 || apHole x off then setHole d a s
  else if off < 0x21000 then apRegWrite d a (off % 4096) (maskedWord bs).1 (maskedWord bs).2 s
  else storeBytes d (apKey a off) bs s

/-- Cut a burst into aligned words. -/
def burstWords (w : Nat) (bs : List (Option Byte)) : List (Nat × List (Option Byte)) :=
  (List.range ((w % 4 + bs.length + 3) / 4)).map fun i =>
    let lo := w / 4 * 4 + 4 * i
    (lo, (List.range 4).map fun j => if lo + j < w then none else (bs.getD (lo + j - w) none))

/-- HOST_WRITE: a burst to the open row (R82 to R88); inbound pages take it whole (R87). -/
def execHostWrite (d ch bank col : Nat) (bs : List (Option Byte)) (s : State) : Host.Outcome State Fault Refusal :=
  .next <| match smGet none (s.port d).rows (16 * ch + bank) with
    | none => s
    | some row =>
      let w := windowOffset row bank ch col
      let a := w / 0x1000000
      if !(s.port d).open_ then s
      else if a < 128 && 0x800000 ≤ w % 0x1000000 then
        if (s.ap d a).en then s.push (.inboundWrite d a (w % 0x1000000) bs) else s
      else (burstWords w bs).foldl (fun s p => hostWriteWord d p.1 p.2 s) s

/-- INBOUND_WRITE: the burst takes an entry of the inbound buffer, or is discarded with OVF (R87). -/
def execInboundWrite (d a off : Nat) (bs : List (Option Byte)) (s : State) : Host.Outcome State Fault Refusal :=
  .next <|
    if (s.ap d a).en then
      if 4096 ≤ (s.port d).inbuf.length then modAp d a (fun x => { x with ovf := true }) s
      else (modPort d (fun h => { h with inbuf := h.inbuf ++ [{ ap := a, off := off, bytes := bs }] }) s).push (.inboundForward d)
    else s

/-- Write a burst at a home as one WR: a full line needs no fill; the bytes present of any other are merged into the line (R70,
R87). Only the first of them can fail. -/
def homeBurst (sl pa : Nat) (bs : List (Option Byte)) : HM Unit :=
  if bs.length = 64 && pa % 64 = 0 && bs.all Option.isSome then homeWrite sl pa 64 (bytesNat (bs.map (·.getD 0)))
  else bs.zipIdx.foldl (fun m b => match b.1 with
    | some v => do
      m
      homeWrite sl (pa + b.2) 1 v.toNat
    | none => m) (pure ())

/-- INBOUND_FORWARD: the oldest entry goes to its line's home slice and is answered (R87); it stays while the line or the route is
held. -/
def execInboundForward (d : Nat) (s : State) : Host.Outcome State Fault Refusal :=
  .next <| match (s.port d).inbuf.findIdx? fun e => !e.sent with
    | none => s
    | some i =>
      let e := (s.port d).inbuf.getD i {}
      let pa := (s.ap d e.ap).inbase.toNat * 0x800000 + (e.off - 0x800000)
      let sent := fun (s : State) => modPort d (fun h => { h with inbuf := h.inbuf.set i { e with sent := true } }) s
      let p := s.partOf d
      if 2 ^ 39 ≤ pa || s.partOf (pa / 2 ^ 37) ≠ p then (sent s).push (.inboundAck d (some 2))
      else
        let sl := (hashHome (s.part p).place 63 pa).getD (256 * d)
        match overRoute (cornerRouter d) 0x90 sl 2 pa false (homeBurst sl pa e.bytes) s with
        | .ok _ s => (sent s).push (.inboundAck d none)
        | .error (.wait o) _ => (o.touch s).defer (.inboundForward d)
        | .error e s => (sent s).push (.inboundAck d (some e.code))

/-- INBOUND_ACK: the oldest sent entry is answered; notifications behind it move up (R87, R89). An error sets WERR, and the aperture's
notifications behind it never pass, since that write is never acknowledged (R89, log 43). -/
def execInboundAck (d : Nat) (err : Option (BitVec 5)) (s : State) : Host.Outcome State Fault Refusal :=
  .next <| match (s.port d).inbuf.findIdx? fun e => e.sent with
    | none => s
    | some i =>
      let e := (s.port d).inbuf.getD i {}
      let s := modPort d (fun h =>
        { h with
          inbuf := h.inbuf.eraseIdx i
          notes := if err.isSome then h.notes.filter fun n => n.1 ≠ e.ap || n.2.2.2 = 0
            else h.notes.map fun n => if n.1 = e.ap then (n.1, n.2.1, n.2.2.1, n.2.2.2 - 1) else n }) s
      let s := if err.isSome then modAp d e.ap (fun x => { x with werr := true }) s else s
      if (s.port d).notes = [] then s else s.push (.notifyForward d)

/-- NOTIFICATION: R88's test of a TAIL write. -/
def execNotification (d a q : Nat) (value : Word) (s : State) : Host.Outcome State Fault Refusal :=
  .next <|
    let x := s.ap d a
    let t := smGet 0 x.tail q
    let v := value.toNat
    if v ≤ 62 && (v + 63 - t) % 63 ≤ (smGet 0 x.head q + 125 - t) % 63 && !x.ovf && !x.werr then
      if v = t then s
      else
        let ahead := ((s.port d).inbuf.filter fun e => e.ap = a).length
        (modPort d (fun h => { h with notes := h.notes ++ [(a, q, v, ahead)] })
          (modAp d a (fun x => { x with tail := smSet 0 x.tail q v }) s)).push (.notifyForward d)
    else modAp d a (fun x => { x with qerr := true }) s

/-- NOTIFY_FORWARD: notifications whose inbound writes are all acknowledged reach the launch unit (R89). -/
def execNotifyForward (d : Nat) (s : State) : Host.Outcome State Fault Refusal :=
  .next <|
    let ready := (s.port d).notes.filter fun n => n.2.2.2 = 0
    let s := modPort d (fun h => { h with notes := h.notes.filter fun n => n.2.2.2 ≠ 0 }) s
    ready.foldl (fun s n =>
      (modAp d n.1 (fun x => { x with known := smSet 0 x.known n.2.1 n.2.2.1 }) s).push (.launchDispatch (s.partOf d))) s

/-- COMPLETION_RECORD_WRITE: the oldest held completion of a ring is written unless the ring is full (R90, R92); a record that waits
for it is looked at again (R133). -/
def execCompletionRecordWrite (d a q : Nat) (s : State) : Host.Outcome State Fault Refusal :=
  .next <|
    let x := s.ap d a
    let t := smGet 0 x.ctail q
    match smGet [] x.held q with
    | [] => s
    | r :: rest =>
      if (t + 1) % 128 = (smGet 0 x.chead q).toNat then s
      else
        let phase := !(smGet false x.cwrap q)
        let v := r.zipIdx.foldl (fun a w => a + w.1.toNat * 2 ^ (32 * w.2)) 0 + phase.toNat * 2 ^ 31
        let s := modPort d (fun h => { h with store := wrBytes h.store (apKey a (0x10000 + 4096 * q + 32 * t)) v 32 }) s
        let s := modAp d a (fun x =>
          { x with
            ctail := smSet 0 x.ctail q ((t + 1) % 128), held := smSet [] x.held q rest
            cwrap := if t = 127 then smSet false x.cwrap q phase else x.cwrap
            irqpend := if bitOf x.irqen q then x.irqpend ||| (1 <<< q) else x.irqpend }) s
        (if rest = [] then s else s.push (.completionRecordWrite d a q)).push (.launchDispatch (s.partOf d))

/-- A device access to an outbound page lies inside the bound aperture's OUTSIZE (R94, R233). -/
def outboundOk (s : State) (d a off n : Nat) : Bool :=
  (s.ap d a).en && decide (0x80000 ≤ off) && decide (off + n ≤ 0x80000 + (s.ap d a).outsize.toNat * 65536) && decide (off + n ≤ 0x800000)

/-- OUTBOUND_WRITE: a device write to outbound pages (R94). -/
def execOutboundWrite (d a off : Nat) (bytes : List Byte) (s : State) : Host.Outcome State Fault Refusal :=
  .next <|
    if outboundOk s d a off bytes.length then
      modPort d (fun h => { h with store := wrBytes h.store (apKey a off) (bytesNat bytes) bytes.length }) s
    else s

/-- MBDOOR: one message of type HPCTL.MBTYPE to the die's bursar (R110). -/
def execMbdoor (d : Nat) (s : State) : Host.Outcome State Fault Refusal := .next (dieMessage d 0x90 (s.port d).mbtype [] s)

/-- MBSET: the bursar sets MBIRQ (R110). -/
def execMbset (d : Nat) (s : State) : Host.Outcome State Fault Refusal :=
  .next (modPort d (fun h => { h with mbirq := true }) s)

/-- The partition of a die is resetting or has no running bursar. -/
def partDown (s : State) (p : Nat) : Bool := (s.part p).resetting || (s.part p).requested || !s.sr.booted

/-- ATTCMD: the nonce goes to the strongroom; a request during the partition's reset is refused (R119). -/
def execAttcmd (d : Nat) (s : State) : Host.Outcome State Fault Refusal :=
  .next <|
    if (s.port d).attcmd = 1 then s
    else if partDown s (s.partOf d) then modPort d (fun h => { h with attcmd := 3 }) s
    else (modPort d (fun h => { h with attcmd := 1 }) s).push (.attestReport d)

/-- A 384-bit value as its 48 bytes, most significant first, as SHA-384 encodes it. -/
def bytes48 (v : BitVec 384) : List Byte := (natBytes v.toNat 48).reverse

/-- The signed part of an attestation report (R119). -/
def reportBody (s : State) (d : Nat) : List Byte :=
  let p := s.partOf d
  [0x01, BitVec.ofNat 8 p, s.sr.devnum.setWidth 8, 0] ++ natBytes (s.part p).svn.toNat 4 ++
    (List.range 32).map (fun i => (s.port d).attNonce.getD i 0) ++ bytes48 s.sr.ms ++ bytes48 (s.part p).mp ++
    s.sr.pcfg.getD (List.replicate 16 0) ++ natBytes Config.serial.toNat 8

/-- ATTEST_REPORT: the report is written and ATTCMD becomes 2, or 3 if the partition has reset (R119). -/
def execAttestReport (d : Nat) (s : State) : Host.Outcome State Fault Refusal :=
  .next <|
    if (s.port d).attcmd ≠ 1 then s
    else if partDown s (s.partOf d) then modPort d (fun h => { h with attcmd := 3 }) s
    else
      let body := reportBody s d
      let rep := body ++ Config.ecdsaSign (s.sr.aliasKey.getD 0) body
      modPort d (fun h =>
        { h with attcmd := 2, attRep := rep.zipIdx.foldl (fun m b => smSet 0 m b.2 b.1) [] }) s

end Sys2Proof.Machine
end

