-- ==== Sys2Proof/Machine/Mgmt.lean ====
section
/-! DEFINITION. The management region (R107): every register map read and written word by word (R5), and REGISTER_WRITE. A
write whose effect is an event of its own makes that event due. -/

namespace Sys2Proof.Machine

/-! ### The slot record (R177) -/

/-- SSTATE (R177). -/
def sstate (sl : Slot) : Nat :=
  match sl.run with
  | .idle => 0
  | .ready => if sl.reissue then 2 else 1
  | .busy => 1
  | .parked _ | .faulted => 2
  | .stopped => 3

/-- Word `i` (offset 4i) of a slot's 288-byte record (R177); the pc is the chain's start (R307). -/
def recordWord (sl : Slot) (i : Nat) : Word :=
  if i = 0 then sl.reportPc
  else if i < 32 then smGet 0 sl.g i
  else if i < 36 then smGet 0 sl.x (i - 32)
  else if i < 64 then word (fieldOf (smGet 0 sl.sg (1 + (i - 36) / 4)) (32 * ((i - 36) % 4)) 32)
  else match i with
    | 64 => sl.status
    | 65 => sl.epc
    | 66 => sl.eval
    | 67 => sl.escratch
    | 68 => sl.widLo
    | 69 => sl.widHi
    | 70 => word (fieldOf sl.ecause 0 8 + sl.icnt.toNat * 2 ^ 8 + fieldOf sl.qmap 0 4 * 2 ^ 14 + fieldOf sl.dlstat 0 8 * 2 ^ 18 +
        sstate sl * 2 ^ 26)
    | 71 => word (fieldOf sl.fmtdef 0 16 + fieldOf sl.fflags 0 16 * 2 ^ 16)
    | _ => 0

/-- Write SSTATE: another state than the slot's becomes its own; 2 issues the instruction at pc again; the reserved values leave the
state as it is (R177, R200, log 47). -/
def Slot.setState (sl : Slot) (v : Nat) : Slot :=
  if v = sstate sl then sl
  else match v with
    | 0 => { sl with run := .idle, access := none }
    | 1 => { sl with run := .ready, reissue := false, access := none }
    | 2 => { sl with run := .ready, reissue := true, access := none }
    | 3 => { sl with run := .stopped, access := none }
    | _ => sl

/-- Write word `i` of a slot's record: its fields take the value; a write of the pc discards the pending prefixes (R200,
R307). -/
def setRecordWord (sl : Slot) (i : Nat) (v : Word) : Slot :=
  if i = 0 then { sl with pc := v, pend := 0, pv := false, chain := none, counted := false }
  else if i < 32 then { sl with g := smSet 0 sl.g i v }
  else if i < 36 then { sl with x := smSet 0 sl.x (i - 32) v }
  else if i < 64 then
    { sl with sg := smMod 0 sl.sg (1 + (i - 36) / 4) fun d => putField d (32 * ((i - 36) % 4)) 32 v.toNat }
  else match i with
    | 64 => { sl with status := v &&& 0xFFFF0307 }
    | 65 => { sl with epc := v }
    | 66 => { sl with eval := v }
    | 67 => { sl with escratch := v }
    | 68 => { sl with widLo := v }
    | 69 => { sl with widHi := v }
    | 70 =>
      { sl.setState (fieldOf v 26 3) with
        ecause := word (fieldOf v 0 8), icnt := BitVec.ofNat 6 (fieldOf v 8 6), qmap := word (fieldOf v 14 4)
        dlstat := word (fieldOf v 18 8) }
    | 71 => { sl with fmtdef := word (fieldOf v 0 16), fflags := word (fieldOf v 16 16) }
    | _ => sl

/-- The slot window is accessible (R200). -/
def windowOpen (s : State) (k : Nat) : Bool :=
  (s.core (coreOf k)).halt || (s.slot k).run = .faulted || (s.slot k).run = .stopped

/-! ### Links (R81) -/

def linkCode : LinkState → Nat
  | .down => 0 | .training => 1 | .up => 2 | .lost => 3

/-- LNKSTAT of a link (R81). -/
def lnkstatOf (l : Link) : Word :=
  word (linkCode l.st * 2 ^ 30 + l.half.toNat * 2 ^ 29 + l.msgen.toNat * 2 ^ 28 + l.restart.toNat * 2 ^ 27 +
    l.retrains.toNat * 2 ^ 16 + l.replays.toNat)

/-- The router and port of LNKSTAT n of a die (R107, R48, R77). -/
def lnkPlace (d n : Nat) : Nat × Nat :=
  let c0 := 16 * (d % 2)
  let r0 := 16 * (d / 2)
  if n < 16 then (routerAt (if d % 2 = 0 then 15 else 16) (r0 + n), if d % 2 = 0 then 1 else 3)
  else if n < 32 then (routerAt (c0 + (n - 16)) (if d / 2 = 0 then 15 else 16), if d / 2 = 0 then 2 else 0)
  else
    let t := n - 32
    let ci := if cornerCol d = 0 then 1 else 30
    let wi := if cornerRow d = 0 then 1 else 30
    (if t = 0 then routerAt ci (cornerRow d) else if t = 1 then routerAt (cornerCol d) wi
      else routerAt (cornerCol d) (cornerRow d), 5 + t)

/-! ### Images of registers -/

def bootstat (r : Strongroom) : Word :=
  word (r.dieup.toNat * 2 ^ 12 + r.fail.toNat * 2 ^ 8 + r.failp.toNat * 2 ^ 4 + r.stage.toNat)

def mcmap (c : Ctl) : Word :=
  word (c.gen.toNat * 2 ^ 28 + c.state.toNat * 2 ^ 26 + c.resvUsed.toNat * 2 ^ 25 + c.retired.isSome.toNat * 2 ^ 24 +
    c.retired.getD 0 * 2 ^ 19 + c.target.toNat * 2 ^ 8 + c.refused.toNat * 4 + c.fence.toNat * 2 + c.retire.toNat)

/-- A 16-bit mask of the pairs that satisfy a test. -/
def pairMask (c : Ctl) (f : Pair → Bool) : Nat :=
  (List.range 16).foldl (fun a j => if f (smGet {} c.pairs j) then a + 2 ^ j else a) 0

def ctlRead (c : Ctl) (off : Nat) : Word :=
  match off with
  | 0x00 => mcmap c
  | 0x04 => c.fenced
  | 0x08 => word (c.pairEn.toNat * 2 ^ 16 + c.idle.toNat)
  | 0x0C => word (pairMask c (fun p => p.st = .lent) * 2 ^ 16 + pairMask c fun p => p.st ≠ .normal && p.odd)
  | 0x10 => word (c.thresh.toNat * 2 ^ 16 + c.pace.toNat * 2 ^ 8 + c.fallback.toNat)
  | 0x18 => word (c.ce.toNat * 2 ^ 16 + c.ue.toNat)
  | 0x20 => word (64 * c.ueLine) &&& 0xFFFFFFC0 ||| word (c.ueMore.toNat * 2 + c.ueValid.toNat)
  | 0x24 => word (c.ueSource.toNat * 2 ^ 8 + 64 * c.ueLine / 2 ^ 32 % 128)
  | _ => 0

def rterr (x : Router) : Word :=
  word (x.tmdrop.toNat * 2 ^ 24 + x.detours.toNat * 2 ^ 8 + x.unroute.toNat * 2 ^ 7 + x.firewall.toNat * 2 ^ 6 +
    x.proto.toNat * 2 ^ 5 + x.replayed.toNat * 2 ^ 4 + x.lost.toNat)

/-- A slice queue's descriptor (R74). -/
def sqDesc (q : SQueue) : BitVec 128 :=
  BitVec.ofNat 128 (q.tail.toNat * 2 ^ 112 + q.head.toNat * 2 ^ 96 + q.base.toNat * 2 ^ 48 + q.en.toNat * 2 ^ 32 +
    q.entlines.toNat * 2 ^ 8 + q.log2n.toNat * 2 ^ 4 + q.waiters.length)

/-- An Ethernet rule as read; rule 63 is match-all (R96). -/
def ethRule (e : Eth) (r : Nat) : BitVec 128 :=
  let v := smGet 0 e.rules r
  if r = 63 then putField v 26 6 32 else v

def talcfg (t : Thermal) : Word :=
  word (t.en.toNat * 2 ^ 31 + t.msgtype.toNat * 2 ^ 16 + t.high.toNat * 2 ^ 8 + t.low.toNat)
def talstat (t : Thermal) : Word :=
  word (t.hot.toNat * 2 ^ 31 + t.cool.toNat * 2 ^ 30 + t.maxidx.toNat * 2 ^ 16 + t.maxtemp.toNat)

/-- CLTHR and THROTTLE (R123): APPLIED in force is 8 while PWRALERTN is low. -/
def clthr (s : State) (c : Nat) : Word :=
  word ((!s.sr.pwralertn).toNat * 2 ^ 8 + (s.cluster c).applied.toNat * 16 + (s.cluster c).k.toNat)

def elctl (l : ErrLog) : Word :=
  word (l.en.toNat * 2 ^ 31 + l.basehi.toNat * 2 ^ 24 + l.log2n.toNat * 2 ^ 20 + l.msgtype.toNat)

def vibind (x : Aperture) : BitVec 128 :=
  BitVec.ofNat 128 (x.outsize.toNat * 2 ^ 64 + x.inbase.toNat * 2 ^ 32 + x.en.toNat * 2 ^ 31 + x.vcnm1.toNat)

def i3cStat (x : I3c) : Word :=
  word (x.busy.toNat * 2 ^ 31 + x.role.toNat * 2 ^ 30 + x.done.toNat * 2 ^ 29 + x.nackS.toNat * 2 ^ 28 +
    x.err.toNat * 2 ^ 27 + x.msgtype.toNat)

def i3cCtl (x : I3c) : Word :=
  (x.ctl &&& 0x3FFFE00F) ||| word (x.go.toNat * 2 ^ 31 + x.rel.toNat * 2 ^ 30)

/-! ### The cluster control block (R202, R203, R147, R176) -/

def corectl (c : Core) : Word :=
  word (c.halt.toNat * 2 ^ 31 + c.step.toNat * 2 ^ 30 + c.brkhalt.toNat * 2 ^ 29 + c.sslot.toNat)

/-- The core is halted with no instruction in flight and none to issue: no slot is BUSY, none waits for a matrix command, and no
step is pending (R199, R203, log 47). -/
def coreHalted (s : State) (n : Nat) : Bool :=
  (s.core n).halt && !(s.core n).step &&
    (List.range 16).all fun i =>
      let sl := s.slot (16 * n + i)
      sl.run ≠ .parked .matrix && sl.run ≠ .busy && (sl.run ≠ .ready || decide (sl.busyUntil ≤ (s.cluster (unitOf n)).cycle.toNat))

def corestat (s : State) (n : Nat) : Word :=
  let c := s.core n
  let stop := (List.range 16).foldl (fun a i => if (s.slot (16 * n + i)).run = .stopped then a + 2 ^ i else a) 0
  word ((coreHalted s n).toNat * 2 ^ 31 + c.brkhit.toNat * 2 ^ 30 + c.bslot.toNat * 2 ^ 16 + stop)

/-- Word `w` of a fault record (R196). -/
def faultWord (r : FaultRec) (w : Nat) : Word :=
  match w with
  | 0 => word r.va
  | 1 => word (r.va / 2 ^ 32)
  | 2 => r.pc
  | 3 =>
    let core := r.slot / 16 % 1024
    word (core % 16 + core / 16 * 2 ^ 4 + r.slot % 16 * 2 ^ 10 + r.phys * 2 ^ 14 + r.vcl * 2 ^ 18)
  | 4 => word (r.access + r.kind * 2 ^ 8)
  | 5 => word r.lnum
  | 6 => r.owner
  | _ => word r.seq

def clusterRead (s : State) (c x : Nat) : Word :=
  let cl := s.cluster c
  if x < 0x4000 then
    let n := 1024 * c + x / 16
    if x % 16 = 0 then corectl (s.core n) else if x % 16 = 4 then corestat s n else 0
  else if x < 0x6000 then
    let n := (x - 0x4000) / 32
    faultWord (smGet {} cl.fbRing n) (x % 32 / 4)
  else if 0x6100 ≤ x && x < 0x6180 then
    let t := smGet {} cl.timers ((x - 0x6100) / 8)
    if x % 8 = 0 then t.count
    else word (t.armed.toNat * 2 ^ 31 + t.msgwait.toNat * 2 ^ 30 + t.typ.toNat * 2 ^ 22 + t.owner % 16384)
  else if 0x6400 ≤ x && x < 0x6520 then
    let k := 16384 * c + cl.dbgsel.toNat
    if windowOpen s k then recordWord (s.slot k) ((x - 0x6400) / 4) else 0
  else match x with
    | 0x6000 => word (cl.fbmsg.toNat * 2 ^ 16 + cl.stopmsg.toNat * 2 ^ 8)
    | 0x6004 => word ((!cl.fbHeld.isEmpty).toNat * 2 ^ 31 + cl.badwake.toNat * 2 ^ 30 + cl.fbOvf.toNat)
    | 0x6008 => cl.fbHead.setWidth 32
    | 0x600C => cl.fbTail.setWidth 32
    | 0x6014 => cl.lnum.setWidth 32
    | 0x6200 => word ((windowOpen s (16384 * c + cl.dbgsel.toNat)).toNat * 2 ^ 31 + cl.dbgsel.toNat)
    | 0x8000 => word (cl.owEn.toNat * 2 ^ 31 + cl.owBursar.toNat * 2 ^ 30 + cl.owState.toNat * 2 ^ 28 +
        cl.owVi.toNat * 2 ^ 16 + cl.owVc.toNat)
    | 0x8008 => word (cl.prGo.toNat * 2 ^ 31 + cl.prRestore.toNat * 2 ^ 30 + cl.prVault.toNat * 2 ^ 29 +
        cl.prIgn.toNat * 2 ^ 28 + cl.prErr.toNat * 2 ^ 27)
    | 0x8010 => cl.lsave.setWidth 32
    | 0x8018 => word (cl.lcancel.toNat * 2 ^ 31 + cl.lcause.toNat)
    | 0x8020 => cl.lbrecLo
    | 0x8024 => cl.lbrecHi.setWidth 32
    | 0x8028 => cl.lbcompLo
    | 0x802C => word (cl.lbcompHi.toNat + cl.lbmsg.toNat * 2 ^ 16)
    | 0x8030 => word (cl.clrst.toNat * 2 ^ 31)
    | 0x8100 => word (cl.stallEn.toNat * 2 ^ 31 + cl.stallMsg.toNat * 2 ^ 16 + cl.stealWait.toNat)
    | 0x8104 => word (cl.stall.toNat * 2 ^ 31 + Nat.min cl.qlen 0xFFFF)
    | _ => 0

def modSq (sl q : Nat) (f : SQueue → SQueue) (s : State) : State :=
  s.modSlice sl fun c => { c with queues := smMod {} c.queues q f }
def modInput (c i : Nat) (f : StreamIn → StreamIn) (s : State) : State :=
  s.modCore c fun x => { x with inputs := smMod {} x.inputs i f }

/-- Take slot `k` off the wait lists of banks, slices and slice queues and its core's list of receives. -/
def unlist (k : Nat) (s : State) : State :=
  let mine := fun a : Asker => a = .thread k
  match (s.slot k).run with
  | .parked (.fullEmpty _) =>
    { s with
      banks := s.banks.map fun b => (b.1, { b.2 with
        waiters := b.2.waiters.filter fun r => !mine r.asker, held := b.2.held.filter fun r => !mine r.asker })
      slices := s.slices.map fun b => (b.1, { b.2 with waiters := b.2.waiters.filter fun r => !mine r.asker }) }
  | .parked (.qtake _ _ _ sl q _ _) => modSq sl q (fun x => { x with waiters := x.waiters.filter fun a => !mine a }) s
  | .parked (.mrecv ..) => s.modCore (coreOf k) fun c => { c with parkedRecv := c.parkedRecv.filter (· ≠ k) }
  | .parked (.sget i _ _) => modInput (coreOf k) i (fun x => { x with waiters := x.waiters.filter (· ≠ k) }) s
  | _ => s

def clusterWrite (c x : Nat) (v : Word) (s : State) : State :=
  let upd := fun f => s.modCluster c f
  if x < 0x4000 then
    let n := 1024 * c + x / 16
    if x % 16 = 0 then
      let s := s.modCore n fun k =>
        { k with brkhalt := bitOf v 29, sslot := BitVec.ofNat 4 v.toNat, step := k.step && bitOf v 30 }
      let s := if bitOf v 31 = (s.core n).halt then s else s.push (if bitOf v 31 then .coreHalt n else .coreResume n)
      if bitOf v 30 && bitOf v 31 then s.push (.coreStep n) else s
    else if x % 16 = 4 && bitOf v 30 then s.modCore n fun k => { k with brkhit := false }
    else s
  else if 0x6400 ≤ x && x < 0x6520 then
    let k := 16384 * c + (s.cluster c).dbgsel.toNat
    let i := (x - 0x6400) / 4
    if windowOpen s k then
      (if i = 70 && fieldOf v 26 3 ≠ sstate (s.slot k) then unlist k s else s).modSlot k fun sl => setRecordWord sl i v
    else s
  else match x with
    | 0x6000 => upd fun k => { k with fbmsg := BitVec.ofNat 8 (fieldOf v 16 8), stopmsg := BitVec.ofNat 8 (fieldOf v 8 8) }
    | 0x6004 => upd fun k => { k with badwake := k.badwake && !bitOf v 30 }
    | 0x600C => s.push (.fbtailWrite c v)
    | 0x6010 =>
      (match fieldOf v 30 2 with
      | 0 => s.push (.fbwakeRetry c (16384 * c + fieldOf v 0 14))
      | 1 => s.push (.fbwakeKill c (16384 * c + fieldOf v 0 14) (BitVec.ofNat 8 (fieldOf v 22 8)))
      | _ => upd fun k => { k with badwake := true })
    | 0x6200 => upd fun k => { k with dbgsel := BitVec.ofNat 14 v.toNat }
    | 0x8000 => s.push (.lownerWrite c v)
    | 0x8008 =>
      let s := upd fun k =>
        { k with prVault := bitOf v 29, prIgn := k.prIgn && !bitOf v 28, prErr := k.prErr && !bitOf v 27 }
      let s := if bitOf v 31 then s.push (.preempt c) else s
      if bitOf v 30 then s.push (.restore c) else s
    | 0x8010 => upd fun k => { k with lsave := BitVec.ofNat 22 v.toNat }
    | 0x8018 =>
      let s := upd fun k => { k with lcause := BitVec.ofNat 8 v.toNat }
      if bitOf v 31 then (s.modCluster c fun k => { k with lcancel := true }).push (.cancel c) else s
    | 0x8020 => upd fun k => { k with lbrecLo := v &&& 0xFFFFFFC0 }
    | 0x8024 => (upd fun k => { k with lbrecHi := BitVec.ofNat 16 v.toNat }).push (.bursarLaunch c)
    | 0x8028 => upd fun k => { k with lbcompLo := v &&& 0xFFFFFFE0 }
    | 0x802C => upd fun k => { k with lbcompHi := BitVec.ofNat 16 v.toNat, lbmsg := BitVec.ofNat 8 (fieldOf v 16 8) }
    | 0x8030 => if bitOf v 31 then s.push (.clrst c) else s
    | 0x8100 =>
      upd fun k => { k with stallEn := bitOf v 31, stallMsg := BitVec.ofNat 8 (fieldOf v 16 8), stealWait := BitVec.ofNat 16 v.toNat }
    | 0x8104 => upd fun k => { k with stall := k.stall && !bitOf v 31 }
    | _ => s

/-! ### The region of a die -/

/-- The register word at offset `x` of die `d`'s region (R107). -/
def regionRead (s : State) (d x : Nat) : Word :=
  let b := x / 0x10000
  let y := x % 0x10000
  let D := s.die d
  if b = 0 then (if y = 0 then bootstat s.sr else 0)
  else if b = 0x10 || b = 0x11 then ctlRead (s.ctl (2 * d + (b - 0x10))) y
  else if b = 0x20 then
    (if y = 0 then word (D.sidle.toNat * 2 ^ 12 + D.rto.toNat * 2 ^ 8 + D.mergeen.toNat) else 0)
  else if b = 0x21 then
    let n := y / 0x100
    let r := s.router (routerAt (16 * (d % 2) + n % 16) (16 * (d / 2) + n / 16))
    let z := y % 0x100
    if z = 0 then rterr r
    else if z = 4 then r.routecfg.setWidth 32
    else if 0x40 ≤ z && z < 0x80 then word (fieldOf (smGet 0 r.tslot ((z - 0x40) / 8)) (32 * (z % 8 / 4)) 32)
    else 0
  else if b = 0x22 then
    if y < 4 * 35 then
      let (r, p) := lnkPlace d (y / 4)
      lnkstatOf (smGet {} (s.router r).links p)
    else if 0x1000 ≤ y && y < 0x1040 then
      (List.range 4).foldl (fun a i => a ||| ((smGet 0 D.devroute (y - 0x1000 + i)).setWidth 32 <<< (8 * i))) 0
    else if 0x2000 ≤ y && y < 0x2300 then
      let t := (y - 0x2000) / 0x100
      let w := y % 0x100 / 16
      if w < 8 then word (fieldOf (smGet 0 D.windows (8 * t + w)) (32 * (y % 16 / 4)) 32) else 0
    else 0
  else if b = 0x30 then
    let n := y / 16
    if n < 2048 then word (fieldOf (sqDesc (smGet {} (s.slice (256 * d + n / 8)).queues (n % 8))) (32 * (y % 16 / 4)) 32) else 0
  else if b = 0x40 then
    if y = 0 then word (D.eth.en.toNat * 2 ^ 31 + D.eth.pauseen.toNat * 2 ^ 30 + D.eth.pfcen.toNat * 2 ^ 16 +
      D.eth.xoff.toNat * 2 ^ 8 + D.eth.xon.toNat)
    else if 0x10 ≤ y && y < 0x10 + 28 then smGet 0 D.eth.counters ((y - 0x10) / 4)
    else if 0x1000 ≤ y && y < 0x1400 then word (fieldOf (ethRule D.eth ((y - 0x1000) / 16)) (32 * (y % 16 / 4)) 32)
    else 0
  else if b = 0x50 then
    if y < 0x100 then word (D.therm.valid.toNat * 2 ^ 31 + (smGet 0 D.therm.sens (y / 4)).toNat)
    else if y = 0x100 then talcfg D.therm
    else if y = 0x104 then talstat D.therm
    else if 0x200 ≤ y && y < 0x210 then clthr s (4 * d + (y - 0x200) / 4)
    else if y = 0x300 || y = 0x304 then
      let c := s.ctl (2 * d + (y - 0x300) / 4)
      word (c.stkHot.toNat * 2 ^ 8 + c.stkTemp.toNat)
    else 0
  else if b = 0x60 then
    (match y with
    | 0x00 => D.log.base
    | 0x04 => elctl D.log
    | 0x08 => D.log.head.setWidth 32
    | 0x0C => D.log.tail.setWidth 32
    | 0x10 => D.log.drop
    | _ => 0)
  else if b = 0x70 then
    if y = 0 then D.host.mbtype.setWidth 32
    else if (0x100 ≤ y && y < 0x140) || (0x200 ≤ y && y < 0x240) then
      -- MBIN and MBOUT as the bursar reaches them (R110, log 44)
      word (rdBytes D.host.store (apKey 255 y) 4)
    else if 0x1000 ≤ y && y < 0x1800 then word (fieldOf (vibind (s.ap d ((y - 0x1000) / 16))) (32 * (y % 16 / 4)) 32)
    else 0
  else if b = 0x80 then
    if s.primaryDie (s.partOf d) = d then smGet 0 (s.part (s.partOf d)).place (y / 4) else 0
  else if 0x90 ≤ b && b < 0x94 then clusterRead s (4 * d + (b - 0x90)) y
  else if b = 0xA0 then
    (match y with
    | 0x00 => i3cCtl D.i3c
    | 0x04 => i3cStat D.i3c
    | 0x08 => D.i3c.data0
    | 0x0C => D.i3c.data1
    | _ => 0)
  else 0

/-- A write of a memory controller's register (R46). A write that sets both RETIRE and FENCE retires the channel, and the fence is
refused (DESIGN CHOICE, log 41). -/
def ctlRegWrite (st y : Nat) (v : Word) (s : State) : State :=
  match y with
  | 0x00 =>
    let s := s.modCtl st fun c => { c with target := BitVec.ofNat 5 (fieldOf v 8 5), refused := c.refused && !bitOf v 2 }
    let s := if bitOf v 0 then s.push (.mcmapRetire st) else s
    if bitOf v 1 then s.push (.mcmapFence st) else s
  | 0x08 =>
    let off := (s.ctl st).pairEn &&& ~~~(BitVec.ofNat 16 (fieldOf v 16 16))
    let s := s.modCtl st fun c => { c with pairEn := BitVec.ofNat 16 (fieldOf v 16 16), idle := BitVec.ofNat 16 (fieldOf v 0 16) }
    s.pushAll ((List.range 16).filterMap fun j =>
      if bitOf off j && (smGet {} (s.ctl st).pairs j).st = .lent then some (.lendReclaimStart st j) else none)
  | 0x10 =>
    s.modCtl st fun c =>
      { c with thresh := BitVec.ofNat 12 (Nat.max 64 (fieldOf v 16 12)), pace := BitVec.ofNat 8 (Nat.max 1 (fieldOf v 8 8)) }
  | 0x20 => s.modCtl st fun c => { c with ueMore := c.ueMore && !bitOf v 1, ueValid := c.ueValid && !bitOf v 0 }
  | _ => s

/-- A write of a slice queue descriptor's word (R74). -/
def sqWrite (q : SQueue) (w : Nat) (v : Word) : SQueue :=
  match w with
  | 0 => { q with entlines := BitVec.ofNat 3 (fieldOf v 8 3), log2n := BitVec.ofNat 4 (Nat.max 4 (fieldOf v 4 4)) }
  | 1 =>
    let q := { q with en := bitOf v 0, base := putField q.base 0 16 (fieldOf v 16 16) }
    if bitOf v 0 then { q with head := 0, tail := 0 } else q
  | 2 => { q with base := putField q.base 16 26 (fieldOf v 0 26) }
  | _ => q

/-- A write of a register word at offset `x` of die `d`'s region (R107), by the requester at `src`, laid out as header bits 47:30. -/
def regionWrite (src d x : Nat) (v : Word) (s : State) : State :=
  let b := x / 0x10000
  let y := x % 0x10000
  let eth := fun f => s.modDie d fun D => { D with eth := f D.eth }
  let thm := fun f => s.modDie d fun D => { D with therm := f D.therm }
  if b = 0x10 || b = 0x11 then ctlRegWrite (2 * d + (b - 0x10)) y v s
  else if b = 0x20 then
    if y = 0 then s.modDie d fun D =>
      { D with sidle := BitVec.ofNat 12 (Nat.max 4 (fieldOf v 12 12)), rto := BitVec.ofNat 4 (fieldOf v 8 4), mergeen := bitOf v 0 }
    else s
  else if b = 0x21 then
    let n := y / 0x100
    let r := routerAt (16 * (d % 2) + n % 16) (16 * (d / 2) + n / 16)
    let z := y % 0x100
    if z = 0 then s.modRouter r fun x =>
      { x with unroute := x.unroute && !bitOf v 7, firewall := x.firewall && !bitOf v 6, proto := x.proto && !bitOf v 5
               replayed := x.replayed && !bitOf v 4 }
    else if z = 4 then s.modRouter r fun x => { x with routecfg := BitVec.ofNat 20 v.toNat }
    else if 0x40 ≤ z && z < 0x80 then s.modRouter r fun x =>
      { x with tslot := smMod 0 x.tslot ((z - 0x40) / 8) fun t => putField t (32 * (z % 8 / 4)) 32 v.toNat }
    else s
  else if b = 0x22 then
    if 4 * 32 ≤ y && y < 4 * 35 then
      let t := y / 4 - 32
      let (r, p) := lnkPlace d (y / 4)
      let s := s.modRouter r fun x => { x with links := smMod {} x.links p fun l => { l with msgen := bitOf v 28 } }
      if bitOf v 27 then s.push (.lnkstatRestart d t) else s
    else if 0x1000 ≤ y && y < 0x1040 then s.modDie d fun D =>
      { D with devroute := (List.range 4).foldl (fun m i => smSet 0 m (y - 0x1000 + i) (byteOf v i)) D.devroute }
    else if 0x2000 ≤ y && y < 0x2300 && y % 0x100 < 0x80 then
      let k := 8 * ((y - 0x2000) / 0x100) + y % 0x100 / 16
      let keep : Word := match y % 16 / 4 with
        | 0 => 0xFFFFFFFF
        | 1 => 0xFF00000F
        | 2 => 0x0FFFFFFF
        | _ => 0xF
      s.modDie d fun D => { D with windows := smMod 0 D.windows k fun w => putField w (32 * (y % 16 / 4)) 32 (v &&& keep).toNat }
    else s
  else if b = 0x30 then
    let n := y / 16
    if n < 2048 then s.modSlice (256 * d + n / 8) fun c => { c with queues := smMod {} c.queues (n % 8) fun q => sqWrite q (y % 16 / 4) v }
    else s
  else if b = 0x40 then
    if y = 0 then
      let s := eth fun e => { e with en := bitOf v 31, pauseen := bitOf v 30, pfcen := BitVec.ofNat 8 (fieldOf v 16 8)
                                     xoff := BitVec.ofNat 8 (fieldOf v 8 8), xon := BitVec.ofNat 8 (fieldOf v 0 8) }
      if bitOf v 31 then s else s.push (.ethLinkDown d)
    else if 0x1000 ≤ y && y < 0x1400 then
      let keep : Word := match y % 16 / 4 with
        | 0 => 0xFFFFFC00
        | 1 => 0xFFFF0FFF
        | 2 => 0xE0FFFFFF
        | _ => 0
      eth fun e =>
        { e with rules := smMod 0 e.rules ((y - 0x1000) / 16) fun r => putField r (32 * (y % 16 / 4)) 32 (v &&& keep).toNat }
    else s
  else if b = 0x50 then
    if y = 0x100 then thm fun t =>
      { t with en := bitOf v 31, msgtype := BitVec.ofNat 8 (fieldOf v 16 8), high := BitVec.ofNat 8 (fieldOf v 8 8)
               low := BitVec.ofNat 8 (fieldOf v 0 8) }
    else if y = 0x104 then s.push (.talstatClear d v)
    else if 0x200 ≤ y && y < 0x210 then s.push (.clthrWrite (4 * d + (y - 0x200) / 4) (some v) none)
    else s
  else if b = 0x60 then
    if y = 0 then (if (s.die d).log.en then s else s.modDie d fun D => { D with log := { D.log with base := v } })
    else if y = 4 then s.push (.elctlWrite d v)
    else if y = 0x0C then s.modDie d fun D => { D with log := { D.log with tail := BitVec.ofNat 16 v.toNat } }
    else if 0x40 ≤ y && y < 0x5C then s.modDie d fun D => { D with log := { D.log with post := smSet 0 D.log.post ((y - 0x40) / 4) v } }
    else if y = 0x5C then s.push (.elpost d v)
    else s
  else if b = 0x70 then
    if y = 0 then
      let s := modPort d (fun h => { h with mbtype := BitVec.ofNat 8 v.toNat }) s
      if bitOf v 8 then s.push (.mbset d) else s
    else if 0x200 ≤ y && y < 0x240 then
      modPort d (fun h => { h with store := wrBytes h.store (apKey 255 y) v.toNat 4 }) s
    else if 0x1000 ≤ y && y < 0x1800 then s.push (.vibindWrite d ((y - 0x1000) / 16) (y % 16 / 4) v src)
    else s
  else if b = 0x80 then
    if s.primaryDie (s.partOf d) = d && (y < 0x408 || (0x1000 ≤ y && y < 0x3000)) then
      s.modPart (s.partOf d) fun p => { p with place := smSet 0 p.place (y / 4) v }
    else s
  else if 0x90 ≤ b && b < 0x94 then clusterWrite (4 * d + (b - 0x90)) y v s
  else if b = 0xA0 then
    let i3 := fun f => s.modDie d fun D => { D with i3c := f D.i3c }
    (match y with
    | 0x00 =>
      let busy := (s.die d).i3c.busy
      let s := i3 fun x => { x with ctl := v &&& 0x3FFFE00F }
      -- of GO and REL in one write, GO is taken (DESIGN CHOICE, log 46)
      if busy then s
      else if bitOf v 31 then s.push (.i3cGo d)
      else if bitOf v 30 then i3 fun x => { x with ctl := v &&& 0x3FFFE00F, rel := true, busy := true }
      else s
    | 0x04 => i3 fun x =>
        { x with done := x.done && !bitOf v 29, nackS := x.nackS && !bitOf v 28, err := x.err && !bitOf v 27
                 msgtype := BitVec.ofNat 8 v.toNat }
    | 0x08 => i3 fun x => { x with data0 := v }
    | 0x0C => i3 fun x => { x with data1 := v }
    | _ => s)
  else s

/-- An address of the management regions (R233). -/
def isMgmt (pa : Nat) : Bool := decide (0xFF00000000 ≤ pa) && decide (pa < 0xFF10000000)
def mgmtDie (pa : Nat) : Nat := (pa - 0xFF00000000) / 0x4000000
def mgmtOff (pa : Nat) : Nat := (pa - 0xFF00000000) % 0x4000000

/-- A word read of a management register. -/
def mgmtRead (pa : Nat) : HM Word := fun s =>
  if isMgmt pa && pa % 4 = 0 then .ok (regionRead s (mgmtDie pa) (mgmtOff pa)) s else .error (.err 2) s

/-- A word write of a management register by the requester at `src`. -/
def mgmtWrite (src pa : Nat) (v : Word) (s : State) : State :=
  if isMgmt pa && pa % 4 = 0 then regionWrite src (mgmtDie pa) (mgmtOff pa) v s else s

/-- REGISTER_WRITE: a word store that the management port admits is performed (R5, R105, R107). -/
def execRegisterWrite (pa : Nat) (v : Word) (s : State) (src : Nat := 0) : Host.Outcome State Fault Refusal :=
  .next (mgmtWrite src pa v s)

/-- VIBIND_WRITE: a word of VIBIND v, refused and logged with its source in the cases of R108, R126; clearing EN unbinds the aperture,
and what runs under its binding no longer completes there (R84, R108). -/
def execVibindWrite (d v wd : Nat) (value : Word) (s : State) (src : Nat := 0) : Host.Outcome State Fault Refusal :=
  .next <|
    let x := s.ap d v
    let p := s.partOf d
    let img := putField (vibind x) (32 * wd) 32 value.toNat
    let en := bitOf img 31
    let out := if x.en && en then x.outsize.toNat else fieldOf img 64 7
    let pc := s.sr.pcfg.getD []
    let base := (pc.getD (8 + 2 * p) 0).toNat
    let cnt := (pc.getD (9 + 2 * p) 0).toNat
    let sum := (s.port d).aps.foldl (fun a y => if y.2.en && y.1 ≠ v then a + y.2.outsize.toNat else a) 0
    let bad := en && (v < base || base + cnt ≤ v ||
      ((List.range 4).any fun e => e ≠ d && (s.ap e v).en) || 248 < sum + out)
    if bad then
      logRecord d 0x10 0x90 (cornerPos d) (0xFF00701000 + 0x4000000 * d + 16 * v + 4 * wd) (2 + src * 2 ^ 32) s
    else if x.en && !en then
      -- records not yet copied are discarded; completions of running launches are discarded (R108)
      modAp d v (fun x =>
          { x with
            en := false, vcnm1 := BitVec.ofNat 4 (fieldOf img 0 4), known := x.head, tail := x.head, held := [], running := []
            binding := x.binding + 1 })
        (modPort d (fun h => { h with notes := h.notes.filter fun n => n.1 ≠ v }) s)
    else
      modAp d v (fun x =>
        { x with
          en := en, vcnm1 := BitVec.ofNat 4 (fieldOf img 0 4)
          outsize := BitVec.ofNat 7 out, inbase := if x.en then x.inbase else BitVec.ofNat 25 (fieldOf img 32 25) }) s

end Sys2Proof.Machine
end

