-- ==== Sys2Proof/Machine/Mesh.lean ====
section
/-! DEFINITION. The mesh (R48 to R69, R76 to R80): what routers do in a mesh cycle, delivery at the endpoints, flow control, link
replay and loss, and the requests that ports track. -/

namespace Sys2Proof.Machine

/-! ### Errors of the mesh -/

/-- A protocol error at a router: RTERR.PROTO, and a record (R58, R81, R126). -/
def setProto (r : Nat) (s : State) : State :=
  let s := s.modRouter r fun x => { x with proto := true }
  logRecord (dieOfRouter r) 0x13 0 (routerPos r) 0 (rterr (s.router r)).toNat s

/-- A router puts a packet of its own into its local input. -/
def inject (r : Nat) (p : Packet) (s : State) : State := enterLocal r 271 (packetFlits p) s

/-- Tell of a lost packet: `req` to the source of a REQ packet, LOST-REPLY to the destination of an RSP packet, urgent
(R61, R65). -/
def lossNotice (r : Nat) (p : Packet) (req : BitVec 5) (s : State) : State :=
  if p.vn then inject r { p with opcode := 0x42, err := 4, cls := 1, payload := [], count := 0 } s
  else inject r { replyTo p 0x42 0 req 0 none with cls := 1 } s

/-- Refuse a REQ packet with an error; an RSP packet is discarded. -/
def refusePacket (r : Nat) (p : Packet) (code : BitVec 5) (s : State) : State :=
  if p.vn then s else inject r (replyTo p 0x42 0 code 0 none) s

/-- The source of a packet as header bits 47:30 hold it. -/
def sourceOf (p : Packet) : Nat := position p.srcCol.toNat p.srcRow.toNat p.srcEp.toNat

/-- A refusal of a packet at router `r`, by `unit`: in the log of the partition it comes from, a foreign device's in the log of the
port it came through (R77, R80, R105, R126). -/
def refusalRecord (r unit : Nat) (p : Packet) (s : State) : State :=
  let d := if p.srcDev = s.sr.devnum then dieOfRouter (routerAt p.srcCol.toNat p.srcRow.toNat) else dieOfRouter r
  logRecord d 0x10 unit (routerPos r) p.pa.toNat (p.opcode.toNat + sourceOf p * 2 ^ 32) s

/-! ### Requests of ports (R54, R66, R72) -/

def originOf (r ep : Nat) : Nat := 256 * r + ep

/-- A port keeps a request until its reply (R66). -/
def trackRequest (k : Nat) (p : Packet) (s : State) : State :=
  let r := routerAt p.srcCol.toNat p.srcRow.toNat
  { s with requests := s.requests ++ [{ origin := originOf r p.srcEp.toNat, slot := k, tag := p.tag, pkt := p, since := mcAt s r }] }

/-- The core of an endpoint. -/
def endpointCore (r ep : Nat) : Option Nat :=
  if ep < 16 then some (16 * r + ep) else if ep = 0xC0 then some (bursarCore (dieOfRouter r)) else none

/-- The outcome of a request reaches its requester: a core's slot (`p` is the packet that says it), or the host port. -/
def outcome (q : Request) (p : Packet) (s : State) : State :=
  let r := q.origin / 256
  let ep := q.origin % 256
  if (endpointCore r ep).isSome then s.push (.replyArrival q.slot 0 (some p))
  else if ep = 0x90 then s.push (.inboundAck (dieOfRouter r) (if p.opcode = 0x42 then some p.err else none))
  else s

/-- The stream port of a core whose route carries a tag. -/
def tagPort (s : State) (n : Nat) (tag : BitVec 16) : Option Nat :=
  ((s.core n).ports.find? fun p => p.2.state = 1 && p.2.tag = tag).map (·.1)

/-- The slot of a core whose MCALL awaits the REPLY with a tag. -/
def tagCall (s : State) (n : Nat) (tag : BitVec 16) : Option Nat :=
  ((List.range 16).map (16 * n + ·)).find? fun k => match (s.slot k).run with
    | .parked (.mcall id ..) => id = tag.toNat
    | _ => false

/-- A packet on RSP reaches the port that made a request; one that no request waits for is discarded (R54, R55, R66, R72). -/
def deliverReply (r : Nat) (p : Packet) (s : State) : State :=
  let o := originOf r p.dstEp.toNat
  let n := (endpointCore r p.dstEp.toNat).getD 0
  let stream := if (endpointCore r p.dstEp.toNat).isSome && (p.opcode = 0x42 || p.opcode = 0x45) then tagPort s n p.tag else none
  match stream, p.opcode with
  -- a stream's route is closed, by its first router (R69) or by a loss or a refusal of its packet (R65, R69)
  | some i, _ => s.push (.streamForcedClose n i)
  | none, 0x44 =>
    (match tagCall s n p.tag with
    | some k => s.push (.replyArrival k 0 (some p))
    | none => s)
  | none, _ =>
    match s.requests.find? fun q => q.origin = o && q.tag = p.tag with
    | none => s
    | some q =>
      if p.opcode = 0x42 && (p.err = 3 || p.err = 4) then s.push (.lostHandling o p.tag p.err)
      else if p.opcode = 0x41 && p.param = 2 then
        -- RETRY: it is sent again after 64 mc, then after doubling intervals (R72)
        let iv := if q.interval = 0 then 64 else Nat.min 4096 (2 * q.interval)
        { s with requests := s.requests.map fun x => if x = q then { q with interval := iv, again := some (mcAt s r + iv) } else x }
      else
        let s := { s with requests := s.requests.erase q }
        if p.opcode = 0x43 then
          s.push (.remap r (stackOf (p.pa.toNat / 64)) (BitVec.ofNat 4 p.param.toNat)
            { slice := r, line := p.pa.toNat / 64, stamp := q.pkt.gen, write := bitOf q.pkt.param 0, data := q.pkt.payload.headD 0
              full := BitVec.ofNat 16 (fieldOf q.pkt.inline 0 16), cls := q.pkt.cls })
        else outcome q p s

/-- A request leaves its port again, under a tag of its own: a reply to the one before it finds no request (R66). -/
def reissue (q : Request) (s : State) : State :=
  let r := q.origin / 256
  let tag := (s.core ((endpointCore r (q.origin % 256)).getD 0)).nextTag
  let q' := { q with tag := tag, losses := q.losses + 1, since := mcAt s r, again := none, pkt := { q.pkt with tag := tag } }
  let s := match endpointCore r (q.origin % 256) with
    | some n =>
      (s.modCore n fun c => { c with nextTag := c.nextTag + 1 }).modSlot q.slot fun sl =>
        { sl with run := match sl.run with
            | .parked (.mcall id d b c) => if id = q.tag.toNat then .parked (.mcall tag.toNat d b c) else sl.run
            | .parked (.rspawn d id) => if id = q.tag.toNat then .parked (.rspawn d tag.toNat) else sl.run
            | x => x }
    | none => s
  sendPacket q'.pkt { s with requests := s.requests.map fun x => if x = q then q' else x }

/-- LOST_HANDLING: re-issue or report a lost request (R66). -/
def execLostHandling (o : Nat) (tag : BitVec 16) (code : BitVec 5) (s : State) : Host.Outcome State Fault Refusal :=
  .next <| match s.requests.find? fun q => q.origin = o && q.tag = tag with
    | none => s
    | some q =>
      let read := q.pkt.opcode = 0x01 || (q.pkt.opcode = 0x0A && !bitOf q.pkt.param 0)
      if (code = 3 || read) && q.losses < 3 then reissue q s
      else
        let s := { s with requests := s.requests.erase q }
        if q.pkt.opcode = 0x0A then logRecord (dieOfRouter (o / 256)) 0x05 (o % 256) (routerPos (o / 256)) q.pkt.pa.toNat 0 s
        else outcome q { q.pkt with opcode := 0x42, err := code, vn := true } s

/-- REPLY_TIMEOUT: no reply within MESHCFG.RTO acts as LOST-REPLY (R66). -/
def execReplyTimeout (o : Nat) (tag : BitVec 16) (s : State) : Host.Outcome State Fault Refusal :=
  .next (if s.requests.any fun q => q.origin = o && q.tag = tag then s.push (.lostHandling o tag 4) else s)

/-- REQUEST_RESEND: a request answered ACK RETRY is sent again when its interval has passed (R72). -/
def execRequestResend (o : Nat) (tag : BitVec 16) (s : State) : Host.Outcome State Fault Refusal :=
  .next <| match s.requests.find? fun q => q.origin = o && q.tag = tag with
    | none => s
    | some q =>
      sendPacket q.pkt { s with requests := s.requests.map fun x =>
        if x = q then { q with again := none, since := mcAt s (o / 256) } else x }

/-- What the ports of die `d` find overdue in this mesh cycle (R66, R72). -/
def requestEvents (s : State) (d : Nat) : List Instr :=
  let D := s.die d
  (s.requests.filter fun q => dieOfRouter (q.origin / 256) = d).flatMap fun q =>
    match q.again with
    | some t => if t ≤ D.mc.toNat then [.requestResend q.origin q.tag] else []
    | none => if q.since + 2 ^ (D.rto.toNat + 12) ≤ D.mc.toNat then [.replyTimeout q.origin q.tag] else []

/-! ### Cores of the launch (R134, R142) -/

/-- The physical core of a flat core number of the launch that core `c` runs; none when it is not a used core. -/
def launchCore (s : State) (c n : Nat) : Option Nat :=
  match (s.cluster (unitOf c)).launch with
  | some l =>
    match l.clusters[n / 1024 % 16]? with
    | some k => if n % 1024 / 16 < l.ng then some (1024 * k + n % 1024) else none
    | none => none
  | none => none

/-- The flat core number, with the virtual cluster in place of the physical one (R142). -/
def flatCore (s : State) (c : Nat) : Nat := 1024 * (((s.cluster (unitOf c)).launch.map (·.vc)).getD 0) + c % 1024

/-- The flat slot number likewise. -/
def flatSlot (s : State) (k : Nat) : Nat := 16 * flatCore s (coreOf k) + slotIn k

/-! ### What cores send (R163) -/

/-- A packet from core `n` to a core, with the core's next tag. -/
def corePacket (s : State) (n : Nat) (dst : Nat) : Packet :=
  let a := coreRouter n
  let b := coreRouter dst
  { dstDev := s.sr.devnum, dstCol := BitVec.ofNat 5 (groupCol b), dstRow := BitVec.ofNat 5 (groupRow b)
    dstEp := BitVec.ofNat 8 (coreEndpoint dst), srcDev := s.sr.devnum, srcCol := BitVec.ofNat 5 (groupCol a)
    srcRow := BitVec.ofNat 5 (groupRow a), srcEp := BitVec.ofNat 8 (coreEndpoint n), tag := (s.core n).nextTag }

/-- The oldest packet of a core's send queue of a network enters its router's local input, once the packet before it has been
sent on (R163; what that input holds: log 50). -/
def pumpQueue (n : Nat) (rsp : Bool) (s : State) : State :=
  let c := s.core n
  match if rsp then c.sendRsp else c.sendReq with
  | [] => s
  | p :: q =>
    if (inBuf s (coreRouter n) (inKey (16 + coreEndpoint n) (pairIx p.vn p.cls.toNat))).flits ≠ [] then s
    else sendPacket p (s.modCore n fun c => if rsp then { c with sendRsp := q } else { c with sendReq := q })

/-- A core's packet takes its place in the send queue of its network (R163). -/
def enqueueSend (n : Nat) (p : Packet) (s : State) : State :=
  pumpQueue n p.vn (s.modCore n fun c =>
    if p.vn then { c with sendRsp := c.sendRsp ++ [p] } else { c with sendReq := c.sendReq ++ [p], nextTag := c.nextTag + 1 })

/-- The cores at a router. -/
def coresAt (r : Nat) : List Nat :=
  (List.range 16).map (16 * r + ·) ++ if cornerRouter (dieOfRouter r) = r then [bursarCore (dieOfRouter r)] else []

/-! ### Delivery (R48, R53) -/

/-- An endpoint of the table of R48, at the routers where it stands. -/
def endpointListed (r ep : Nat) : Bool :=
  let d := dieOfRouter r
  let ix := ep % 16
  let corner := r = cornerRouter d
  match ep / 16 with
  | 0 => true
  | 1 | 2 | 3 | 4 => ix = 0
  | 5 => r % 64 = 0 && decide (ix < 5)
  | 8 => decide (ix < 2) && (ctlRouters (2 * d + ix)).contains r
  | 9 | 10 => corner && ix = 0
  | 11 => decide (ix < 3) && r = trizenRouter d ix
  | 12 => corner && decide (ix < 2)
  | 13 => corner && d = 0 && ix = 0
  | _ => false

/-- The runs of bytes that a WR packet writes from its address: each with its offset (R53). -/
def writeRuns (p : Packet) : List (Nat × List Byte) :=
  match p.payload with
  | l :: _ => [(0, natBytes l.toNat 64)]
  | [] =>
    ((List.range 32).foldr (fun i (a : List (Nat × List Byte)) =>
      if bitOf p.param i then
        let b := BitVec.ofNat 8 (fieldOf p.inline (8 * i) 8)
        match a with
        | (j, bs) :: r => if j = i + 1 then (i, b :: bs) :: r else (i, [b]) :: a
        | [] => [(i, [b])]
      else a) [])

/-- The management port takes word accesses of its partition's bursars and of the strongroom; it refuses and logs others (R105,
R107). -/
def mgmtPacket (r : Nat) (p : Packet) (s : State) : State :=
  let d := dieOfRouter (routerAt p.srcCol.toNat p.srcRow.toNat)
  let admitted := p.srcDev = s.sr.devnum && (p.srcEp = 0xD0 || (p.srcEp = 0xC0 && s.partOf d = s.partOf (dieOfRouter r)))
  if !admitted then refusePacket r p 2 (refusalRecord r 0xC1 p s)
  else if p.opcode = 0x02 then replyAck p 0 (s.push (.registerWrite p.pa.toNat (word (fieldOf p.inline 0 32)) (sourceOf p)))
  else match mgmtRead p.pa.toNat s with
    | .ok v s => replyData p v.toNat s
    | .error e s => replyErr p e.code s

/-- The host port takes accesses to the outbound pages of its apertures (R94, R233). -/
def outboundPacket (r : Nat) (p : Packet) (s : State) : State :=
  let d := dieOfRouter r
  let x := p.pa.toNat % 0x40000000
  let ap := x / 0x800000
  let off := 0x80000 + x % 0x800000
  if p.opcode = 0x02 then
    let runs := writeRuns p
    if runs.all fun w => outboundOk s d ap (off + w.1) w.2.length then
      replyAck p 0 (s.pushAll (runs.map fun w => .outboundWrite d ap (off + w.1) w.2))
    else refusePacket r p 2 s
  else
    let n := 4 * 2 ^ fieldOf p.param 0 3
    if !outboundOk s d ap off n then refusePacket r p 2 s
    else
      let v := rdBytes (s.port d).store (apKey ap off) n
      if n = 64 then sendPacket (replyTo p 0x40 0 0 0 (some (BitVec.ofNat 512 v))) s else replyData p v s

/-- The message of a MSG packet: type and sequence as R53 gives them; the parameter's bits 27:24 and 31 carry the number of words, 0
for eight, and whether a reply is asked for (log 48). -/
def packetMessage (s : State) (p : Packet) : Message :=
  let src := routerAt p.srcCol.toNat p.srcRow.toNat
  let own := p.srcDev = s.sr.devnum && p.srcEp.toNat < 16
  let n := 16 * src + p.srcEp.toNat
  let cnt := if fieldOf p.param 24 4 = 0 then 8 else fieldOf p.param 24 4
  { typ := BitVec.ofNat 8 (fieldOf p.param 0 8), seq := BitVec.ofNat 16 (fieldOf p.param 8 16), cls := p.cls
    sender := if own then word (flatCore s n) else word (sourceOf p), reply := bitOf p.param 31
    caller := n * 2 ^ 16 + p.tag.toNat
    words := (List.range (Nat.min cnt 8)).map fun i => word (fieldOf p.inline (32 * i) 32) }

/-- A slice's request as an MCRQ packet carries it: the generation in the header, a write's line as its payload, the full/empty bits
inline (R24, R53). -/
def packetMcReq (p : Packet) : McReq :=
  { slice := routerAt p.srcCol.toNat p.srcRow.toNat, line := p.pa.toNat / 64, stamp := p.gen, write := bitOf p.param 0
    data := p.payload.headD 0, full := BitVec.ofNat 16 (fieldOf p.inline 0 16), cls := p.cls }

/-- Controller and slice control: the parameter names the action; the stack stands in inline bits 2:0, an invalidate bit or a window
parity in bit 3, a fenced channel in bits 9:5 when bit 4 is set (R53; DESIGN CHOICE, log 48). -/
def ctlmPacket (r : Nat) (p : Packet) (s : State) : Option State :=
  let st := fieldOf p.inline 0 3
  match fieldOf p.param 0 4, p.dstEp.toNat / 16 with
  | 1, 1 => some (s.push (.release r st))
  | 2, 8 => some (s.push (.decline (2 * dieOfRouter r + p.dstEp.toNat % 16) (p.pa.toNat / 64) (bitOf p.inline 3)))
  | 3, 1 => some (s.push (.mapReceive r st))
  | 4, 1 => some (s.push (.sliceFlush r st (bitOf p.inline 3) (if bitOf p.inline 4 then some (fieldOf p.inline 5 5) else none)))
  | _, _ => none

/-- A whole packet reaches its destination endpoint (R48, R53). A request that its endpoint has no operation for is malformed there
(code 6 of R54; log 48). -/
def deliver (r : Nat) (p : Packet) (s : State) : State :=
  let d := dieOfRouter r
  if !endpointListed r p.dstEp.toNat then setProto r s
  else if p.vn then deliverReply r p s
  else match p.dstEp.toNat / 16, p.opcode with
  | 0, 0x05 => replyAck p 0 (s.push (.messageArrive (16 * r + p.dstEp.toNat) (packetMessage s p)))
  | 0, 0x06 => s.push (.remoteSpawn (16 * r + p.dstEp.toNat) (word (fieldOf p.inline 0 32))
      ((List.range 4).map fun i => word (fieldOf p.inline (32 * (i + 1)) 32)) p)
  | 1, 0x01 => s.push (.sliceRd r p)
  | 1, 0x02 => s.push (.sliceWr r p)
  | 1, 0x03 => s.push (.sliceTel r p)
  | 1, 0x04 => s.push (.sliceFe r p)
  | 1, 0x07 => s.push (.sliceQput r p)
  | 1, 0x08 => s.push (.sliceQtake r p)
  | _, 0x0B => (ctlmPacket r p s).getD (replyErr p 6 s)
  | 2, 0x01 | 2, 0x02 | 2, 0x03 | 2, 0x04 => s.push (.remoteVaultAccess (r / 64) p)
  | 8, 0x0A =>
    let st := 2 * d + p.dstEp.toNat % 16
    (s.modCtl st fun c => { c with queue := c.queue ++ [packetMcReq p] }).push (.mcRequest st)
  | 9, 0x01 | 9, 0x02 => outboundPacket r p s
  | 12, 0x05 => if p.dstEp = 0xC0 then replyAck p 0 (s.push (.messageArrive (bursarCore d) (packetMessage s p))) else replyErr p 6 s
  | 12, 0x01 | 12, 0x02 => if p.dstEp = 0xC1 then mgmtPacket r p s else replyErr p 6 s
  | _, _ => replyErr p 6 s

/-! ### Streams at their ends (R68, R69, R354) -/

/-- The header of a stream's packet: the word in inline bits 31:0, the receiving input in bits 33:32 and the sending port in bits
35:34 (log 48). -/
def streamInput (p : Packet) : Nat := fieldOf p.inline 32 2
def streamSender (p : Packet) : Nat := 4 * (16 * routerAt p.srcCol.toNat p.srcRow.toNat + p.srcEp.toNat) + fieldOf p.inline 34 2

/-- The words of a stream's data flit. -/
def streamWords (f : Flit) : List Word := (List.range f.valid.toNat).map fun i => word (fieldOf f.data (32 * i) 32)

/-- A flit of a stream reaches the receiving core: the header `p` opens or resumes it, MARK closes or suspends it, ABORT ends it. -/
def streamFlit (r : Nat) (p : Packet) (f : Flit) (s : State) : State :=
  let c := 16 * r + p.dstEp.toNat
  let arrive := fun ws fin suspend => s.push (.streamDataArrive c (streamInput p) (streamSender p) ws fin suspend)
  if f.abort then arrive [] (some 3) false
  else if f.first then arrive [word (fieldOf p.inline 0 32)] none false
  else if f.mark then
    let q := flitHeader f
    if bitOf q.param 2 then arrive [] none true
    else arrive [] (some (if fieldOf q.param 0 2 = 3 then 2 else 1)) false
  else arrive (streamWords f) none false

/-- The input that a stream's flit goes to takes it: a header when the input holds no other stream, data when there is room. -/
def streamFits (s : State) (r : Nat) (p : Packet) (f : Flit) : Bool :=
  let x := smGet ({} : StreamIn) (s.core (16 * r + p.dstEp.toNat)).inputs (streamInput p)
  if f.abort || f.mark then true
  else if f.first then (!x.active || (x.suspended && x.sender = streamSender p && bitOf p.param 2)) && decide (x.words.length < 64)
  else decide (x.words.length + f.valid.toNat ≤ 64)

/-! ### Routing -/

def knownOpcode (o : Byte) : Bool := (1 ≤ o.toNat && o.toNat ≤ 11) || (0x40 ≤ o.toNat && o.toNat ≤ 0x45)

/-- A Trizen window of the port covers the request (R80). -/
def windowCovers (w : BitVec 128) (op : Byte) (lo hi : Nat) : Bool :=
  bitOf w 99 && (if op = 1 then bitOf w 96 else if op = 2 then bitOf w 97 else bitOf w 98) &&
    decide (fieldOf w 0 36 ≤ lo / 4096) && decide (hi / 4096 ≤ fieldOf w 56 36)

/-- How far from its address a request touches bytes: for a masked write, one past the highest byte written. A write without a mask
carries the full line as its payload (R53). -/
def packetSpan (p : Packet) : Nat :=
  match p.opcode with
  | 0x01 => 4 * 2 ^ fieldOf p.param 0 3
  | 0x02 => if p.param = 0 then 64 else (List.range 32).foldl (fun a i => if bitOf p.param i then i + 1 else a) 0
  | _ => 4

/-- A Trizen port admits an inbound REQ packet addressed to this device (R80). -/
def trizenAdmits (s : State) (d t : Nat) (link : Link) (p : Packet) : Bool :=
  if p.vn then true
  else match p.opcode with
    | 0x05 | 0x06 => link.msgen
    | 0x01 | 0x02 | 0x03 | 0x04 =>
      let lo := p.pa.toNat
      let hi := lo + packetSpan p - 1
      decide (hi < 2 ^ 39) && s.partOf (hi / 2 ^ 37) = s.partOf d && s.partOf (lo / 2 ^ 37) = s.partOf d &&
        (List.range 8).any fun w => windowCovers (smGet 0 (s.die d).windows (8 * t + w)) p.opcode lo hi
    | _ => false

/-- Discard the packet at the front of a buffer, with what of it still arrives. -/
def InBuf.dropFront (b : InBuf) : InBuf :=
  match b.flits.findIdx? fun f => f.1.last with
  | some i => { b with flits := b.flits.drop (i + 1), out := none, started := false, pkt := {} }
  | none => { b with flits := [], out := none, started := false, pkt := {}, part := none, drop := true }

/-- A read may join an older read of the same bytes of the same destination that waits for the same output (R76). -/
def mergesWith (out : Nat) (p : Packet) (k : Nat) (b : InBuf) : Bool :=
  b.out = some out && !b.started && p.opcode = 0x01 && b.pkt.opcode = 0x01 && decide (b.pkt.more.toNat < 3) && p.more = 0 &&
    b.pkt.pa = p.pa && b.pkt.param = p.param && b.pkt.dstDev = p.dstDev && b.pkt.srcDev = p.srcDev && b.pkt.dstCol = p.dstCol &&
    b.pkt.dstRow = p.dstRow && b.pkt.dstEp = p.dstEp && k % 6 = pairIx p.vn b.pkt.cls.toNat

/-- The merged packet: a record for the younger request, and the higher of the two classes (R52, R76). -/
def mergePacket (old p : Packet) : Packet :=
  let rec40 := sourceOf p + p.tag.toNat * 2 ^ 24
  { old with more := old.more + 1, inline := putField old.inline (40 * old.more.toNat) 40 rec40
             cls := if old.cls < p.cls then p.cls else old.cls }

/-- The packet at the front of input `k` of a router takes output `out`, as `p` (its header as it goes on). A read joins an older one,
unless the class that the merged packet takes is in use at the older one's input. -/
def takeOutput (r k out : Nat) (p : Packet) (s : State) : State :=
  let x := s.router r
  let own := fun (s : State) => modIn r k (fun b =>
    { b with out := some out, pkt := p, flits := b.flits.modifyHead fun f => ({ f.1 with data := packHeader p }, f.2) }) s
  let merge := if (s.die (dieOfRouter r)).mergeen then x.ins.find? fun e => e.1 ≠ k && mergesWith out p e.1 e.2 else none
  match merge with
  | none => own s
  | some (j, b) =>
    let q := mergePacket b.pkt p
    let j' := j / 6 * 6 + pairIx q.vn q.cls.toNat
    let head := b.flits.headD ({}, 0)
    let flit : Flit × Nat := ({ head.1 with data := packHeader q, cls := q.cls }, head.2)
    let drop := modIn r k InBuf.dropFront
    if j' = j then drop (modIn r j (fun b => { b with pkt := q, flits := flit :: b.flits.drop 1 }) s)
    else
      let b' := smGet {} x.ins j'
      if b'.flits ≠ [] || b'.part.isSome || b'.drop || j' = k then own s
      else drop (modIn r j' (fun b => { b with pkt := q, out := some out, started := false, flits := [flit] }) (modIn r j InBuf.dropFront s))

/-- The packet at the front of input `k`, which has no output yet, is given one, refused or lost (R49, R53, R67, R77, R79, R80). -/
def routeFront (r k : Nat) (s : State) : State :=
  let b := inBuf s r k
  match b.out, b.flits with
  | none, f :: _ =>
    let p := flitHeader f.1
    let d := dieOfRouter r
    let port := k / 6
    let drop := modIn r k InBuf.dropFront
    if !knownOpcode p.opcode then refusePacket r p 6 (setProto r (drop s))
    else if 5 ≤ port && port < 8 && p.dstDev = s.sr.devnum && !trizenAdmits s d (port - 5) (linkOf s r port) p then
      refusePacket r p 2 (logRecord d 0x10 (0xB0 + (port - 5)) (routerPos r) p.pa.toNat (p.opcode.toNat + sourceOf p * 2 ^ 32)
        ((drop s).modRouter r fun x => { x with firewall := true }))
    else if p.dstDev = s.sr.devnum && routerAt p.dstCol.toNat p.dstRow.toNat = r then takeOutput r k 4 p s
    else match chooseOutput s r p with
      | .hold _ => s
      | .refuse c =>
        let s := drop s
        refusePacket r p c (if c = 2 then refusalRecord r 0 p (s.modRouter r fun x => { x with firewall := true }) else s)
      | .lost => lossNotice r p 3 ((drop s).modRouter r fun x => { x with unroute := true })
      | .go out false => takeOutput r k out p s
      | .go out true =>
        takeOutput r k out { p with detour := p.detour + 1 }
          (s.modRouter r fun x => { x with detours := if x.detours = 0xFF then x.detours else x.detours + 1 })
  | _, _ => s

/-- The pairs of an input. -/
def inPairs (inp : Nat) : List Nat := (List.range 6).map (inKey inp)

/-- PACKET_ROUTE: a router gives the packets at the front of an input their outputs. -/
def execPacketRoute (r inp : Nat) (s : State) : Host.Outcome State Fault Refusal :=
  .next ((inPairs inp).foldl (fun s k => routeFront r k s) s)

/-! ### Flow control (R62) -/

/-- A mesh output crosses to another die. -/
def crossing (r port : Nat) : Bool := match neighbour r port with
  | some n => dieOfRouter n ≠ dieOfRouter r
  | none => false

/-- Flits that a buffer of a mesh link or a bridge holds, and the free space at which it asserts stop. -/
def bufSize (cross : Bool) : Nat := if cross then 36 else 20
def stopAt (cross : Bool) : Nat := if cross then 26 else 10

/-- The receiver at the other end of an output asserts stop for bulk or urgent flits of a network. -/
def stopped (s : State) (r port : Nat) (vn : Bool) (c : Nat) : Bool :=
  if 5 ≤ port then bitOf (linkOf s r port).stop (2 * vn.toNat + c)
  else match neighbour r port with
    | some n =>
      let held := (inBuf s n (inKey (oppPort port) (pairIx vn c))).flits.length
      decide (bufSize (crossing r port) ≤ held + stopAt (crossing r port))
    | none => false

/-- The endpoint of a router takes a flit of a packet now: a core with a full receive buffer takes no message (R163), an input with
a full buffer or another stream no stream flit (R354), a remote port with 32 requests none at all (R217). -/
def endpointTakes (s : State) (r : Nat) (p : Packet) (f : Flit) : Bool :=
  (p.vn || p.dstEp ≠ 0x20 || !portFull s r) &&
  match endpointCore r p.dstEp.toNat, p.opcode with
  | some n, 0x05 => decide ((s.core n).rxbuf.length < 64)
  | some _, 0x09 => streamFits s r p f
  | _, _ => true

/-! ### Transmission (R57 to R60, R63) -/

/-- The place of an input in the round-robin: local, N, E, S, W, edge 0 to 2 (R57). -/
def rrPlace (inp : Nat) : Nat := if inp < 4 then inp + 1 else if 5 ≤ inp && inp < 8 then inp else 0

/-- Round-robin distance of an input after the place of the last winner. -/
def rrDist (last inp : Nat) : Nat := (rrPlace inp + 8 - (last + 1)) % 8

/-- The inputs whose next flit an output may send for a pair: the one whose packet is open there, else those with a new packet for
it (R57). A flit spends two mesh cycles in the router (R49). -/
def readyKeys (s : State) (r port : Nat) (vn : Bool) (c : Nat) : List Nat :=
  let x := s.router r
  let pair := pairIx vn c
  let ripe := fun (b : InBuf) => match b.flits with
    | f :: _ => decide (f.2 + 2 ≤ mcAt s r) && (port ≠ 4 || endpointTakes s r b.pkt f.1)
    | [] => false
  if c < 2 && port ≠ 4 && stopped s r port vn c then []
  else match smGet 0 x.owner (6 * port + pair) with
    | i + 1 => if ripe (smGet {} x.ins (inKey i pair)) then [inKey i pair] else []
    | 0 => (x.ins.filter fun e => e.1 % 6 = pair && e.2.out = some port && !e.2.started && ripe e.2).map (·.1)

/-- When the next flit of an input arrived. -/
def arrivalOf (s : State) (r k : Nat) : Nat := ((inBuf s r k).flits.headD ({}, 0)).2

/-- The first of two inputs: by round-robin after the last winner, among endpoints by arrival; timed flits by arrival, then in
input order (R57, R60). -/
def before (s : State) (r : Nat) (timed : Bool) (last a b : Nat) : Bool :=
  let rr := fun k => if timed then rrPlace (k / 6) else rrDist last (k / 6)
  let at_ := arrivalOf s r
  if timed then decide (at_ a < at_ b) || (at_ a = at_ b && decide (rr a < rr b))
  else decide (rr a < rr b) || (rr a = rr b && decide (at_ a < at_ b))

/-- The input that wins a pair of an output. -/
def pickKey (s : State) (r port : Nat) (vn : Bool) (c : Nat) : Option Nat :=
  let last := smGet 0 (s.router r).lastWin (8 * port + pairIx vn c)
  (readyKeys s r port vn c).foldl (fun a k => match a with
    | none => some k
    | some j => if before s r (c = 2) last k j then some k else a) none

/-- The input whose ready flit of a class goes first: the networks alternate, but timed flits go as they arrived (R57, R60). After
reset local counts as the last winner and RSP as the network served last (DESIGN CHOICE, log 48). -/
def readyOf (s : State) (r port c : Nat) : Option (Bool × Nat) :=
  match pickKey s r port false c, pickKey s r port true c with
  | some i, some j =>
    let req := if c = 2 then !before s r true 0 j i else smGet true (s.router r).lastVn (4 * port + c)
    some (if req then (false, i) else (true, j))
  | some i, none => some (false, i)
  | none, some j => some (true, j)
  | none, none => none

/-- The class that an output serves in this cycle, with the next ucount (R57). Where TSLOT is zero and an urgent and a timed flit are
both ready, the urgent one goes (DESIGN CHOICE, log 48). -/
def arbitrate (slot slotZero t u b : Bool) (ucount : Nat) : Option Nat × Nat :=
  let tt := t && slot
  let uu := u || (t && slotZero)
  if tt then (some 2, ucount)
  else if b && (!uu || ucount = 32) then (some 0, 0)
  else if uu then (some (if u then 1 else 2), Nat.min (ucount + 1) 32)
  else (none, 0)

/-- The capacity of a link's replay buffer (R63). -/
def replayMax (port : Nat) : Nat := if 5 ≤ port then 512 else 64

/-- Hand a flit to the router at the other end of a link; at a Trizen port it leaves the device. -/
def flitOut (r port : Nat) (f : Flit) (s : State) : State :=
  match neighbour r port with
  | some n => s.push (.linkFlitReceive n (oppPort port) f)
  | none => s

/-- A flit leaves on a link with its sequence number; on a Trizen link its trailer acknowledges what has been received (R63,
R78). -/
def linkSend (r port : Nat) (p : Packet) (f : Flit) (s : State) : State :=
  let l := linkOf s r port
  let f := { f with seq := l.seq.setWidth 8, ext := l.seq, ack := if 5 ≤ port then some (l.expect - 1) else none }
  let f := { f with crc := flitCrc f }
  flitOut r port f (modLink r port (fun l =>
    { l with seq := l.seq + 1, replay := l.replay ++ [f], ackBy := if 5 ≤ port then none else l.ackBy
             tails := if f.last && !f.abort then l.tails ++ [(f.ext, p)] else l.tails }) s)

/-- A flit reaches the endpoints of its router: streams are taken flit by flit, other packets whole (R48, R68). -/
def sinkFlit (r : Nat) (f : Flit) (s : State) : State :=
  let pair := pairIx f.vn f.cls.toNat
  let fs := smGet [] (s.router r).sink pair ++ [f]
  let p := flitHeader (fs.headD f)
  let put := fun (v : List Flit) (s : State) => s.modRouter r fun x => { x with sink := smSet [] x.sink pair v }
  let stream := p.opcode = 0x09 && endpointListed r p.dstEp.toNat && decide (p.dstEp.toNat < 16)
  if stream then put (if f.last then [] else fs.take 1) (streamFlit r p f s)
  else if f.abort then put [] s
  else if f.last then deliver r { p with payload := (fs.drop 1).map (·.data) } (put [] s)
  else put fs s

/-- The front flit of input `k` leaves through an output (R57). -/
def sendFront (r port k : Nat) (s : State) : State :=
  let b := inBuf s r k
  match b.flits with
  | [] => s
  | f :: fs =>
    let pair := k % 6
    let s := s.modRouter r fun x =>
      { x with
        ins := smSet {} x.ins k
          (if f.1.last then { b with flits := fs, out := none, started := false, pkt := {}, last := mcAt s r }
            else { b with flits := fs, started := true, last := mcAt s r })
        owner := smSet 0 x.owner (6 * port + pair) (if f.1.last then 0 else k / 6 + 1)
        lastWin := if b.started then x.lastWin else smSet 0 x.lastWin (8 * port + pair) (rrPlace (k / 6))
        lastVn := smSet true x.lastVn (4 * port + f.1.cls.toNat) f.1.vn }
    if port = 4 then sinkFlit r f.1 s else linkSend r port b.pkt f.1 s

/-- FLIT_TRANSMIT: in a mesh cycle an output sends at most one flit: a CTL flit that is owed, a flit to be replayed, or the choice of
R57 (R57 to R60, R63). On half the lanes it sends in every other cycle (R78). -/
def execFlitTransmit (r port : Nat) (s : State) : Host.Outcome State Fault Refusal :=
  .next <|
    let x := s.router r
    let l := linkOf s r port
    let now := mcAt s r
    if (port ≠ 4 && l.st ≠ .up) || smGet 0 x.sent port = now + 1 || (l.half && now % 2 = 1) then s
    else
      let owed := port ≠ 4 && (l.owed.isSome || l.ackBy.any fun t => decide (t ≤ now))
      let shut := port ≠ 4 && (l.resend ≠ [] || decide (replayMax port ≤ l.replay.length))
      let ready := fun c => if shut then none else readyOf s r port c
      let ts := smGet 0 x.tslot port
      let slot := bitOf ts (now % 64)
      let mark := fun (s : State) => s.modRouter r fun x => { x with sent := smSet 0 x.sent port (now + 1) }
      if owed && !((ready 2).isSome && slot) then (mark s).push (.ackSend r port)
      else match l.resend with
        | f :: fs =>
          let f := { f with ack := if 5 ≤ port then some (l.expect - 1) else none }
          flitOut r port f (modLink r port (fun l =>
            { l with resend := fs, replays := if l.replays = 0xFFFF then l.replays else l.replays + 1 })
              ((mark s).modRouter r fun x => { x with replayed := true }))
        | [] =>
          let (c, u) := arbitrate slot (ts = 0) (ready 2).isSome (ready 1).isSome (ready 0).isSome (smGet 0 x.ucount port)
          let s := s.modRouter r fun x => { x with ucount := smSet 0 x.ucount port u }
          match c with
          | none => s
          | some c => match ready c with
            | some (_, k) => sendFront r port k (mark s)
            | none => s

/-! ### Reception (R58, R61, R63) -/

/-- The packet arriving at an input is cut off: what of it is still in the buffer goes; a part already sent on is closed with an
ABORT tail; the rest is discarded as it arrives (R58, R61). -/
def InBuf.cut (b : InBuf) (f : Flit) (at_ : Nat) : InBuf :=
  let n := ((b.flits.zipIdx.filter fun x => x.1.1.last).getLast?.map fun x => x.2 + 1).getD 0
  let rest := b.flits.drop n
  if b.part.isSome && !(rest.any fun x => x.1.first) then
    { b with flits := b.flits.take n ++ [(abortTail f.vn f.cls, at_)], part := none, drop := !f.last }
  else if n = 0 && rest ≠ [] then { b with flits := [], part := none, drop := !f.last, out := none, pkt := {}, started := false }
  else { b with flits := b.flits.take n, part := none, drop := !f.last }

/-- The payload count of the packet that a flit belongs to is broken by it (R52). A stream's packet has no count (R68). A count of 9
to 15 that the flits match is accepted (DESIGN CHOICE, log 48). -/
def countBroken (b : InBuf) (f : Flit) : Bool :=
  let (p, n) := if f.first then (flitHeader f, 0) else match b.part with
    | some (p, n) => (p, n + 1)
    | none => ({}, 0)
  p.opcode ≠ 0x09 && (if f.last then decide (n ≠ p.count.toNat) else decide (p.count.toNat ≤ n && (!f.first || p.count = 0)))

/-- A flit that a link has received joins its input's buffer (R52, R58, R61). -/
def acceptFlit (r port : Nat) (f : Flit) (s : State) : State :=
  let k := inKey port (pairIx f.vn f.cls.toNat)
  let b := inBuf s r k
  let at_ := mcAt s r + 1 + if crossing r port then 4 else 0
  let cut := modIn r k (·.cut f at_)
  if f.cls = 3 then setProto r s
  else if b.drop && !f.first then modIn r k (·.add f at_) s
  else if f.first = b.part.isSome then setProto r (cut s)
  else if f.cls = 2 && !f.abort && decide (8 ≤ b.flits.length) then
    -- a full timed buffer: the packet is dropped, logged with the output it takes, and its loss told (R61, R126)
    let p := if f.first then flitHeader f else (b.part.map (·.1)).getD {}
    let out := match chooseOutput s r p with
      | .go o _ | .hold o => o
      | _ => 4
    lossNotice r p 3 (logRecord (dieOfRouter r) 0x11 0 (routerPos r) 0 out
      ((cut s).modRouter r fun x => { x with tmdrop := if x.tmdrop = 0xFF then x.tmdrop else x.tmdrop + 1 }))
  else if !f.abort && countBroken b f then setProto r (cut s)
  else modIn r k (·.add f at_) s

/-- LINK_FLIT_RECEIVE: check CRC and sequence, owe an acknowledgement, and take the flit (R63, R78). A discard is answered at once with
a NAK, good flits within 32 mc. -/
def execLinkFlitReceive (r port : Nat) (f : Flit) (s : State) : Host.Outcome State Fault Refusal :=
  .next <|
    let l := linkOf s r port
    let nak := modLink r port (fun l => { l with owed := some true })
    let s := wake r s
    if l.st ≠ .up then s
    else if f.crc ≠ flitCrc f then (if f.ctl then s else nak s)
    else
      let s := match f.ack with
        | some a => if 5 ≤ port then s.push (.linkAck r port a (f.ctl && bitOf f.data 8) l.stop) else s
        | none => s
      if f.ctl then
        if 5 ≤ port && f.ack.isSome then s else s.push (.linkAck r port (BitVec.ofNat 16 (fieldOf f.data 0 8)) (bitOf f.data 8) l.stop)
      else if f.seq ≠ l.expect.setWidth 8 || (5 ≤ port && f.ext ≠ l.expect) then nak s
      else
        acceptFlit r port f (modLink r port (fun l =>
          { l with expect := l.expect + 1, ackBy := some (l.ackBy.getD (mcAt s r + 31)) }) s)

/-- LINK_ACK: acknowledged flits leave the replay buffer; a NAK resends the rest, the sixteenth without progress retrains
(R63, R64). `stop` is what the far end of a Trizen link shows (R62). -/
def execLinkAck (r port : Nat) (seq : BitVec 16) (nak : Bool) (s : State) (stop : BitVec 4 := 0) : Host.Outcome State Fault Refusal :=
  .next <|
    let l := linkOf s r port
    let m := if 5 ≤ port then 2 ^ 16 else 2 ^ 8
    let first := (l.replay.headD {}).ext
    let n := (seq - first + 1).toNat % m
    let n := if l.replay.length < n then 0 else n
    let rest := l.replay.drop n
    let naks := if n ≠ 0 then 0 else if nak then l.naks + 1 else l.naks
    let s := wake r (modLink r port (fun l =>
      { l with replay := rest, naks := naks, stop := if 5 ≤ port then stop else l.stop
               tails := l.tails.filter fun t => decide (n ≤ (t.1 - first).toNat)
               resend := if nak then rest else l.resend.filter fun f => decide (n ≤ (f.ext - first).toNat) }) s)
    if naks = 16 then s.push (.linkTrainingStart r port) else s

/-- ACK_SEND: an owed acknowledgement or NAK leaves in a CTL flit (R63). -/
def execAckSend (r port : Nat) (s : State) : Host.Outcome State Fault Refusal :=
  .next <|
    let l := linkOf s r port
    if l.st ≠ .up || (l.owed.isNone && l.ackBy.isNone) then s
    else
      let f : Flit :=
        { ctl := true, data := BitVec.ofNat 512 ((l.expect - 1).toNat % 256 + if l.owed = some true then 256 else 0)
          ack := if 5 ≤ port then some (l.expect - 1) else none }
      flitOut r port { f with crc := flitCrc f } (modLink r port (fun l => { l with owed := none, ackBy := none }) s)

/-! ### Link states (R64, R65) -/

/-- The ends of a link: the port named and, on the mesh, the port that faces it. -/
def linkEnds (r port : Nat) : List (Nat × Nat) :=
  (r, port) :: match neighbour r port with
    | some n => [(n, oppPort port)]
    | none => []

/-- Log a change of a bridge or Trizen link (R126 code 0x12); mesh links inside a die have no LNKSTAT. -/
def logLink (r port : Nat) (s : State) : State :=
  if crossing r port || 5 ≤ port then
    logRecord (dieOfRouter r) 0x12 (if 5 ≤ port then 0xB0 + (port - 5) else 0) (routerPos r) 0 (lnkstatOf (linkOf s r port)).toNat s
  else s

def oneMore (b : Byte) : Byte := if b = 0xFF then b else b + 1

/-- LINK_TRAINING_START: from DOWN, UP or a restarted LOST Trizen link (R64). -/
def execLinkTrainingStart (r port : Nat) (s : State) : Host.Outcome State Fault Refusal :=
  .next <|
    let l := linkOf s r port
    if l.st = .down || l.st = .up || (l.st = .lost && l.restart && 5 ≤ port) then
      (linkEnds r port).foldl (fun s e => logLink e.1 e.2 (modLink e.1 e.2 (fun l =>
        { l with st := .training, naks := 0, retrains := oneMore l.retrains }) s)) s
    else s

/-- LINK_TRAINING_END: UP with replay from the last acknowledged flit, on half the lanes where one has failed (R78), or LOST after
three failures in a row (R64). -/
def execLinkTrainingEnd (r port : Nat) (good : Bool) (s : State) (half : Bool := false) : Host.Outcome State Fault Refusal :=
  .next <|
    let l := linkOf s r port
    let ends := fun (f : Link → Link) (s : State) => (linkEnds r port).foldl (fun s e => modLink e.1 e.2 f s) s
    if l.st ≠ .training then s
    else if good then
      (linkEnds r port).foldl (fun s e => wake e.1 (logLink e.1 e.2 s)) (ends (fun l =>
        { l with st := .up, fails := 0, restart := false, half := half && decide (5 ≤ port), resend := l.replay }) s)
    else if l.fails = 2 then (ends (fun l => { l with fails := 0, restart := false }) s).push (.linkLost r port)
    else ends (fun l => { l with fails := l.fails + 1, retrains := oneMore l.retrains }) s

/-- One end of a lost link (R65): packets that were arriving are closed with an ABORT tail; packets that have not begun to leave are
routed again; those that have are discarded and told lost; those sent whole and not acknowledged may have arrived. -/
def endLost (r port : Nat) (s : State) : State :=
  let l := linkOf s r port
  let s := wake r (modLink r port (fun l =>
    { l with st := .lost, replay := [], resend := [], tails := [], naks := 0, owed := none, ackBy := none }) s)
  let s := s.modRouter r fun x =>
    { x with
      lost := if port < 4 then x.lost ||| (1 <<< port) else x.lost
      ins := x.ins.map fun e =>
        if e.1 / 6 = port && (e.2.part.isSome || e.2.drop) then
          (e.1, if e.2.part.isSome then e.2.add (abortTail (decide (3 ≤ e.1 % 6)) (BitVec.ofNat 2 (e.1 % 3))) (mcAt s r)
            else { e.2 with drop := false })
        else e }
  let s := logLink r port s
  let s := ((s.router r).ins.filter fun e => e.2.out = some port).foldl (fun s e =>
    if e.2.started then
      lossNotice r e.2.pkt 3 ((modIn r e.1 InBuf.dropFront s).modRouter r fun x =>
        { x with owner := smSet 0 x.owner (6 * port + e.1 % 6) 0 })
    else modIn r e.1 (fun b => { b with out := none }) s) s
  l.tails.foldl (fun s t => lossNotice r t.2 4 s) s

/-- LINK_LOST: the routers on both ends act (R65). -/
def execLinkLost (r port : Nat) (s : State) : Host.Outcome State Fault Refusal :=
  .next ((linkEnds r port).foldl (fun s e => if (linkOf s e.1 e.2).st = .lost then s else endLost e.1 e.2 s) s)

/-- LNKSTAT_RESTART: a LOST Trizen link is retrained (R64, R81). -/
def execLnkstatRestart (d t : Nat) (s : State) : Host.Outcome State Fault Refusal :=
  .next <|
    let r := trizenRouter d t
    if (linkOf s r (5 + t)).st = .lost then
      (modLink r (5 + t) (fun l => { l with restart := true }) s).push (.linkTrainingStart r (5 + t))
    else modLink r (5 + t) (fun l => { l with restart := false }) s

/-! ### A mesh cycle (R4, R57) -/

/-- An output has something to do: a packet for it, a count to run down, or a link with something owed. -/
def portActive (x : Router) (now port : Nat) : Bool :=
  let l := smGet {} x.links port
  (x.ins.any fun e => e.2.out = some port && e.2.flits ≠ []) || smGet 0 x.ucount port ≠ 0 || l.owed.isSome || l.resend ≠ [] ||
    l.ackBy.any fun t => decide (t ≤ now)

/-- A router that no longer needs looking at. -/
def routerIdle (s : State) (r : Nat) : Bool :=
  let x := s.router r
  x.ins.all (fun e => e.2.flits = [] && !e.2.started) && x.ucount.all (fun e => e.2 = 0) &&
    x.links.all (fun l => l.2.owed.isNone && l.2.resend = [] && l.2.ackBy.isNone) &&
    (coresAt r).all fun n => (s.core n).sendReq = [] && (s.core n).sendRsp = [] && (s.core n).ports.all fun p => p.2.words = []

/-- The streams of a router's cores: a header is due at once, a data flit 32 mc after the last word or as soon as 16 words are held
(R68); a route on
which no flit has passed for the idle limit is closed by its first router (R69). -/
def streamTick (r : Nat) (s : State) : State :=
  let now := mcAt s r
  let limit := 16 * (s.die (dieOfRouter r)).sidle.toNat
  (coresAt r).foldl (fun s n =>
    if (s.core n).ports = [] then s
    else
      let s := s.modCore n fun c => { c with ports := c.ports.map fun p => if p.2.words = [] then p else (p.1, { p.2 with idle := p.2.idle + 1 }) }
      s.pushAll ((s.core n).ports.flatMap fun p =>
        let b := inBuf s r (inKey (272 + 4 * (n % 16) + p.1) 0)
        if p.2.state = 1 && p.2.words ≠ [] && (!p.2.route || p.2.resume || 32 ≤ p.2.idle || p.2.words.length = 16) then [Instr.streamFlush n p.1]
        else if p.2.route && b.started && b.flits = [] && decide (b.last + limit ≤ now) then [.streamIdleExpire n p.1]
        else [])) s

/-- One router in a mesh cycle: send queues, streams, routing, and every active output. -/
def routerTick (r : Nat) (s : State) : State :=
  let s := (coresAt r).foldl (fun s n => pumpQueue n true (pumpQueue n false s)) s
  let s := streamTick r s
  let x := s.router r
  let inputs := ((x.ins.filter fun e => e.2.out.isNone && e.2.flits ≠ []).map fun e => e.1 / 6).dedup
  s.pushAll (inputs.map (Instr.packetRoute r) ++
    ((List.range 8).filter fun p => portActive x (mcAt s r) p || inputs ≠ []).map (Instr.flitTransmit r))

/-- The dies whose mesh runs: released from reset and not stopped. -/
def meshRuns (s : State) (d : Nat) : Bool := bitOf s.sr.dieup d && !(s.die d).stopped

/-- A mesh cycle of every running die. -/
def mcTick (s : State) : State :=
  let ds := (List.range 4).filter (meshRuns s)
  let s := ds.foldl (fun s d => s.modDie d fun D => { D with mc := D.mc + 1 }) { s with mcDue := s.mcDue - 1 }
  let s := s.pushAll (ds.flatMap (requestEvents s))
  let s := { s with busy := s.busy.filter fun r => !routerIdle s r }
  s.busy.foldl (fun s r => if ds.contains (dieOfRouter r) then routerTick r s else s) s

/-- Mesh cycles of the next work cycle: four in every three (R4). -/
def mcOf (phase : Nat) : Nat := if phase = 2 then 2 else 1

end Sys2Proof.Machine
end

