-- ==== Sys2Proof/Machine/Mint.lean ====
section
/-! DEFINITION. Mint windows (R219 to R228): descriptors, generators and reads of any width. -/

namespace Sys2Proof.Machine

/-! ### Descriptors (R220, R221) -/

/-- Word `w` of descriptor `d`. -/
def mintWord (c : Cluster) (d w : Nat) : Word := smGet 0 c.mint (8 * d + w)

def mintGen (c : Cluster) (d : Nat) : Nat := fieldOf (mintWord c d 0) 0 4
def mintEtype (c : Cluster) (d : Nat) : Nat := fieldOf (mintWord c d 0) 6 2

/-- The descriptor is treated as DISABLED (R221). -/
def mintDisabled (c : Cluster) (d : Nat) : Bool :=
  let w := mintWord c d
  let gen := mintGen c d
  let ety := mintEtype c d
  let mask := gen = 2 || gen = 3
  gen = 0 || decide (7 ≤ gen) || fieldOf (w 0) 9 23 ≠ 0 || fieldOf (w 0) 4 2 ≠ 0 || (bitOf (w 0) 8 && !mask) ||
  w 6 ≠ 0 || w 7 ≠ 0 || (gen ≠ 3 && w 5 ≠ 0) || ((gen = 1 || gen = 4) && w 4 ≠ 0) || (gen = 1 && w 3 ≠ 0) ||
  (ety = 3 && gen ≠ 1) || (ety ≠ 0 && decide (5 ≤ gen)) || (mask && w 1 = 0) ||
  (gen = 4 && (w 1 = 0 || decide (256 < (w 1).toNat) || decide (255 < (w 3).toNat)))

/-- Element size in bytes (R219). -/
def mintSize (c : Cluster) (d : Nat) : Nat :=
  if 5 ≤ mintGen c d || mintEtype c d = 0 || mintEtype c d = 3 then 4 else 2

/-- The floating-point format of ETYPE. -/
def etypeFmt (e : Nat) : FFmt := (fmtOf e).getD fFP32

/-! ### The sine table (R225) -/

/-- floor(π × 2^100). -/
def pi100 : Int := 0x3243F6A8885A308D313198A2E0

/-- Taylor terms of sine in units of 2^-100: the `n` terms from term `i` on, each from the last. -/
def sineTerms (x2 : Int) : Nat → Nat → Int → Int
  | 0, _, _ => 0
  | n + 1, i, t =>
    let t' := t * x2 / 2 ^ 100 / (2 * i * (2 * i + 1))
    sineTerms x2 n (i + 1) t' * -1 - t'

/-- `T[j]`: sin(πj / 2,048) × 2^30 to the nearest integer. -/
def sineTable (j : Nat) : Int :=
  if 1024 ≤ j then 2 ^ 30
  else
    let x := pi100 * j / 2 ^ 11
    let x2 := x * x / 2 ^ 100
    (x + sineTerms x2 16 1 x + 2 ^ 69) / 2 ^ 70

/-- `Sq(a)`. -/
def sineQuarter (a : Nat) : Int :=
  let j := a / 2 ^ 20
  if 1024 ≤ j then sineTable 1024
  else sineTable j + (sineTable (j + 1) - sineTable j) * ((a % 2 ^ 20 : Nat) : Int) / 2 ^ 20

/-- Cosine and sine of a phase in units of 2^-30. -/
def rotary (phi : Nat) : Int × Int :=
  let a := phi % 2 ^ 30
  let c := 2 ^ 30 - a
  match phi / 2 ^ 30 % 4 with
  | 0 => (sineQuarter c, sineQuarter a)
  | 1 => (-sineQuarter a, sineQuarter c)
  | 2 => (-sineQuarter c, -sineQuarter a)
  | _ => (sineQuarter a, -sineQuarter c)

/-! ### Elements -/

/-- MASKVAL of CAUSAL and BAND (R224). -/
def maskVal (f : FFmt) (negInf : Bool) : Nat := f.enc true (if negInf then f.top + 1 else f.top)

/-- Element `e` of window `d` (R223 to R227). -/
def mintElem (c : Cluster) (d e : Nat) : Nat :=
  let w := mintWord c d
  let ety := mintEtype c d
  let f := etypeFmt ety
  match mintGen c d with
  | 1 =>
    if ety = 3 then ((w 1).toNat + (w 2).toNat * e) % 2 ^ 32
    else (f.round rneCtx 0 (vAdd false (ofFp32 (w 1)) (vMul (ofFp32 (w 2)) (.ofInt e)).1).1).1
  | 4 =>
    let nf := (w 1).toNat
    let k := e / 2
    let p := ((w 2).toNat + k / nf) % 2 ^ 32
    let ix := ((w 3).toNat + k % nf) % 256
    let r := rotary (p * (smGet 0 c.freq ix).toNat % 2 ^ 32)
    (f.round rneCtx 0 ((Val.ofInt (if e % 2 = 0 then r.1 else r.2)).scale (-30))).1
  | 5 | 6 =>
    let key := BitVec.ofNat 64 ((w 3).toNat + (w 4).toNat * 2 ^ 32)
    let ctr := BitVec.ofNat 64 ((w 1).toNat + (w 2).toNat * 2 ^ 32 + e)
    let r := mixer key ctr
    if mintGen c d = 5 then r.toNat
    else (fFP32.round rneCtx 0 ((Val.ofInt (fieldOf r 8 24)).scale (-24))).1
  | g =>
    let pitch := (w 1).toNat
    let row := (w 2).toInt + (e / pitch : Nat)
    let col := (w 3).toInt + (e % pitch : Nat)
    let diag := (w 4).toInt
    let keep := decide (col ≤ row + diag) && (g ≠ 3 || decide (row + diag - (w 5).toNat ≤ col))
    if keep then 0 else maskVal f (bitOf (w 0) 8)

/-- The window of a mint offset and the byte in it (R219). -/
def mintWindow (v : Nat) : Nat := (v - 0x4000000) / 0x400000 % 16

/-- One byte of the mint view. -/
def mintByte (c : Cluster) (v : Nat) : Nat :=
  let d := mintWindow v
  let o := v % 0x400000
  mintElem c d (o / mintSize c d) / 256 ^ (o % mintSize c d) % 256

/-- `n` bytes of the mint view: whole aligned elements where they fit, else byte by byte. -/
def mintRead (c : Cluster) (v n : Nat) : Nat :=
  if n = mintSize c (mintWindow v) && v % n = 0 then mintElem c (mintWindow v) (v % 0x400000 / n)
  else (List.range n).foldl (fun a i => a + mintByte c (v + i) * 256 ^ i) 0

/-- A window among the `n` bytes at `v` that is DISABLED: the first offset in it. -/
def mintBlocked (c : Cluster) (v n : Nat) : Option Nat :=
  if mintDisabled c (mintWindow v) then some v
  else
    let last := v + (n - 1)
    (List.range (last / 0x400000 - v / 0x400000)).findSome? fun i =>
      let b := (v / 0x400000 + 1 + i) * 0x400000
      if mintDisabled c (mintWindow b) then some b else none

/-- The mint block as stored (R220): 128 descriptor words and 256 frequencies. -/
def mintBlockWord (c : Cluster) (i : Nat) : Word := if i < 128 then smGet 0 c.mint i else smGet 0 c.freq (i - 128)

/-- Load the mint block from its words (R220, R398). -/
def setMintBlock (f : Nat → Word) (c : Cluster) : Cluster :=
  { c with
    mint := forUp 0 128 [] fun i m => smSet 0 m i (f i)
    freq := forUp 0 256 [] fun i m => smSet 0 m i (f (128 + i)) }

end Sys2Proof.Machine
end

