-- ==== Sys2Proof/Machine/Access.lean ====
section
/-! DEFINITION. Accesses of threads: translation (R233 to R240), the place an access is performed at (R217, R237, R425), and
what each place performs (R241, R341). -/

namespace Sys2Proof.Machine

/-! ### Who asks -/

/-- A requester: its die, its partition (R102), whether it is a bursar; its router and endpoint (R48), and whether it asks in class
bulk (R56). -/
structure Rq where
  die : Nat
  part : Nat
  bursar : Bool
  router : Nat
  ep : Nat
  bulk : Bool := false
  deriving DecidableEq, Repr

/-- A unit at a router as a requester. -/
def rqUnit (r ep : Nat) (bulk : Bool) (s : State) : Rq :=
  { die := dieOfRouter r, part := s.partOf (dieOfRouter r), bursar := false, router := r, ep := ep, bulk := bulk }

/-- A core as a requester in a class. -/
def rqOf (core cls : Nat) (s : State) : Rq :=
  { rqUnit (coreRouter core) (coreEndpoint core) (cls = 0) s with bursar := isBursar core }

/-- The source of a requester's packets as header bits 47:30 hold it. -/
def Rq.source (rq : Rq) : Nat := position (groupCol rq.router) (groupRow rq.router) rq.ep

/-- An ERR FIREWALL at `unit` of router `r`, with its record in the log of the partition whose traffic was refused (R105, R126). -/
def refuse {α : Type} (rq : Rq) (r unit pa opcode : Nat) : HM α := fun s =>
  .error (.err 2) (logRecord rq.die 0x10 unit (routerPos r) pa (opcode + rq.source * 2 ^ 32) s)

/-- An ERR FIREWALL at none of the points of R105, which the log does not record (R233). -/
def deny {α : Type} : HM α := fun s => .error (.err 2) s

/-! ### Leaf entries (R235, R236) -/

def leafSize (l : BitVec 64) : Nat := fieldOf l 2 4
def leafPlaceMode (l : BitVec 64) : Nat := fieldOf l 10 2
def leafSlice (l : BitVec 64) : Nat := fieldOf l 12 10
def leafKind (l : BitVec 64) : Nat := fieldOf l 22 2
def pageBytes (z : Nat) : Nat := 4096 * 4 ^ z

/-- The leaf's rights allow the access (R238). -/
def leafAllows (l : BitVec 64) (acc : Access) : Bool :=
  (!acc.r || bitOf l 6) && (!acc.w || bitOf l 7) && (!acc.x || bitOf l 8) && (!acc.fe || bitOf l 9)

/-- The slice that a placement names; none when the subset is empty, or for FIRST-TOUCH (R43). -/
def leafHome (place : SMap Word) (l : BitVec 64) (pa : Nat) : Option Nat :=
  match leafPlaceMode l with
  | 0 => hashHome place (leafSlice l % 64) pa
  | 1 => some (leafSlice l)
  | _ => none

/-- The place of a virtual address under its leaf, or a PLACEMENT fault (R237, R44, R238). A PEER leaf that names this device itself
is homed at the slice of this device that its placement gives, and R44 does not check it (DESIGN CHOICE, log 49). -/
def leafTarget (s : State) (part : Nat) (l : BitVec 64) (va : Nat) : Option Place :=
  let o := va % pageBytes (leafSize l)
  let place := (s.part part).place
  match leafKind l with
  | 0 =>
    let pa := fieldOf l 28 36 * 4096 + o
    match leafHome place l pa with
    | some sl => if s.partOf (sl / 256) = s.partOf (pa / 2 ^ 36 / 2) then some (.home sl pa) else none
    | none => none
  | 1 =>
    let pa := fieldOf l 28 27 * 4096 + o
    let dev := fieldOf l 55 6
    match leafHome place l pa with
    | some sl => some (if dev = s.sr.devnum.toNat then .home sl pa else .peer dev pa)
    | none => none
  | _ => some (.io (fieldOf l 28 36 * 4096 + o))

/-- The home that a LOCAL leaf gives an address lies outside the partition that owns the stack (R44). -/
def leafForeign (s : State) (part : Nat) (l : BitVec 64) (va : Nat) : Bool :=
  leafKind l = 0 && match leafHome (s.part part).place l (fieldOf l 28 36 * 4096 + va % pageBytes (leafSize l)) with
    | some sl => s.partOf (sl / 256) ≠ s.partOf ((fieldOf l 28 36 * 4096 + va % pageBytes (leafSize l)) / 2 ^ 37)
    | none => false

/-- The opcode of an access's packet (R53). -/
def accOpcode : AccessKind → Nat
  | .store => 2 | .atomic => 3 | .fullEmpty => 4 | _ => 1

/-- A PLACEMENT refusal is logged as the second-level TLB's (R105, R126). -/
def logPlacement (core : Nat) (l : BitVec 64) (acc : AccessKind) (va : Nat) (s : State) : State :=
  let d := dieOfCluster (unitOf core)
  if leafForeign s (s.partOf d) l va then
    logRecord d 0x10 0x53 (routerPos (64 * unitOf core)) (fieldOf l 28 36 * 4096 + va % pageBytes (leafSize l))
      (accOpcode acc + position (groupCol (coreRouter core)) (groupRow (coreRouter core)) (coreEndpoint core) * 2 ^ 32) s
  else s

/-- The first-level TLB's entry for an address. -/
def tlbFind (c : Core) (va : Nat) : Option TlbEntry :=
  c.tlb.find? fun e => va / pageBytes e.size = e.va / pageBytes e.size

/-- Mark a TLB entry used. -/
def tlbTouch (core : Nat) (e : TlbEntry) (s : State) : State :=
  s.modCore core fun c =>
    { c with stamp := c.stamp + 1, tlb := c.tlb.map fun x => if x = e then { x with used := c.stamp + 1 } else x }

/-- Translate an address of the slot in execution (R238, R239): a miss parks the thread while the second-level TLB is asked. The
placement of a cached leaf is judged by the subset masks as they stand at the access (DESIGN CHOICE, log 49). -/
def translate (acc : Access) (va : Nat) : M Place := fun s =>
  match tlbFind (s.core s.myCore) va with
  | none => .error (.park (.fill va)) (s.push (.tlb2Lookup s.cur va acc))
  | some e =>
    let s := tlbTouch s.myCore e s
    if !leafAllows e.leaf acc then .error (.pageFault acc.kind 2 va) s
    else match leafTarget s (s.partOf (dieOfCluster s.myUnit)) e.leaf va with
      | some p => .ok p s
      | none => .error (.pageFault acc.kind 3 va) (logPlacement s.myCore e.leaf acc.kind va s)

/-- A physical address that a bursar names (R425, R233). -/
def physical (rq : Rq) (pa : Nat) : HM Place := fun s =>
  if pa < 2 ^ 39 then
    if s.partOf (pa / 2 ^ 36 / 2) ≠ rq.part then refuse rq rq.router 0 pa 1 s
    else match hashHome (s.part rq.part).place 63 pa with
      | some sl => .ok (.home sl pa) s
      | none => deny s
  else .ok (.io pa) s

/-- An access as part of an instruction. REMAP-EXHAUSTED of this device's own controller faults (R33), every ERR reply is MEMERR (R54),
and one that cannot be answered yet parks the thread: the instruction is issued again when it can. -/
def home {α : Type} (acc : AccessKind) (va : Nat) (x : HM α) : M α := fun s =>
  match x s with
  | .ok a s => .ok a s
  | .error (.err c) s => .error (.trap cMEMERR (c.setWidth 32)) s
  | .error .fenced s => .error (.pageFault acc 4 va) s
  | .error (.wait o) _ => .error (.park (.cond (.access o))) (o.touch s)

/-- The same for an access that parks its thread until its reply (R185, R201). -/
def homeParked {α : Type} (acc : AccessKind) (va : Nat) (x : HM α) : M α := fun s =>
  match home acc va x s with
  | .ok a s => .ok a (count s.myCore 5 s)
  | .error (.park w) s => .error (.park w) s
  | .error e s => .error e (count s.myCore 5 s)

/-- The physical cluster of a descriptor's virtual cluster (R130, R230). -/
def clusterNamed (s : State) (d : BitVec 128) : Nat :=
  match (s.cluster s.myUnit).launch with
  | some l => l.clusters.getD (segCluster d) s.myUnit
  | none => s.myUnit

/-- Where an access through a descriptor at address `a` is performed; all checks of R231 have passed. -/
def resolve (d : BitVec 128) (a : Nat) (acc : Access) : M Place := fun s =>
  let b := isBursar s.myCore
  if segType d = 3 || segType d = 4 || (b && segType d = 1) then
    if b then .ok (.vault s.myUnit a false) s
    else if 0x4000000 ≤ a then .ok (.mint s.myUnit a) s
    else if segOwn d then .ok (.vault s.myUnit (interleaved a) false) s
    else .ok (.vault (clusterNamed s d) (interleaved a) true) s
  else if b then home acc.kind a (physical (rqOf s.myCore (s.clsOf d) s) a) s
  else translate acc a s

/-! ### What a place performs -/

/-- A peer answers: with a code of R54 or with data; which, the spec leaves to that device (log 8). Its request goes to the Trizen port
that DEVROUTE names (R79); a device without a route is unreachable, and so is one behind a LOST link. -/
def peerAsk (rq : Rq) (dev pa opcode : Nat) : HM Nat := fun s =>
  let t := (smGet 0 (s.die rq.die).devroute dev).toNat
  if 3 ≤ t then .error (.err 7) s
  else
    let r := trizenRouter rq.die t
    overRoute rq.router rq.ep r opcode pa rq.bulk (fun s =>
      match (linkOf s r (5 + t)).st with
      | .lost => .error (.err 3) (routeMarks (.lost r) s)
      | .up =>
        let p := Config.peerAnswer s.fresh
        let s := { s with fresh := s.fresh + 1 }
        if p.1 = 0 then .ok p.2.toNat s else .error (.err p.1) s
      | _ => .error (.wait (.link r (5 + t))) s) s

/-- An address of the outbound pages: die, aperture, aperture offset (R233). -/
def outboundAt (pa : Nat) : Option (Nat × Nat × Nat) :=
  if decide (0xF000000000 ≤ pa) && decide (pa < 0xF100000000) && decide (pa % 0x800000 < 0x780000) then
    some (pa / 0x40000000 % 4, pa / 0x800000 % 128, 0x80000 + pa % 0x800000)
  else none

/-- An I/O access that this requester may make at the corner router that takes it (R233, R94, R105): the outbound page it names, or a
management word. The management port refuses and logs another's. -/
def ioCheck (rq : Rq) (pa n opcode : Nat) : HM (Option (Nat × Nat × Nat)) := fun s =>
  match outboundAt pa with
  | some (d, a, off) => if outboundOk s d a off n then .ok (some (d, a, off)) s else deny s
  | none =>
    if !isMgmt pa then deny s
    else if !(rq.bursar && s.partOf (mgmtDie pa) = rq.part) then refuse rq (cornerRouter (mgmtDie pa)) 0xC1 pa opcode s
    else if n = 4 then .ok none s else deny s

/-- An I/O address takes no teller or full/empty operation; the management port logs what it refuses (R233, R105). -/
def ioRefuse {α : Type} (rq : Rq) (pa opcode : Nat) : HM α :=
  if isMgmt pa then refuse rq (cornerRouter (mgmtDie pa)) 0xC1 pa opcode else deny

/-- The router at which an access is performed; none for one that never leaves its core's group. -/
def Place.router (pl : Place) : Option Nat :=
  match pl with
  | .vault u off true => some (64 * u + vKey u off / 4 % 2048 / 32)
  | .home sl _ => some sl
  | .io pa =>
    match outboundAt pa with
    | some (d, _, _) => some (cornerRouter d)
    | none => if isMgmt pa then some (cornerRouter (mgmtDie pa)) else none
  | _ => none

/-- The physical address that a packet to a place carries. -/
def Place.addr : Place → Nat
  | .vault _ off _ => off
  | .home _ pa | .peer _ pa | .io pa => pa
  | .mint _ off => off

/-- Perform `x` at a place, if the route to it and back lets it (R16, R64, R66, R67, R77, R217). -/
def atPlace {α : Type} (rq : Rq) (pl : Place) (opcode : Nat) (x : HM α) : HM α :=
  match pl.router with
  | some r => overRoute rq.router rq.ep r opcode pl.addr rq.bulk x
  | none => x

/-- Read `n` bytes at a place. -/
def placeRead (rq : Rq) (pl : Place) (n : Nat) : HM Nat :=
  atPlace rq pl 1 <| match pl with
    | .vault u off _ => vRead (vKey u off) n
    | .home sl pa => homeRead sl pa n
    | .peer dev pa => do
      let vs ← (List.range ((n + 15) / 16)).mapM fun i => peerAsk rq dev (pa + 16 * i) 1
      pure (vs.foldr (fun v a => v + 2 ^ 128 * a) 0 % 256 ^ n)
    | .mint u v => fun s => .ok (mintRead (s.cluster u) v n) s
    | .io pa => do
      match ← ioCheck rq pa n 1 with
      | some (d, a, off) => fun s => .ok (rdBytes (s.port d).store (apKey a off) n) s
      | none => do
        let w ← mgmtRead pa
        pure w.toNat

/-- Write the low `n` bytes of `v` at a place. -/
def placeWrite (rq : Rq) (pl : Place) (n v : Nat) : HM Unit :=
  atPlace rq pl 2 <| match pl with
    | .vault u off _ => vWrite (vKey u off) n v
    | .home sl pa => homeWrite sl pa n v
    | .peer dev pa => do
      let _ ← peerAsk rq dev pa 2
      pure ()
    | .mint .. => pure ()
    | .io pa => do
      match ← ioCheck rq pa n 2 with
      | some (d, a, off) => fun s => .ok () (modPort d (fun h => { h with store := wrBytes h.store (apKey a off) v n }) s)
      | none => fun s => .ok () (mgmtWrite rq.source pa (word v) s)

/-- A teller operation at a place (R213, R344). -/
def placeTeller (rq : Rq) (pl : Place) (code : Nat) (v v2 : Word) : HM Word :=
  atPlace rq pl 3 <| match pl with
    | .vault u off _ => vTeller (vKey u off / 4) code v v2
    | .home sl pa => homeTeller sl pa code v v2
    | .peer dev pa => do
      let r ← peerAsk rq dev pa 3
      pure (word r)
    | .mint .. => throw (.err 6)
    | .io pa => ioRefuse rq pa 3

/-- A full/empty operation at a place: none while its condition fails (R215, R343). -/
def placeFe (rq : Rq) (pl : Place) (code : Nat) (v : Word) : HM (Option Word) :=
  atPlace rq pl 4 <| match pl with
    | .vault u off _ => vFe (vKey u off / 4) code v
    | .home sl pa => homeFe sl pa code v
    | .peer dev pa => do
      let r ← peerAsk rq dev pa 4
      pure (some (word r))
    | .mint .. => throw (.err 6)
    | .io pa => ioRefuse rq pa 4

/-- Set the full/empty bit of the word at a place, as a copy or engine write does. -/
def placeSetFull (pl : Place) (b : Bool) (s : State) : State :=
  match pl with
  | .vault u off _ => vSetFull (vKey u off / 4) b s
  | .home sl pa => homeSetFull sl pa b s
  | _ => s

/-! ### Order (R242, R248) -/

/-- Earlier relaxed accesses are acknowledged. An engine command that writes vault or memory has retired when its thread goes on
(R273), so none is ever earlier and outstanding. -/
def orderClear (s : State) : Bool := s.me.relaxed.isEmpty

/-- Every relaxed access of slot `k` is acknowledged and every matrix command of it has retired. -/
def retiredAll (k : Nat) (s : State) : Bool :=
  let e := s.engine (groupOf (coreOf k))
  (s.slot k).relaxed.isEmpty && !(e.queue.any fun c => c.slot = k) && !(e.cmd.any fun c => c.slot = k) && !(e.retiring.any fun c => c.1 = k)

/-- The same, and every bulk copy of the slot is complete (R244). -/
def quietAll (k : Nat) (s : State) : Bool :=
  retiredAll k s && !(s.bulkOf (groupOf (coreOf k))).copies.any fun c => c.slot = k && !c.orphan

/-- Wait for a condition. -/
def await (c : Cond) (p : State → Bool) : M Unit := fun s => if p s then .ok () s else .error (.park (.cond c)) s

/-- Wait until `orderClear`. -/
def awaitOrder : M Unit := await .order orderClear

/-- Count the park of an access that is answered at once (R185, R201). -/
def notePark : M Unit := upd fun s => count s.myCore 5 s

/-- The access stays inside the core: no park (R210, R219). -/
def Place.quick : Place → Bool
  | .vault _ _ r => !r
  | .mint .. => true
  | _ => false

/-- Room in the core's REQ send queue for an access that is no send: the thread parks until there is (R163, R185). -/
def awaitQueue : M Unit := await .sendReq fun s => (s.core s.myCore).sendReq.length < 8

/-- Room in the core's send queue of a virtual network for a send: a handler-class slot that has OVERDRAFT enabled takes it, any
other thread parks (R163, R169). -/
def awaitRoom (rsp : Bool) : M Unit := fun s =>
  let c := s.core s.myCore
  if (if rsp then c.sendRsp else c.sendReq).length < 8 then .ok () s
  else if s.me.handler && bitOf s.me.status 2 then .error (.trap cOVERDRAFT 0) s
  else .error (.park (.cond (if rsp then .sendRsp else .sendReq))) s

/-- Room in the core's send queue for an access that leaves the core (R163, R185). -/
def sendGate (pl : Place) : M Unit := if pl.quick then pure () else awaitQueue

/-- The same for an instruction that a DEADLINE does not withdraw (R174). -/
def sendHeld (pl : Place) : M Unit :=
  if pl.quick then pure () else await .sendHeld fun s => (s.core s.myCore).sendReq.length < 8

/-- An access of an instruction: one that leaves the core parks its thread until the reply. -/
def placed {α : Type} (pl : Place) (acc : AccessKind) (va : Nat) (x : HM α) : M α :=
  if pl.quick then home acc va x else homeParked acc va x

/-- Send a thread's access to the words of a vault: a request for each to its own bank's word port (R208, R211), to a remote vault by
the remote port of the word's group (R217). -/
def sendWords (asker : Nat → Asker) (k u off n : Nat) (far : Bool) (op : Nat → WordOp) (s : State) : State :=
  let core := coreOf k
  (wordsOf (vKey u off) n).zipIdx.foldl (fun s x =>
    hold { requester := if far then 1024 else core % 1024, word := x.1, op := op x.2, asker := asker x.2
           interval := if far then 64 else 16
           arrive := if far then bankNow s (bankOf x.1) else nowAt s core + (vaultPath core (bankOf x.1)).1 } s) s

/-- Held requests of slot `k` that nobody waits for any more. -/
def orphanWords (k : Nat) (s : State) : State :=
  { s with banks := s.banks.map fun b => (b.1, { b.2 with held := b.2.held.map fun r => match r.asker with
      | .access j _ | .thread j => if j = k then { r with asker := .none } else r
      | _ => r }) }

/-- Requests to a vault, over the mesh to a remote one whose port has room. A reply that is lost leaves the request (R66). -/
def vaultAsk (rq : Rq) (pl : Place) (opcode k : Nat) (asker : Nat → Asker) (n : Nat) (op : Nat → WordOp) : HM Unit :=
  match pl with
  | .vault u off far => fun s =>
    match atPlace rq pl opcode (fun s =>
      if far && portFull s ((pl.router).getD 0) then .error (.wait (.port ((pl.router).getD 0))) s
      else .ok () (sendWords asker k u off n far op s)) s with
    | .error (.err 4) s => .error (.err 4) (orphanWords k s)
    | r => r
  | _ => pure ()

/-- A thread's vault access: a load or store of the own vault keeps it BUSY until its last datum arrives, another access parks it until
its reply (R185, R210, R211). -/
def vaultAccess {α : Type} (rq : Rq) (pl : Place) (acc : AccessKind) (va : Nat) (opcode : Nat) (a : VaultAccess) (n : Nat)
    (op : Nat → WordOp) : M α := fun s =>
  match pl with
  | .vault u off far =>
    let busy := !far && (opcode = 1 || opcode = 2)
    match home acc va (vaultAsk rq pl opcode s.cur (Asker.access s.cur) n op) s with
    | .ok _ s =>
      let s := s.modMe fun sl =>
        { sl with access := some { a with
            size := n, lane := off % 4, left := (wordsOf (vKey u off) n).length, ready := nowAt s s.myCore
            issued := if busy then some (nowAt s s.myCore) else none } }
      .error (if busy then .busy else .park .vault) s
    | .error e s => .error e s
  | _ => .error .busy s

/-- A thread's access to words of vaults, each at a place of its own (R211). -/
def vaultAccessAll {α : Type} (rq : Rq) (acc : AccessKind) (va : Nat) (opcode : Nat) (a : VaultAccess) (ps : List Place)
    (op : Nat → WordOp) : M α := fun s =>
  let ask : HM Unit := (ps.zipIdx.forM fun p => vaultAsk rq p.1 opcode s.cur (fun _ => .access s.cur p.2) 4 fun _ => op p.2)
  match home acc va ask s with
  | .ok _ s =>
    .error (.park .vault) (s.modMe fun sl => { sl with access := some { a with size := 4, left := ps.length, ready := nowAt s s.myCore } })
  | .error e s => .error e s

/-- The place is in a vault. -/
def Place.isVault : Place → Bool
  | .vault .. => true
  | _ => false

/-- Words of a store of `n` bytes of `v` from byte `lane` of the first word, each with its mask. -/
def storeWord (lane n v i : Nat) : WordOp :=
  .write (BitVec.ofNat 4 (if n < 4 then (2 ^ n - 1) * 2 ^ lane else 15)) (word (v * 256 ^ lane / 2 ^ (32 * i)))

/-- A core read of a DISABLED mint window (R221). -/
def mintTest (pl : Place) (n : Nat) : M Unit := fun s =>
  match pl with
  | .mint u v =>
    match mintBlocked (s.cluster u) v n with
    | some b => .error (.trap cSEGRIGHTS (word b)) s
    | none => .ok () s
  | _ => .ok () s

/-- Check and resolve an access of `n` bytes at offset `o` of a descriptor, with every check (R231, R341). -/
def accessPlace (d : BitVec 128) (o n : Nat) (acc : Access) : M (Nat × Place) := do
  let a ← segCheck d o n n acc
  let pl ← resolve d a acc
  mintTest pl n
  pure (a, pl)

/-- The own store of the slot in execution as a descriptor of its whole extent: structures that a rule places in the own vault. -/
def ownPlace (s : State) (v : Nat) : Place := .vault s.myUnit (if isBursar s.myCore then v else interleaved v) false

/-- A word of the own vault. -/
def ownRead (v : Nat) : M Word := do
  let rq ← look fun s => rqOf s.myCore 1 s
  let pl ← look fun s => ownPlace s v
  let r ← home .load v (placeRead rq pl 4)
  pure (word r)

def ownWrite (v : Nat) (w : Word) : M Unit := do
  let rq ← look fun s => rqOf s.myCore 1 s
  let pl ← look fun s => ownPlace s v
  home .store v (placeWrite rq pl 4 w.toNat)

end Sys2Proof.Machine
end

