-- ==== Sys2Proof/Machine/Scalar.lean ====
section
/-! DEFINITION. The scalar integer instructions: ALU, immediates, LUI and PCREL, MULDIV (R318 to R325). -/

namespace Sys2Proof.Machine

def sx {w : Nat} (x : BitVec w) : Word := x.signExtend 32
/-- The shift count (R321). -/
def shiftCount (y : Word) : Nat := y.toNat % 32
/-- 1 or 0. -/
def bool1 (b : Bool) : Word := ofBit 32 b

/-! ### ALU functions (R321) -/

/-- The bits and width of the field of BEXT. -/
def bextField (x y : Word) : Nat × Nat :=
  let p := fieldOf y 0 5
  let m := Nat.min (fieldOf y 5 5 + 1) (32 - p)
  (fieldOf x p m, m)

/-- Leading zero bits of the low `n` bits. -/
def leadZeros (x : Word) : Nat → Nat
  | 0 => 0
  | n + 1 => if bitOf x n then 0 else leadZeros x n + 1

/-- Trailing zero bits from bit `i`, `n` bits in all. -/
def trailZeros (x : Word) (i : Nat) : Nat → Nat
  | 0 => 0
  | n + 1 => if bitOf x i then 0 else trailZeros x (i + 1) n + 1

/-- 1 bits among the low `n`. -/
def onesIn (x : Word) : Nat → Nat
  | 0 => 0
  | n + 1 => onesIn x n + (bitOf x n).toNat

/-- Bytes in reverse order. -/
def byteSwap (x : Word) : Word :=
  word (fieldOf x 0 8 * 2 ^ 24 + fieldOf x 8 8 * 2 ^ 16 + fieldOf x 16 8 * 2 ^ 8 + fieldOf x 24 8)

/-- Bits in reverse order: the low `n` bits of `x` from the top down. -/
def bitRev (x : Word) : Nat → Nat → Nat
  | 0, a => a
  | n + 1, a => bitRev x n (a + (bitOf x n).toNat * 2 ^ (31 - n))

/-! ### Division (R325) -/

def divS (x y : Word) : Word :=
  if y = 0 then (if x = 0 then 0 else if x.msb then 0x80000000 else 0x7FFFFFFF)
  else if x = 0x80000000 && y = 0xFFFFFFFF then 0x7FFFFFFF
  else wordI (x.toInt.tdiv y.toInt)
def divN (x y : Word) : Word := if y = 0 then (if x = 0 then 0 else 0xFFFFFFFF) else word (x.toNat / y.toNat)
def remS (x y : Word) : Word := if y = 0 then 0 else wordI (x.toInt.tmod y.toInt)
def remN (x y : Word) : Word := if y = 0 then 0 else word (x.toNat % y.toNat)
/-- The flag of a division (R325). -/
def divFx (ov : Bool) (x y : Word) : Fx :=
  if y = 0 then { fl := fDZ } else ovIf (ov && decide (x = 0x80000000) && decide (y = 0xFFFFFFFF))

/-- d from a and b, with what it shows in FFLAGS. -/
def op3f (d a b : Reg) (f : Word → Word → Word × Fx) (s : State) : Host.Outcome State Fault Refusal :=
  instrUpd { src := [a, b], dst := [d] } (fun s => (s.setReg d (f (s.reg a) (s.reg b)).1).raise (f (s.reg a) (s.reg b)).2) s

/-- A clamped integer as a result. -/
def satOf (p : Int × Bool) : Word × Fx := (wordI p.1, ovIf p.2)

/-! ### Meanings: ALU (R321) -/

def execAdd (d a b : Reg) (s : State) : Host.Outcome State Fault Refusal := op3 d a b (· + ·) s
def execSub (d a b : Reg) (s : State) : Host.Outcome State Fault Refusal := op3 d a b (· - ·) s
def execAdds (d a b : Reg) (s : State) : Host.Outcome State Fault Refusal :=
  op3f d a b (fun x y => satOf (satS 32 (x.toInt + y.toInt))) s
def execSubs (d a b : Reg) (s : State) : Host.Outcome State Fault Refusal :=
  op3f d a b (fun x y => satOf (satS 32 (x.toInt - y.toInt))) s
def execAnd (d a b : Reg) (s : State) : Host.Outcome State Fault Refusal := op3 d a b (· &&& ·) s
def execOr (d a b : Reg) (s : State) : Host.Outcome State Fault Refusal := op3 d a b (· ||| ·) s
def execXor (d a b : Reg) (s : State) : Host.Outcome State Fault Refusal := op3 d a b (· ^^^ ·) s
def execAndn (d a b : Reg) (s : State) : Host.Outcome State Fault Refusal := op3 d a b (fun x y => x &&& ~~~y) s
def execSll (d a b : Reg) (s : State) : Host.Outcome State Fault Refusal := op3 d a b (fun x y => x <<< shiftCount y) s
def execSrl (d a b : Reg) (s : State) : Host.Outcome State Fault Refusal := op3 d a b (fun x y => x >>> shiftCount y) s
def execSra (d a b : Reg) (s : State) : Host.Outcome State Fault Refusal :=
  op3 d a b (fun x y => x.sshiftRight (shiftCount y)) s
def execRor (d a b : Reg) (s : State) : Host.Outcome State Fault Refusal :=
  op3 d a b (fun x y => x.rotateRight (shiftCount y)) s
def execSlt (d a b : Reg) (s : State) : Host.Outcome State Fault Refusal := op3 d a b (fun x y => bool1 (x.slt y)) s
def execSltn (d a b : Reg) (s : State) : Host.Outcome State Fault Refusal := op3 d a b (fun x y => bool1 (x.ult y)) s
def execMin (d a b : Reg) (s : State) : Host.Outcome State Fault Refusal := op3 d a b (fun x y => if x.slt y then x else y) s
def execMax (d a b : Reg) (s : State) : Host.Outcome State Fault Refusal := op3 d a b (fun x y => if x.slt y then y else x) s
def execMinn (d a b : Reg) (s : State) : Host.Outcome State Fault Refusal := op3 d a b (fun x y => if x.ult y then x else y) s
def execMaxn (d a b : Reg) (s : State) : Host.Outcome State Fault Refusal := op3 d a b (fun x y => if x.ult y then y else x) s
def execBext (d a b : Reg) (s : State) : Host.Outcome State Fault Refusal := op3 d a b (fun x y => word (bextField x y).1) s
def execBexts (d a b : Reg) (s : State) : Host.Outcome State Fault Refusal :=
  op3 d a b (fun x y => wordI (sInt (bextField x y).2 (bextField x y).1)) s
def execLzc (d a : Reg) (s : State) : Host.Outcome State Fault Refusal := op2 d a (fun x => word (leadZeros x 32)) s
def execTzc (d a : Reg) (s : State) : Host.Outcome State Fault Refusal := op2 d a (fun x => word (trailZeros x 0 32)) s
def execOnes (d a : Reg) (s : State) : Host.Outcome State Fault Refusal := op2 d a (fun x => word (onesIn x 32)) s
def execBswap (d a : Reg) (s : State) : Host.Outcome State Fault Refusal := op2 d a byteSwap s
def execBrev (d a : Reg) (s : State) : Host.Outcome State Fault Refusal := op2 d a (fun x => word (bitRev x 32 0)) s
def execExtb (d a : Reg) (s : State) : Host.Outcome State Fault Refusal := op2 d a (fun x => sx (x.setWidth 8)) s
def execExth (d a : Reg) (s : State) : Host.Outcome State Fault Refusal := op2 d a (fun x => sx (x.setWidth 16)) s

/-! ### Meanings: immediates (R322 to R324) -/

def execAddi (d a : Reg) (i : BitVec 15) (s : State) : Host.Outcome State Fault Refusal := op2 d a (· + sx i) s
def execAndi (d a : Reg) (i : BitVec 15) (s : State) : Host.Outcome State Fault Refusal := op2 d a (· &&& sx i) s
def execOri (d a : Reg) (i : BitVec 15) (s : State) : Host.Outcome State Fault Refusal := op2 d a (· ||| sx i) s
def execXori (d a : Reg) (i : BitVec 15) (s : State) : Host.Outcome State Fault Refusal := op2 d a (· ^^^ sx i) s
def execSlli (d a : Reg) (n : BitVec 5) (s : State) : Host.Outcome State Fault Refusal := op2 d a (· <<< n.toNat) s
def execSrli (d a : Reg) (n : BitVec 5) (s : State) : Host.Outcome State Fault Refusal := op2 d a (· >>> n.toNat) s
def execSrai (d a : Reg) (n : BitVec 5) (s : State) : Host.Outcome State Fault Refusal := op2 d a (·.sshiftRight n.toNat) s
def execRori (d a : Reg) (n : BitVec 5) (s : State) : Host.Outcome State Fault Refusal := op2 d a (·.rotateRight n.toNat) s
def execSlti (d a : Reg) (i : BitVec 15) (s : State) : Host.Outcome State Fault Refusal :=
  op2 d a (fun x => bool1 (x.slt (sx i))) s
def execSltni (d a : Reg) (i : BitVec 15) (s : State) : Host.Outcome State Fault Refusal :=
  op2 d a (fun x => bool1 (x.ult (sx i))) s
def execLui (d : Reg) (i : BitVec 20) (s : State) : Host.Outcome State Fault Refusal :=
  instrUpd { dst := [d] } (fun s => s.setReg d (i.setWidth 32 <<< 12)) s
def execPcrel (d : Reg) (i : BitVec 20) (s : State) : Host.Outcome State Fault Refusal :=
  instrUpd { dst := [d] } (fun s => s.setReg d (s.me.pc + (i.setWidth 32 <<< 12))) s

/-! ### Meanings: multiply and divide (R325) -/

def execMul (d a b : Reg) (s : State) : Host.Outcome State Fault Refusal := op3 d a b (· * ·) s
def execMulq (d a b : Reg) (s : State) : Host.Outcome State Fault Refusal :=
  op3f d a b (fun x y => satOf (satS 32 (rq (x.toInt * y.toInt) 31))) s
def execMulh (d a b : Reg) (s : State) : Host.Outcome State Fault Refusal :=
  op3 d a b (fun x y => wordI (x.toInt * y.toInt / 2 ^ 32)) s
def execMulhn (d a b : Reg) (s : State) : Host.Outcome State Fault Refusal :=
  op3 d a b (fun x y => word (x.toNat * y.toNat / 2 ^ 32)) s
def execMulhsn (d a b : Reg) (s : State) : Host.Outcome State Fault Refusal :=
  op3 d a b (fun x y => wordI (x.toInt * y.toNat / 2 ^ 32)) s
def execDiv (d a b : Reg) (s : State) : Host.Outcome State Fault Refusal :=
  op3f d a b (fun x y => (divS x y, divFx true x y)) s
def execDivn (d a b : Reg) (s : State) : Host.Outcome State Fault Refusal :=
  op3f d a b (fun x y => (divN x y, divFx false x y)) s
def execRem (d a b : Reg) (s : State) : Host.Outcome State Fault Refusal :=
  op3f d a b (fun x y => (remS x y, divFx false x y)) s
def execRemn (d a b : Reg) (s : State) : Host.Outcome State Fault Refusal :=
  op3f d a b (fun x y => (remN x y, divFx false x y)) s

end Sys2Proof.Machine
end

