-- ==== Sys2Proof/Machine/Packed.lean ====
section
/-! DEFINITION. The packed and complex instructions (R326 to R329). -/

namespace Sys2Proof.Machine

/-! ### Lanes (R326) -/

def laneBits : PackSize → Nat
  | .h => 16
  | .b => 8

def laneCount : PackSize → Nat
  | .h => 2
  | .b => 4

/-- Lane `i` as a natural number. -/
def laneN (z : PackSize) (x : Word) (i : Nat) : Nat := fieldOf x (laneBits z * i) (laneBits z)
/-- Lane `i` as a signed number. -/
def laneS (z : PackSize) (x : Word) (i : Nat) : Int := sInt (laneBits z) (laneN z x i)

/-- A word of lanes, each reduced modulo 2^w; whether any was clamped. -/
def ofLanes (z : PackSize) (f : Nat → Int × Bool) : Word × Fx :=
  (wordI ((List.range (laneCount z)).foldl (fun (a : Int) i => a + (f i).1 % 2 ^ laneBits z * 2 ^ (laneBits z * i)) 0),
   ovIf ((List.range (laneCount z)).any fun i => (f i).2))

/-- A lane-wise operation. -/
def packed (d a b : Reg) (z : PackSize) (f : Word → Word → Nat → Int × Bool) (s : State) : Host.Outcome State Fault Refusal :=
  op3f d a b (fun x y => ofLanes z (f x y)) s

/-- A signed lane-wise operation without saturation. -/
def packS (d a b : Reg) (z : PackSize) (f : Int → Int → Int) (s : State) : Host.Outcome State Fault Refusal :=
  packed d a b z (fun x y i => (f (laneS z x i) (laneS z y i), false)) s
/-- A natural lane-wise operation without saturation. -/
def packN (d a b : Reg) (z : PackSize) (f : Nat → Nat → Nat) (s : State) : Host.Outcome State Fault Refusal :=
  packed d a b z (fun x y i => ((f (laneN z x i) (laneN z y i) : Nat), false)) s
/-- The shift count of a packed shift (R327). -/
def packCount (z : PackSize) (y : Word) : Nat := y.toNat % laneBits z

/-- The exact sum of the signed lane products. -/
def dotOf (z : PackSize) (x y : Word) : Int :=
  (List.range (laneCount z)).foldl (fun a i => a + laneS z x i * laneS z y i) 0

/-- PPKL and PPKH: lanes 2i + o of x, then of y (R327). -/
def packHalf (z : PackSize) (o : Nat) (x y : Word) (i : Nat) : Int × Bool :=
  let h := laneCount z / 2
  ((laneN z (if i < h then x else y) (2 * (i % h) + o) : Nat), false)

/-! ### Meanings: PACKED (R327) -/

def execPadd (d a b : Reg) (z : PackSize) (s : State) : Host.Outcome State Fault Refusal := packS d a b z (· + ·) s
def execPsub (d a b : Reg) (z : PackSize) (s : State) : Host.Outcome State Fault Refusal := packS d a b z (· - ·) s
def execPadds (d a b : Reg) (z : PackSize) (s : State) : Host.Outcome State Fault Refusal :=
  packed d a b z (fun x y i => satS (laneBits z) (laneS z x i + laneS z y i)) s
def execPsubs (d a b : Reg) (z : PackSize) (s : State) : Host.Outcome State Fault Refusal :=
  packed d a b z (fun x y i => satS (laneBits z) (laneS z x i - laneS z y i)) s
def execPaddsn (d a b : Reg) (z : PackSize) (s : State) : Host.Outcome State Fault Refusal :=
  packed d a b z (fun x y i => satN (laneBits z) ((laneN z x i : Int) + laneN z y i)) s
def execPsubsn (d a b : Reg) (z : PackSize) (s : State) : Host.Outcome State Fault Refusal :=
  packed d a b z (fun x y i => satN (laneBits z) ((laneN z x i : Int) - laneN z y i)) s
def execPmin (d a b : Reg) (z : PackSize) (s : State) : Host.Outcome State Fault Refusal := packS d a b z Min.min s
def execPmax (d a b : Reg) (z : PackSize) (s : State) : Host.Outcome State Fault Refusal := packS d a b z Max.max s
def execPminn (d a b : Reg) (z : PackSize) (s : State) : Host.Outcome State Fault Refusal := packN d a b z Nat.min s
def execPmaxn (d a b : Reg) (z : PackSize) (s : State) : Host.Outcome State Fault Refusal := packN d a b z Nat.max s
def execPavg (d a b : Reg) (z : PackSize) (s : State) : Host.Outcome State Fault Refusal :=
  packS d a b z (fun x y => (x + y + 1) / 2) s
def execPmul (d a b : Reg) (z : PackSize) (s : State) : Host.Outcome State Fault Refusal := packS d a b z (· * ·) s
def execPmulq (d a b : Reg) (z : PackSize) (s : State) : Host.Outcome State Fault Refusal :=
  packed d a b z (fun x y i => satS (laneBits z) (rq (laneS z x i * laneS z y i) (laneBits z - 1))) s
def execPsll (d a b : Reg) (z : PackSize) (s : State) : Host.Outcome State Fault Refusal :=
  packed d a b z (fun x y i => ((laneN z x i * 2 ^ packCount z y : Nat), false)) s
def execPsrl (d a b : Reg) (z : PackSize) (s : State) : Host.Outcome State Fault Refusal :=
  packed d a b z (fun x y i => ((laneN z x i / 2 ^ packCount z y : Nat), false)) s
def execPsra (d a b : Reg) (z : PackSize) (s : State) : Host.Outcome State Fault Refusal :=
  packed d a b z (fun x y i => (laneS z x i / 2 ^ packCount z y, false)) s
def execPdot (d a b : Reg) (z : PackSize) (s : State) : Host.Outcome State Fault Refusal :=
  op3 d a b (fun x y => wordI (dotOf z x y)) s
def execPpkl (d a b : Reg) (z : PackSize) (s : State) : Host.Outcome State Fault Refusal :=
  packed d a b z (packHalf z 0) s
def execPpkh (d a b : Reg) (z : PackSize) (s : State) : Host.Outcome State Fault Refusal :=
  packed d a b z (packHalf z 1) s

/-! ### Complex words (R328) -/

def re16 (x : Word) : Int := laneS .h x 0
def im16 (x : Word) : Int := laneS .h x 1

/-- A complex result from its two parts. -/
def cpack (r i : Int × Bool) : Word × Fx := ofLanes .h fun l => if l = 0 then r else i

/-- The exact product a × b, or a × conj(b). -/
def cprod (conj : Bool) (x y : Word) : Int × Int :=
  let bi := if conj then -im16 y else im16 y
  (re16 x * re16 y - im16 x * bi, re16 x * bi + im16 x * re16 y)

/-- RQ of both parts of a product with an accumulator's parts added, saturated. -/
def cmacOf (conj : Bool) (x y : Word) (zr zi : Int) : Word × Fx :=
  cpack (satS 16 (zr + rq (cprod conj x y).1 15)) (satS 16 (zi + rq (cprod conj x y).2 15))

/-- d from a, with what it shows in FFLAGS. -/
def op2f (d a : Reg) (f : Word → Word × Fx) (s : State) : Host.Outcome State Fault Refusal :=
  instrUpd { src := [a], dst := [d] } (fun s => (s.setReg d (f (s.reg a)).1).raise (f (s.reg a)).2) s

def execCadd (d a b : Reg) (s : State) : Host.Outcome State Fault Refusal :=
  op3f d a b (fun x y => cpack (satS 16 (re16 x + re16 y)) (satS 16 (im16 x + im16 y))) s
def execCsub (d a b : Reg) (s : State) : Host.Outcome State Fault Refusal :=
  op3f d a b (fun x y => cpack (satS 16 (re16 x - re16 y)) (satS 16 (im16 x - im16 y))) s
def execCmul (d a b : Reg) (s : State) : Host.Outcome State Fault Refusal :=
  op3f d a b (fun x y => cmacOf false x y 0 0) s
def execCmulc (d a b : Reg) (s : State) : Host.Outcome State Fault Refusal :=
  op3f d a b (fun x y => cmacOf true x y 0 0) s
def execCconj (d a : Reg) (s : State) : Host.Outcome State Fault Refusal :=
  op2f d a (fun x => cpack (re16 x, false) (satS 16 (-im16 x))) s
def execCmulj (d a : Reg) (s : State) : Host.Outcome State Fault Refusal :=
  op2f d a (fun x => cpack (satS 16 (-im16 x)) (re16 x, false)) s
def execCmag2 (d a : Reg) (s : State) : Host.Outcome State Fault Refusal :=
  op2 d a (fun x => wordI (re16 x * re16 x + im16 x * im16 x)) s
def execCshr (d a b : Reg) (s : State) : Host.Outcome State Fault Refusal :=
  op3f d a b (fun x y =>
    let c := fieldOf y 0 4
    let sh := fun v => if c = 0 then v else rq v c
    cpack (sh (re16 x), false) (sh (im16 x), false)) s

/-! ### Meanings: PACKED-MAC (R329) -/

/-- d from a, b and c. -/
def op4f (d a b c : Reg) (f : Word → Word → Word → Word × Fx) (s : State) : Host.Outcome State Fault Refusal :=
  instrUpd { src := [a, b, c], dst := [d] }
    (fun s => (s.setReg d (f (s.reg a) (s.reg b) (s.reg c)).1).raise (f (s.reg a) (s.reg b) (s.reg c)).2) s

def execPdotaH (d a b c : Reg) (s : State) : Host.Outcome State Fault Refusal :=
  op4f d a b c (fun x y z => (z + wordI (dotOf .h x y), {})) s
def execPdotaB (d a b c : Reg) (s : State) : Host.Outcome State Fault Refusal :=
  op4f d a b c (fun x y z => (z + wordI (dotOf .b x y), {})) s
def execPdotasH (d a b c : Reg) (s : State) : Host.Outcome State Fault Refusal :=
  op4f d a b c (fun x y z => satOf (satS 32 (z.toInt + dotOf .h x y))) s
def execPdotasB (d a b c : Reg) (s : State) : Host.Outcome State Fault Refusal :=
  op4f d a b c (fun x y z => satOf (satS 32 (z.toInt + dotOf .b x y))) s
def execCmac (d a b c : Reg) (s : State) : Host.Outcome State Fault Refusal :=
  op4f d a b c (fun x y z => cmacOf false x y (re16 z) (im16 z)) s
def execCmacc (d a b c : Reg) (s : State) : Host.Outcome State Fault Refusal :=
  op4f d a b c (fun x y z => cmacOf true x y (re16 z) (im16 z)) s

end Sys2Proof.Machine
end

