-- ==== Sys2Proof/Machine/Float.lean ====
section
/-! DEFINITION. The floating-point instructions: FPU, FMA and FCVT (R330 to R334). -/

namespace Sys2Proof.Machine

/-! ### Lanes and formats (R330) -/

/-- FP32 in the scalar forms; the 16-bit format of FmtA() in the packed ones. -/
def laneFmt (p : Bool) (s : State) : FFmt := if p then (if s.fmtA = 1 then fBF16 else fFP16) else fFP32

/-- FmtA() is not BF16 or FP16. -/
def not16 (f : Nat) : Bool := f ≠ 1 && f ≠ 2

/-- A format that the form refuses (R330). -/
def fpIllegal (p : Bool) (s : State) : Bool := if p then not16 s.fmtA else s.fv && fieldOf s.me.pend 4 4 ≠ 0

/-- Lane `i` of a register. -/
def fpLane (p : Bool) (x : Word) (i : Nat) : Nat := if p then fieldOf x (16 * i) 16 else x.toNat

/-- A lane's result. -/
abbrev LaneOp := FFmt → RCtx → Nat → Nat × Fx

/-- Run an operation on each lane: one FP32 value, or two lanes of 16 bits. -/
def overLanes (p : Bool) (f : FFmt) (r : RCtx) (op : Nat → LaneOp) : Word × Fx :=
  let l := op 0 f r 0
  if p then
    let h := op 1 f r 1
    (word (l.1 % 2 ^ 16 + h.1 % 2 ^ 16 * 2 ^ 16), l.2.or h.2)
  else (word l.1, l.2)

/-- The form of a floating-point instruction. -/
def fpForm (p : Bool) (src : List Reg) (d : Reg) (s : State) : Form :=
  { fmt := true, illegal := fpIllegal p s, src := src, dst := [d] }

/-- d from up to three registers by an operation on lanes. -/
def fpOp (d a b c : Reg) (src : List Reg) (p : Bool) (op : Nat → Nat → Nat → LaneOp) (s : State) :
    Host.Outcome State Fault Refusal :=
  instrUpd (fpForm p src d s) (fun s =>
    let r := overLanes p (laneFmt p s) s.rctx fun i => op (fpLane p (s.reg a) i) (fpLane p (s.reg b) i) (fpLane p (s.reg c) i)
    (s.setReg d r.1).raise r.2) s

def fp1 (d a : Reg) (p : Bool) (op : Nat → LaneOp) (s : State) : Host.Outcome State Fault Refusal :=
  fpOp d a 0 0 [a] p (fun x _ _ => op x) s
def fp2 (d a b : Reg) (p : Bool) (op : Nat → Nat → LaneOp) (s : State) : Host.Outcome State Fault Refusal :=
  fpOp d a b 0 [a, b] p (fun x y _ => op x y) s
def fp3 (d a b c : Reg) (p : Bool) (op : Nat → Nat → Nat → LaneOp) (s : State) : Host.Outcome State Fault Refusal :=
  fpOp d a b c [a, b, c] p op s

/-- Add flags to a result. -/
def withFx (g : Fx) (r : Nat × Fx) : Nat × Fx := (r.1, r.2.or g)
def nvIf (b : Bool) : Fx := { fl := if b then fNV else 0 }

/-- Round an exact result (R331). -/
def roundOp (p : Val × Bool) (f : FFmt) (r : RCtx) (lane : Nat) : Nat × Fx := withFx (nvIf p.2) (f.round r lane p.1)

/-! ### Meanings: FPU (R332) -/

def execFadd (d a b : Reg) (p : Bool) (s : State) : Host.Outcome State Fault Refusal :=
  fp2 d a b p (fun x y f r => roundOp (vAdd r.rdn (f.decode x) (f.decode y)) f r) s
def execFsub (d a b : Reg) (p : Bool) (s : State) : Host.Outcome State Fault Refusal :=
  fp2 d a b p (fun x y f r => roundOp (vAdd r.rdn (f.decode x) (f.decode y).neg) f r) s
def execFmul (d a b : Reg) (p : Bool) (s : State) : Host.Outcome State Fault Refusal :=
  fp2 d a b p (fun x y f r => roundOp (vMul (f.decode x) (f.decode y)) f r) s
def execFdiv (d a b : Reg) (p : Bool) (s : State) : Host.Outcome State Fault Refusal :=
  fp2 d a b p (fun x y f r lane =>
    let q := vDiv (f.decode x) (f.decode y)
    withFx { fl := if q.2.2 then fDZ else 0 } (roundOp (q.1, q.2.1) f r lane)) s
def execFsqrt (d a : Reg) (p : Bool) (s : State) : Host.Outcome State Fault Refusal :=
  fp1 d a p (fun x f r => roundOp (vSqrt (f.decode x)) f r) s

/-- The smaller of two values with −0 < +0 (R332, R284). -/
def fpLess (a b : Val) : Bool := valLt a b || (valEq a b && a.sign && !b.sign)

/-- FMIN and FMAX: an operand, or the canonical NaN with NV. -/
def minmax (big : Bool) (x y : Nat) : LaneOp := fun f _ _ =>
  let a := f.decode x
  let b := f.decode y
  if a.isNan || b.isNan then (f.nan.getD 0, { fl := fNV, nan := true })
  else (if fpLess a b != big then x else y, {})

def execFmin (d a b : Reg) (p : Bool) (s : State) : Host.Outcome State Fault Refusal := fp2 d a b p (minmax false) s
def execFmax (d a b : Reg) (p : Bool) (s : State) : Host.Outcome State Fault Refusal := fp2 d a b p (minmax true) s

/-- The sign bit of an encoding, and the encoding with a sign bit. -/
def FFmt.signOf (f : FFmt) (x : Nat) : Bool := decide (x / 2 ^ (f.w - 1) % 2 = 1)
def FFmt.withSign (f : FFmt) (x : Nat) (n : Bool) : Nat := f.enc n (x % 2 ^ (f.w - 1))

def execFabs (d a : Reg) (p : Bool) (s : State) : Host.Outcome State Fault Refusal :=
  fp1 d a p (fun x f _ _ => (f.withSign x false, {})) s
def execFneg (d a : Reg) (p : Bool) (s : State) : Host.Outcome State Fault Refusal :=
  fp1 d a p (fun x f _ _ => (f.withSign x !(f.signOf x), {})) s
def execFcpys (d a b : Reg) (p : Bool) (s : State) : Host.Outcome State Fault Refusal :=
  fp2 d a b p (fun x y f _ _ => (f.withSign x (f.signOf y), {})) s
def execFxors (d a b : Reg) (p : Bool) (s : State) : Host.Outcome State Fault Refusal :=
  fp2 d a b p (fun x y f _ _ => (f.withSign x (f.signOf x != f.signOf y), {})) s

/-- A compare: 1, or 0xFFFF in a packed lane; `quiet` raises no flag on NaN. -/
def compareOp (p quiet : Bool) (rel : Val → Val → Bool) (x y : Nat) : LaneOp := fun f _ _ =>
  let a := f.decode x
  let b := f.decode y
  (if rel a b then (if p then 0xFFFF else 1) else 0, nvIf (!quiet && (a.isNan || b.isNan)))

def execFcmpeq (d a b : Reg) (p : Bool) (s : State) : Host.Outcome State Fault Refusal := fp2 d a b p (compareOp p true valEq) s
def execFcmplt (d a b : Reg) (p : Bool) (s : State) : Host.Outcome State Fault Refusal := fp2 d a b p (compareOp p false valLt) s
def execFcmple (d a b : Reg) (p : Bool) (s : State) : Host.Outcome State Fault Refusal :=
  fp2 d a b p (compareOp p false fun x y => valLt x y || valEq x y) s

/-- The class word (R332). -/
def classOf (f : FFmt) (x : Nat) : Nat :=
  let e := x % 2 ^ (f.w - 1) / 2 ^ f.mb
  let kind := match f.decode x with
    | .nan => 4
    | .inf _ => 3
    | v => if v.isZero then 0 else if e = 0 then 1 else 2
  kind + (f.signOf x).toNat * 8 + e * 256

def execFclass (d a : Reg) (p : Bool) (s : State) : Host.Outcome State Fault Refusal :=
  fp1 d a p (fun x f _ _ => (classOf f x, {})) s

/-! ### Meanings: FMA (R333) -/

/-- The four variants: ±(x × y) ± z, rounded once. -/
def fmaOp (np nz : Bool) (x y z : Nat) : LaneOp := fun f r =>
  let q := vMul (f.decode x) (f.decode y)
  let c := f.decode z
  let t := vAdd r.rdn (if np then q.1.neg else q.1) (if nz then c.neg else c)
  roundOp (t.1, q.2 || t.2) f r

def execFmadd (d a b c : Reg) (p : Bool) (s : State) : Host.Outcome State Fault Refusal := fp3 d a b c p (fmaOp false false) s
def execFmsub (d a b c : Reg) (p : Bool) (s : State) : Host.Outcome State Fault Refusal := fp3 d a b c p (fmaOp false true) s
def execFnmsub (d a b c : Reg) (p : Bool) (s : State) : Host.Outcome State Fault Refusal := fp3 d a b c p (fmaOp true false) s
def execFnmadd (d a b c : Reg) (p : Bool) (s : State) : Host.Outcome State Fault Refusal := fp3 d a b c p (fmaOp true true) s

/-! ### Meanings: FCVT (R334) -/

/-- FP32 to an integer word. -/
def cvtToInt (d a : Reg) (lo hi : Int) (s : State) : Host.Outcome State Fault Refusal :=
  instrUpd (fpForm false [a] d s) (fun s =>
    let r := roundInt lo hi s.rctx 0 (ofFp32 (s.reg a))
    (s.setReg d (wordI r.1)).raise r.2) s

/-- An integer word to FP32. -/
def cvtOfInt (d a : Reg) (f : Word → Int) (s : State) : Host.Outcome State Fault Refusal :=
  instrUpd (fpForm false [a] d s) (fun s =>
    let r := toFp32 s.rctx 0 (.ofInt (f (s.reg a)))
    (s.setReg d r.1).raise r.2) s

/-- A lane of the 16-bit format to FP32: exact, infinities kept in every mode. -/
def cvtLane (d a : Reg) (lane : Nat) (s : State) : Host.Outcome State Fault Refusal :=
  instrUpd { fmt := true, illegal := not16 s.fmtA, src := [a], dst := [d] } (fun s =>
    let r := toFp32 rneCtx 0 ((laneFmt true s).decode (fpLane true (s.reg a) lane))
    (s.setReg d r.1).raise r.2) s

def execFcvtWF (d a : Reg) (s : State) : Host.Outcome State Fault Refusal := cvtToInt d a (-(2 ^ 31)) (2 ^ 31 - 1) s
def execFcvtWnF (d a : Reg) (s : State) : Host.Outcome State Fault Refusal := cvtToInt d a 0 (2 ^ 32 - 1) s
def execFcvtFW (d a : Reg) (s : State) : Host.Outcome State Fault Refusal := cvtOfInt d a BitVec.toInt s
def execFcvtFWn (d a : Reg) (s : State) : Host.Outcome State Fault Refusal := cvtOfInt d a (fun x => (x.toNat : Int)) s
def execFcvtH2F (d a b : Reg) (s : State) : Host.Outcome State Fault Refusal :=
  instrUpd (fpForm true [a, b] d s) (fun s =>
    let r := overLanes true (laneFmt true s) s.rctx fun i f r l => f.round r l (ofFp32 (s.reg (if i = 0 then a else b)))
    (s.setReg d r.1).raise r.2) s
def execFcvtFHl (d a : Reg) (s : State) : Host.Outcome State Fault Refusal := cvtLane d a 0 s
def execFcvtFHh (d a : Reg) (s : State) : Host.Outcome State Fault Refusal := cvtLane d a 1 s
def execFcvtH2H2 (d a : Reg) (s : State) : Host.Outcome State Fault Refusal :=
  instrUpd { fmt := true, illegal := not16 s.fmtA || not16 s.fmtB, src := [a], dst := [d] } (fun s =>
    let g := if s.fmtB = 1 then fBF16 else fFP16
    let rc := if s.fmtA = s.fmtB then rneCtx else s.rctx
    let r := overLanes true (laneFmt true s) rc fun i f r l => f.round r l (g.decode (fpLane true (s.reg a) i))
    (s.setReg d r.1).raise r.2) s

end Sys2Proof.Machine
end

