-- ==== Sys2Proof/Machine/Control.lean ====
section
/-! DEFINITION. Branches and jumps (R335, R336), the 16-bit instructions (R301, R302), MOVX and LOX (R303), and the prefixes
(R304 to R307). -/

namespace Sys2Proof.Machine

/-! ### Branches (R335) -/

/-- The target of a branch or jump: pc + 2 × offset. -/
def targetOf {w : Nat} (pc : Word) (o : BitVec w) : Word := pc + 2 * sx o

/-- Take the target when the condition holds. -/
def branchOn {w : Nat} (src : List Reg) (o : BitVec w) (c : State → Bool) (s : State) : Host.Outcome State Fault Refusal :=
  instr { src := src } (fun s => .ok (if c s then .jump (targetOf s.me.pc o) else .seq) s) s

def execBeq (a b : Reg) (o : BitVec 12) (s : State) : Host.Outcome State Fault Refusal :=
  branchOn [a, b] o (fun s => s.reg a = s.reg b) s
def execBne (a b : Reg) (o : BitVec 12) (s : State) : Host.Outcome State Fault Refusal :=
  branchOn [a, b] o (fun s => s.reg a ≠ s.reg b) s
def execBlt (a b : Reg) (o : BitVec 12) (s : State) : Host.Outcome State Fault Refusal :=
  branchOn [a, b] o (fun s => (s.reg a).slt (s.reg b)) s
def execBge (a b : Reg) (o : BitVec 12) (s : State) : Host.Outcome State Fault Refusal :=
  branchOn [a, b] o (fun s => !(s.reg a).slt (s.reg b)) s
def execBltn (a b : Reg) (o : BitVec 12) (s : State) : Host.Outcome State Fault Refusal :=
  branchOn [a, b] o (fun s => (s.reg a).ult (s.reg b)) s
def execBgen (a b : Reg) (o : BitVec 12) (s : State) : Host.Outcome State Fault Refusal :=
  branchOn [a, b] o (fun s => !(s.reg a).ult (s.reg b)) s
def execBbs (a : Reg) (n : BitVec 5) (o : BitVec 12) (s : State) : Host.Outcome State Fault Refusal :=
  branchOn [a] o (fun s => bitOf (s.reg a) n.toNat) s
def execBbc (a : Reg) (n : BitVec 5) (o : BitVec 12) (s : State) : Host.Outcome State Fault Refusal :=
  branchOn [a] o (fun s => !bitOf (s.reg a) n.toNat) s

/-! ### Jumps (R336) -/

/-- Write npc to d and jump. -/
def jumpLink (d : Reg) (src : List Reg) (t : State → Word) (s : State) : Host.Outcome State Fault Refusal :=
  instr { src := src, dst := [d] } (fun s => .ok (.jump (t s)) (s.setReg d (s.me.pc + word s.me.irLen))) s

def execJal (d : Reg) (o : BitVec 20) (s : State) : Host.Outcome State Fault Refusal :=
  jumpLink d [] (fun s => targetOf s.me.pc o) s
def execJalr (d a : Reg) (i : BitVec 15) (s : State) : Host.Outcome State Fault Refusal :=
  jumpLink d [a] (fun s => s.reg a + sx i) s

/-! ### 16-bit instructions (R299, R301, R302) -/

/-- The short register g(8 + n). -/
def shortReg (n : BitVec 3) : Reg := n.setWidth 5 + 8

/-- d from d and a. -/
def calu (d a : BitVec 3) (f : Word → Word → Word) (s : State) : Host.Outcome State Fault Refusal :=
  op3 (shortReg d) (shortReg d) (shortReg a) f s

def execCAddi (d : BitVec 3) (i : BitVec 8) (s : State) : Host.Outcome State Fault Refusal :=
  op2 (shortReg d) (shortReg d) (· + sx i) s
def execCLi (d : BitVec 3) (i : BitVec 8) (s : State) : Host.Outcome State Fault Refusal :=
  op2 (shortReg d) 0 (· + sx i) s
def execCMv (d : BitVec 3) (r : Reg) (s : State) : Host.Outcome State Fault Refusal := op2 (shortReg d) r (· + 0) s
def execCAdd (d a : BitVec 3) (s : State) : Host.Outcome State Fault Refusal := calu d a (· + ·) s
def execCSub (d a : BitVec 3) (s : State) : Host.Outcome State Fault Refusal := calu d a (· - ·) s
def execCAnd (d a : BitVec 3) (s : State) : Host.Outcome State Fault Refusal := calu d a (· &&& ·) s
def execCOr (d a : BitVec 3) (s : State) : Host.Outcome State Fault Refusal := calu d a (· ||| ·) s
def execCXor (d a : BitVec 3) (s : State) : Host.Outcome State Fault Refusal := calu d a (· ^^^ ·) s
def execCSll (d a : BitVec 3) (s : State) : Host.Outcome State Fault Refusal := calu d a (fun x y => x <<< shiftCount y) s
def execCSrl (d a : BitVec 3) (s : State) : Host.Outcome State Fault Refusal := calu d a (fun x y => x >>> shiftCount y) s
def execCSra (d a : BitVec 3) (s : State) : Host.Outcome State Fault Refusal :=
  calu d a (fun x y => x.sshiftRight (shiftCount y)) s
def execCBeqz (a : BitVec 3) (o : BitVec 8) (s : State) : Host.Outcome State Fault Refusal :=
  branchOn [shortReg a] o (fun s => s.reg (shortReg a) = 0) s
def execCBnez (a : BitVec 3) (o : BitVec 8) (s : State) : Host.Outcome State Fault Refusal :=
  branchOn [shortReg a] o (fun s => s.reg (shortReg a) ≠ 0) s
def execCJ (o : BitVec 11) (s : State) : Host.Outcome State Fault Refusal := jumpLink 0 [] (fun s => targetOf s.me.pc o) s
def execCNop (s : State) : Host.Outcome State Fault Refusal := instrUpd {} id s

/-! ### MOVX and LOX (R303) -/

/-- Write x[n]. -/
def State.setX (s : State) (n : Nat) (v : Word) : State := s.modMe fun sl => { sl with x := smSet 0 sl.x n v }

def execMovxToX (n : BitVec 2) (g : Reg) (s : State) : Host.Outcome State Fault Refusal :=
  instrUpd { src := [g] } (fun s => s.setX n.toNat (s.reg g)) s
def execMovxToG (n : BitVec 2) (g : Reg) (s : State) : Host.Outcome State Fault Refusal :=
  instrUpd { dst := [g] } (fun s => s.setReg g (s.xreg n.toNat)) s
def execLox (n : BitVec 2) (b : BitVec 8) (s : State) : Host.Outcome State Fault Refusal :=
  instrUpd {} (fun s => s.setX n.toNat ((s.xreg n.toNat <<< 8) ||| b.setWidth 32)) s

/-! ### Prefixes (R304 to R307) -/

/-- Any prefix is pending. -/
def anyPending (p : BitVec 16) : Bool := bitOf p 15 || bitOf p 3 || bitOf p 2

/-- A prefix of the kind whose valid bit is `own` sets its fields; the first of a chain is the chain's start. A second prefix
of a kind, and one after the class 3 that no instruction accepts, is ILLEGAL (R305, R306). -/
def prefixStep (own : Nat) (set : BitVec 16 → BitVec 16) (s : State) : Host.Outcome State Fault Refusal :=
  .next <|
    let p := s.me.pend
    if bitOf p own || (bitOf p 2 && fieldOf p 0 2 = 3) then takeTrap cILLEGAL s.me.ir s
    else s.modMe fun sl =>
      { sl with
        pend := putField (set (if anyPending p then p else 0)) own 1 1, pc := sl.pc + word sl.irLen, run := .ready
        pv := sl.pv && anyPending p, chain := if sl.pv && anyPending p then none else some (sl.chain.getD sl.pc)
        counted := false }

def execFmt (r : BitVec 3) (a b : BitVec 4) (s : State) : Host.Outcome State Fault Refusal :=
  prefixStep 15 (fun p => putField (putField (putField p 12 3 r.toNat) 8 4 b.toNat) 4 4 a.toNat) s
def execRel (s : State) : Host.Outcome State Fault Refusal := prefixStep 3 id s
/-- CLASS names bulk, urgent and timed by 1 to 3; the field CC holds 0 to 2 (R304, R306). -/
def execCls (c : BitVec 2) (s : State) : Host.Outcome State Fault Refusal :=
  prefixStep 2 (fun p => putField p 0 2 (c.toNat - 1)) s

end Sys2Proof.Machine
end

