-- ==== Sys2Proof/Machine/Memory.lean ====
section
/-! DEFINITION. Loads and stores (R340 to R342), full/empty operations (R343), tellers (R344), fences (R345), and the answer of a
relaxed access (R186, R194, R243). -/

namespace Sys2Proof.Machine

/-! ### Relaxed accesses -/

/-- Registers t, …, of an access of `n` bytes. -/
def dataRegs (t : Reg) (n : Nat) : List Reg := rangeRegs t ((n + 3) / 4)

/-- The owner number of a relaxed load's queue reservation (R187). -/
def relaxedOwner (k id : Nat) : Nat := k + 1 + 2 ^ 20 * (id + 1)

/-- Send a relaxed access: it is outstanding, and a load's registers are marked (R186, R243). The words of a vault go to their banks, to
a remote one as soon as a route and its port let them; an error on the way is its reply. Another access is performed when its reply
is due. -/
def sendRelaxed (cls : Nat) (pl : Place) (n : Nat) (isStore : Bool) (data : Nat) (t : Reg) (signed : Bool) : M Unit := fun s =>
  let k := s.cur
  let id := s.me.nextId
  let now := nowAt s s.myCore
  let (left, own) := match pl with
    | .vault u off far => ((wordsOf (vKey u off) n).length, !far)
    | _ => (1, false)
  let r : Relaxed :=
    { id := id, store := isStore, place := pl, size := n, data := BitVec.ofNat 128 data, dst := t, signed := signed, cls := cls, left := left
      ready := now, issued := if own then some now else none }
  let marks := if isStore then [] else (dataRegs t n).filter (· ≠ 0)
  let go := fun (r : Relaxed) (s : State) =>
    let s := s.modMe fun sl =>
      { sl with
        nextId := (id + 1) % 2 ^ 20, relaxed := sl.relaxed ++ [r]
        marks := marks.foldl (fun m x => putField m x.toNat 1 1) sl.marks }
    let mine := fun (e : QEntry) => if e.owner = k + 1 && e.res then { e with owner := relaxedOwner k id } else e
    if qOwned k (s.core s.myCore) then
      s.modCore s.myCore fun c => { c with queues := forUp 0 4 c.queues fun q m => smMod [] m q fun l => l.map mine }
    else s
  match pl with
  | .vault _ off _ =>
    let op := fun i => if isStore then storeWord (off % 4) n data i else .read
    (match vaultAsk (rqOf s.myCore cls s) pl (if isStore then 2 else 1) k (Asker.relaxed k id) n op (go r s) with
    | .ok _ s => .ok () s
    | .error (.wait o) _ => .error (.park (.cond (.access o))) s
    | .error e s' =>
      .ok () ((s'.modMe fun sl => { sl with relaxed := sl.relaxed.map fun x => if x.id = id then { x with left := 0, err := some e.code } else x }).push
        (.replyArrival k id none)))
  | _ => .ok () ((go r s).push (.replyArrival k id none))

/-- A value of `n` bytes as register words (R340). -/
def loadWords (n : Nat) (signed : Bool) (v : Nat) : List Word :=
  if n < 4 then [if signed then wordI (sInt (8 * n) v) else word v]
  else (List.range (n / 4)).map fun i => word (v / 2 ^ (32 * i))

/-- Write a loaded value to g[t] and those after it. -/
def writeLoad (owner k n : Nat) (t : Reg) (signed : Bool) (v : Nat) (s : State) : State :=
  ((loadWords n signed v).zip (dataRegs t n)).foldl (fun s p => setRegOwned owner k p.2 p.1 s) s

/-- A queue without the reservation of an owner, or with it written. -/
def settleOwner (owner : Nat) (q : List QEntry) : List QEntry :=
  (q.filter fun e => !(e.owner = owner && e.val.isNone)).map fun e =>
    if e.owner = owner then { e with owner := 0, res := false } else e

/-- The bytes of an access in the words that hold it. -/
def laneValue (data : BitVec 128) (lane n : Nat) : Nat := data.toNat / 256 ^ lane % 256 ^ n

/-- The byte of its first word at which an access begins. -/
def Place.lane : Place → Nat
  | .vault _ off _ => off % 4
  | _ => 0

/-- The last datum of a vault access came later than its slack allows: a vault miss (R210, R211). -/
def noteMiss (core : Nat) (issued : Option Nat) (ready : Nat) (s : State) : State :=
  match issued with
  | some i => if i + 16 < ready then count core 4 s else s
  | none => s

/-- A relaxed access has been performed and its reply reaches the core: a load writes its registers and their
marks clear; an ERR reply sets the deferred MEMERR (R186, R194, R243). One whose line or route is held comes later. -/
def relaxedReply (k id : Nat) (s : State) : State :=
  match (s.slot k).relaxed.find? fun r => r.id = id with
    | none => s
    | some r =>
      let rq := rqOf (coreOf k) r.cls s
      let gone := fun (s : State) => s.modSlot k fun sl =>
        { sl with
          relaxed := sl.relaxed.filter fun x => x.id ≠ id
          marks := if r.store then sl.marks else (dataRegs r.dst r.size).foldl (fun m x => putField m x.toNat 1 0) sl.marks }
      let settle := fun (s : State) =>
        if (s.core (coreOf k)).queues = [] then s
        else s.modCore (coreOf k) fun c =>
          { c with queues := forUp 0 4 c.queues fun q m => smMod [] m q (settleOwner (relaxedOwner k id)) }
      let bad := fun (c : BitVec 5) (s : State) => settle <| (gone s).modSlot k fun sl =>
        { sl with deferred := some (match sl.deferred with
            | some (c0, _) => (c0, true)
            | none => (c, false)) }
      let load := fun (v : Nat) (s : State) => settle (writeLoad (relaxedOwner k id) k r.size r.dst r.signed v (gone s))
      match r.place with
      | .vault .. =>
        if r.left ≠ 0 then s
        else
          let s := noteMiss (coreOf k) r.issued r.ready s
          (match r.err with
          | some c => bad c s
          | none => if r.store then settle (gone s) else load (laneValue r.data r.place.lane r.size) s)
      | pl =>
        let x : HM Nat := if r.store then (do placeWrite rq pl r.size r.data.toNat; pure 0) else placeRead rq pl r.size
        match x s with
        | .ok v s => if r.store then settle (gone s) else load v s
        | .error (.wait o) _ => (o.touch s).defer (.replyArrival k id none)
        | .error e s => bad e.code s

/-- The reply of the access that keeps slot `k` BUSY, or parked on a teller or full/empty operation or a remote vault: it completes, or
takes MEMERR (R178, R185, R210, R218). What is more than a load or a store goes on in `more`. -/
def accessReply (more : Nat → VaultAccess → State → State) (k : Nat) (a : VaultAccess) (s : State) : State :=
  let s := noteMiss (coreOf k) a.issued a.ready
    (s.modSlot k fun sl => { sl with access := none, run := .ready, busyUntil := a.ready })
  match a.err, a.use_ with
  | some c, _ => takeTrapAt k cMEMERR (c.setWidth 32) s
  | none, .load dst signed => completeAt k .seq (writeLoad (k + 1) k a.size dst signed (laneValue a.data a.lane a.size) s)
  | none, .store | none, .word none => completeAt k .seq s
  | none, .word (some d) => completeAt k .seq (setRegAt k d (a.data.setWidth 32) s)
  | none, _ => more k a s

/-! ### Loads and stores (R341, R342) -/

/-- The form of a load or store of `n` bytes. -/
def memForm (isStore : Bool) (n : Nat) (t a : Reg) : Form :=
  { rel := true, cls := true, base := some a
    ranges := if n ≤ 4 then [] else [(t, n / 4)]
    src := if isStore && n ≤ 4 then [t] else []
    dst := if !isStore && n ≤ 4 then [t] else [] }

/-- Check and resolve a relaxed access, and send it. -/
def relaxedAt (d : BitVec 128) (o n : Nat) (isStore : Bool) (data : Nat) (t : Reg) (signed : Bool) : M Unit := do
  let p ← accessPlace d o n (if isStore then aStore else aLoad)
  await .relaxedLimit fun s => s.me.relaxed.length < 8
  sendGate p.2
  let cls ← look fun s => s.clsOf d
  sendRelaxed cls p.2 n isStore data t signed

/-- A load of `n` bytes (R341, R342): from a vault with the datum of its bank, from another place with its answer. -/
def loadOp (n : Nat) (signed : Bool) (t a : Reg) (sg : Nat) (imm : Word) (s : State) : Host.Outcome State Fault Refusal :=
  instr (memForm false n t a) (do
    let o ← look fun s => s.memOffset a imm
    let rel ← look State.relaxed
    let d ← look fun s => s.seg sg
    if rel then relaxedAt d o n false 0 t signed
    else do
      let p ← accessPlace d o n aLoad
      awaitOrder
      sendGate p.2
      let rq ← look fun s => rqOf s.myCore (s.clsOf d) s
      match p.2 with
      | .vault .. => vaultAccess rq p.2 .load p.1 1 { use_ := .load t signed } n fun _ => .read
      | pl => do
        let v ← placed pl .load p.1 (placeRead rq pl n)
        upd fun s => writeLoad (s.cur + 1) s.cur n t signed v s
    pure .seq) s

/-- The register bytes of a store. -/
def storeData (s : State) (t : Reg) (n : Nat) : Nat :=
  (s.regs t ((n + 3) / 4)).foldr (fun w a => w.toNat + 2 ^ 32 * a) 0 % 256 ^ n

/-- A store of `n` bytes. -/
def storeOp (n : Nat) (t a : Reg) (sg : Nat) (imm : Word) (s : State) : Host.Outcome State Fault Refusal :=
  instr (memForm true n t a) (do
    let o ← look fun s => s.memOffset a imm
    let v ← look fun s => storeData s t n
    let rel ← look State.relaxed
    let d ← look fun s => s.seg sg
    if rel then relaxedAt d o n true v t false
    else do
      let p ← accessPlace d o n aStore
      awaitOrder
      sendGate p.2
      let rq ← look fun s => rqOf s.myCore (s.clsOf d) s
      match p.2 with
      | .vault .. => vaultAccess rq p.2 .store p.1 2 { use_ := .store } n (storeWord p.2.lane n v)
      | pl => placed pl .store p.1 (placeWrite rq pl n v)
    pure .seq) s

/-- The scaled immediate of the M format (R297). -/
def immM (i : BitVec 9) (n : Nat) : Word := sx i * word n

def execLb (t a : Reg) (s : BitVec 3) (i : BitVec 9) (st : State) : Host.Outcome State Fault Refusal :=
  loadOp 1 true t a s.toNat (immM i 1) st
def execLbn (t a : Reg) (s : BitVec 3) (i : BitVec 9) (st : State) : Host.Outcome State Fault Refusal :=
  loadOp 1 false t a s.toNat (immM i 1) st
def execLh (t a : Reg) (s : BitVec 3) (i : BitVec 9) (st : State) : Host.Outcome State Fault Refusal :=
  loadOp 2 true t a s.toNat (immM i 2) st
def execLhn (t a : Reg) (s : BitVec 3) (i : BitVec 9) (st : State) : Host.Outcome State Fault Refusal :=
  loadOp 2 false t a s.toNat (immM i 2) st
def execLw (t a : Reg) (s : BitVec 3) (i : BitVec 9) (st : State) : Host.Outcome State Fault Refusal :=
  loadOp 4 false t a s.toNat (immM i 4) st
def execLd (t a : Reg) (s : BitVec 3) (i : BitVec 9) (st : State) : Host.Outcome State Fault Refusal :=
  loadOp 8 false t a s.toNat (immM i 8) st
def execLq (t a : Reg) (s : BitVec 3) (i : BitVec 9) (st : State) : Host.Outcome State Fault Refusal :=
  loadOp 16 false t a s.toNat (immM i 16) st
def execSb (t a : Reg) (s : BitVec 3) (i : BitVec 9) (st : State) : Host.Outcome State Fault Refusal :=
  storeOp 1 t a s.toNat (immM i 1) st
def execSh (t a : Reg) (s : BitVec 3) (i : BitVec 9) (st : State) : Host.Outcome State Fault Refusal :=
  storeOp 2 t a s.toNat (immM i 2) st
def execSw (t a : Reg) (s : BitVec 3) (i : BitVec 9) (st : State) : Host.Outcome State Fault Refusal :=
  storeOp 4 t a s.toNat (immM i 4) st
def execSd (t a : Reg) (s : BitVec 3) (i : BitVec 9) (st : State) : Host.Outcome State Fault Refusal :=
  storeOp 8 t a s.toNat (immM i 8) st
def execSq (t a : Reg) (s : BitVec 3) (i : BitVec 9) (st : State) : Host.Outcome State Fault Refusal :=
  storeOp 16 t a s.toNat (immM i 16) st
/-- C.LW and C.SW name s1 and offsets 0 to 124 (R301). -/
def execCLw (d a : BitVec 3) (f : Reg) (s : State) : Host.Outcome State Fault Refusal :=
  loadOp 4 false (shortReg d) (shortReg a) 1 (word (4 * f.toNat)) s
def execCSw (d a : BitVec 3) (f : Reg) (s : State) : Host.Outcome State Fault Refusal :=
  storeOp 4 (shortReg d) (shortReg a) 1 (word (4 * f.toNat)) s

/-! ### Full/empty operations (R343) -/

/-- The rights of an operation (R231, R238). -/
def feAccess : Nat → Access
  | 0 | 4 => aLwf
  | 1 => aLwt
  | _ => aSwp

/-- Send a full/empty operation to its word's bank, or perform it at a slice; one whose condition fails joins the slice's wait list, or
is sent again later when the list is full (R216, R217, R72). Answers what it returns. -/
def feAt (rq : Rq) (pl : Place) (acc : AccessKind) (va code : Nat) (v : Word) (dst : Option Reg) : M Word := do
  match pl with
  | .vault .. => do
    let k ← look fun s => s.cur
    home acc va (vaultAsk rq pl 4 k (fun _ => .thread k) 4 fun _ => .fe code v)
    park (.fullEmpty dst)
  | pl =>
    match ← home acc va (placeFe rq pl code v) with
    | some r => do
      notePark
      pure r
    | none => fun s =>
      match pl with
      | .home sl pa =>
        if (s.slice sl).waiters.length < 16 then
          .error (.park (.fullEmpty dst)) (s.modSlice sl fun x =>
            { x with waiters := x.waiters ++ [{ word := pa / 4, op := .fe code v, asker := .thread s.cur }] })
        else .error (.park (.resend pl code v dst 128 (mcAt s rq.router + 64))) s
      | _ => .ok 0 s

/-- A full/empty operation; codes 0, 1 and 4 answer into g[t], the others take g[t]. -/
def feOp (code : Nat) (t a : Reg) (sg : Nat) (imm : Word) (s : State) : Host.Outcome State Fault Refusal :=
  let loads := code = 0 || code = 1 || code = 4
  instr { cls := true, base := some a, src := if loads then [] else [t], dst := if loads then [t] else [] } (do
    let o ← look fun s => s.memOffset a imm
    let d ← look fun s => s.seg sg
    let v ← look fun s => s.reg t
    let ad ← segCheck d o 4 4 (feAccess code)
    let pl ← resolve d ad (feAccess code)
    awaitOrder
    sendGate pl
    let rq ← look fun s => rqOf s.myCore (s.clsOf d) s
    let r ← feAt rq pl .fullEmpty ad code v (if loads then some t else none)
    upd fun s => if loads then s.setReg t r else s
    pure .seq) s

def execLwf (t a : Reg) (s : BitVec 3) (i : BitVec 9) (st : State) : Host.Outcome State Fault Refusal :=
  feOp 0 t a s.toNat (immM i 4) st
def execLwt (t a : Reg) (s : BitVec 3) (i : BitVec 9) (st : State) : Host.Outcome State Fault Refusal :=
  feOp 1 t a s.toNat (immM i 4) st
def execSwp (t a : Reg) (s : BitVec 3) (i : BitVec 9) (st : State) : Host.Outcome State Fault Refusal :=
  feOp 2 t a s.toNat (immM i 4) st
def execSwf (t a : Reg) (s : BitVec 3) (i : BitVec 9) (st : State) : Host.Outcome State Fault Refusal :=
  feOp 3 t a s.toNat (immM i 4) st
def execFerd (t a : Reg) (s : BitVec 3) (i : BitVec 9) (st : State) : Host.Outcome State Fault Refusal :=
  feOp 4 t a s.toNat (immM i 4) st
def execFeset (t a : Reg) (s : BitVec 3) (i : BitVec 9) (st : State) : Host.Outcome State Fault Refusal :=
  feOp 5 t a s.toNat (immM i 4) st

/-! ### Tellers (R344) -/

def tellerOp (code : Nat) (d a b : Reg) (sg : Nat) (s : State) : Host.Outcome State Fault Refusal :=
  let pair := code = 9
  instr { cls := true, base := some a, src := if pair then [] else [b], ranges := if pair then [(b, 2)] else [], dst := [d] } (do
    let o ← look fun s => (s.reg a).toNat
    let sd ← look fun s => s.seg sg
    let v ← look fun s => s.reg b
    let v2 ← look fun s => if pair then s.reg (b + 1) else 0
    let ad ← segCheck sd o 4 4 aTeller
    let pl ← resolve sd ad aTeller
    awaitOrder
    sendGate pl
    let rq ← look fun s => rqOf s.myCore (s.clsOf sd) s
    match pl with
    | .vault .. => vaultAccess rq pl .atomic ad 3 { use_ := .word (some d) } 4 fun _ => .teller code v v2
    | pl => do
      let old ← homeParked .atomic ad (placeTeller rq pl code v v2)
      upd fun s => s.setReg d old
    pure .seq) s

def execTadd (d a b : Reg) (s : BitVec 3) (st : State) : Host.Outcome State Fault Refusal := tellerOp 0 d a b s.toNat st
def execTand (d a b : Reg) (s : BitVec 3) (st : State) : Host.Outcome State Fault Refusal := tellerOp 1 d a b s.toNat st
def execTor (d a b : Reg) (s : BitVec 3) (st : State) : Host.Outcome State Fault Refusal := tellerOp 2 d a b s.toNat st
def execTxor (d a b : Reg) (s : BitVec 3) (st : State) : Host.Outcome State Fault Refusal := tellerOp 3 d a b s.toNat st
def execTmin (d a b : Reg) (s : BitVec 3) (st : State) : Host.Outcome State Fault Refusal := tellerOp 4 d a b s.toNat st
def execTmax (d a b : Reg) (s : BitVec 3) (st : State) : Host.Outcome State Fault Refusal := tellerOp 5 d a b s.toNat st
def execTminn (d a b : Reg) (s : BitVec 3) (st : State) : Host.Outcome State Fault Refusal := tellerOp 6 d a b s.toNat st
def execTmaxn (d a b : Reg) (s : BitVec 3) (st : State) : Host.Outcome State Fault Refusal := tellerOp 7 d a b s.toNat st
def execTswap (d a b : Reg) (s : BitVec 3) (st : State) : Host.Outcome State Fault Refusal := tellerOp 8 d a b s.toNat st
def execTcas (d a b : Reg) (s : BitVec 3) (st : State) : Host.Outcome State Fault Refusal := tellerOp 9 d a b s.toNat st
def execTfadd (d a b : Reg) (s : BitVec 3) (st : State) : Host.Outcome State Fault Refusal := tellerOp 10 d a b s.toNat st
def execTwinc (d a b : Reg) (s : BitVec 3) (st : State) : Host.Outcome State Fault Refusal := tellerOp 11 d a b s.toNat st

/-! ### Fences (R244, R345) -/

/-- A relaxed access to the own vault. -/
def Relaxed.own (r : Relaxed) : Bool := r.place.quick

def execFenceV (s : State) : Host.Outcome State Fault Refusal :=
  instr {} (do
    await .relaxed fun s => !s.me.relaxed.any Relaxed.own
    pure .seq) s
def execFenceG (s : State) : Host.Outcome State Fault Refusal :=
  instr {} (do
    await .relaxed fun s => !s.me.relaxed.any fun r => !r.own
    pure .seq) s
def execFenceA (s : State) : Host.Outcome State Fault Refusal :=
  instr {} (do
    await .quiet fun s => quietAll s.cur s
    pure .seq) s
/-- IFENCE also empties the core's instruction cache (R245). -/
def execIfence (s : State) : Host.Outcome State Fault Refusal :=
  instr {} (do
    await .quiet fun s => quietAll s.cur s
    upd fun s => s.modCore s.myCore fun c => { c with icache := [] }
    pure .seq) s

end Sys2Proof.Machine
end

