-- ==== Sys2Proof/Machine/Queue.lean ====
section
/-! DEFINITION. Slice queues (R74, R75), the queue instructions (R352, R353), and streams (R68, R69, R354, R355). -/

namespace Sys2Proof.Machine

/-! ### Slice queues (R74, R75) -/

def sqOf (s : State) (sl q : Nat) : SQueue := smGet {} (s.slice sl).queues q

/-- Bytes of an entry. -/
def entBytes (x : SQueue) : Nat := (x.entlines.toNat + 1) * 64

/-- The byte address of entry `i`. -/
def entAddr (x : SQueue) (i : Nat) : Nat := x.base.toNat * 64 + i % 2 ^ x.log2n.toNat * entBytes x

/-- The ring lies in the main memory of the partition. -/
def ringInside (s : State) (part : Nat) (x : SQueue) : Bool :=
  let lo := x.base.toNat * 64
  let hi := lo + 2 ^ x.log2n.toNat * entBytes x - 1
  decide (hi < 2 ^ 39) && (List.range (hi / 2 ^ 36 - lo / 2 ^ 36 + 1)).all fun i => s.partOf ((lo / 2 ^ 36 + i) / 2) = part

/-- Refuse an operation on a foreign slice or on a ring outside the partition (R74). -/
def sqCheck (rq : Rq) (opcode sl q : Nat) : HM Unit := fun s =>
  if s.partOf (sl / 256) ≠ rq.part then refuse rq sl 0x10 0 opcode s
  else if !ringInside s rq.part (sqOf s sl q) then deny s else .ok () s

/-- Lines `i`, …, `i + n - 1` of a value written at an address of the slice's own lines. -/
def sqWriteLines (sl a v : Nat) : Nat → Nat → HM Unit
  | _, 0 => pure ()
  | i, n + 1 => do
    homeWrite sl (a + 64 * i) 64 (v / 2 ^ (512 * i) % 2 ^ 512)
    sqWriteLines sl a v (i + 1) n

def sqReadLines (sl a : Nat) : Nat → HM Nat
  | 0 => pure 0
  | n + 1 => do
    let r ← sqReadLines sl a n
    let v ← homeRead sl (a + 64 * n) 64
    pure (r + v * 2 ^ (512 * n))

/-- A taker's outcome. -/
inductive Take where
  | got (entry : Nat)
  | waiting
  | retry
  | full
  deriving DecidableEq, Repr

/-- The words of an entry that go to registers. -/
def entWords (v cnt : Nat) : List Word := (List.range cnt).map fun i => word (v / 2 ^ (32 * i))

/-- Send the lines of an entry to their places, all of them at once: how many words are on their way to the banks of a vault, and the
first error (R353). -/
def putLines (rq : Rq) (k v : Nat) : List Place → HM (Nat × Option (BitVec 5))
  | [] => pure (0, none)
  | pl :: r => fun s =>
    let one : HM Nat := match pl with
      | .vault u off _ => do
        vaultAsk rq pl 2 k (Asker.access k) 64 (storeWord 0 64 (v % 2 ^ 512))
        pure (wordsOf (vKey u off) 64).length
      | _ => do
        placeWrite rq pl 64 (v % 2 ^ 512)
        pure 0
    match one s with
    | .error (.wait o) s => .error (.wait o) s
    | .error e s => (do
        let x ← putLines rq k (v / 2 ^ 512) r
        pure (x.1, some e.code)) s
    | .ok n s => (do
        let x ← putLines rq k (v / 2 ^ 512) r
        pure (x.1 + n, x.2)) s

/-- A QTAKE with its entry goes on: its registers are written and its lines sent, when all of them can be; it completes when they are
acknowledged, and an ERR reply is MEMERR, REMAP-EXHAUSTED too (R353). -/
def entryEnd (cls k v : Nat) (d : Reg) (cnt : Nat) (dest : List Place) : M Next := fun s =>
  match putLines (rqOf (coreOf k) cls s) k v dest s with
  | .error (.wait o) _ => .error (.park (.entry cls v d cnt dest)) (o.touch s)
  | .error e s => .error (.trap cMEMERR (e.code.setWidth 32)) s
  | .ok (0, some c) s => .error (.trap cMEMERR (c.setWidth 32)) s
  | .ok (0, none) s => .ok .seq (setRegsAt k d (entWords v cnt) s)
  | .ok (n, err) s =>
    let s := if err.isSome then s else setRegsAt k d (entWords v cnt) s
    .error (.park .vault) (s.modSlot k fun sl => { sl with access := some { size := 64, left := n, ready := nowAt s (coreOf k), err := err } })

/-- A parked QTAKE goes on with its entry; its park has been counted. -/
def entryGo (cls k v : Nat) (d : Reg) (cnt : Nat) (dest : List Place) (s : State) : State :=
  match entryEnd cls k v d cnt dest s with
  | .error (.park w) s => s.modSlot k fun sl => { sl with run := .parked w }
  | r => finish k r

/-- A thread in QTAKE gets its entry (R353). -/
def giveEntry (k v : Nat) (lines : Nat) (s : State) : State :=
  match (s.slot k).run with
  | .parked (.qtake cls d cnt _ _ dest _) => entryGo cls k v d cnt (dest.take lines) s
  | _ => s

/-- Answer a taker at the slice. -/
def answerTaker (a : Asker) (v lines : Nat) (s : State) : State :=
  match a with
  | .thread k => giveEntry k v lines s
  | .packet p =>
    sendPacket { replyTo p 0x40 0 0 0 none with
      payload := (List.range lines).map fun i => BitVec.ofNat 512 (v / 2 ^ (512 * i)), count := BitVec.ofNat 4 lines } s
  | _ => s

/-- QPUT at the slice: 0 done, 1 FULL. -/
def sqPut (rq : Rq) (sl q v : Nat) : HM Nat := do
  sqCheck rq 7 sl q
  let x ← fun s => .ok (sqOf s sl q) s
  if !x.en then pure 1
  else match x.waiters with
    | w :: ws => do
      modify fun s => answerTaker w v (x.entlines.toNat + 1) (modSq sl q (fun x => { x with waiters := ws }) s)
      pure 0
    | [] =>
      if (x.tail - x.head).toNat = 2 ^ x.log2n.toNat then pure 1
      else do
        sqWriteLines sl (entAddr x x.tail.toNat) v 0 (x.entlines.toNat + 1)
        modify fun s => modSq sl q (fun x => { x with tail := x.tail + 1 }) s
        pure 0

/-- QTAKE at the slice; `a` waits when the queue is empty and `wait` is set. -/
def sqTake (rq : Rq) (sl q : Nat) (wait : Bool) (a : Asker) : HM Take := do
  sqCheck rq 8 sl q
  let x ← fun s => .ok (sqOf s sl q) s
  if !x.en then pure .full
  else if x.tail = x.head then
    if !wait || decide (8 ≤ x.waiters.length) then pure .retry
    else do
      modify fun s => modSq sl q (fun x => { x with waiters := x.waiters ++ [a] }) s
      pure .waiting
  else do
    let v ← sqReadLines sl (entAddr x x.head.toNat) (x.entlines.toNat + 1)
    modify fun s => modSq sl q (fun x => { x with head := x.head + 1 }) s
    pure (.got v)

/-- The requester that a packet comes from. -/
def packetRq (p : Packet) (s : State) : Rq := rqUnit (routerAt p.srcCol.toNat p.srcRow.toNat) p.srcEp.toNat (p.cls = 0) s

/-- The entry that a QPUT packet carries: payload flits, or the inline words. -/
def packetEntry (p : Packet) : Nat :=
  match p.payload with
  | [] => p.inline.toNat
  | l => l.foldr (fun x a => x.toNat + 2 ^ 512 * a) 0

/-- SLICE_QPUT: an enqueue request from the mesh (R75). -/
def execSliceQput (sl : Nat) (p : Packet) (s : State) : Host.Outcome State Fault Refusal :=
  .next <| match sqPut (packetRq p s) sl (fieldOf p.param 0 3) (packetEntry p) s with
    | .ok r s => replyAck p (word r) s
    | .error (.wait _) _ => s.defer (.sliceQput sl p)
    | .error e s => replyErr p e.code s

/-- SLICE_QTAKE: a dequeue request from the mesh (R75). -/
def execSliceQtake (sl : Nat) (p : Packet) (s : State) : Host.Outcome State Fault Refusal :=
  .next <|
    let q := fieldOf p.param 0 3
    match sqTake (packetRq p s) sl q true (.packet p) s with
    | .ok (.got v) s => answerTaker (.packet p) v ((sqOf s sl q).entlines.toNat + 1) s
    | .ok .waiting s => s
    | .ok .retry s => replyAck p 2 s
    | .ok .full s => replyAck p 1 s
    | .error (.wait _) _ => s.defer (.sliceQtake sl p)
    | .error e s => replyErr p e.code s

/-! ### Queue instructions (R352, R353) -/

/-- The slice and queue that g[a] names. -/
def queueName (w : Word) : Nat × Nat := (fieldOf w 3 10, fieldOf w 0 3)

/-- Words as an entry's value. -/
def wordsNat (l : List Word) : Nat := l.foldr (fun w a => w.toNat + 2 ^ 32 * a) 0

/-- A thread's queue request goes to its slice over the mesh. -/
def sqOver {α : Type} (rq : Rq) (opcode sl : Nat) (x : HM α) : HM α := overRoute rq.router rq.ep sl opcode 0 rq.bulk x

/-- The class of an instruction without a segment: its prefix's, or bulk (R339). -/
def State.clsPlain (s : State) : Nat := if s.cv then fieldOf s.me.pend 0 2 else 0

/-- Send a QPUT of `cnt` words from g[d]: the answer, and what was sent. -/
def qputSend (d a : Reg) (cnt : Nat) : M (Nat × Nat) := do
  awaitOrder
  awaitQueue
  let n ← look fun s => queueName (s.reg a)
  let v ← look fun s => wordsNat (s.regs d cnt)
  let rq ← look fun s => rqOf s.myCore s.clsPlain s
  let r ← home .other 0 (sqOver rq 7 n.1 (sqPut rq n.1 n.2 v))
  pure (r, v)

/-- QPUT (R353): FULL parks the thread; the core sends again after 64 mc. -/
def execQput (d a : Reg) (c : BitVec 3) (s : State) : Host.Outcome State Fault Refusal :=
  instr { cls := true, src := [a], ranges := [(d, c.toNat + 1)] } (do
    let r ← qputSend d a (c.toNat + 1)
    if r.1 = 0 then do
      notePark
      pure .seq
    else do
      let w ← look fun s =>
        Wait.qput s.clsPlain (queueName (s.reg a)).1 (queueName (s.reg a)).2 r.2 128 (mcAt s (coreRouter s.myCore) + 64)
      park w) s

def execQputt (d a b : Reg) (c : BitVec 3) (s : State) : Host.Outcome State Fault Refusal :=
  instr { cls := true, src := [a], dst := [b], ranges := [(d, c.toNat + 1)] } (do
    let r ← qputSend d a (c.toNat + 1)
    notePark
    upd fun s => s.setReg b (word r.1)
    pure .seq) s

/-- The places of the eight lines of a QTAKE's destination, checked and translated before the request is sent. -/
def qtakeDest (sg : Nat) (o : Nat) : M (List Place) := do
  let d ← look fun s => s.seg sg
  let a ← segCheck d o 512 64 aStore
  (List.range 8).mapM fun i => resolve d (a + 64 * i) aStore

/-- The class of a QTAKE: of its destination's segment where it has one (R339). -/
def State.clsTake (s : State) (sg : Nat) : Nat := if sg = 0 then s.clsPlain else s.clsOf (s.seg sg)

/-- QTAKE (R353). -/
def execQtake (d a b : Reg) (sg c : BitVec 3) (s : State) : Host.Outcome State Fault Refusal :=
  instr { cls := true, src := [a], base := if sg = 0 then none else some b, ranges := [(d, c.toNat + 1)] } (do
    let n ← look fun s => queueName (s.reg a)
    let cls ← look fun s => s.clsTake sg.toNat
    let dest ← if sg = 0 then pure [] else do
      let o ← look fun s => (s.reg b).toNat
      qtakeDest sg.toNat o
    awaitOrder
    awaitQueue
    let rq ← look fun s => rqOf s.myCore cls s
    let me ← look fun s => s.cur
    match ← home .other 0 (sqOver rq 8 n.1 (sqTake rq n.1 n.2 true (.thread me))) with
    | .got v => do
      let lines ← look fun s => (sqOf s n.1 n.2).entlines.toNat + 1
      let r ← entryEnd cls me v d (c.toNat + 1) (dest.take lines)
      notePark
      pure r
    | .waiting => park (.qtake cls d (c.toNat + 1) n.1 n.2 dest none)
    | _ => do
      let now ← look fun s => mcAt s (coreRouter s.myCore)
      park (.qtake cls d (c.toNat + 1) n.1 n.2 dest (some (128, now + 64)))) s

def execQtaket (d a b : Reg) (c : BitVec 3) (s : State) : Host.Outcome State Fault Refusal :=
  instr { cls := true, src := [a], dst := [b], ranges := [(d, c.toNat + 1)] } (do
    let n ← look fun s => queueName (s.reg a)
    awaitOrder
    awaitQueue
    let rq ← look fun s => rqOf s.myCore s.clsPlain s
    let r ← home .other 0 (sqOver rq 8 n.1 (sqTake rq n.1 n.2 false .none))
    notePark
    match r with
    | .got v => upd fun s => (setRegsAt s.cur d (entWords v (c.toNat + 1)) s).setReg b 0
    | _ => upd fun s => s.setReg b 1
    pure .seq) s

/-- A parked QPUT or QTAKE is sent again when its interval has passed, and a QTAKE with its entry goes on when it can (R75, R72, R353);
REMAP-EXHAUSTED lets the instruction issue again and take its own page fault (R33). -/
def queuePoll (k : Nat) (s : State) : State :=
  let mc := mcAt s (coreRouter (coreOf k))
  let again := fun (e : HErr) (s : State) => match e with
    | .fenced => s.modSlot k fun sl => { sl with run := .ready, reissue := true }
    | e => takeTrapAt k cMEMERR (e.code.setWidth 32) (s.modSlot k fun t => { t with run := .ready })
  match (s.slot k).run with
  | .parked (.qput cls sl q v iv t) =>
    if mc < t then s
    else
      let rq := rqOf (coreOf k) cls s
      (match sqOver rq 7 sl (sqPut rq sl q v) s with
      | .ok 0 s => completeAt k .seq s
      | .ok _ s => s.modSlot k fun x => { x with run := .parked (.qput cls sl q v (Nat.min (2 * iv) 4096) (mc + iv)) }
      | .error (.wait _) _ => s
      | .error e s => again e s)
  | .parked (.qtake cls d cnt sl q dest (some (iv, t))) =>
    if mc < t then s
    else
      let rq := rqOf (coreOf k) cls s
      let put := fun (p : Option (Nat × Nat)) (s : State) =>
        s.modSlot k fun x => { x with run := .parked (.qtake cls d cnt sl q dest p) }
      (match sqOver rq 8 sl (sqTake rq sl q true (.thread k)) s with
      | .ok (.got v) s => giveEntry k v ((sqOf s sl q).entlines.toNat + 1) s
      | .ok .waiting s => put none s
      | .ok _ s => put (some (Nat.min (2 * iv) 4096, mc + iv)) s
      | .error (.wait _) _ => s
      | .error e s => again e s)
  | .parked (.entry cls v d cnt dest) => entryGo cls k v d cnt dest s
  | _ => s

/-! ### Streams (R68, R69, R354, R355) -/

def portOf (s : State) (c p : Nat) : SendPort := smGet {} (s.core c).ports p
def modSend (c p : Nat) (f : SendPort → SendPort) (s : State) : State :=
  s.modCore c fun x => { x with ports := smMod {} x.ports p f }
def inputOf (s : State) (c i : Nat) : StreamIn := smGet {} (s.core c).inputs i

/-- Serve the threads parked on an input in the order they parked (R354). -/
def inputServe (c i : Nat) : Nat → State → State
  | 0, s => s
  | n + 1, s =>
    let x := inputOf s c i
    match x.waiters with
    | [] => s
    | k :: ks =>
      match (s.slot k).run with
      | .parked (.sget _ d b) =>
        let give := fun (v st : Word) (f : StreamIn → StreamIn) (s : State) =>
          completeAt k .seq (setRegAt k b st (setRegAt k d v (modInput c i (fun x => f { x with waiters := ks }) s)))
        (match x.words with
        | w :: ws => inputServe c i n (give w 0 (fun x => { x with words := ws }) s)
        | [] =>
          if x.fin = 0 then s
          else inputServe c i n (give 0 (x.fin.setWidth 32) (fun x => { x with fin := 0, active := false, sender := 0 }) s))
      | _ => inputServe c i n (modInput c i (fun x => { x with waiters := ks }) s)

/-- STREAM_DATA_ARRIVE: words and markers of a stream reach an input (R68, R69, R354). -/
def execStreamDataArrive (c i sender : Nat) (ws : List Word) (fin : Option (BitVec 2)) (suspend : Bool) (s : State) :
    Host.Outcome State Fault Refusal :=
  .next <| inputServe c i 80 <| modInput c i (fun x =>
    { x with words := x.words ++ ws, fin := fin.getD x.fin, suspended := suspend, sender := sender, active := true }) s

/-- The receiving core and input of a port, in the launch of the sending core. -/
def streamTarget (s : State) (c : Nat) (dst : Word) : Option (Nat × Nat) :=
  (launchCore s c (fieldOf dst 2 14)).map fun k => (k, fieldOf dst 0 2)

/-- The local input of a stream port at its router (R48, log 50). -/
def portInput (c p : Nat) : Nat := 272 + 4 * (c % 16) + p

/-- A stream's packet: bulk on REQ, with the word, input and port of R53's STRM in its inline bits (log 48); `param` names the action: 0
open, 2 close, 3 forced close, with 4 resume or suspend. -/
def streamPacket (s : State) (c p : Nat) (param w : Word) : Packet :=
  let x := portOf s c p
  let (k, i) := (streamTarget s c x.dst).getD (0, 0)
  { corePacket s c k with
    opcode := 0x09, tag := x.tag, param := param, inline := BitVec.ofNat 256 (w.toNat + i * 2 ^ 32 + p * 2 ^ 34) }

def streamMark (s : State) (c p : Nat) (param : Word) : Flit :=
  { data := packHeader (streamPacket s c p param 0), mark := true, last := true }

def streamData (ws : List Word) : Flit := { data := BitVec.ofNat 512 (wordsNat ws), valid := BitVec.ofNat 5 ws.length }

/-- The flits that take a port's buffered words onto the route: the header, which opens or resumes it, carries one (R68). -/
def streamFlits (s : State) (c p : Nat) (ws : List Word) : List Flit :=
  let x := portOf s c p
  if x.route && !x.resume then (if ws = [] then [] else [streamData ws])
  else
    { data := packHeader (streamPacket s c p (if x.resume then 4 else 0) (ws.headD 0)), first := true } ::
      if ws.drop 1 = [] then [] else [streamData (ws.drop 1)]

/-- STREAM_FLUSH: a header with the first word, or a data flit with the buffered words, enters the router once the flit before it has
been sent on (R68). -/
def execStreamFlush (c p : Nat) (s : State) : Host.Outcome State Fault Refusal :=
  .next <|
    let x := portOf s c p
    let r := coreRouter c
    if x.state ≠ 1 || x.words = [] || (inBuf s r (inKey (portInput c p) 0)).flits ≠ [] then s
    else
      let n := if x.route && !x.resume then x.words.length else 1
      modSend c p (fun y => { y with words := y.words.drop n, route := true, resume := false })
        (enterLocal r (portInput c p) (streamFlits s c p (x.words.take n)) s)

/-- An open stream ends, or is suspended, with its buffered words and a marker (R68, R145). -/
def streamEnd (c p : Nat) (param : Word) (s : State) : State :=
  let x := portOf s c p
  enterLocal (coreRouter c) (portInput c p) (streamFlits s c p x.words ++ [streamMark s c p param])
    (modSend c p (fun y => { y with words := [], route := false, resume := false }) s)

/-- STREAM_IDLE_EXPIRE: the first router sends a forced close both ways, if no flit has come meanwhile (R69). -/
def execStreamIdleExpire (c p : Nat) (s : State) : Host.Outcome State Fault Refusal :=
  .next <|
    let x := portOf s c p
    let r := coreRouter c
    if !x.route || (inBuf s r (inKey (portInput c p) 0)).flits ≠ [] then s
    else
      inject r { corePacket s c c with opcode := 0x45, tag := x.tag, vn := true, cls := 1 }
        (enterLocal r (portInput c p) [streamMark s c p 3] (modSend c p (fun y => { y with route := false }) s))

/-- STREAM_FORCED_CLOSE: the port discards its buffered words and enters FORCED; a route that its first router has not closed is closed
behind the flits sent (R68, R69). -/
def execStreamForcedClose (c p : Nat) (s : State) : Host.Outcome State Fault Refusal :=
  .next <|
    let x := portOf s c p
    if x.state ≠ 1 then s
    else
      let s := if x.route then enterLocal (coreRouter c) (portInput c p) [streamMark s c p 3] s else s
      modSend c p (fun x => { x with state := 2, bound := false, lost := x.words.length, words := [], route := false, resume := false }) s

/-- Stream instructions exist on cluster cores only (R425). -/
def streamForm (src dst : List Reg) : Form := { cls := true, noBursar := true, src := src, dst := dst }

/-- SOPEN (R354, R355). -/
def execSopen (a : Reg) (p : BitVec 2) (s : State) : Host.Outcome State Fault Refusal :=
  instr (streamForm [a] []) (do
    let x ← look fun s => portOf s s.myCore p.toNat
    let dst ← look fun s => s.reg a
    let t ← look fun s => streamTarget s s.myCore dst
    if x.bound || x.state ≠ 0 then trap cSTREAM 0x80000001
    if t.isNone then trap cSTREAM 0x80000003
    upd fun s => modSend s.myCore p.toNat (fun x => { x with bound := true, dst := dst }) s
    pure .seq) s

/-- SPUT (R354, R355, R68). -/
def execSput (a : Reg) (p : BitVec 2) (s : State) : Host.Outcome State Fault Refusal :=
  instr (streamForm [a] []) (do
    let x ← look fun s => portOf s s.myCore p.toNat
    if x.state = 2 then do
      upd fun s => modSend s.myCore p.toNat (fun _ => {}) s
      trap cSTREAM (word (x.lost % 2 ^ 16))
    if !x.bound then trap cSTREAM 0x80000002
    await (.stream p.toNat) fun s => (portOf s s.myCore p.toNat).words.length < 16
    upd fun s =>
      let c := s.myCore
      let open_ := fun (s : State) =>
        if x.state = 0 then
          (modSend c p.toNat (fun y => { y with state := 1, tag := (s.core c).nextTag }) s).modCore c fun y =>
            { y with nextTag := y.nextTag + 1 }
        else s
      let s := wake (coreRouter c) (modSend c p.toNat (fun y => { y with words := y.words ++ [s.reg a], idle := 0 }) (open_ s))
      if x.state = 0 || x.words.length = 15 then s.push (.streamFlush c p.toNat) else s
    pure .seq) s

/-- SCLOSE (R354, R68). -/
def execSclose (p : BitVec 2) (s : State) : Host.Outcome State Fault Refusal :=
  instrUpd (streamForm [] []) (fun s =>
    let x := portOf s s.myCore p.toNat
    let s := if x.state = 1 then streamEnd s.myCore p.toNat 2 s else s
    modSend s.myCore p.toNat (fun _ => {}) s) s

/-- SGET (R354). -/
def execSget (d b : Reg) (i : BitVec 2) (s : State) : Host.Outcome State Fault Refusal :=
  instr (streamForm [] [d, b]) (fun s =>
    let c := s.myCore
    let x := inputOf s c i.toNat
    match x.words with
    | w :: ws => .ok .seq (modInput c i.toNat (fun x => { x with words := ws }) ((s.setReg d w).setReg b 0))
    | [] =>
      if x.fin = 0 then
        .error (.park (.sget i.toNat d b)) (modInput c i.toNat (fun x => { x with waiters := x.waiters ++ [s.cur] }) s)
      else
        .ok .seq (modInput c i.toNat (fun x => { x with fin := 0, active := false, sender := 0 })
          ((s.setReg d 0).setReg b (x.fin.setWidth 32)))) s

end Sys2Proof.Machine
end

