-- ==== Sys2Proof/Machine/Threads.lean ====
section
/-! DEFINITION. Threads of a launch: work identifiers (R134, R135), stack areas and thread starts (R136, R426), the start of a
bursar's handlers (R425), budget timers (R189, R363), and the end of a thread. -/

namespace Sys2Proof.Machine

/-! ### Slots of a launch -/

/-- The launch that core `c` runs. -/
def launchOf (s : State) (c : Nat) : Option Launch := (s.cluster (unitOf c)).launch

/-- 1 bits below bit `n`. -/
def onesBelow {w : Nat} (m : BitVec w) (n : Nat) : Nat := ((List.range n).filter fun i => bitOf m i).length

/-- S of R134. -/
def Launch.ranks (l : Launch) : Nat := onesBelow l.slotmask 16

/-- The slot's stack index (R426): its Lc for a launch slot. -/
def stackIndex (l : Launch) (k : Nat) : Nat :=
  let c := coreOf k % 1024
  let j := onesBelow l.slotmask (slotIn k)
  if bitOf l.slotmask (slotIn k) then c * l.ranks + j
  else 16 * l.ng * l.ranks + c * (16 - l.ranks) + (slotIn k - j)

/-- The slot's stack top (R426). -/
def stackTop (l : Launch) (k : Nat) : Word := word (l.stkbase.toNat + (stackIndex l k + 1) * l.stksize.toNat)

/-- WID of linear index `n` (R134). -/
def widAt (l : Launch) (n : Nat) : BitVec 64 := l.widbase + BitVec.ofNat 64 n

/-- WID of a thread whose starting rule names none: the launch slot's own under dynamic placement, else 0 (R426). -/
def slotWid (l : Launch) (k : Nat) : BitVec 64 :=
  if bitOf l.slotmask (slotIn k) && l.place = 0 then widAt l (l.vc * l.ng * 16 * l.ranks + stackIndex l k) else 0

/-- The slot as a thread of launch `l` starts in it (R136, R426): what the starting rule does not name. -/
def freshSlot (l : Launch) (k : Nat) (sl : Slot) : Slot :=
  { g := smSet 0 [] 2 (stackTop l k), sg := l.segs, status := if l.bursar then 0x100 else 0, fmtdef := l.fmtdef
    widLo := (slotWid l k).setWidth 32, widHi := (slotWid l k >>> 32).setWidth 32, run := .ready
    busyUntil := sl.busyUntil, nextId := sl.nextId, detIdx := sl.detIdx }

/-- The class of a slot (R166). -/
def slotClass (s : State) (k : Nat) : Nat := fieldOf (s.core (coreOf k)).classMap (2 * slotIn k) 2

/-- The core takes part in the launch (R136). -/
def usedCore (l : Launch) (c : Nat) : Bool := decide (c % 1024 / 16 < l.ng)

/-- The idle slots of a core that are of a class, in ascending order. -/
def idleSlots (s : State) (c cls : Nat) : List Nat :=
  ((List.range 16).map (16 * c + ·)).filter fun k => (s.slot k).run = .idle && slotClass s k = cls

/-- A slot outside the reach of remote spawns, the ready queue and steals: a launch slot under deterministic placement (R138). -/
def detSlot (l : Launch) (k : Nat) : Bool := decide (l.place = 1) && bitOf l.slotmask (slotIn k)

/-! ### Starts and ends -/

/-- The cluster stops being drained: its epoch advances (R140). -/
def noteWork (c : Nat) (s : State) : State :=
  if (s.cluster c).drainedSent then s.modCluster c fun x => { x with drainedSent := false, epoch := x.epoch + 1 } else s

/-- What the engines of slot `k`'s group still do is no longer its thread's (R382). -/
def disown (k : Nat) (s : State) : State :=
  let g := groupOf (coreOf k)
  let s := if (s.bulkOf g).copies.isEmpty then s else s.modBulk g fun b =>
    { b with copies := b.copies.map fun c => if c.slot = k then { c with orphan := true } else c }
  if (s.engine g).retiring.isEmpty then s
  else s.modEngine g fun e => { e with retiring := e.retiring.filter fun p => p.1 ≠ k }

/-- Start a thread of launch `l` in slot `k`. -/
def startThread (l : Launch) (k : Nat) (f : Slot → Slot) (s : State) : State :=
  noteWork (unitOf (coreOf k)) (disown k (s.setSlot k (f (freshSlot l k (s.slot k)))))

/-- Free the timer that slot `k` holds (R189). -/
def freeTimer (k : Nat) (s : State) : State :=
  let sl := s.slot k
  if bitOf sl.dlstat 4 then
    (s.modCluster (unitOf (coreOf k)) fun c => { c with timers := smDel c.timers (fieldOf sl.dlstat 0 4) }).modSlot k fun sl =>
      { sl with dlstat := sl.dlstat &&& 0xFFFFFF6F }
  else s

/-- A core holds a thread of the launch. -/
def holdsThread (s : State) (c : Nat) : Bool := (List.range 16).any fun i => (s.slot (16 * c + i)).run ≠ .idle

/-- Every steal request in a core's mailbox is answered EMPTY (R155). -/
def emptyMail (c : Nat) (s : State) : State :=
  let m := (s.core c).mailbox
  if m = [] then s else (s.modCore c fun x => { x with mailbox := [] }).pushAll (m.map fun x => .stealReply x.1)

/-- The thread of slot `k` ends: its timer is freed, the slot is idle, what waits for such a slot is due; a core without a thread answers
its steal requests (R148, R155, R167, R189). -/
def endThread (k : Nat) (s : State) : State :=
  let s := (freeTimer k s).modSlot k fun sl =>
    { sl with
      run := .idle, access := none, pend := 0, pv := false, chain := none, taken := [], tcb := none, handler := false, replyOwed := false
      deferred := none, deadline := none, stepDue := false, status := putField sl.status 1 1 0, icnt := 0
      faultVa := 0, reissue := false, counted := false }
  (if holdsThread s (coreOf k) then s else emptyMail (coreOf k) s).pushAll [.handlerStart k, .idleSlotWorkSearch k]

/-- Write register values into a slot's g file, from register `r`. -/
def putRegs (g : SMap Word) (r : Nat) : List Word → SMap Word
  | [] => g
  | v :: vs => putRegs (smSet 0 g r v) (r + 1) vs

/-! ### Work identifiers (R135, R361) -/

/-- The position and width of field `k` under a WIDSHAPE. -/
def widField (shape : Word) (k : Nat) : Nat × Nat :=
  let w := fun i => fieldOf shape (6 * i) 6
  let b := ((List.range k).map w).sum
  (b, if k = 5 then 64 - b else w k)

def execWid (d : Reg) (k : BitVec 3) (s : State) : Host.Outcome State Fault Refusal :=
  instrUpd { cls := true, noBursar := true, illegal := decide (6 ≤ k.toNat), dst := [d] } (fun s =>
    let wid := s.me.widLo.toNat + 2 ^ 32 * s.me.widHi.toNat
    let f := widField (s.core s.myCore).widshape k.toNat
    s.setReg d (word (wid / 2 ^ f.1 % 2 ^ f.2))) s

def execCoreid (d : Reg) (s : State) : Host.Outcome State Fault Refusal :=
  instrUpd { cls := true, noBursar := true, dst := [d] } (fun s => s.setReg d (word (flatSlot s s.cur))) s

/-! ### Budget timers (R189 to R191, R362, R363) -/

/-- The timer that a slot holds. -/
def Slot.timer (sl : Slot) : Option Nat := if bitOf sl.dlstat 4 then some (fieldOf sl.dlstat 0 4) else none

/-- The lowest free timer of a unit; a timer is free when no thread holds it. -/
def timerFree (c : Cluster) : Option Nat := (List.range 16).find? fun t => !(smGet {} c.timers t).armed

/-- The count of a timer in the WB of an instruction issued in work cycle `now`, 7 wc later: the decrement of that work cycle comes before
the instruction's own effect (R189, R363; log 21). -/
def Timer.atWb (t : Timer) (now : Nat) : Nat :=
  t.count.toNat - (if t.armed && !t.msgwait then now + 8 - Nat.max t.start now else 0)

/-- Timer `t` of unit `c`, which slot `k` holds, has reached 0: it is free and a DEADLINE is pending (R190). -/
def expireTimer (c t k : Nat) (s : State) : State :=
  (s.modCluster c fun x => { x with timers := smDel x.timers t }).modSlot k fun sl =>
    { sl with dlstat := putField (putField (sl.dlstat &&& 0xFFFFFF6F) 5 1 1) 6 1 0, deadline := some (BitVec.ofNat 4 t) }

/-- The timer of the thread in execution as its instruction finds it in WB: one that has reached 0 by then expires first (R363). -/
def settleTimer (s : State) : State :=
  match s.me.timer with
  | some t =>
    let tm := smGet {} (s.cluster s.myUnit).timers t
    if tm.armed && !tm.msgwait && tm.atWb (nowAt s s.myCore) = 0 then expireTimer s.myUnit t s.cur s else s
  | none => s

/-- The count that the thread's timer has left in WB, 0 without one (R189). -/
def timerLeft (s : State) : Word :=
  match s.me.timer with
  | some t => word ((smGet {} (s.cluster s.myUnit).timers t).atWb (nowAt s s.myCore))
  | none => 0

/-- DLDIS: the count left is returned, the timer is free, a pending DEADLINE is cancelled. -/
def dldisAt (d : Reg) (s : State) : State :=
  let s := settleTimer s
  ((freeTimer s.cur s).modMe fun sl => { sl with deadline := none }).setReg d (timerLeft s)

/-- DLARM and DLARMM: take the thread's timer or the lowest free one. The arm is the instruction's WB: the count of one issued in work
cycle i begins in i + 8 (R189). -/
def dlarmAt (d : Reg) (n : Word) (typ : Option Byte) (s : State) : State :=
  if n = 0 then dldisAt d s
  else
    let s := settleTimer s
    match s.me.timer.or (timerFree (s.cluster s.myUnit)) with
      | none => s.setReg d 0
      | some t =>
        let tm : Timer := { count := n, armed := true, msgwait := typ.isSome, typ := typ.getD 0, owner := s.cur, start := nowAt s s.myCore + 8 }
        ((s.modCluster s.myUnit fun c => { c with timers := smSet {} c.timers t tm }).modMe fun sl =>
          { sl with deadline := none, dlstat := word (typ.isSome.toNat * 128 + 16 + t) }).setReg d 1

def execDlarm (d a : Reg) (s : State) : Host.Outcome State Fault Refusal :=
  instrUpd { src := [a], dst := [d] } (fun s => dlarmAt d (s.reg a) none s) s
def execDlarmm (d a : Reg) (y : BitVec 8) (s : State) : Host.Outcome State Fault Refusal :=
  instrUpd { illegal := y = 0, src := [a], dst := [d] } (fun s => dlarmAt d (s.reg a) (some y) s) s
def execDldis (d : Reg) (s : State) : Host.Outcome State Fault Refusal := instrUpd { dst := [d] } (fun s => dldisAt d s) s

/-- A wait that a DEADLINE withdraws (R190). -/
def Wait.withdrawable : Wait → Bool
  | .cond c => match c with
    | .queue .. | .sendReq | .sendRsp | .engine | .bulk => true
    | _ => false
  | .fullEmpty _ | .resend .. | .barw .. | .mrecv .. | .qput .. | .qtake .. => true
  | _ => false

/-- Withdraw the wait of slot `k`: nothing has happened, the instruction is to be issued again (R143, R190). -/
def withdraw (k : Nat) (s : State) : State :=
  qAll k (qRelease k) ((unlist k s).modSlot k fun sl => { sl with run := .ready })

/-- DEADLINE_EXPIRY: the timer is freed and a DEADLINE is pending; a wait of R190 is withdrawn, a WAIT ends (R190, R393). -/
def execDeadlineExpiry (c t : Nat) (s : State) : Host.Outcome State Fault Refusal :=
  .next <|
    let tm := smGet {} (s.cluster c).timers t
    if !tm.armed then s
    else
      let k := tm.owner
      let s := expireTimer c t k s
      match (s.slot k).run with
      | .parked w => if w.withdrawable && !bitOf (s.slot k).status 0 && !(s.core (coreOf k)).halt then s.push (.withdrawal k) else
          (match w with
          | .wait .. => s.push (.waitExpire k)
          | _ => s)
      | _ => s

/-- WITHDRAWAL: a parked wait is taken back before it was performed; the DEADLINE that follows shows WAITX (R190). -/
def execWithdrawal (k : Nat) (s : State) : Host.Outcome State Fault Refusal :=
  .next <| match (s.slot k).run with
    | .parked w =>
      if w.withdrawable then (withdraw k s).modSlot k fun sl => { sl with dlstat := putField sl.dlstat 6 1 1, reissue := false } else s
    | _ => s

/-- WAIT_EXPIRE: the wait ends; g[d] takes what is left of it (R393). -/
def execWaitExpire (k : Nat) (s : State) : Host.Outcome State Fault Refusal :=
  .next <| match (s.slot k).run with
    | .parked (.wait u d) =>
      completeAt k .seq (setRegAt k d (word (u - (s.cluster (unitOf (coreOf k))).cycle.toNat)) s)
    | _ => s

/-- DEADLINE_TRAP: a pending DEADLINE is taken before the next instruction issues (R190, R192). -/
def execDeadlineTrap (s : State) : Host.Outcome State Fault Refusal :=
  .next <| match s.me.deadline with
    | some t => takeTrap cDEADLINE (t.setWidth 32) (s.modMe fun sl => { sl with deadline := none })
    | none => s

/-- DEFERRED_MEMERR: the error of a relaxed access is taken before the next instruction issues (R194). -/
def execDeferredMemerr (s : State) : Host.Outcome State Fault Refusal :=
  .next <| match s.me.deferred with
    | some (c, more) =>
      takeTrap cMEMERR (word (c.toNat + 256 + 512 * more.toNat)) (s.modMe fun sl => { sl with deferred := none })
    | none => s

/-- STEP_BREAK: the BREAK that ends a DRET step (R392), or the halt in its place (R200). -/
def execStepBreak (s : State) : Host.Outcome State Fault Refusal :=
  .next <|
    if !s.me.stepDue then s
    else
      let s := s.modMe fun sl => { sl with stepDue := false }
      let c := s.core s.myCore
      if c.brkhalt then s.setCore s.myCore { c with halt := true, brkhit := true, bslot := BitVec.ofNat 4 (slotIn s.cur) }
      else takeTrap cBREAK 1 s

end Sys2Proof.Machine
end

