-- ==== Sys2Proof/Machine/Tasks.lean ====
section
/-! DEFINITION. Fork-join (R149 to R154), the idle slot's search for work and steals (R148, R155), remote spawns (R156), and
dependence-counted tasks (R157 to R162, R359, R360). -/

namespace Sys2Proof.Machine

/-! ### Join words (R149, R151, R152) -/

/-- The accesses of R357: R, W, SYNC and ATOMIC on the segment, R, W and FE on the page. -/
def aJoin : Access := { kind := .atomic, r := true, w := true, fe := true }

/-- JoinAdd at a home: the old count is answered, and a count that would pass its range stays (R149, R151, R152). -/
def homeJoin (sl pa : Nat) (up : Bool) : HM Word := do
  let old ← homeRead sl pa 4
  match joinStep up (word old) with
  | none => pure (word old)
  | some x => do
    homeWrite sl pa 4 x.toNat
    modify (homeSetFull sl pa (x = 0))
    pure (word old)

/-- The EVAL of the TASK trap of a JoinAdd that found a count at the end of its range (R151, R152). -/
def joinTrap (up : Bool) (old : Word) : Option Word := if (joinStep up old).isSome then none else some (if up then 2 else 3)

/-- JoinAdd by +1 for a SPAWN of `child`, by −1 for a SPRET, as one teller operation: a vault's word goes to its bank, and the thread goes
on with the answer (R151, R152, R210). -/
def joinAdd (rq : Rq) (pl : Place) (va : Nat) (child : Option Word) : M Unit := do
  let up := child.isSome
  match pl with
  | .vault .. => vaultAccess rq pl .atomic va 3 { use_ := .join child } 4 fun _ => .join up
  | _ => do
    let old ← homeParked .atomic va (match pl with
      | .home sl pa => atPlace rq pl 3 (homeJoin sl pa up)
      | _ => placeTeller rq pl 0 (if up then 1 else 0xFFFFFFFF) 0)
    match joinTrap up old with
    | some v => trap cTASK v
    | none => pure ()

/-- The form of an instruction that names J. -/
def joinForm (a : Reg) : Form := { cls := true, noBursar := true, base := some a }

/-- Check and resolve J. -/
def joinPlace (a : Reg) (sg : Nat) : M (Nat × Place) := do
  let o ← look fun s => (s.reg a).toNat
  let d ← look fun s => s.seg sg
  let ad ← segCheck d o 4 4 aJoin
  let pl ← resolve d ad aJoin
  pure (ad, pl)

/-! ### Deques and steals (R150, R155) -/

def dequeOf (s : State) (c : Nat) : List DequeEntry := (s.core c).deque
def modDeque (c : Nat) (f : List DequeEntry → List DequeEntry) (s : State) : State :=
  s.modCore c fun x => { x with deque := f x.deque }

/-- The oldest stealable entry; the deque stands oldest first. -/
def stealable (s : State) (c : Nat) : Option DequeEntry := (dequeOf s c).find? fun e => e.icnt = 0

/-- SendSteal(m, e): the reply to the oldest mailbox request of core `c` (R151, R155). -/
def sendSteal (c : Nat) (e : DequeEntry) (s : State) : State :=
  match (s.core c).mailbox with
  | [] => s
  | m :: ms =>
    ((s.modCore c fun x => { x with mailbox := ms }).modCore (coreOf m.1) fun x => { x with heldSteal := some e }).push
      (.stealReply m.1)

/-- Resume(entry, own): the thread that starts in a slot of launch `l` (R153, R426); WIDLO and WIDHI are the slot's. x0 to x3 are
`x`: no rule gives them. -/
def Slot.continue_ (l : Launch) (k : Nat) (e : DequeEntry) (own : Bool) (x : SMap Word) (sl : Slot) : Slot :=
  { freshSlot l k sl with
    pc := e.pc, g := smSet 0 (smSet 0 [] 2 (if own then e.g2 else stackTop l k)) 3 e.g3, x := x, widLo := sl.widLo, widHi := sl.widHi }

/-- Resume(entry, false) in an idle slot (R153, R426). -/
def resumeIn (l : Launch) (k : Nat) (e : DequeEntry) (s : State) : State :=
  let x := (List.range 4).foldl (fun m i => smSet 0 m i (Config.freeWord (s.fresh + i))) []
  let sl := s.slot k
  startThread l k (fun _ => sl.continue_ l k e false x) { s with fresh := s.fresh + 4 }

/-- Resume(entry, true): the slot goes on with its own entry. The task or handler that it runs, what is pending for it and an armed step
stay (R160, R168, R190, R392). -/
def resumeOwn (l : Launch) (k : Nat) (e : DequeEntry) (s : State) : State :=
  (freeTimer k s).modSlot k fun sl =>
    { sl.continue_ l k e true sl.x with
      tcb := sl.tcb, handler := sl.handler, replyOwed := sl.replyOwed, msg := sl.msg, deferred := sl.deferred
      deadline := sl.deadline, stepDue := sl.stepDue || bitOf sl.status 1, ir := sl.ir, irLen := sl.irLen }

/-- What SPAWN does after its JoinAdd (R151): a waiting thief takes the oldest stealable entry, or the continuation itself; else the
continuation enters the deque, or the child runs inline. -/
def spawnBody (k : Nat) (s : State) : State :=
  let c := coreOf k
  let sl := s.slot k
  let next := sl.pc + word sl.irLen
  let e : DequeEntry := { pc := next, g2 := regAt k 2 s, g3 := regAt k 3 s, slot := BitVec.ofNat 4 (slotIn k), icnt := sl.icnt }
  let push := fun (s : State) =>
    if (dequeOf s c).length < 32 then modDeque c (· ++ [e]) s
    else setRegAt k 1 next (s.modSlot k fun sl => { sl with icnt := sl.icnt + 1 })
  if (s.core c).mailbox.isEmpty then push s
  else match stealable s c with
    | some x => push (modDeque c (fun q => q.erase x) (sendSteal c x s))
    | none => if sl.icnt = 0 then sendSteal c e s else push s

/-- The deque is full for a thread that cannot count another inline child (R151). -/
def spawnFull (k : Nat) (s : State) : Bool := (s.slot k).icnt = 63 && decide (32 ≤ (dequeOf s (coreOf k)).length)

/-- SPAWN (R151, R357). -/
def execSpawn (a b : Reg) (sg : BitVec 3) (s : State) : Host.Outcome State Fault Refusal :=
  instr { joinForm a with src := [b, 2, 3] } (do
    let o ← look fun s => (s.reg a).toNat
    let d ← look fun s => s.seg sg.toNat
    let child ← look fun s => s.reg b
    let ad ← segCheck d o 4 4 aJoin
    let k ← look fun s => s.cur
    if ← look (spawnFull k) then trap cTASK 1
    let pl ← resolve d ad aJoin
    awaitOrder
    sendHeld pl
    let rq ← look fun s => rqOf s.myCore (s.clsOf d) s
    joinAdd rq pl ad (some child)
    upd (spawnBody k)
    pure (.jump child)) s

/-- Earlier accesses performed, copies complete and matrix instructions retired: step 1 of R152. -/
def awaitQuiet : M Unit := await .quiet fun s => quietAll s.cur s

/-- What SPRET does after its JoinAdd (R152): the newest own entry is resumed, or an inline child returns, or the slot becomes idle. -/
def spretBody (k : Nat) (s : State) : Next × State :=
  let c := coreOf k
  let sl := s.slot k
  match (dequeOf s c).reverse.find? (fun e => e.slot.toNat = slotIn k && e.icnt = sl.icnt), launchOf s c with
  | some e, some l => (.jump e.pc, resumeOwn l k e (modDeque c (fun q => (q.reverse.erase e).reverse) s))
  | _, _ =>
    if sl.icnt ≠ 0 then (.jump (regAt k 1 s), s.modSlot k fun sl => { sl with icnt := sl.icnt - 1 })
    else (.taken, endThread k s)

/-- SPRET (R152, R357). -/
def execSpret (a : Reg) (sg : BitVec 3) (s : State) : Host.Outcome State Fault Refusal :=
  instr (joinForm a) (do
    let j ← joinPlace a sg.toNat
    awaitQuiet
    let rq ← look fun s => rqOf s.myCore (s.clsOf (s.seg sg.toNat)) s
    sendHeld j.2
    joinAdd rq j.2 j.1 none
    fun s => .ok (spretBody s.cur s).1 (spretBody s.cur s).2) s

/-- SPAWN and SPRET go on when their bank has answered: a count at the end of its range traps, and so does a child that could be counted
inline no more (R151, R152; log 51). -/
def joined (k : Nat) (child : Option Word) (old : Word) (s : State) : State :=
  match joinTrap child.isSome old, child with
  | some v, _ => takeTrapAt k cTASK v s
  | none, some pc => if spawnFull k s && (s.core (coreOf k)).mailbox.isEmpty then takeTrapAt k cTASK 1 s else completeAt k (.jump pc) (spawnBody k s)
  | none, none => completeAt k (spretBody k s).1 (spretBody k s).2

/-- JOIN (R154, R357): it waits as a load when full. -/
def execJoin (a : Reg) (sg : BitVec 3) (s : State) : Host.Outcome State Fault Refusal :=
  instr (joinForm a) (do
    let j ← joinPlace a sg.toNat
    awaitOrder
    sendGate j.2
    let rq ← look fun s => rqOf s.myCore (s.clsOf (s.seg sg.toNat)) s
    let _ ← feAt rq j.2 .atomic j.1 0 0 none
    pure .seq) s

/-! ### Where an idle slot finds work (R148) -/

/-- The task unit's steal request for core `c`'s lowest idle class-0 slot (R155). -/
def stealAttempt (l : Launch) (k : Nat) (s : State) : State :=
  let c := coreOf k
  let n := 16 * l.ng
  let x := s.core c
  if l.place = 1 || x.stealing || x.heldSteal.isSome || (idleSlots s c 0).head? ≠ some k then s
  else
    let victim := (c % 1024 + 1 + x.victim % (n - 1)) % n
    (s.setCore c { x with stealing := true, victim := (x.victim + 1) % (n - 1) }).push
      (.stealRequest (c / 1024 * 1024 + victim) k)

/-- The words of a TCB (R157). -/
def tcbWord (s : State) (c off i : Nat) : Word := vWord s (vKey c (off + 4 * i) / 4)
def setTcbWord (c off i : Nat) (v : Word) (s : State) : State :=
  let w := vKey c (off + 4 * i) / 4
  { s with vault := wrBytes s.vault (4 * w) v.toNat 4, verr := smSet 0 s.verr w 0 }
def tcbStatus (s : State) (c off : Nat) : Nat := fieldOf (tcbWord s c off 7) 4 3

/-- The task unit's entry for the ready queue's list of priority `p`: a TCB offset, none when the list is empty (R158). -/
def queueEnd (m : SMap Nat) (p : Nat) : Option Nat := match smGet 0 m p with
  | 0 => none
  | n + 1 => some n

/-- Release: the task is READY; it joins the ready queue with the other releases of this work cycle (R158, R159). -/
def release (c off : Nat) (s : State) : State :=
  noteWork c ((setTcbStatus c off 2 s).modCluster c fun x => { x with released := x.released ++ [off], qlen := x.qlen + 1 })

/-- A released task becomes the last of its priority's list (R158). -/
def linkTask (c off : Nat) (s : State) : State :=
  let p := fieldOf (tcbWord s c off 7) 0 2
  let s := setTcbWord c off 9 0 s
  let s := match queueEnd (s.cluster c).tails p with
    | some t => setTcbWord c t 9 (word off) s
    | none => s
  s.modCluster c fun x =>
    { x with
      heads := if queueEnd x.tails p = none then smSet 0 x.heads p (off + 1) else x.heads, tails := smSet 0 x.tails p (off + 1) }

/-- The order of two releases of one work cycle: by the bank of DEPS, then by TCB index (R158). -/
def releaseBefore (a b : Nat) : Bool :=
  let bank := fun o => (o + 20) / 4 % 2048
  decide (bank a < bank b) || (bank a = bank b && decide (a / 64 ≤ b / 64))

/-- The releases of a work cycle join their lists (R158). -/
def linkReleased (c : Nat) (s : State) : State :=
  match (s.cluster c).released with
  | [] => s
  | l => (l.insertionSort fun a b => releaseBefore a b = true).foldl (fun s o => linkTask c o s)
      (s.modCluster c fun x => { x with released := [] })

/-- The head of the highest non-empty priority. -/
def readyHead (s : State) (c : Nat) : Option (Nat × Nat) :=
  [3, 2, 1, 0].findSome? fun p => (queueEnd (s.cluster c).heads p).map (p, ·)

/-- Take the head of priority `p`: the next is what its NEXT names (R158). -/
def takeReady (c p off : Nat) (s : State) : State :=
  let last := queueEnd (s.cluster c).tails p = some off
  let next := (tcbWord s c off 9).toNat + 1
  s.modCluster c fun x =>
    { x with
      heads := smSet 0 x.heads p (if last then 0 else next)
      tails := if last then smSet 0 x.tails p 0 else x.tails, qlen := x.qlen - 1 }

/-- A task starts in slot `k` (R160). -/
def startTask (l : Launch) (k off : Nat) (s : State) : State :=
  let c := unitOf (coreOf k)
  let s := setTcbStatus c off 3 s
  let args := (List.range 4).map fun i => tcbWord s c off (1 + i)
  let entry := tcbWord s c off 0
  startThread l k (fun sl => { sl with pc := entry, g := putRegs sl.g 4 (args ++ [word off]), tcb := some off }) s

/-- The asking slot that a task goes to (R158). -/
def taskTarget (foot : Word) (slots : List Nat) : Option Nat :=
  (if bitOf foot 31 then slots.find? fun k => coreOf k % 1024 / 256 = fieldOf foot 0 2 else none).or slots.head?

/-- Hand out tasks to the asking slots, which stand in flat order. -/
def handOut (l : Launch) (c : Nat) : Nat → List Nat → State → State
  | 0, _, s => s
  | n + 1, slots, s =>
    match readyHead s c with
    | none => s
    | some (p, off) =>
      match taskTarget (tcbWord s c off 8) slots with
      | none => s
      | some k => handOut l c n (slots.filter (· ≠ k)) (startTask l k off (takeReady c p off s))

/-- READY_QUEUE_TAKE: the task unit serves the slots that ask in one wc; one that draws EMPTY goes on to a steal (R148, R158). -/
def execReadyQueueTake (c : Nat) (slots : List Nat) (s : State) : Host.Outcome State Fault Refusal :=
  .next <| match (s.cluster c).launch with
    | none => s
    | some l =>
      let asking := slots.filter fun k => (s.slot k).run = .idle && slotClass s k = 0 && !detSlot l k && unitOf (coreOf k) = c
      let s := handOut l c asking.length asking s
      asking.foldl (fun s k => if (s.slot k).run = .idle then stealAttempt l k s else s) s

/-- The start of the next entry of a slot's deterministic list: entry i of the core's list runs in rank i mod S (R138). -/
def detTask (l : Launch) (k : Nat) (i : Nat) : Option Nat :=
  let p := l.nc * l.ng * 16
  let c := l.vc * l.ng * 16 + coreOf k % 1024
  let n := i * l.ranks + onesBelow l.slotmask (slotIn k)
  let t := match l.dmode with
    | 0 => (let b := (l.ntask + p - 1) / p; if n < b then c * b + n else l.ntask)
    | 1 => c + n * p
    | _ => (n / l.bsize * p + c) * l.bsize + n % l.bsize
  if t < l.ntask then some t else none

/-- A launch thread starts with L = n (R136, R138). -/
def startEntry (l : Launch) (k n : Nat) (s : State) : State :=
  startThread l k (fun sl =>
    { sl with
      pc := l.entry, g := putRegs sl.g 4 ((List.range 8).map fun i => smGet 0 l.args i)
      widLo := (widAt l n).setWidth 32, widHi := (widAt l n >>> 32).setWidth 32 }) s

/-- The next entry of the slot's list starts, if one is left. -/
def nextEntry (l : Launch) (k : Nat) (s : State) : Option State :=
  if !detSlot l k then none
  else (detTask l k (s.slot k).detIdx).map fun t =>
    startEntry l k t (s.modSlot k fun sl => { sl with detIdx := sl.detIdx + 1 })

/-- IDLE_SLOT_WORK_SEARCH: the next deterministic entry, a held continuation, the own deque, the ready queue, a steal (R148, R138,
R155). -/
def execIdleSlotWorkSearch (k : Nat) (s : State) : Host.Outcome State Fault Refusal :=
  .next <|
    let c := coreOf k
    match launchOf s c with
    | none => s
    | some l =>
      if (s.slot k).run ≠ .idle || !usedCore l c || (s.core c).halt || (s.core c).closing || (s.cluster (unitOf c)).owState ≠ 1 then s
      else match nextEntry l k s with
        | some s => s
        | none =>
          if slotClass s k ≠ 0 then s
          else match (s.core c).heldSteal with
            | some e =>
              if (s.core c).stealing then s
              else count c 11 (resumeIn l k e (s.modCore c fun x => { x with heldSteal := none }))
            | none =>
              match stealable s c with
              | some e => resumeIn l k e (modDeque c (fun q => q.erase e) s)
              | none =>
                if detSlot l k then s
                else if (readyHead s (unitOf c)).isSome then
                  let u := unitOf c
                  let asking := ((List.range (16 * l.ng)).flatMap fun i => idleSlots s (1024 * u + i) 0).filter fun k =>
                    !detSlot l k && (stealable s (coreOf k)).isNone && (s.core (coreOf k)).heldSteal.isNone
                  s.push (.readyQueueTake u (if asking.contains k then asking else [k]))
                else stealAttempt l k s

/-- STEAL_REQUEST: the request waits in the victim's mailbox or is answered EMPTY at once (R155). -/
def execStealRequest (v thief : Nat) (s : State) : Host.Outcome State Fault Refusal :=
  .next <|
    let det := match launchOf s v with
      | some l => decide (l.place = 1)
      | none => true
    if det || 4 ≤ (s.core v).mailbox.length || !holdsThread s v then s.push (.stealReply thief)
    else s.modCore v fun x => { x with mailbox := x.mailbox ++ [(thief, 0)] }

/-- The work cycles that a steal request waits in a cluster (R155, R176). -/
def stealLimit (s : State) (v : Nat) : Nat := Nat.max 1 (((launchOf s v).map (·.stealWait)).getD 0x100)

/-- STEAL_TIMEOUT: every request that has waited STEALWAIT is answered EMPTY (R155). -/
def execStealTimeout (v : Nat) (s : State) : Host.Outcome State Fault Refusal :=
  .next <|
    let late := (s.core v).mailbox.filter fun m => decide (stealLimit s v ≤ m.2)
    (s.modCore v fun x => { x with mailbox := x.mailbox.filter fun m => !late.contains m }).pushAll (late.map fun m => .stealReply m.1)

/-- STEAL_REPLY: the thief's lowest idle class-0 slot resumes the entry; without one the reply is held (R155). -/
def execStealReply (thief : Nat) (s : State) : Host.Outcome State Fault Refusal :=
  .next <|
    let c := coreOf thief
    let s := s.modCore c fun x => { x with stealing := false }
    match launchOf s c, (s.core c).heldSteal, (idleSlots s c 0).head? with
    | some l, some e, some k => count c 11 (resumeIn l k e (s.modCore c fun x => { x with heldSteal := none }))
    | _, _, _ => s

/-! ### Remote spawns (R156, R358) -/

/-- REMOTE_SPAWN: the core starts a thread in an idle class-0 slot and answers success (ACK done), else failure (ACK FULL)
(R156, R138). -/
def execRemoteSpawn (c : Nat) (pc : Word) (args : List Word) (req : Packet) (s : State) : Host.Outcome State Fault Refusal :=
  .next <| match launchOf s c with
    | none => replyAck req 1 s
    | some l =>
      let free := (idleSlots s c 0).filter fun k => !detSlot l k
      let free := if (s.core c).heldSteal.isSome then free.drop 1 else free
      match free with
      | k :: _ =>
        if (s.core c).halt || !usedCore l c || (s.cluster (unitOf c)).owState ≠ 1 then replyAck req 1 s
        else replyAck req 0 (startThread l k (fun sl => { sl with pc := pc, g := putRegs sl.g 4 (args.take 4) }) s)
      | [] => replyAck req 1 s

/-- The packet of an RSPAWN: pc and g4 to g7 inline (R53, R156). -/
def spawnPacket (s : State) (c : Nat) (pc : Word) (args : List Word) (cls : Nat) : Packet :=
  { corePacket s s.myCore c with
    opcode := 0x06, cls := BitVec.ofNat 2 cls, inline := BitVec.ofNat 256 (wordsNat (pc :: args)) }

/-- RSPAWN (R358). -/
def execRspawn (d a b : Reg) (s : State) : Host.Outcome State Fault Refusal :=
  instr { cls := true, noBursar := true, src := [a, b, 4, 5, 6, 7], dst := [d] } (do
    let t ← look fun s => launchCore s s.myCore (fieldOf (s.reg a) 0 14)
    match t with
    | none => trap cTASK 8
    | some c => do
      awaitOrder
      awaitQueue
      let p ← look fun s => spawnPacket s c (s.reg b) (s.regs 4 4) s.clsPlain
      upd fun s => enqueueSend s.myCore p (trackRequest s.cur p s)
      park (.rspawn d p.tag.toNat)) s

/-! ### Dependence-counted tasks (R157 to R162, R359, R360) -/

/-- The end of the interleaved view. -/
def viewEnd : Nat := 0x2000000

/-- Any of the words at these offsets of the own vault is uncorrectable (R218). -/
def badWords (s : State) (c : Nat) (offs : List Nat) : Bool := offs.any fun o => vErr s (vKey c o / 4) = 2

/-- TASK_RELEASE_REQUEST: a decrement reached 0 (R359). -/
def execTaskReleaseRequest (c off : Nat) (s : State) : Host.Outcome State Fault Refusal :=
  .next (if tcbStatus s c off = 1 then release c off s else s)

/-- TSUBMIT (R359). -/
def execTsubmit (a : Reg) (s : State) : Host.Outcome State Fault Refusal :=
  instr { cls := true, noBursar := true, src := [a] } (do
    let off ← look fun s => (s.reg a).toNat
    if off % 64 ≠ 0 || viewEnd < off + 64 then trap cTASK 4
    awaitQuiet
    let c ← look State.myUnit
    notePark
    if ← look fun s => badWords s c [off + 20, off + 28] then trap cMEMERR 1
    if ← look fun s => decide (tcbStatus s c off ≠ 0) then trap cTASK 5
    upd fun s =>
      let s := setTcbStatus c off 1 s
      if tcbWord s c off 5 = 0 then release c off s else s
    pure .seq) s

/-- The successors of a TCB; none when the list or a successor is misaligned or outside the vault (R157, R360). -/
def successors (s : State) (c off : Nat) : Option (List Nat) :=
  let p := (tcbWord s c off 6).toNat
  if p = 0 then some []
  else if p % 4 ≠ 0 || viewEnd < p + 4 then none
  else
    let n := (tcbWord s c p 0).toNat
    if 1024 < n || viewEnd < p + 4 * (n + 1) then none
    else
      let l := (List.range n).map fun i => (tcbWord s c p (1 + i)).toNat
      if l.all fun t => t % 64 = 0 && decide (t + 64 ≤ viewEnd) then some l else none

/-- The words that TDONE reads before any effect. -/
def tdoneWords (s : State) (c off : Nat) : List Nat :=
  let p := (tcbWord s c off 6).toNat
  match successors s c off with
  | some l => [off + 24, off + 28] ++ (if p = 0 then [] else (List.range (l.length + 1)).map (p + 4 * ·)) ++ l.flatMap fun t => [t + 20, t + 28]
  | none => [off + 24, off + 28]

/-- One decrement of a successor's DEPS (R160). -/
def depsDown (c : Nat) (s : State) (t : Nat) : State :=
  let v := tcbWord s c t 5
  if v = 0 then setTcbWord c t 7 (tcbWord s c t 7 ||| 0x80) s
  else
    let s := setTcbWord c t 5 (v - 1) s
    if v = 1 then s.push (.taskReleaseRequest c t) else s

/-- TDONE (R160, R360). -/
def execTdone (s : State) : Host.Outcome State Fault Refusal :=
  instr { cls := true, noBursar := true } (do
    match ← look fun s => s.me.tcb with
    | none => trap cTASK 6
    | some off => do
      awaitQuiet
      let c ← look State.myUnit
      if ← look fun s => badWords s c (tdoneWords s c off) then trap cMEMERR 1
      if ← look fun s => decide (tcbStatus s c off = 7) then trap cTASK 5
      match ← look fun s => successors s c off with
      | none => trap cTASK 4
      | some l => do
        if ← look fun s => l.any fun t => tcbStatus s c t = 7 then trap cTASK 5
        notePark
        upd fun s => endThread s.cur (l.foldl (depsDown c) (setTcbStatus c off 4 s))
        pure .taken) s

end Sys2Proof.Machine
end

