-- ==== Sys2Proof/Machine/Messages.lean ====
section
/-! DEFINITION. Messages (R163 to R169, R348 to R351, R425), the end of a thread by HALT (R395), barriers (R170 to R173, R346,
R347). -/

namespace Sys2Proof.Machine

/-! ### Sending (R163, R349) -/

/-- A MSG packet of the core in execution to core `c` (R53, R163; log 48). -/
def messagePacket (s : State) (c : Nat) (typ : Byte) (seq : BitVec 16) (ws : List Word) (reply : Bool) : Packet :=
  { corePacket s s.myCore c with
    opcode := 0x05, cls := BitVec.ofNat 2 s.clsPlain, inline := BitVec.ofNat 256 (wordsNat ws)
    param := word (typ.toNat + seq.toNat * 2 ^ 8 + ws.length * 2 ^ 24 + reply.toNat * 2 ^ 31) }

/-- A packet of the slot in execution enters the core's REQ send queue, and its port keeps it until it is answered (R163, R66). -/
def sendTracked (p : Packet) (s : State) : State := enqueueSend s.myCore p (trackRequest s.cur p s)

/-- What MSEND and MCALL send; they trap on their operands first (R348, R349). -/
def messageOf (d a b : Reg) (cnt : Nat) (call : Bool) : M Packet := do
  let t ← look fun s => launchCore s s.myCore (fieldOf (s.reg a) 0 14)
  let w ← look fun s => s.reg b
  match t with
  | none => trap cTASK 8
  | some c => do
    if call && fieldOf w 0 8 = 0 then trap cTASK 9
    look fun s => messagePacket s c (BitVec.ofNat 8 (fieldOf w 0 8)) (BitVec.ofNat 16 (fieldOf w 16 16)) (s.regs d cnt) call

/-- The form of a MESSAGE instruction. -/
def messageForm (d : Reg) (c : BitVec 3) (src dst : List Reg) : Form :=
  { cls := true, noBursar := true, ranges := [(d, c.toNat + 1)], src := src, dst := dst }

/-- MSEND (R349). -/
def execMsend (d a b : Reg) (c : BitVec 3) (s : State) : Host.Outcome State Fault Refusal :=
  instr (messageForm d c [a, b] []) (do
    let m ← messageOf d a b (c.toNat + 1) false
    awaitOrder
    awaitRoom false
    upd (sendTracked m)
    pure .seq) s

/-- MCALL (R349): it parks until the REPLY. -/
def execMcall (d a b : Reg) (c : BitVec 3) (s : State) : Host.Outcome State Fault Refusal :=
  instr (messageForm d c [a, b] [b]) (do
    let m ← messageOf d a b (c.toNat + 1) true
    awaitOrder
    awaitRoom false
    upd (sendTracked m)
    park (.mcall m.tag.toNat d b (c.toNat + 1))) s

/-- The REPLY of core `c` to the sender of a message, with its tag; the parameter holds the number of words in bits 27:24 and NOREPLY in
bit 31 (log 48). -/
def replyPacket (s : State) (c : Nat) (m : Message) (cls : BitVec 2) (ws : List Word) (none_ : Bool) : Packet :=
  { corePacket s c (m.caller / 2 ^ 16) with
    opcode := 0x44, tag := BitVec.ofNat 16 m.caller, vn := true, cls := cls, inline := BitVec.ofNat 256 (wordsNat ws)
    param := word (ws.length * 2 ^ 24 + none_.toNat * 2 ^ 31) }

/-- MREPLY (R351). -/
def execMreply (d : Reg) (c : BitVec 3) (s : State) : Host.Outcome State Fault Refusal :=
  instr { cls := true, ranges := [(d, c.toNat + 1)] } (do
    let sl ← look State.me
    if !(sl.handler && sl.replyOwed) then trap cTASK 7
    awaitOrder
    awaitRoom true
    upd fun s =>
      let cls := if s.cv then BitVec.ofNat 2 s.clsPlain else sl.msg.cls
      enqueueSend s.myCore (replyPacket s s.myCore sl.msg cls (s.regs d (c.toNat + 1)) false) (s.modMe fun sl => { sl with replyOwed := false })
    pure .seq) s

/-- A core's hardware answers a message with NOREPLY (R165, R168). -/
def sendNoReply (c : Nat) (m : Message) (s : State) : State :=
  if m.reply then enqueueSend c (replyPacket s c m m.cls [] true) s else s

/-- The words of a message as `cnt` registers take them. -/
def fitWords (ws : List Word) (cnt : Nat) : List Word := (List.range cnt).map fun i => ws.getD i 0

/-- A packet answers a request of slot `k`: the REPLY to its MCALL, the answer to its RSPAWN, or an error, which is MEMERR at the
instruction that waits, and deferred where none does (R54, R168, R349, R358). -/
def coreReply (k : Nat) (p : Packet) (s : State) : State :=
  let code := p.err.setWidth 32
  let bad := takeTrapAt k cMEMERR code (s.modSlot k fun sl => { sl with run := .ready })
  let deferred := if (s.slot k).run = .idle then s else s.modSlot k fun sl =>
    { sl with deferred := some (match sl.deferred with
        | some (c, _) => (c, true)
        | none => (p.err, false)) }
  match (s.slot k).run, p.opcode with
  | .parked (.mcall id d b cnt), 0x44 =>
    if id ≠ p.tag.toNat then s
    else
      let n := fieldOf p.param 24 4
      let ws := (List.range n).map fun i => word (fieldOf p.inline (32 * i) 32)
      completeAt k .seq (setRegAt k b (word ((bitOf p.param 31).toNat * 2 ^ 30 + n)) (setRegsAt k d (fitWords ws cnt) s))
  | .parked (.mcall id ..), 0x42 | .parked (.rspawn _ id), 0x42 => if id = p.tag.toNat then bad else deferred
  | .parked (.rspawn d id), 0x41 => if id ≠ p.tag.toNat then s else completeAt k .seq (setRegAt k d (if p.param = 0 then 1 else 0) s)
  | _, 0x42 => deferred
  | _, _ => s

/-- A vault access that is more than a load or a store goes on with its words: a JoinAdd (R151, R152), the slot-class map of a core whose
MSGVEC is written (R165), a segment register, refused where its descriptor is not valid (R232), and a mint block, written whole
(R398). -/
def accessGo (k : Nat) (a : VaultAccess) (s : State) : State :=
  let w := a.data.setWidth 32
  match a.use_ with
  | .join child => joined k child w s
  | .classMap v old =>
    let s := s.modCore (coreOf k) fun c => { c with msgvec := v, classMap := w }
    completeAt k .seq (match old with
      | some (d, x) => setRegAt k d x s
      | none => s)
  | .segment n i =>
    if segValid (isBursar (coreOf k)) (((launchOf s (coreOf k)).map (·.nc)).getD 0) a.data then
      completeAt k .seq (s.modSlot k fun sl => { sl with sg := smSet 0 sl.sg n a.data })
    else takeTrapAt k cSEGRIGHTS (word (0x100 + i)) s
  | .mint =>
    completeAt k .seq (s.modCluster (unitOf (coreOf k)) (setMintBlock fun i =>
      if i < 4 then word (fieldOf a.data (32 * i) 32) else smGet 0 a.more i))
  | _ => completeAt k .seq s

/-- REPLY_ARRIVAL: a packet that answers a request of the slot's, the reply of its vault access, or of a relaxed access. -/
def execReplyArrival (k id : Nat) (s : State) (pkt : Option Packet := none) : Host.Outcome State Fault Refusal :=
  .next <| match pkt with
    | some p => coreReply k p s
    | none =>
      if id ≠ accessId then relaxedReply k id s
      else match (s.slot k).access with
        | some a => if a.left = 0 then accessReply accessGo k a s else s
        | none => s

/-! ### Receiving (R164) -/

/-- Give a type-0 message to a parked or issuing receive. -/
def takeMessage (k : Nat) (d b : Reg) (cnt : Nat) (m : Message) (s : State) : State :=
  setRegAt k b (word m.words.length) (setRegsAt k d (fitWords m.words cnt) s)

/-- The oldest type-0 message that a receive names. -/
def matchMessage (s : State) (c : Nat) (sender : Word) (seq : BitVec 16) : Option Message :=
  (s.core c).rxbuf.find? fun m => m.typ = 0 && m.sender = sender && m.seq = seq

/-- MRECV, MRECVT and MPOLL: a match is taken at once; without one the thread parks, or MPOLL completes (R350). -/
def recvOp (d a b : Reg) (c : BitVec 3) (timeout : State → Option Nat) (poll : Bool) (s : State) : Host.Outcome State Fault Refusal :=
  instr (messageForm d c [a, b] [b]) (fun s =>
    let sender := word (fieldOf (s.reg a) 0 14)
    let seq := BitVec.ofNat 16 (fieldOf (s.reg b) 16 16)
    match matchMessage s s.myCore sender seq with
    | some m =>
      let s := s.modCore s.myCore fun x => { x with rxbuf := x.rxbuf.erase m }
      .ok .seq (takeMessage s.cur d b (c.toNat + 1) m s)
    | none =>
      if poll then .ok .seq (s.setReg b 0x80000000)
      else
        .error (.park (.mrecv sender seq d b (c.toNat + 1) (timeout s)))
          (s.modCore s.myCore fun x => { x with parkedRecv := x.parkedRecv ++ [s.cur] })) s

def execMrecv (d a b : Reg) (c : BitVec 3) (s : State) : Host.Outcome State Fault Refusal := recvOp d a b c (fun _ => none) false s
/-- The timeout x0 counts from work cycle i + 8 of the issue in i; it runs out at the end of i + 7 + x0 (R164). -/
def execMrecvt (d a b : Reg) (c : BitVec 3) (s : State) : Host.Outcome State Fault Refusal :=
  recvOp d a b c (fun s => if s.xreg 0 = 0 then none else some ((s.cluster s.myUnit).cycle.toNat + 7 + (s.xreg 0).toNat)) false s
def execMpoll (d a b : Reg) (c : BitVec 3) (s : State) : Host.Outcome State Fault Refusal := recvOp d a b c (fun _ => none) true s

/-- MRECV_TIMEOUT: the receive completes with NOTRCVD (R164, R350). -/
def execMrecvTimeout (k : Nat) (s : State) : Host.Outcome State Fault Refusal :=
  .next <| match (s.slot k).run with
    | .parked (.mrecv _ _ _ b _ _) => completeAt k .seq (setRegAt k b 0x80000000 (unlist k s))
    | _ => s

/-- The parked receive, the first to park, that names a message. -/
def parkedMatch (s : State) (c : Nat) (m : Message) : Option Nat :=
  (s.core c).parkedRecv.find? fun k => match (s.slot k).run with
    | .parked (.mrecv sender seq ..) => decide (m.sender = sender ∧ m.seq = seq)
    | _ => false

/-! ### Typed messages (R165 to R169) -/

/-- A word of a core's own store at offset V. -/
def ownWord (s : State) (c v : Nat) : Word :=
  let u := unitOf c
  vWord s (vKey u (if isBursar c then v else interleaved v) / 4)

/-- The vector table entry of a type: handler pc and control word (R165). -/
def vectorEntry (s : State) (c : Nat) (typ : Byte) : Word × Word :=
  let base := fieldOf (s.core c).msgvec 11 14 * 2048 + 8 * typ.toNat
  (ownWord s c base, ownWord s c (base + 4))

/-- The descriptor of entry `i` of a bursar core's table; NULL when it is beyond NENT or invalid (R425, R232). -/
def bursarSeg (s : State) (c i : Nat) : BitVec 128 :=
  let t := (s.core c).segtab
  let base := fieldOf t 8 13 * 4096 + 16 * i
  let d := (List.range 4).foldl (fun (a : BitVec 128) w => a ||| ((ownWord s c (base + 4 * w)).setWidth 128 <<< (32 * w))) 0
  if i < fieldOf t 0 8 && segValid true 0 d then d else 0

/-- A handler starts in slot `k` (R167, R425). -/
def startHandler (k : Nat) (m : Message) (s : State) : State :=
  let c := coreOf k
  let regs := fun (g : SMap Word) =>
    putRegs (smSet 0 (smSet 0 g 1 (m.seq.setWidth 32 <<< 16 ||| m.typ.setWidth 32)) 3 m.sender) 4 (fitWords m.words 8)
  let f := fun (sl : Slot) => { sl with pc := m.pc, g := regs sl.g, handler := true, replyOwed := m.reply, msg := m }
  match launchOf s c with
  | some l => startThread l k f s
  | none =>
    let segs := forUp 0 8 ([] : SMap (BitVec 128)) fun i t => smSet 0 t i (bursarSeg s c i)
    let sl := s.slot k
    s.setSlot k (f
      { sg := segs, status := 0x100, run := .ready, busyUntil := sl.busyUntil, nextId := sl.nextId })

/-- The waiting typed message that a slot of class `cls` takes: highest PRIO, oldest first (R167). -/
def bestTyped (s : State) (c cls : Nat) : Option Message :=
  ((s.core c).rxbuf.filter fun m => m.typ ≠ 0 && fieldOf m.ctl 4 2 = cls).foldl (fun b m =>
    match b with
    | none => some m
    | some x => if fieldOf x.ctl 0 2 < fieldOf m.ctl 0 2 then some m else b) none

/-- HANDLER_START: an idle slot takes the waiting message of its class (R167, R148); a halted core starts none (R199). -/
def execHandlerStart (k : Nat) (s : State) : Host.Outcome State Fault Refusal :=
  .next <|
    let c := coreOf k
    if (s.slot k).run ≠ .idle || (s.core c).halt || (!isBursar c && (s.cluster (unitOf c)).owState ≠ 1) then s
    else match bestTyped s c (slotClass s k) with
      | none => s
      | some m => startHandler k m (s.modCore c fun x => { x with rxbuf := x.rxbuf.erase m })

/-- Timers of a core's threads in message mode on type `y` start to count (R189). -/
def startTimers (c : Nat) (y : Byte) (s : State) : State :=
  let hit := fun (t : Timer) => t.armed && t.msgwait && t.typ = y && coreOf t.owner = c
  let owners := ((s.cluster (unitOf c)).timers.filter fun t => hit t.2).map fun t => t.2.owner
  owners.foldl (fun s k => s.modSlot k fun sl => { sl with dlstat := putField sl.dlstat 7 1 0 })
    (s.modCluster (unitOf c) fun x =>
      { x with timers := x.timers.map fun t => if hit t.2 then (t.1, { t.2 with msgwait := false, start := Nat.max t.2.start (nowAt s c + 1) }) else t })

/-- MESSAGE_ARRIVE: a message reaches core `c` (R163 to R167). While the receive buffer is full it waits at the core's port. -/
def execMessageArrive (c : Nat) (m : Message) (s : State) : Host.Outcome State Fault Refusal :=
  .next <|
    let x := s.core c
    if 64 ≤ x.rxbuf.length then s.defer (.messageArrive c m)
    else if m.typ = 0 then
      match parkedMatch s c m with
      | some k =>
        match (s.slot k).run with
        | .parked (.mrecv _ _ d b cnt _) => completeAt k .seq (takeMessage k d b cnt m (unlist k s))
        | _ => s
      | none => s.modCore c fun x => { x with rxbuf := x.rxbuf ++ [m] }
    else
      let e := vectorEntry s c m.typ
      if !bitOf x.msgvec 0 || !bitOf e.2 31 then sendNoReply c m (count c 12 s)
      else
        let m := { m with pc := e.1, ctl := e.2 }
        let s := noteWork (unitOf c) (startTimers c m.typ (s.modCore c fun x => { x with rxbuf := x.rxbuf ++ [m] }))
        s.pushAll ((idleSlots s c (fieldOf e.2 4 2)).map Instr.handlerStart)

/-! ### HALT (R395) -/

def execHalt (s : State) : Host.Outcome State Fault Refusal :=
  instr {} (do
    let sl ← look State.me
    if sl.tcb.isSome then trap cTASK 10
    if sl.icnt ≠ 0 then trap cTASK 11
    await .retired fun s => retiredAll s.cur s
    upd fun s =>
      let s := if sl.handler && sl.replyOwed then sendNoReply s.myCore sl.msg s else s
      let s := if sl.handler then s else s.modCore s.myCore fun x => { x with count := x.count + 1 }
      endThread s.cur s
    pure .taken) s

/-! ### Barriers (R170 to R173, R346, R347) -/

def barrierOf (s : State) (c : Nat) (b : BitVec 5) : Barrier := smGet {} (s.cluster c).barriers b.toNat
def modBarrier (c : Nat) (b : BitVec 5) (f : Barrier → Barrier) (s : State) : State :=
  s.modCluster c fun x => { x with barriers := smMod {} x.barriers b.toNat f }

/-- The number of members. -/
def Barrier.members (x : Barrier) : Nat := onesBelow x.cores 1024 * onesBelow x.slots 16
/-- Member (core, slot), as 16 × core in cluster + slot. -/
def Barrier.isMember (x : Barrier) (n : Nat) : Bool := bitOf x.cores (n / 16) && bitOf x.slots (n % 16)

/-- Generation `n` is complete (R172). -/
def Barrier.complete (x : Barrier) (n : Word) : Bool := !bitOf (x.gen - 1 - n) 31

/-- Write a statement record at offset V of the own vault; word 19 is written last and set full (R173). -/
def writeStatement (c : Nat) (x : Barrier) (s : State) : State :=
  match x.stm0 with
  | [] => s
  | a :: r =>
    let off := (r.foldl (fun (m : Nat × List Word × Word) e => if e.1 < m.1 then e else m) a).2.2.toNat
    let sums := (List.range 16).map fun i =>
      word (Nat.min ((x.stm0.map fun e => (e.2.1.getD i 0).toNat).sum) 0xFFFFFFFF)
    let put := fun (s : State) (e : Word × Nat) => setTcbWord c (interleaved (off + 4 * e.2)) 0 e.1 s
    let s := ([x.gen, word x.stm0.length] ++ sums ++ [0, 1]).zipIdx.foldl put s
    vSetFull (vKey c (interleaved (off + 76)) / 4) true s

/-- Wake the BARWs of barrier `b` whose generation is complete (R172). -/
def barrierWake (c : Nat) (b : BitVec 5) (s : State) : State :=
  let x := barrierOf s c b
  s.slots.foldl (fun s e =>
    match e.2.run with
    | .parked (.barw n gen d) =>
      if n = b && unitOf (coreOf e.1) = c && x.complete gen then completeAt e.1 .seq (setRegAt e.1 d x.sumLast s) else s
    | _ => s) s

/-- The generation GEN completes when every member has arrived (R171). -/
def barrierStep (c : Nat) (b : BitVec 5) (s : State) : State :=
  let x := barrierOf s c b
  if x.arr0.length < x.members || x.arr0 = [] then s
  else
    barrierWake c b <| modBarrier c b (fun x =>
      { x with
        sumLast := x.sum0, gen := x.gen + 1, arr0 := x.arr1, sum0 := x.sum1, stm0 := x.stm1, arr1 := [], sum1 := 0, stm1 := [] })
      (writeStatement c x s)

/-- Why an arrival traps: it is no member (1), or has arrived for GEN and GEN + 1 (2) (R171). -/
def arrivalError (x : Barrier) (n : Nat) : Option Word :=
  if !x.isMember n then some 1 else if x.arr0.contains n && x.arr1.contains n then some 2 else none

/-- An arrival at the clearing network (R171); `rec` is BARSTMT's offset with the member's counters taken at the arrival. -/
def arrive (c : Nat) (b : BitVec 5) (n : Nat) (v : Word) (rec : Option Word) (s : State) : State :=
  let x := barrierOf s c b
  let ctrs := (List.range 16).map fun i => smGet 0 (s.core (1024 * c + n / 16)).counters i
  let stm := (rec.map fun o => (n, ctrs, o)).toList
  if x.arr0.contains n then
    modBarrier c b (fun x => { x with arr1 := x.arr1 ++ [n], sum1 := x.sum1 + v, stm1 := x.stm1 ++ stm }) s
  else
    barrierStep c b (modBarrier c b (fun x => { x with arr0 := x.arr0 ++ [n], sum0 := x.sum0 + v, stm0 := x.stm0 ++ stm }) s)

/-- BARRIER_ARRIVAL: the clearing network applies an arrival that it admits (R171). -/
def execBarrierArrival (c : Nat) (b : BitVec 5) (n : Nat) (v : Word) (rec : Option Word) (s : State) :
    Host.Outcome State Fault Refusal :=
  .next (if (arrivalError (barrierOf s c b) n).isSome then s else arrive c b n v rec s)

/-- A record of `n` bytes lies in the own vault (R346). -/
def recordOk (o n : Nat) : Bool := o % 4 = 0 && decide (o + n ≤ 0x4000000)

/-- The arrivals: the thread waits as in step 1 of R152, arrives, and takes the generation it arrived for (R347). -/
def arrivalOp (d : Reg) (b : BitVec 5) (src : List Reg) (v : State → Word) (rec : State → Option Word) (s : State) :
    Host.Outcome State Fault Refusal :=
  instr { noBursar := true, src := src, dst := [d] } (do
    let off ← look rec
    match off with
    | some o => if !recordOk o.toNat 80 then trap cBARRIER 3
    | none => pure ()
    awaitQuiet
    await .sendHeld fun s => (s.core s.myCore).sendReq.length < 8
    notePark
    let n ← look fun s => 16 * (s.myCore % 1024) + slotIn s.cur
    let x ← look fun s => barrierOf s s.myUnit b
    match arrivalError x n with
    | some e => trap cBARRIER e
    | none => do
      upd fun s => (arrive s.myUnit b n (v s) off s).setReg d (if x.arr0.contains n then x.gen + 1 else x.gen)
      pure .seq) s

def execBara (d : Reg) (n : BitVec 5) (s : State) : Host.Outcome State Fault Refusal :=
  arrivalOp d n [] (fun _ => 0) (fun _ => none) s
def execBarsum (d a : Reg) (n : BitVec 5) (s : State) : Host.Outcome State Fault Refusal :=
  arrivalOp d n [a] (fun s => s.reg a) (fun _ => none) s
def execBarstmt (d a : Reg) (n : BitVec 5) (s : State) : Host.Outcome State Fault Refusal :=
  arrivalOp d n [a] (fun _ => 0) (fun s => some (s.reg a)) s

/-- BARW (R172, R347). -/
def execBarw (d a : Reg) (n : BitVec 5) (s : State) : Host.Outcome State Fault Refusal :=
  instr { noBursar := true, src := [a], dst := [d] } (do
    awaitOrder
    let x ← look fun s => barrierOf s s.myUnit n
    let g ← look fun s => s.reg a
    if x.complete g then do
      notePark
      upd fun s => s.setReg d x.sumLast
      pure .seq
    else park (.barw n g d)) s

/-- BARCFG (R170, R347). -/
def execBarcfg (a : Reg) (n : BitVec 5) (s : State) : Host.Outcome State Fault Refusal :=
  instr { noBursar := true, src := [a] } (do
    let o ← look fun s => (s.reg a).toNat
    if !recordOk o 132 then trap cBARRIER 3
    await .relaxed fun s => s.me.relaxed.isEmpty
    awaitOrder
    notePark
    let ws ← (List.range 33).mapM fun i => ownRead (o + 4 * i)
    let cores := (ws.take 32).foldr (fun w (m : BitVec 1024) => (m <<< 32) ||| w.setWidth 1024) 0
    let slots := BitVec.ofNat 16 (ws.getD 32 0).toNat
    let x ← look fun s => barrierOf s s.myUnit n
    let g ← look fun s => ((launchOf s s.myCore).map (·.ng)).getD 64
    if x.arr0 ≠ [] || x.arr1 ≠ [] then trap cBARRIER 4
    if cores = 0 || slots = 0 then trap cBARRIER 5
    if cores >>> (16 * g) ≠ 0 then trap cBARRIER 6
    upd fun s => modBarrier s.myUnit n (fun x => { x with cores := cores, slots := slots }) s
    pure .seq) s

end Sys2Proof.Machine
end

