-- ==== Sys2Proof/Machine/System.lean ====
section
/-! DEFINITION. The SYSTEM group (R389 to R398), C.YIELD (R302), and the CSR group with the CSR map (R399 to R405). -/

namespace Sys2Proof.Machine

/-! ### Traps and returns (R390 to R392) -/

def execSyscall (s : State) : Host.Outcome State Fault Refusal := instr {} (trap cSYSCALL) s

/-- The core halts at a BREAK (R200). -/
def haltAtBreak (s : State) : State :=
  s.modCore s.myCore fun c => { c with halt := true, brkhit := true, bslot := BitVec.ofNat 4 (slotIn s.cur) }

def execBrk (s : State) : Host.Outcome State Fault Refusal :=
  instr {} (fun s => if (s.core s.myCore).brkhalt then .ok .seq (haltAtBreak s) else .error (.trap cBREAK 0) s) s

/-- ERET and DRET outside a handler are ILLEGAL (R391). -/
def returnOp (step : Bool) (s : State) : Host.Outcome State Fault Refusal :=
  instr {} (fun s => if bitOf s.me.status 0 then .ok .taken (returnFromTrap step s) else .error (.trap cILLEGAL s.me.ir) s) s

def execEret (s : State) : Host.Outcome State Fault Refusal := returnOp false s
def execDret (s : State) : Host.Outcome State Fault Refusal := returnOp true s

/-! ### Waits (R393, R394) -/

/-- The work cycle in which the slot's instruction issues. -/
def State.now (s : State) : Nat := (s.cluster s.myUnit).cycle.toNat

def execWait (d a : Reg) (s : State) : Host.Outcome State Fault Refusal :=
  instr { src := [a], dst := [d] } (fun s =>
    if s.reg a = 0 then .ok .seq (s.setReg d 0) else .error (.park (.wait (s.now + 8 + (s.reg a).toNat) d)) s) s

/-- The thread is BUSY until the end of its first own cycle at least 8 wc away (R394). -/
def yieldOp (s : State) : Host.Outcome State Fault Refusal := instrUpd {} (fun s => s.modMe fun sl => { sl with yielding := true }) s

def execYield (s : State) : Host.Outcome State Fault Refusal := yieldOp s
def execCYield (s : State) : Host.Outcome State Fault Refusal := yieldOp s

/-! ### Segment registers (R232, R396) -/

/-- Write s[n]. -/
def State.setSeg (s : State) (n : Nat) (d : BitVec 128) : State := s.modMe fun sl => { sl with sg := smSet 0 sl.sg n d }

def execSegld (n : BitVec 3) (a : Reg) (s : State) : Host.Outcome State Fault Refusal :=
  instr { illegal := n = 0, src := [a] } (do
    let i ← look fun s => (s.reg a).toNat
    let t ← look fun s => (s.core s.myCore).segtab
    let u ← look fun s => decide (s.prv = 0)
    let b ← look fun s => isBursar s.myCore
    if fieldOf t 0 8 ≤ i then trap cSEGLIMIT (word i)
    if u && fieldOf t 24 8 ≤ i then trap cSEGRIGHTS (word i)
    let base := fieldOf t 8 13 * 4096 + 16 * i
    if b && 0x400000 < base + 16 then trap cSEGLIMIT (word i)
    awaitOrder
    let rq ← look fun s => rqOf s.myCore 1 s
    let pl ← look fun s => ownPlace s base
    vaultAccess rq pl .load base 1 { use_ := .segment n.toNat i } 16 fun _ => .read) s

def execSegrd (d : Reg) (n : BitVec 3) (s : State) : Host.Outcome State Fault Refusal :=
  instrUpd { ranges := [(d, 4)] } (fun s =>
    setRegsAt s.cur d ((List.range 4).map fun w => word (fieldOf (s.seg n.toNat) (32 * w) 32)) s) s

def execSegnull (n : BitVec 3) (s : State) : Host.Outcome State Fault Refusal :=
  instrUpd { illegal := n = 0 } (fun s => s.setSeg n.toNat 0) s

/-! ### Translation invalidation (R240, R397) -/

/-- An entry that TLBINV names: its page overlaps the range; no range is every entry. -/
def tlbNamed (va pages : Nat) (e : TlbEntry) : Bool :=
  pages = 0 || (decide (e.va < va + 4096 * pages) && decide (va < e.va + pageBytes e.size))

/-- Remove the named entries of a cluster's second-level TLB and of its cores'. -/
def tlbRemove (c va pages : Nat) (s : State) : State :=
  let keep := fun (l : List TlbEntry) => l.filter fun e => !tlbNamed va pages e
  let s := s.modCluster c fun x => { x with tlb2 := keep x.tlb2 }
  { s with cores := s.cores.map fun e => (e.1, if unitOf e.1 = c then { e.2 with tlb := keep e.2.tlb } else e.2) }

/-- TLB_INVALIDATION: the second-level TLB of cluster `c` carries out the request of slot `k` and answers (R240). A context that is
not loaded names no entry. -/
def execTlbInvalidation (c k : Nat) (s : State) : Host.Outcome State Fault Refusal :=
  .next <| match (s.slot k).run with
    | .parked (.tlbinv b vi va pages) =>
      let loaded := match (s.cluster c).ctx with
        | some (b', vi') => b = b' && (b || vi = vi')
        | none => false
      completeAt k .seq (if loaded then tlbRemove c va pages s else s)
    | _ => s

def execTlbinv (a b : Reg) (s : State) : Host.Outcome State Fault Refusal :=
  instr { priv := true, src := [a, b] } (do
    let c ← look fun s => fieldOf (s.reg a) 0 4
    let n ← look fun s => s.reg b
    let va ← look fun s => (s.xreg 0).toNat + fieldOf (s.xreg 1) 0 24 * 2 ^ 32
    let pages ← look fun s => (s.xreg 2).toNat
    awaitOrder
    awaitQueue
    let rq ← look fun s => rqOf s.myCore 1 s
    home .other 0 (overRoute rq.router rq.ep (64 * c) 0x0B 0 false fun s =>
      if s.partOf (dieOfCluster c) ≠ rq.part then refuse rq (64 * c) 0x53 0 0x0B s else .ok () s)
    upd fun s => s.push (.tlbInvalidation c s.cur)
    park (.tlbinv (bitOf n 31) (fieldOf n 0 7) va pages)) s

/-! ### Mint blocks (R222, R398) -/

/-- The places of the 384 words of a mint block at s[n] + g[a]. -/
def mintPlaces (n : Nat) (a : Reg) (acc : Access) : M (List (Nat × Place)) := do
  let d ← look fun s => s.seg n
  let o ← look fun s => (s.reg a).toNat
  if o % 64 ≠ 0 then trap cMISALIGN (word o)
  let ad ← segCheck d o 1536 4 acc
  (List.range 384).mapM fun i => do
    let p ← resolve d (ad + 4 * i) acc
    pure (ad + 4 * i, p)

def execMintld (a : Reg) (n : BitVec 3) (s : State) : Host.Outcome State Fault Refusal :=
  instr { noBursar := true, priv := true, base := some a } (do
    let ps ← mintPlaces n.toNat a aLoad
    awaitOrder
    if ps.any fun p => !p.2.quick then awaitQueue
    let rq ← look fun s => rqOf s.myCore (s.clsOf (s.seg n.toNat)) s
    if ps.all fun p => p.2.isVault then
      vaultAccessAll rq .load ((ps.headD (0, .io 0)).1) 1 { use_ := .mint } (ps.map (·.2)) fun _ => .read
    notePark
    let ws ← ps.mapM fun p => do
      mintTest p.2 4
      home .load p.1 (placeRead rq p.2 4)
    upd fun s => s.modCluster s.myUnit (setMintBlock fun i => word (ws.getD i 0))
    pure .seq) s

/-- Stores that have no effect unless all of them are performed: memory stands as before when one of them traps (R7, R192). -/
def wholly (x : M Unit) : M Unit := fun s =>
  match x s with
  | .ok a s' => .ok a s'
  | .error e s' =>
    .error e { s' with
      slices := s.slices, mem := s.mem, memFull := s.memFull, flips := s.flips, vault := s.vault, vfull := s.vfull, verr := s.verr }

def execMintsv (a : Reg) (n : BitVec 3) (s : State) : Host.Outcome State Fault Refusal :=
  instr { noBursar := true, priv := true, base := some a } (do
    let ps ← mintPlaces n.toNat a aStore
    awaitOrder
    if ps.any fun p => !p.2.quick then awaitQueue
    let rq ← look fun s => rqOf s.myCore (s.clsOf (s.seg n.toNat)) s
    let c ← look fun s => s.cluster s.myUnit
    if ps.all fun p => p.2.isVault then
      vaultAccessAll rq .store ((ps.headD (0, .io 0)).1) 2 {} (ps.map (·.2)) fun i => .write 0xF (mintBlockWord c i)
    notePark
    wholly (do
      let _ ← ps.zipIdx.mapM fun p => home .store p.1.1 (placeWrite rq p.1.2 4 (mintBlockWord c p.2).toNat)
      pure ())
    pure .seq) s

/-! ### The CSR map (R401 to R405) -/

/-- The numbers of the map at or above 0x100, absent on a bursar core (R404, R425). -/
def csrSuper (c : Nat) : Bool := c = 0x120 || c = 0x122 || (decide (0x180 ≤ c) && decide (c < 0x300))

/-- The number exists on this core (R400, R401, R405). -/
def csrExists (bursar : Bool) (c : Nat) : Bool :=
  [0x000, 0x001, 0x002, 0x003, 0x004, 0x005, 0x010, 0x011, 0x012, 0x013, 0x021, 0x030, 0x031, 0x040, 0x041, 0x042, 0x043, 0x050,
    0x051, 0x070, 0x071].contains c || (decide (0x060 ≤ c) && decide (c < 0x070)) || (!bursar && csrSuper c)

/-- SLOTID (R402): PCL is hidden in the U view; what the fields above SLOT hold on a bursar core no rule gives. -/
def slotId (s : State) : Word :=
  let k := s.cur
  if isBursar s.myCore then (Config.freeWord s.fresh &&& 0x3FFFF0) ||| word (slotIn k)
  else
    word (slotIn k + s.myCore % 1024 * 2 ^ 4 + (((launchOf s s.myCore).map (·.vc)).getD 0) * 2 ^ 14 +
      (if s.prv = 0 then 0 else s.myUnit * 2 ^ 18))

/-- ROTMODE.MODE as it was last written or set (R5, R404). -/
def rotWritten (c : Cluster) : Bool := ((c.rotNext.getLast?).map (·.2)).getD c.rotmode

/-- The value of a CSR in the view of the slot in execution. CYCLE is the count as it stands in WB, 7 wc after issue (R403). -/
def csrValue (s : State) (c : Nat) : Word :=
  let sl := s.me
  let x := s.core s.myCore
  match c with
  | 0x000 => sl.status &&& 0xFFFF0307
  | 0x001 => sl.epc
  | 0x002 => sl.ecause &&& 0xFF
  | 0x003 => sl.eval
  | 0x004 => x.tvec
  | 0x005 => sl.escratch
  | 0x010 => slotId s
  | 0x011 => sl.widLo
  | 0x012 => sl.widHi
  | 0x013 => x.widshape
  | 0x021 => sl.qmap
  | 0x030 => x.segtab
  | 0x031 => x.msgvec
  | 0x040 => sl.fmtdef
  | 0x041 => x.srkeyLo
  | 0x042 => x.srkeyHi
  | 0x043 => sl.fflags
  | 0x050 => timerLeft (settleTimer s)
  | 0x051 => (settleTimer s).me.dlstat
  | 0x070 => word (s.now + 7)
  | 0x071 => sl.cyclehLatch
  | 0x120 => ofBit 32 (rotWritten (s.cluster s.myUnit))
  | 0x122 => clthr s s.myUnit
  | _ =>
    if 0x060 ≤ c ∧ c < 0x070 then smGet 0 x.counters (c - 0x060)
    else if 0x180 ≤ c then mintBlockWord (s.cluster s.myUnit) (c - 0x180)
    else 0

/-- The effect of a read on the state: a read of CYCLE latches its upper half (R403). -/
def csrReadStep (c : Nat) (s : State) : State :=
  if c = 0x070 then s.modMe fun sl => { sl with cyclehLatch := word ((s.now + 7) / 2 ^ 32) }
  else if c = 0x010 && isBursar s.myCore then { s with fresh := s.fresh + 1 }
  else s

/-- Write the writable fields of a CSR in the view of the slot in execution (R5, R402). A write of MSGVEC that enables it parks until the
core has loaded its slot-class map; `old` is then the register of the old value (R165, R400). -/
def csrWrite (c : Nat) (v : Word) (old : Option (Reg × Word)) : M Unit := do
  let slot := fun (f : Slot → Slot) => upd fun s => s.modMe f
  let core := fun (f : Core → Core) => upd fun s => s.modCore s.myCore f
  match c with
  | 0x000 => slot fun sl => { sl with status := (sl.status &&& 0x0000FFFA) ||| (v &&& 0xFFFF0005) }
  | 0x001 => slot fun sl => { sl with epc := v }
  | 0x002 => slot fun sl => { sl with ecause := v &&& 0xFF }
  | 0x003 => slot fun sl => { sl with eval := v }
  | 0x004 => core fun x => { x with tvec := v }
  | 0x005 => slot fun sl => { sl with escratch := v }
  | 0x021 => do
    let marks ← look fun s => s.me.marks
    match (List.range 4).find? fun i => bitOf v i && bitOf marks (28 + i) with
    | some i => trap cQUEUEMAP (word (28 + i))
    | none => slot fun sl => { sl with qmap := v &&& 0xF }
  | 0x030 => do
    let u ← look fun s => decide (s.prv = 0)
    if u then pure () else core fun x => { x with segtab := v &&& 0xFF1FFFFF }
  | 0x031 => do
    let b ← look fun s => isBursar s.myCore
    let base := fieldOf v 11 14 * 2048
    if !bitOf v 0 then do
      notePark
      core fun x => { x with msgvec := v &&& 0x01FFF801, classMap := 0 }
    else if b && 0x400000 < base + 4 then trap cSEGLIMIT (word base)
    else do
      awaitOrder
      let rq ← look fun s => rqOf s.myCore 1 s
      let pl ← look fun s => ownPlace s base
      vaultAccess rq pl .load base 3 { use_ := .classMap (v &&& 0x01FFF801) old } 4 fun _ => .read
  | 0x040 => slot fun sl => { sl with fmtdef := v &&& 0x7FF }
  | 0x041 => core fun x => { x with srkeyLo := v }
  | 0x042 => core fun x => { x with srkeyHi := v }
  | 0x043 => slot fun sl => { sl with fflags := v &&& 0x3F }
  | 0x120 => upd fun s => s.modCluster s.myUnit fun x => { x with rotNext := x.rotNext ++ [(s.now + 39, bitOf v 0)] }
  | 0x122 => upd fun s => s.push (.clthrWrite s.myUnit none (some v))
  | _ =>
    if 0x060 ≤ c ∧ c < 0x070 then core fun x => { x with counters := smSet 0 x.counters (c - 0x060) v }
    else if 0x180 ≤ c ∧ c < 0x200 then do
      awaitOrder
      notePark
      upd fun s => s.modCluster s.myUnit fun x => { x with mint := smSet 0 x.mint (c - 0x180) v }
    else if 0x200 ≤ c then do
      awaitOrder
      notePark
      upd fun s => s.modCluster s.myUnit fun x => { x with freq := smSet 0 x.freq (c - 0x200) v }
    else pure ()

/-- The form of a CSR instruction (R111, R399, R400). -/
def csrForm (s : State) (c : BitVec 12) (src dst : List Reg) : Form :=
  { illegal := !csrExists (isBursar s.myCore) c.toNat, priv := decide (0x100 ≤ c.toNat), privEval := c.setWidth 32, src := src
    dst := dst }

/-- FFLAGS waits until the thread's matrix and conversion instructions have retired (R268). -/
def csrAwait (c : Nat) : M Unit :=
  if c = 0x043 then
    await .retired fun s =>
      let e := s.engine (groupOf s.myCore)
      !(e.queue.any fun x => x.slot = s.cur) && !(e.cmd.any fun x => x.slot = s.cur) && !(e.retiring.any fun x => x.1 = s.cur)
  else pure ()

def execCsrr (d : Reg) (c : BitVec 12) (s : State) : Host.Outcome State Fault Refusal :=
  instr (csrForm s c [] [d]) (do
    csrAwait c.toNat
    upd fun s => (csrReadStep c.toNat s).setReg d (csrValue s c.toNat)
    pure .seq) s

def execCsrw (a : Reg) (c : BitVec 12) (s : State) : Host.Outcome State Fault Refusal :=
  instr (csrForm s c [a] []) (do
    csrAwait c.toNat
    let v ← look fun s => s.reg a
    csrWrite c.toNat v none
    pure .seq) s

def execCsrx (d a : Reg) (c : BitVec 12) (s : State) : Host.Outcome State Fault Refusal :=
  instr (csrForm s c [a] [d]) (do
    csrAwait c.toNat
    let v ← look fun s => s.reg a
    let old ← look fun s => csrValue s c.toNat
    upd (csrReadStep c.toNat)
    csrWrite c.toNat v (some (d, old))
    upd fun s => s.setReg d old
    pure .seq) s

/-- CSRM: an empty mask writes nothing. -/
def execCsrm (v m : Reg) (c : BitVec 12) (s : State) : Host.Outcome State Fault Refusal :=
  instr (csrForm s c [v, m] []) (do
    csrAwait c.toNat
    let x ← look fun s => s.reg v
    let k ← look fun s => s.reg m
    let old ← look fun s => csrValue s c.toNat
    if k = 0 then pure () else csrWrite c.toNat ((old &&& ~~~k) ||| (x &&& k)) none
    pure .seq) s

end Sys2Proof.Machine
end

