-- ==== Sys2Proof/Machine/Walk.lean ====
section
/-! DEFINITION. Page-table walks and the TLBs (R234 to R240, R45), the translation that engines use (R277), and instruction fetch
(R184, R231, R296). -/

namespace Sys2Proof.Machine

/-! ### Walks (R234 to R236) -/

/-- A leaf is well formed for the level it stands at (R235 to R237). -/
def leafOk (lvl : Nat) (l : BitVec 64) : Bool :=
  let z := leafSize l
  let ppn := fieldOf l 28 36
  (if lvl = 4 then decide (z ≤ 5) else if lvl = 3 then decide (6 ≤ z ∧ z ≤ 10) else lvl = 2 && z = 11) &&
  fieldOf l 24 4 = 0 && leafPlaceMode l ≠ 3 && leafKind l ≠ 3 && (leafPlaceMode l ≠ 0 || fieldOf l 18 4 = 0) &&
  (match leafKind l with
   | 0 => decide (ppn * 4096 < 2 ^ 39) && ppn % 4 ^ z = 0
   | 1 => fieldOf l 61 3 = 0 && fieldOf l 28 27 % 4 ^ z = 0
   | _ => decide (2 ^ 39 ≤ ppn * 4096) && ppn % 4 ^ z = 0 && leafPlaceMode l = 0 && !bitOf l 9)

/-- A home for a page-table line: HASH over subset 63 of the partition (R234). -/
def tableHome (rq : Rq) (pa : Nat) : HM Nat := do
  match ← physical rq pa with
  | .home sl _ => pure sl
  | _ => deny

/-- The walker's compare-and-swap of a FIRST-TOUCH leaf: the slice of the group that asked, placement PIN (R43, R45, R240). -/
def firstTouch (sl ea grp : Nat) (l : BitVec 64) : HM (BitVec 64) := do
  if leafKind l = 0 && leafPlaceMode l = 2 then do
    let l' := putField (putField l 10 2 1) 12 10 grp
    homeWrite sl ea 8 l'.toNat
    pure l'
  else pure l

/-- Walk the levels left, each with its number and the lowest index bit; none is NOTPRESENT (R234, R236). -/
def walkLevels (rq : Rq) (grp va : Nat) : List (Nat × Nat) → Nat → HM (Option (BitVec 64))
  | [], _ => pure none
  | (lvl, sh) :: r, table => do
    let ea := table + 8 * (va / 2 ^ sh % 2048)
    let sl ← tableHome rq ea
    let v ← overRoute rq.router rq.ep sl 1 ea rq.bulk (homeRead sl ea 8)
    let e := BitVec.ofNat 64 v
    if !bitOf e 0 then pure none
    else if bitOf e 1 then
      if fieldOf e 48 16 ≠ 0 || fieldOf e 2 12 ≠ 0 then pure none
      else walkLevels rq grp va r (fieldOf e 14 34 * 0x4000)
    else if leafOk lvl e then do
      let l ← overRoute rq.router rq.ep sl 3 ea rq.bulk (firstTouch sl ea grp e)
      pure (some l)
    else pure none

/-- A walk in the context of cluster `c` for core `core` (R234). -/
def walkTree (c core va : Nat) : HM (Option (BitVec 64)) := fun s =>
  let root := (s.cluster c).root
  if !bitOf root 0 || fieldOf root 48 16 ≠ 0 || fieldOf root 1 13 ≠ 0 then .ok none s
  else walkLevels (rqUnit (64 * c) 0x53 false s) (groupOf core) va [(1, 45), (2, 34), (3, 23), (4, 12)] (fieldOf root 14 34 * 0x4000) s

/-! ### TLBs (R239) -/

/-- The second-level TLB's set of a page: VA[20 + 2z:12 + 2z]. -/
def tlb2Set (z va : Nat) : Nat := va / pageBytes z % 512

/-- Remove the least recently used of the entries that satisfy `p` when there are `n` of them. -/
def tlbMake (n : Nat) (p : TlbEntry → Bool) (l : List TlbEntry) : List TlbEntry :=
  let ws := l.filter p
  if ws.length < n then l
  else match ws with
    | [] => l
    | w :: r => l.erase (r.foldl (fun a e => if e.used < a.used then e else a) w)

/-- Install a translation in the second-level TLB of cluster `c`. -/
def tlb2Install (c va : Nat) (leaf : BitVec 64) (s : State) : State :=
  let z := leafSize leaf
  s.modCluster c fun x =>
    let e : TlbEntry := { va := va / pageBytes z * pageBytes z, size := z, leaf := leaf, used := x.tlbStamp + 1 }
    { x with
      tlbStamp := x.tlbStamp + 1
      tlb2 := tlbMake 16 (fun y => y.size = z && tlb2Set z y.va = tlb2Set z va)
        (x.tlb2.filter fun y => !(y.size = z && y.va = e.va)) ++ [e] }

/-- Install a translation in a core's first-level TLB. -/
def tlb1Install (core va : Nat) (leaf : BitVec 64) (s : State) : State :=
  let z := leafSize leaf
  s.modCore core fun x =>
    let e : TlbEntry := { va := va / pageBytes z * pageBytes z, size := z, leaf := leaf, used := x.stamp + 1 }
    { x with
      stamp := x.stamp + 1
      tlb := tlbMake 256 (fun _ => true) (x.tlb.filter fun y => !(y.size = z && y.va = e.va)) ++ [e] }

/-- The second-level TLB's entry for an address. -/
def tlb2Find (x : Cluster) (va : Nat) : Option TlbEntry :=
  x.tlb2.find? fun e => va / pageBytes e.size = e.va / pageBytes e.size

/-- A slot that waits for a line or a translation issues again; a DEADLINE waits for its completion (R184, R185, R190). -/
def wakeFill (k va : Nat) (s : State) : State :=
  if (s.slot k).run = .parked (.fill va) then s.modSlot k fun sl => { sl with run := .ready, reissue := true } else s

/-- TLB2_LOOKUP: a hit answers; a miss enters the walker queue, which holds 256 (R239). -/
def execTlb2Lookup (k va : Nat) (acc : Access) (s : State) : Host.Outcome State Fault Refusal :=
  .next <|
    let core := coreOf k
    let c := unitOf core
    match tlb2Find (s.cluster c) va with
    | some e =>
      let s := s.modCluster c fun x =>
        { x with tlbStamp := x.tlbStamp + 1, tlb2 := x.tlb2.map fun y => if y = e then { y with used := x.tlbStamp + 1 } else y }
      wakeFill k va (tlb1Install core va e.leaf s)
    | none =>
      if 256 ≤ (s.cluster c).walkQueue.length then s.defer (.tlb2Lookup k va acc)
      else (s.modCluster c fun x => { x with walkQueue := x.walkQueue ++ [{ slot := k, va := va, acc := acc }] }).push (.walk c)

/-- End slot `k`'s wait for a translation with a stop. -/
def fillStop (k va : Nat) (st : Stop) (s : State) : State :=
  if (s.slot k).run = .parked (.fill va) then
    finish k (.error st (s.modSlot k fun sl => { sl with run := .ready }))
  else s

/-- The fault that a walked leaf gives the access that missed: RIGHTS, then PLACEMENT (R44, R238). -/
def walkFault (s : State) (core va : Nat) (acc : Access) (l : BitVec 64) : Option Nat :=
  if !leafAllows l acc then some 2
  else if (leafTarget s (s.partOf (dieOfCluster (unitOf core))) l va).isNone then some 3 else none

/-- WALK: a walker serves the oldest miss; misses of the same page join it (R239). A walk that ends in a fault installs nothing
(log 38); one whose line or route is held goes on later, while others are served. -/
def execWalk (c : Nat) (s : State) : Host.Outcome State Fault Refusal :=
  .next <| match (s.cluster c).walkQueue with
    | [] => s
    | r :: rest =>
      let s := s.modCluster c fun x => { x with walkQueue := rest }
      match tlb2Find (s.cluster c) r.va with
      | some e => wakeFill r.slot r.va (tlb1Install (coreOf r.slot) r.va e.leaf s)
      | none =>
        match walkTree c (coreOf r.slot) r.va s with
        | .ok (some l) s =>
          (match walkFault s (coreOf r.slot) r.va r.acc l with
          | some kind =>
            fillStop r.slot r.va (.pageFault r.acc.kind kind r.va)
              (if kind = 3 then logPlacement (coreOf r.slot) l r.acc.kind r.va s else s)
          | none => wakeFill r.slot r.va (tlb1Install (coreOf r.slot) r.va l (tlb2Install c r.va l s)))
        | .ok none s => fillStop r.slot r.va (.pageFault r.acc.kind 1 r.va) s
        | .error (.wait o) _ => (o.touch (s.modCluster c fun x => { x with walkQueue := x.walkQueue ++ [r] })).defer (.walk c)
        | .error e s => fillStop r.slot r.va (.trap cMEMERR (e.code.setWidth 32)) s

/-- How an engine's access ends other than well: a fault kind of R238, an error code, an access that cannot be made yet, or words to be
read through the line ports, and over the mesh, first (R207, R217). -/
inductive EngStop where
  | fault (kind va : Nat)
  | err (code : BitVec 5)
  | wait (o : Obst)
  | lines (near far : List Nat)
  deriving DecidableEq, Repr

/-- A computation of an engine. -/
abbrev EM := EStateM EngStop State

/-- A home's answer to an engine: REMAP-EXHAUSTED of this device's own controller is a fault (R33, R196). -/
def engHome {α : Type} (va : Nat) (x : HM α) : EM α := fun s =>
  match x s with
  | .ok a s => .ok a s
  | .error (.err c) s => .error (.err c) s
  | .error .fenced s => .error (.fault 4 va) s
  | .error (.wait o) s => .error (.wait o) s

/-- Translate an engine's address through the cluster TLB, walking at once on a miss (R277, R239). -/
def engTranslate (core : Nat) (acc : Access) (va : Nat) : EM Place := fun s =>
  let c := unitOf core
  let use := fun (l : BitVec 64) (s : State) =>
    if !leafAllows l acc then EStateM.Result.error (.fault 2 va) s
    else match leafTarget s (s.partOf (dieOfCluster c)) l va with
      | some p => .ok p s
      | none => .error (.fault 3 va) (logPlacement core l acc.kind va s)
  match tlb2Find (s.cluster c) va with
  | some e => use e.leaf s
  | none =>
    match walkTree c core va s with
    | .ok (some l) s =>
      (match use l s with
      | .ok p s => .ok p (tlb2Install c va l s)
      | .error e s => .error e s)
    | .ok none s => .error (.fault 1 va) s
    | .error (.wait o) s => .error (.wait o) s
    | .error e s => .error (.err e.code) s

/-! ### Fetch (R184, R231, R296) -/

/-- What a fetch at a slot's pc finds. -/
inductive Fetch where
  | code (bits : Word) (len : Nat)
  | stop (st : Stop)
  /-- A first-level TLB miss, or an instruction cache miss, at this address. -/
  | tlbMiss (va : Nat)
  | lineMiss (va : Nat)
  deriving DecidableEq, Repr

/-- The cached line that holds an address. -/
def icFind (c : Core) (va : Nat) : Option ICLine := c.icache.find? fun l => l.va = va / 64 * 64

/-- One halfword at offset `o` of s0: the value, or what stops the fetch. -/
def fetchHalf (s : State) (k : Nat) (o : Word) : Except Fetch Nat :=
  let core := coreOf k
  let d := smGet 0 (s.slot k).sg 0
  match segTest (isBursar core) d o.toNat 2 2 aFetch with
  | some c => .error (.stop (.trap c o))
  | none =>
    let va := segBase d + o.toNat
    match icFind (s.core core) va with
    | some l => .ok (fieldOf l.data (8 * (va % 64)) 16)
    | none =>
      if isBursar core then .error (.lineMiss va)
      else match tlbFind (s.core core) va with
        | none => .error (.tlbMiss va)
        | some e =>
          if !leafAllows e.leaf aFetch then .error (.stop (.pageFault .fetch 2 va))
          else match leafTarget s (s.partOf (dieOfCluster (unitOf core))) e.leaf va with
            | none => .error (.stop (.pageFault .fetch 3 va))
            | some _ => .error (.lineMiss va)

/-- The instruction at slot `k`'s pc. -/
def fetchAt (s : State) (k : Nat) : Fetch :=
  let pc := (s.slot k).pc
  match fetchHalf s k pc with
  | .error f => f
  | .ok h =>
    if h % 2 = 0 then .code (word h) 2
    else match fetchHalf s k (pc + 2) with
      | .error f => f
      | .ok h2 => .code (word (h + 65536 * h2)) 4

/-- Put a line into a core's instruction cache: 32 sets of 4 ways, least recently used first out (R184). -/
def icInstall (core va : Nat) (data : Line) (s : State) : State :=
  s.modCore core fun x =>
    let set := fun (a : Nat) => a / 64 % 32
    let la := va / 64 * 64
    let ls := x.icache.filter fun l => l.va ≠ la
    let ws := ls.filter fun l => set l.va = set la
    let ls := if ws.length < 4 then ls else match ws with
      | [] => ls
      | w :: r => ls.erase (r.foldl (fun a e => if e.used < a.used then e else a) w)
    { x with stamp := x.stamp + 1, icache := ls ++ [{ va := la, data := data, used := x.stamp + 1 }] }

/-- ICACHE_FILL: the line of an address arrives and the thread issues again (R184, R425). No range of I/O is fetched from
(R233). -/
def execIcacheFill (k va : Nat) (s : State) : Host.Outcome State Fault Refusal :=
  .next <|
    let core := coreOf k
    let rq := rqOf core 1 s
    let la := va / 64 * 64
    let pl := if isBursar core then some (Place.vault (unitOf core) la false)
      else (tlbFind (s.core core) la).bind fun e => leafTarget s (s.partOf (dieOfCluster (unitOf core))) e.leaf la
    match pl with
    | none => wakeFill k va s
    | some p =>
      match (match p with
        | .io pa => ioRefuse rq pa 1
        | p => placeRead rq p 64) s with
      | .ok v s => wakeFill k va (icInstall core la (BitVec.ofNat 512 v) s)
      | .error (.wait o) _ => (o.touch s).defer (.icacheFill k va)
      | .error .fenced s => fillStop k va (.pageFault .fetch 4 va) s
      | .error (.err c) s => fillStop k va (.trap cMEMERR (c.setWidth 32)) s

/-- FETCH_FAILURE: the fetch at the pc of the slot in execution fails with its own cause (R296). -/
def execFetchFailure (s : State) : Host.Outcome State Fault Refusal :=
  .next <| match fetchAt s s.cur with
  | .stop st =>
    finish s.cur (.error st (match st with
      | .pageFault _ 3 va =>
        match tlbFind (s.core s.myCore) va with
        | some e => logPlacement s.myCore e.leaf .fetch va s
        | none => s
      | _ => s))
  | _ => s

/-- ILLEGAL_ENCODING: a word outside the opcode and format tables (R6, R300). -/
def execIllegalEncoding (s : State) : Host.Outcome State Fault Refusal := .next (takeTrap cILLEGAL s.me.ir s)

end Sys2Proof.Machine
end

