-- ==== Sys2Proof/Machine/Tiles.lean ====
section
/-! DEFINITION. What the commands of a matrix engine share: tiles (R281), operands (R366), the places of an operand and their
reads and writes (R274, R367), and retirement (R273, R268). A command runs with its slot in execution. -/

namespace Sys2Proof.Machine

/-! ### Tiles (R281) -/

/-- Element k = 16i + j of tile `t`. -/
def Engine.tileAt (e : Engine) (t k : Nat) : Word := smGet 0 e.tiles (256 * t + k)

/-- The 256 words of a tile. -/
def Engine.tile (e : Engine) (t : Nat) : List Word := (List.range 256).map (e.tileAt t)

/-- Replace the words of a tile. -/
def tilePut (m : SMap Word) (t : Nat) (l : List Word) : SMap Word :=
  (m.filter fun p => p.1 < 256 * t) ++ ((l.take 256).mapIdx fun k w => (256 * t + k, w)).filter (fun p => p.2 ≠ 0) ++
    m.filter fun p => 256 * (t + 1) ≤ p.1

/-- The engine of the slot in execution. -/
def State.myEngine (s : State) : Engine := s.engine (groupOf s.myCore)
def State.modMyEngine (s : State) (f : Engine → Engine) : State := s.modEngine (groupOf s.myCore) f

/-- Write tiles from number `t` on. -/
def putTiles (t : Nat) : List (List Word) → M Unit
  | [] => pure ()
  | l :: r => do
    upd fun s => s.modMyEngine fun e => { e with tiles := tilePut e.tiles t l }
    putTiles (t + 1) r

/-- A tile as the engine holds it now. -/
def getTile (t : Nat) : M (List Word) := look fun s => s.myEngine.tile t

/-- The active latch (R278). -/
def Engine.active (e : Engine) : Latch := if e.act then e.l1 else e.l0
def Engine.modActive (e : Engine) (f : Latch → Latch) : Engine := if e.act then { e with l1 := f e.l1 } else { e with l0 := f e.l0 }
def Engine.modInactive (e : Engine) (f : Latch → Latch) : Engine := if e.act then { e with l0 := f e.l0 } else { e with l1 := f e.l1 }

/-- MATRIX with a cause of R283. -/
def matrixTrap {α : Type} (code : Nat) : M α := trap cMATRIX (word code)

/-! ### Operands (R366) -/

/-- Accesses of the engine (R196, R238). -/
def aEngR : Access := { kind := .matrix, r := true }
def aEngW : Access := { kind := .matrix, w := true }
def aEngF : Access := { kind := .matrix, w := true, fe := true }

/-- A test of a memory operand: the cause and EVAL of its first stop. -/
abbrev Test := Option (Nat × Word)

/-- A range that needs no alignment. -/
def bytesTest (bursar : Bool) (d : BitVec 128) (o n : Nat) (acc : Access) : Test :=
  (segTest bursar d o n 1 acc).map fun c => (c, word o)

/-- A row operand at issue; an operand of no rows has no range. -/
def rowsTest (bursar : Bool) (d : BitVec 128) (o rows pitch len : Nat) (acc : Access) : Test :=
  if o % 4 ≠ 0 || pitch % 4 ≠ 0 then some (cMISALIGN, word o)
  else if rows = 0 then none
  else bytesTest bursar d o ((rows - 1) * pitch + len) acc

/-- The place of a cause in the order of R192. -/
def causeRank (c : Nat) : Nat := if c = cMISALIGN then 0 else if c = cSEGLIMIT then 1 else if c = cSEGRIGHTS then 2 else 3

/-- The test that comes first when several operands fail: by cause, then in the order given (R192). -/
def firstTest : List Test → Test
  | [] => none
  | t :: r => match t, firstTest r with
    | none, x => x
    | some a, none => some a
    | some a, some b => if causeRank b.1 < causeRank a.1 then some b else some a

/-- Trap as the tests say. -/
def tests (l : List Test) : M Unit :=
  match firstTest l with
  | some (c, v) => trap c v
  | none => pure ()

/-- The one row operand of a command of the engine, which no bursar core has (R425). -/
def operCheck (d : BitVec 128) (o rows pitch len : Nat) (acc : Access) : M Unit := tests [rowsTest false d o rows pitch len acc]

/-- Cut `n` bytes at `a` at the boundaries of lines. -/
def lineParts (a n : Nat) : List (Nat × Nat) :=
  if n = 0 then []
  else (List.range ((a % 64 + n + 63) / 64)).map fun i =>
    let lo := Max.max a (64 * (a / 64 + i))
    (lo, Min.min (a + n) (64 * (a / 64 + i + 1)) - lo)

/-- The parts of a row operand, rows ascending. -/
def rowParts (d : BitVec 128) (o rows pitch len : Nat) : List (Nat × Nat) :=
  (List.range rows).flatMap fun r => lineParts (segBase d + o + r * pitch) len

/-- A translation of the engine as an outcome of its command (R282). -/
def ofEng {α : Type} (x : EM α) : M α := fun s =>
  match x s with
  | .ok a s => .ok a s
  | .error (.fault k va) s => .error (.pageFault .matrix k va) s
  | .error (.err c) s => .error (.trap cMEMERR (c.setWidth 32)) s
  | .error (.wait o) s => .error (.park (.cond (.access o))) s
  | .error (.lines near far) s => .error (.lines near far) s

/-- The place of an address that a descriptor covers. -/
def engPlace (d : BitVec 128) (acc : Access) (va : Nat) : EM Place := fun s =>
  if segType d = 3 || segType d = 4 then
    if 0x4000000 ≤ va then .ok (.mint s.myUnit va) s
    else if segOwn d then .ok (.vault s.myUnit (interleaved va) false) s
    else .ok (.vault (clusterNamed s d) (interleaved va) true) s
  else engTranslate s.myCore acc va s

/-- No part lies in a DISABLED mint window (R221, R274). -/
def mintOpen (d : BitVec 128) (ps : List (Nat × Nat)) : M Unit := fun s =>
  if (segType d = 3 || segType d = 4) &&
      ps.any fun p => decide (0x4000000 ≤ p.1) && (mintBlocked (s.cluster s.myUnit) p.1 p.2).isSome
  then .error (.trap cMATRIX 5) s
  else .ok () s

/-- Ranges of an operand lie wholly in the group-local view of the own banks of group `g`: it uses the line ports (R366, R205). -/
def nearParts (g : Nat) (d : BitVec 128) (ps : List (Nat × Nat)) : Bool :=
  let lo := 0x2000000 + g % 64 * 0x80000
  (segType d = 3 || segType d = 4) && segOwn d && ps.all fun p => decide (lo ≤ p.1) && decide (p.1 + p.2 ≤ lo + 0x80000)

/-- A part of an operand: its address, its bytes, its place, and the class of its accesses. A vault that the line ports do not reach is
on the global path (R366). -/
structure OpPart where
  va : Nat
  n : Nat
  pl : Place
  cls : Nat
  deriving DecidableEq, Repr

/-- The places of ranges of an operand, whose accesses use the line ports or the global path. -/
def partPlacesBy (near : Bool) (d : BitVec 128) (acc : Access) : List (Nat × Nat) → M (List OpPart)
  | [] => pure []
  | (va, n) :: r => do
    let p ← ofEng (engPlace d acc va)
    let cls ← look fun s => (s.myEngine.cmd.bind (·.cls)).getD (segClass d)
    let rest ← partPlacesBy near d acc r
    pure ({ va := va, n := n, cls := cls, pl := match p with
      | .vault u o _ => .vault u o !near
      | p => p } :: rest)

/-- The places of an operand's ranges. -/
def partPlaces (d : BitVec 128) (acc : Access) (ps : List (Nat × Nat)) : M (List OpPart) := do
  partPlacesBy (← look fun s => nearParts (groupOf s.myCore) d ps) d acc ps

/-- The engine as the requester of a part's accesses: endpoint 0x4 of its group's router (R48). -/
def OpPart.rq (p : OpPart) (s : State) : Rq := rqUnit (groupOf s.myCore) 0x40 (p.cls = 0) s

/-- The vault words of a part, and whether they are reached over the mesh. -/
def OpPart.words (p : OpPart) : List Nat :=
  match p.pl with
  | .vault u o _ => wordsOf (vKey u o) p.n
  | _ => []
def OpPart.far (p : OpPart) : Bool :=
  match p.pl with
  | .vault _ _ f => f
  | _ => false

/-- The route to a remote port and back takes a packet, and the port has room (R217). -/
def portOpen (rq : Rq) (pl : Place) (opcode : Nat) : HM Unit :=
  atPlace rq pl opcode fun s =>
    if portFull s ((pl.router).getD 0) then .error (.wait (.port ((pl.router).getD 0))) s else .ok () s

/-- The bytes of a part from the words read, as the command's own writes have left them. -/
def OpPart.value (p : OpPart) (io : LineIO) : M Nat := do
  let ws ← p.words.mapM fun w => match io.got.lookup w with
    | some none => trap cMEMERR 1
    | some (some v) => pure ((io.puts.filter fun q => q.word = w).foldl (fun v q => maskWord q.mask v q.data) v)
    | none => pure 0
  pure (ws.foldr (fun v a => v.toNat + 2 ^ 32 * a) 0 / 256 ^ p.pl.lane % 256 ^ p.n)

/-- Read parts in order; the first byte is lowest. -/
def readEach : List OpPart → M Nat
  | [] => pure 0
  | p :: r => do
    let v ← match p.pl with
      | .vault .. => do p.value (← look fun s => s.myEngine.io)
      | pl => do home .matrix p.va (placeRead (← look p.rq) pl p.n)
    let rest ← readEach r
    pure (v + 256 ^ p.n * rest)

/-- Read parts: the vault words that the engine does not hold yet are read through the line ports, and over the mesh, first (R207,
R217); the command begins again when it holds them. -/
def readParts (ps : List OpPart) : M Nat := do
  let io ← look fun s => s.myEngine.io
  let miss := ps.map fun p => (p, p.words.filter fun w => (io.got.lookup w).isNone)
  let want := fun (far : Bool) => ((miss.filter fun m => m.1.far = far).flatMap (·.2)).dedup
  if miss.any fun m => m.2 ≠ [] then do
    (miss.filter fun m => m.1.far && m.2 ≠ []).forM fun m => do
      home .matrix m.1.va (portOpen (← look m.1.rq) m.1.pl 1)
    throw (.lines (want false) (want true))
  else readEach ps

/-- A source operand: mint test, translations, reads (R274). -/
def readOperand (d : BitVec 128) (o rows pitch len : Nat) : M Nat := do
  let ps := rowParts d o rows pitch len
  mintOpen d ps
  readParts (← partPlaces d aEngR ps)

/-- A place some bytes further on. -/
def Place.plus (p : Place) (n : Nat) : Place :=
  match p with
  | .vault u o r => .vault u (o + n) r
  | .home sl pa => .home sl (pa + n)
  | p => p

/-- Set the words full that a part covers. -/
def fillPart (n : Nat) (pl : Place) (off : Nat) (s : State) : State :=
  forUp 0 ((off % 4 + n + 3) / 4) s fun i s => placeSetFull (pl.plus (4 * i)) true s

/-- The words that writing the low bytes of `v` to a part stores, each with its mask. -/
def OpPart.puts (p : OpPart) (setFull late : Bool) (v : Nat) : List LinePut :=
  let lane := p.pl.lane
  p.words.mapIdx fun i w =>
    { word := w, data := word (v % 256 ^ p.n * 256 ^ lane / 2 ^ (32 * i)), setFull := setFull, late := late, far := p.far
      mask := BitVec.ofNat 4 ((2 ^ p.n - 1) * 2 ^ lane / 16 ^ i) }

/-- A write of an engine as one of its command's: an ERR reply is answered, and one that is held waits. -/
def engWrote {α : Type} (x : HM α) : M (Option (BitVec 5)) := fun s =>
  match x s with
  | .ok _ s => .ok none s
  | .error (.wait o) s => .error (.park (.cond (.access o))) s
  | .error e s => .ok (some e.code) s

/-- Write one part: a vault's words go to the line ports, and over the mesh, when the command has come to its end. -/
def writePart (setFull late : Bool) (p : OpPart) (v : Nat) : M (Option (BitVec 5)) :=
  match p.pl with
  | .vault .. => do
    let e ← if p.far then engWrote (portOpen (← look p.rq) p.pl 2) else pure none
    if e.isSome then pure e
    else do
      upd fun s => s.modMyEngine fun x => { x with io := { x.io with puts := x.io.puts ++ p.puts setFull late v } }
      pure none
  | pl => do
    let e ← engWrote (placeWrite (← look p.rq) pl p.n (v % 256 ^ p.n))
    upd fun s => if setFull && e.isNone then fillPart p.n pl p.va s else s
    pure e

/-- Write parts in order from the bytes of `v`; an ERR reply loses its own part only (R367). The first code is answered. -/
def writeParts (setFull : Bool) : List OpPart → Nat → M (Option (BitVec 5))
  | [], _ => pure none
  | p :: r, v => do
    let e ← writePart setFull false p v
    let rest ← writeParts setFull r (v / 256 ^ p.n)
    pure (e.or rest)

/-- MEMERR for a write that drew an ERR reply (R367). -/
def wroteAll (e : Option (BitVec 5)) : M Unit :=
  match e with
  | none => pure ()
  | some c => trap cMEMERR (word (c.toNat + 1024))

/-- A destination operand of rows that are already translated. -/
def writeOperand (setFull : Bool) (ps : List OpPart) (v : Nat) : M Unit := do
  wroteAll (← writeParts setFull ps v)

/-- The own vault, and the mint view above it, as a descriptor (R374, R376, R378). -/
def ownSeg : BitVec 128 := putField (putField (0 : BitVec 128) 56 3 3) 107 1 1

/-- A part of a structure of `len` bytes at the own vault's natural offset `lo`. -/
def ownParts (lo len : Nat) (acc : Access) (ps : List (Nat × Nat)) : M (List OpPart) := do
  partPlacesBy (← look fun s => nearParts (groupOf s.myCore) ownSeg [(lo, len)]) ownSeg acc ps

/-- Read `n` bytes at `v` of the own vault, or of the mint view above it. -/
def readOwn (v n : Nat) : M Nat := do
  let ps := lineParts v n
  mintOpen ownSeg ps
  readParts (← ownParts v n aEngR ps)

/-- Write `n` bytes at `v` of a structure of the own vault. -/
def writeOwn (lo len v n x : Nat) : M Unit := do
  writeOperand false (← ownParts lo len aEngW (lineParts v n)) x

/-- Write a status word and set it full, after every other write of the command (R286). -/
def writeStatus (lo len : Nat) (w : Word) : M Unit := do
  let ps ← ownParts lo len aEngF [(lo, 4)]
  let es ← ps.mapM fun p => writePart true true p w.toNat
  wroteAll (es.findSome? id)

/-- Set or clear the full/empty bit of an own word. -/
def ownFull (v : Nat) (b : Bool) : M Unit := upd fun s => placeSetFull (ownPlace s v) b s

/-- The full/empty bit of an own word. -/
def ownIsFull (v : Nat) : M Bool := look fun s =>
  match ownPlace s v with
  | .vault u o _ => vFullOf s (vKey u o / 4)
  | _ => true

/-! ### Retirement (R273, R268) -/

/-- What a command shows, as the word its retirement keeps: flags, NaN, draws. -/
def packFx (f : Fx) : Word := word (f.fl.toNat + 64 * f.nan.toNat + 128 * Nat.min f.draws 0xFFFFFF)
def unpackFx (w : Word) : Fx := { fl := BitVec.ofNat 6 w.toNat, nan := bitOf w 6, draws := w.toNat / 128 }

/-- The mark of an MRING whose step is not complete. -/
def ringMark : Word := 0xFFFFFFFF

/-- A command that writes only engine state has committed: it retires later. -/
def commitLater (f : Fx) : M Next := fun s =>
  let g := groupOf s.myCore
  .ok .seq ((s.modEngine g fun e => { e with retiring := e.retiring ++ [(s.cur, packFx f)] }).push (.matrixRetire g))

/-- A command that writes vault or memory, and a solver command, retires when it commits, with the last of its writes. -/
def commitNow (f : Fx) : M Next := fun s =>
  .ok .seq (if s.myEngine.io.puts = [] then s.raise f
    else s.modMyEngine fun e => { e with io := { e.io with fx := packFx f } })

/-! ### Element-wise results -/

/-- FP32 result of an exact operation, RNE (R284, R286). -/
def flAdd (x y : Word) : Word × Fx := fp32Step (vAdd false (ofFp32 x) (ofFp32 y))
def flSub (x y : Word) : Word × Fx := fp32Step (vAdd false (ofFp32 x) (ofFp32 y).neg)
def flMul (x y : Word) : Word × Fx := fp32Step (vMul (ofFp32 x) (ofFp32 y))

/-- 256 words with what they show, from a function of the element's number. -/
def tileOf (f : Nat → Word × Fx) : List Word × Fx :=
  let l := (List.range 256).map f
  (l.map (·.1), fxAll (l.map (·.2)))

/-- An integer clamped to `w` bits as a code, with OV when clamped. -/
def satCode (w : Nat) (v : Int) : Nat × Fx :=
  let lo : Int := -(2 ^ (w - 1))
  let hi : Int := 2 ^ (w - 1) - 1
  let c := if v < lo then lo else if hi < v then hi else v
  ((c % 2 ^ w).toNat, { fl := if c = v then 0 else fOV })

end Sys2Proof.Machine
end

