-- ==== Sys2Proof/Machine/Multiply.lean ====
section
/-! DEFINITION. Commands that load tiles, latches and scales, the operand ring's arrival, and multiply-accumulate
(R269 to R271, R275 to R282, R368 to R373). -/

namespace Sys2Proof.Machine

/-! ### Formats of the engine (R275, R276, R370, R373) -/

def isCf8 (f : Nat) : Bool := f = 15
def isCx (f : Nat) : Bool := f = 13 || f = 14
def isInt (f : Nat) : Bool := f = 11 || f = 12
/-- MX and CF8 need K to be a multiple of 32. -/
def isBlocked (f : Nat) : Bool := isMx f || isCf8 f

/-- KMAX of a format (R275). -/
def kMax (f : Nat) : Nat :=
  match f with
  | 0 => 16 | 1 => 32 | 2 => 32 | 13 => 16 | 14 => 16
  | _ => 64

/-- The set of narrow floating formats of R276. -/
def isNarrow (f : Nat) : Bool := (3 ≤ f && f ≤ 9) || f = 15

/-- The pair of formats is allowed (R276). -/
def pairOk (a b : Nat) : Bool := a = b || (isNarrow a && isNarrow b) || (isInt a && isInt b)

/-- Bytes of `n` elements of a format. -/
def elemBytes (f n : Nat) : Nat := n * elemBits f / 8

/-- Rows and row bytes of an MLDB operand (R370). -/
def ldbShape (f k : Nat) : Nat × Nat := if isCf8 f then (k / 32, 512) else (k, elemBytes f 16)

/-- K is outside the limits of one format. -/
def kBad (f k : Nat) : Bool := k = 0 || decide (kMax f < k) || (isBlocked f && k % 32 ≠ 0)

/-! ### Loads (R369 to R372) -/

def runZero (td : Tile) : M Next := do
  putTiles td.toNat [List.replicate 256 0]
  commitLater {}

def runMovt (td ta : Tile) : M Next := do
  putTiles td.toNat [← getTile ta.toNat]
  commitLater {}

def runRsn (d : Reg) : M Next := do
  upd fun s => s.setReg d s.myEngine.rsn
  commitLater {}

/-- MLDB: the active latch's elements and tag (R370, R278). -/
def runLdb (c : MCmd) : M Next := do
  let k := fieldOf c.x0 0 7
  let sh := ldbShape c.fb k
  let v ← readOperand c.seg c.off.toNat sh.1 c.x1.toNat sh.2
  upd fun s => s.modMyEngine fun e => e.modActive fun l => { l with elems := BitVec.ofNat 8192 v, tag := some (c.fb, k) }
  commitLater {}

/-- MLDS: 32 scale bytes of the A rows or of the active latch's columns (R371). -/
def runLds (c : MCmd) (b : Bool) : M Next := do
  let v ← readOperand c.seg c.off.toNat 1 0 32
  let w := BitVec.ofNat 256 v
  upd fun s => s.modMyEngine fun e => if b then e.modActive fun l => { l with scales := w } else { e with scaleA := w }
  commitLater {}

/-- MWRA: 16 rows widened to words (R372); a conversion shows a NaN (R265, R201). -/
def runWra (c : MCmd) (td : Tile) : M Next := do
  let len := elemBytes c.fa 16
  let v ← readOperand c.seg c.off.toNat 16 c.x1.toNat len
  let wide := fun x => if c.fa = 0 then (word x, {}) else toFp32 rneCtx 0 (elemVal c.fa x)
  let l := (List.range 16).flatMap fun i => (rowElems c.fa v (len * i) 16).map wide
  putTiles td.toNat [l.map (·.1)]
  commitLater (fxAll (l.map (·.2)))

/-- MRING: the arrival for the next step; the last arrival of the quadrant carries it out (R279, R369). -/
def runRing : M Next := fun s =>
  let g := groupOf s.myCore
  let s := s.modEngine g fun e => { e with arrivals := e.arrivals + 1, retiring := e.retiring ++ [(s.cur, ringMark)] }
  let all := (List.range 16).all fun i => (s.engine (g / 16 * 16 + i)).arrivals ≠ (s.engine (g / 16 * 16 + i)).rsn
  .ok .seq (if all then s.push (.ringStep (g / 16)) else s)

/-! ### Multiply-accumulate (R269 to R271, R373) -/

/-- The exact sum of products of one k-group; an exact zero is −0 only when every product is. -/
def groupSum (neg : Bool) (ps : List (Val × Val)) : Val :=
  ps.foldl (fun acc p =>
    let q := (vMul p.1 p.2).1
    (vAdd false acc (if neg then q.neg else q)).1) (.zero true)

/-- One k-group added to an accumulator word, with its two roundings (R269, R270). -/
def groupStep (neg : Bool) (sc : Val → Val) (ps : List (Val × Val)) (c : Word) : Word × Fx :=
  let p := fp32Step (sc (groupSum neg ps), false)
  let r := flAdd c p.1
  (r.1, p.2.or r.2)

/-- The two scale bytes of row or column `i`. -/
def scalePair (f : Nat) (w : BitVec 256) (i : Nat) (h : Nat) : Option Nat :=
  if isMx f then some (fieldOf w (8 * (2 * i + h)) 8) else none

/-- Scale by a block's E8M0 byte where the format has one. -/
def byScale (o : Option Nat) (v : Val) : Val :=
  match o with
  | some b => scaled b v
  | none => v

/-- All k-groups of one element: rows are cut into groups of 16; group `g` has scale block g div 2. -/
def dotSteps (neg : Bool) (sc : Nat → Val → Val) : Nat → Nat → List (Val × Val) → Word → Word × Fx
  | 0, _, _, c => (c, {})
  | n + 1, g, ps, c =>
    let r := groupStep neg (sc (g / 2)) (ps.take 16) c
    let t := dotSteps neg sc n (g + 1) (ps.drop 16) r.1
    (t.1, r.2.or t.2)

/-- The A rows of an operand and the latch's B columns as values; what decoding shows. -/
def aRows (fa k v : Nat) : List (List Val) × Fx :=
  let l := (List.range 16).map fun i => rowVals fa v (elemBytes fa k * i) k
  (l.map (·.1), fxAll (l.map (·.2)))

def bCols (fb k : Nat) (v : Nat) : List (List Val) × Fx :=
  if isCf8 fb then
    let l := (List.range 16).map fun j =>
      let bs := (List.range (k / 32)).map fun h => rowVals 15 v (512 * h + 32 * j) 32
      (bs.flatMap (·.1), fxAll (bs.map (·.2)))
    (l.map (·.1), fxAll (l.map (·.2)))
  else
    let rows := (List.range k).map fun i => rowElems fb v (elemBytes fb 16 * i) 16
    ((List.range 16).map fun j => rows.map fun r => elemVal fb (r.getD j 0), {})

/-- A tile of FP32 accumulations. -/
def mmaFloat (neg : Bool) (fa fb k : Nat) (sa sb : BitVec 256) (old : Nat → Word) (a b : List (List Val)) : List Word × Fx :=
  tileOf fun e =>
    let i := e / 16
    let j := e % 16
    let sc := fun h v => byScale (scalePair fb sb j h) (byScale (scalePair fa sa i h) v)
    dotSteps neg sc ((k + 15) / 16) 0 ((a.getD i []).zip (b.getD j [])) (old e)

/-- A tile of integer accumulations modulo 2^32. -/
def mmaInt (neg : Bool) (old : Nat → Word) (term : Nat → Nat → Int) : List Word :=
  (List.range 256).map fun e =>
    let p := term (e / 16) (e % 16)
    old e + wordI (if neg then -p else p)

/-- The exact sum of products of two integer rows. -/
def dotInt (a b : List Int) : Int := ((a.zip b).map fun p => p.1 * p.2).sum

/-- The parts of complex elements: 16-bit halves, real part low. -/
def cxInt (part x : Nat) : Int := sInt 16 (x / 2 ^ (16 * part) % 2 ^ 16)
def cxVal (part x : Nat) : Val := fFP16.decode (x / 2 ^ (16 * part) % 2 ^ 16)

/-- Complex products of FP16 parts as terms of one sum: real part ar × br, −ai × bi; imaginary part ar × bi, ai × br. -/
def cxTerms (part : Nat) (a b : List Nat) : List (Val × Val) :=
  (a.zip b).flatMap fun p =>
    if part = 0 then [(cxVal 0 p.1, cxVal 0 p.2), ((cxVal 1 p.1).neg, cxVal 1 p.2)]
    else [(cxVal 0 p.1, cxVal 1 p.2), (cxVal 1 p.1, cxVal 0 p.2)]

/-- MMA, MMAS and MMAZ (R373). -/
def runMma (c : MCmd) (kind : Nat) (td : Tile) : M Next := do
  let k := fieldOf c.x0 0 7
  let e ← look State.myEngine
  if e.active.tag ≠ some (c.fb, k) then matrixTrap 4
  else do
    let t := td.toNat
    let pair := if isCx c.fa then 2 else 1
    upd fun s => s.modMyEngine fun e =>
      { e with escrow := (List.range pair).foldl (fun m p => tilePut m p (e.tile (t + p))) e.escrow }
    let v ← readOperand c.seg c.off.toNat 16 c.x1.toNat (elemBytes c.fa k)
    let old := fun (p x : Nat) => if kind = 2 then (0 : Word) else (e.tile (t + p)).getD x 0
    let neg := decide (kind = 1)
    let b := e.active.elems.toNat
    let el := elemBytes c.fa k
    if isCx c.fa then
      let ar := (List.range 16).map fun i => rowElems c.fa v (el * i) k
      let rows := (List.range k).map fun i => rowElems c.fb b (64 * i) 16
      let bc := (List.range 16).map fun j => rows.map fun r => r.getD j 0
      if c.fa = 13 then
        let term := fun (part i j : Nat) =>
          let p := fun (x y : Nat) => dotInt ((ar.getD i []).map (cxInt x)) ((bc.getD j []).map (cxInt y))
          if part = 0 then p 0 0 - p 1 1 else p 0 1 + p 1 0
        putTiles t [mmaInt neg (old 0) (term 0), mmaInt neg (old 1) (term 1)]
        commitLater {}
      else
        let part := fun (p : Nat) => tileOf fun x =>
          groupStep neg id (cxTerms p (ar.getD (x / 16) []) (bc.getD (x % 16) [])) (old p x)
        putTiles t [(part 0).1, (part 1).1]
        commitLater ((part 0).2.or (part 1).2)
    else if isInt c.fa then
      let ar := (List.range 16).map fun i => (rowElems c.fa v (el * i) k).map (sInt (elemBits c.fa))
      let rows := (List.range k).map fun i => (rowElems c.fb b (elemBytes c.fb 16 * i) 16).map (sInt (elemBits c.fb))
      let bc := (List.range 16).map fun j => rows.map fun r => r.getD j 0
      putTiles t [mmaInt neg (old 0) fun i j => dotInt (ar.getD i []) (bc.getD j [])]
      commitLater {}
    else
      let a := aRows c.fa k v
      let bb := bCols c.fb k b
      let r := mmaFloat neg c.fa c.fb k e.scaleA e.active.scales (old 0) a.1 bb.1
      putTiles t [r.1]
      commitLater (r.2.or (a.2.or bb.2))

end Sys2Proof.Machine
end

