-- ==== Sys2Proof/Machine/Transcend.lean ====
section
/-! DEFINITION. The functions of MEPI on one FP32 value (R284, R285): each result is the correctly rounded value of the exact
function, found from bounds in fixed point whose precision doubles until both round alike. -/

namespace Sys2Proof.Machine

/-! ### Bounds in units of 2^-w -/

/-- The `n` terms of ln 2 = Σ 1 / (k 2^k) from term `k` on, each rounded down. -/
def ln2Terms (w : Nat) : Nat → Nat → Nat
  | _, 0 => 0
  | k, n + 1 => 2 ^ w / (k * 2 ^ k) + ln2Terms w (k + 1) n

def ln2At (w : Nat) : Nat := ln2Terms w 1 w

/-- Taylor terms of e^r from the term `t` of index `k` on, each rounded down. -/
def expTerms (w r : Nat) : Nat → Nat → Nat → Nat
  | 0, _, _ => 0
  | n + 1, k, t => if t = 0 then 0 else t + expTerms w r n (k + 1) (t * r / 2 ^ w / k)

/-- The error, in units of 2^-w, that the bounds of this section allow for. -/
def slack (w : Nat) : Nat := 2 ^ (w / 2 - 32)

/-- Bounds of e^(r / 2^w) for 0 ≤ r < 2^w. -/
def expBounds (w r : Nat) : Nat × Nat :=
  let v := expTerms w r w 1 (2 ^ w)
  (v - slack w, v + slack w)

/-- Bounds of e^(x / 2^w), x below 2^(w + 10). -/
def expWide (w x : Nat) : Nat × Nat :=
  let l := ln2At w
  let n := x / l
  let b := expBounds w (x % l)
  (b.1 * 2 ^ n, b.2 * 2 ^ n)

/-- The magnitude m × 2^e in units of 2^-w, rounded down. -/
def fixedOf (w m : Nat) (e : Int) : Nat := if 0 ≤ e + w then m * 2 ^ (e + w).toNat else m / 2 ^ (-(e + w)).toNat

/-- Round both bounds and answer when they agree: the true value lies strictly between them. -/
def agree (neg : Bool) (w : Nat) (b : Nat × Nat) : Option (Nat × Fx) :=
  let lo := fFP32.round rneCtx 0 (.fin neg b.1 (-w) true)
  let hi := fFP32.round rneCtx 0 (.fin neg b.2 (-w) false)
  if decide (0 < b.1) && lo.1 = hi.1 then some lo else none

/-- Try `f` at precisions w, 2w, 4w, … -/
def refine (neg : Bool) (f : Nat → Nat × Nat) : Nat → Nat → Nat × Fx
  | 0, w => fFP32.round rneCtx 0 (.fin neg (f w).1 (-w) true)
  | n + 1, w => (agree neg w (f w)).getD (refine neg f n (2 * w))

def refined (neg : Bool) (f : Nat → Nat × Nat) : Nat × Fx := refine neg f 4 256

/-- A value a little above zero, and one a little below `v`. -/
def tinyVal (neg : Bool) : Val := .fin neg 1 (-1000) true
def below (neg : Bool) (m : Nat) (e : Int) : Val := .fin neg (m * 2 ^ 200 - 1) (e - 200) true

/-- The magnitude m × 2^e is at least 2^k. -/
def atLeast (m : Nat) (e : Int) (k : Int) : Bool := decide (k ≤ magLog m e)

/-! ### The functions on a non-zero finite magnitude m × 2^e -/

/-- 2^x. -/
def exp2Of (neg : Bool) (m : Nat) (e : Int) : Nat × Fx :=
  if atLeast m e 8 then fFP32.round rneCtx 0 (if neg then tinyVal false else .fin false 1 1000 false)
  else
    let w := 256
    let x := fixedOf w m e
    if x % 2 ^ w = 0 then
      fFP32.round rneCtx 0 (.fin false 1 (if neg then -((x / 2 ^ w : Nat) : Int) else (x / 2 ^ w : Nat)) false)
    else
      refined false fun w =>
        let x := fixedOf w m e
        let n : Nat := x / 2 ^ w
        let f := x % 2 ^ w
        if neg then
          let b := expBounds w ((2 ^ w - f) * ln2At w / 2 ^ w)
          (b.1 / 2 ^ (n + 1), b.2 / 2 ^ (n + 1) + 1)
        else
          let b := expBounds w (f * ln2At w / 2 ^ w)
          (b.1 * 2 ^ n, b.2 * 2 ^ n)

/-- Bounds of 1 / (1 + e^-x). -/
def sigmoidAt (neg : Bool) (w x : Nat) : Nat × Nat :=
  let one := 2 ^ w
  let a := expWide w x
  if neg then (one * one / (one + a.2), one * one / (one + a.1) + 1)
  else (a.1 * one / (one + a.1), a.2 * one / (one + a.2) + 1)

def sigmoidOf (neg : Bool) (m : Nat) (e : Int) : Nat × Fx :=
  if atLeast m e 8 then fFP32.round rneCtx 0 (if neg then tinyVal false else below false 1 0)
  else refined false fun w => sigmoidAt neg w (fixedOf w m e)

/-- x / (1 + e^-x). -/
def siluOf (neg : Bool) (m : Nat) (e : Int) : Nat × Fx :=
  if atLeast m e 8 then fFP32.round rneCtx 0 (if neg then tinyVal true else below false m e)
  else refined neg fun w =>
    let x := fixedOf w m e
    let b := sigmoidAt neg w x
    (b.1 * x / 2 ^ w, b.2 * x / 2 ^ w + 1)

/-- tanh x. -/
def tanhOf (neg : Bool) (m : Nat) (e : Int) : Nat × Fx :=
  if atLeast m e 6 then fFP32.round rneCtx 0 (below neg 1 0)
  else refined neg fun w =>
    let one := 2 ^ w
    let a := expWide w (2 * fixedOf w m e)
    ((a.1 - one) * one / (a.1 + one), (a.2 - one) * one / (a.2 + one) + 1)

/-- 1 / √(m × 2^e) with at least 96 significant bits. -/
def rsqrtVal (m : Nat) (e : Int) : Val :=
  let m := if e % 2 = 0 then m else 2 * m
  let e := if e % 2 = 0 then e else e - 1
  let k := 128 + Nat.log2 m
  let r := natSqrt (2 ^ (2 * k) / m)
  .fin false r (-(e / 2) - k) (decide (r * r * m ≠ 2 ^ (2 * k)))

/-- The unary functions of R374 by code: 5 EXP2, 6 SIGMOID, 7 SILU, 8 TANH, 9 RECIP, 10 RSQRT (R284, R285). -/
def epiUnary (fn : Nat) (x : Val) : Nat × Fx :=
  let rnd := fFP32.round rneCtx 0
  let dz := fun (r : Nat × Fx) => (r.1, { r.2 with fl := r.2.fl ||| fDZ })
  let half : Val := .fin false 1 (-1) false
  match x with
  | .nan => rnd .nan
  | .inf n => match fn with
    | 5 => rnd (if n then .zero false else .inf false)
    | 6 => rnd (if n then .zero false else .ofInt 1)
    | 7 => rnd (if n then .zero true else .inf false)
    | 8 => rnd (.ofInt (if n then -1 else 1))
    | 9 => rnd (.zero n)
    | _ => rnd (if n then .nan else .zero false)
  | .fin n m e _ =>
    if m = 0 then match fn with
      | 5 => rnd (.ofInt 1)
      | 6 => rnd half
      | 7 => rnd (.zero n)
      | 8 => rnd (.zero n)
      | _ => dz (rnd (.inf n))
    else match fn with
      | 5 => exp2Of n m e
      | 6 => sigmoidOf n m e
      | 7 => siluOf n m e
      | 8 => tanhOf n m e
      | 9 => rnd (vDiv (.ofInt 1) x).1
      | _ => if n then rnd .nan else rnd (rsqrtVal m e)

end Sys2Proof.Machine
end

