-- ==== Sys2Proof/Machine/Epilogue.lean ====
section
/-! DEFINITION. Commands of the epilogue: MEPI (R284, R285, R374), MSTT (R375), MTRAN and MRED (R376). -/

namespace Sys2Proof.Machine

/-- The larger of two words under the MAX rule of R284. -/
def maxWord (x y : Word) : Word × Fx :=
  let a := ofFp32 x
  let b := ofFp32 y
  if a.isNan || b.isNan then (fp32Nan, { fl := fNV, nan := true })
  else (if valLt a b || (valEq a b && a.sign && !b.sign) then y else x, {})

/-- MEPI with two operands: 0 ADD, 1 MUL, 2 MAX. -/
def epiBinary (fn : Nat) (x y : Word) : Word × Fx :=
  match fn with
  | 0 => flAdd x y
  | 1 => flMul x y
  | _ => maxWord x y

/-- Write tile `td` element by element and retire later. -/
def epiTile (td : Tile) (f : Nat → Word × Fx) : M Next := do
  let r := tileOf f
  putTiles td.toNat [r.1]
  commitLater r.2

def runEpi2 (fn : Nat) (td ta tb : Tile) : M Next := do
  let e ← look State.myEngine
  epiTile td fun k => epiBinary fn (e.tileAt ta.toNat k) (e.tileAt tb.toNat k)

def runEpiScale (c : MCmd) (td ta : Tile) : M Next := do
  let e ← look State.myEngine
  epiTile td fun k => flMul (e.tileAt ta.toNat k) c.off

def runEpiBias (c : MCmd) (col : Bool) (td ta : Tile) : M Next := do
  let v ← readOwn c.off.toNat 64
  let e ← look State.myEngine
  let b := BitVec.ofNat 512 v
  epiTile td fun k => flAdd (e.tileAt ta.toNat k) (word (fieldOf b (32 * (if col then k / 16 else k % 16)) 32))

def runEpi1 (fn : Nat) (td ta : Tile) : M Next := do
  let e ← look State.myEngine
  epiTile td fun k =>
    let r := epiUnary fn (ofFp32 (e.tileAt ta.toNat k))
    (word r.1, r.2)

def runTran (td ta : Tile) : M Next := do
  let l ← getTile ta.toNat
  putTiles td.toNat [(List.range 256).map fun k => l.getD (16 * (k % 16) + k / 16) 0]
  commitLater {}

/-! ### MSTT (R375, R388) -/

/-- The rounding of a command. -/
def MCmd.rctx (c : MCmd) : RCtx := { mode := c.rnd, key := c.key, widLo := c.widLo }

/-- The code of element k of a tile, or pair, in format `f`. -/
def sttElem (f : Nat) (r : RCtx) (k : Nat) (x y : Word) : Nat × Fx :=
  match f with
  | 0 => (x.toNat, {})
  | 11 => satCode 8 x.toInt
  | 12 => satCode 4 x.toInt
  | 13 =>
    let a := satCode 16 x.toInt
    let b := satCode 16 y.toInt
    (a.1 + 2 ^ 16 * b.1, a.2.or b.2)
  | 14 =>
    let a := fFP16.round r (2 * k % 256) (ofFp32 x)
    let b := fFP16.round r ((2 * k + 1) % 256) (ofFp32 y)
    (a.1 + 2 ^ 16 * b.1, a.2.or b.2)
  | _ => ((fmtOf f).getD fFP32).round r k (ofFp32 x)

def runStt (c : MCmd) (setFull : Bool) (ta : Tile) : M Next := do
  let ps ← partPlaces c.seg (if setFull then aEngF else aEngW) (rowParts c.seg c.off.toNat 16 c.x1.toNat (elemBytes c.fa 16))
  let e ← look State.myEngine
  let l := (List.range 256).map fun k =>
    sttElem c.fa c.rctx k (e.tileAt ta.toNat k) (if isCx c.fa then e.tileAt (ta.toNat + 1) k else 0)
  writeOperand setFull ps (packRow (elemBits c.fa) (l.map (·.1)))
  commitNow (fxAll (l.map (·.2)))

/-! ### MRED (R376) -/

/-- Reduce 16 words from the left. -/
def redLine (sum : Bool) : List Word → Word × Fx
  | [] => (0, {})
  | x :: r => r.foldl (fun a y =>
    let p := if sum then flAdd a.1 y else maxWord a.1 y
    (p.1, a.2.or p.2)) (x, {})

/-- The sign inverted; a NaN is the canonical one. -/
def redNeg (x : Word) : Word := if (ofFp32 x).isNan then fp32Nan else x ^^^ 0x80000000

/-- `kind` 0 rowmax, 1 rowsum, 2 colmax, 3 colsum. -/
def runRed (c : MCmd) (kind : Nat) (neg : Bool) (ta : Tile) : M Next := do
  let e ← look State.myEngine
  let l := (List.range 16).map fun i =>
    let r := redLine (kind % 2 = 1) ((List.range 16).map fun j => e.tileAt ta.toNat (if kind < 2 then 16 * i + j else 16 * j + i))
    (if neg then redNeg r.1 else r.1, r.2)
  writeOwn c.off.toNat 64 c.off.toNat 64 (packRow 32 (l.map fun p => p.1.toNat))
  commitNow (fxAll (l.map (·.2)))

end Sys2Proof.Machine
end

