-- ==== Sys2Proof/Machine/Convert.lean ====
section
/-! DEFINITION. Block conversions (R258, R261, R385 to R388). -/

namespace Sys2Proof.Machine

/-- The elements and scale of a block of 32 values: bytes, scale byte, what it shows. -/
def encodeBlock (f : Nat) (r : RCtx) (lane : Nat) (vs : List Val) : Nat × Nat × Fx :=
  if isCf8 f then
    let p := cf8Encode r lane vs
    (p.1, 0, p.2)
  else
    let p := mxQuantise f r lane vs
    (packRow (elemBits f) p.2.1, p.1, p.2.2)

/-- The 32 values of a block with its scale byte. -/
def decodeBlock (f data scale : Nat) : List Val × Fx :=
  let p := rowVals f data 0 32
  (if isMx f then p.1.map (scaled scale) else p.1, p.2)

/-- Bytes of a block (R256). -/
def blockBytes (f : Nat) : Nat := elemBytes f 32

/-- The write of parts and of a scale range, ERR replies joined (R367). -/
def writeBoth (ps qs : List OpPart) (v w : Nat) : M Unit := do
  let e ← writeParts false ps v
  let g ← writeParts false qs w
  wroteAll (e.or g)

/-! ### Tile forms (R386) -/

/-- Row i of the pair at `t`. -/
def pairRow (e : Engine) (t i : Nat) : List Val :=
  (List.range 32).map fun k => ofFp32 (e.tileAt (t + k / 16) (16 * i + k % 16))

def runQnt (c : MCmd) (ta : Tile) : M Next := do
  let len := blockBytes c.fa
  let ps ← partPlaces c.seg aEngW (rowParts c.seg c.off.toNat 16 c.x1.toNat len)
  let qs ← partPlaces c.seg aEngW (if isMx c.fa then lineParts (segBase c.seg + (c.off.toNat + c.x2.toNat)) 16 else [])
  let e ← look State.myEngine
  let bs := (List.range 16).map fun i => encodeBlock c.fa c.rctx (32 * i % 256) (pairRow e ta.toNat i)
  writeBoth ps qs (packRow (8 * len) (bs.map (·.1))) (packRow 8 (bs.map (·.2.1)))
  commitNow (fxAll (bs.map (·.2.2)))

def runDqnt (c : MCmd) (td : Tile) : M Next := do
  let len := blockBytes c.fa
  let ps := rowParts c.seg c.off.toNat 16 c.x1.toNat len
  let qs := if isMx c.fa then lineParts (segBase c.seg + (c.off.toNat + c.x2.toNat)) 16 else []
  mintOpen c.seg (ps ++ qs)
  let pp ← partPlaces c.seg aEngR ps
  let qp ← partPlaces c.seg aEngR qs
  let v ← readParts pp
  let w ← readParts qp
  let rows := (List.range 16).map fun i =>
    let b := decodeBlock c.fa ((v >>> (8 * len * i)) % 2 ^ (8 * len)) (w / 256 ^ i % 256)
    let l := b.1.map fun x => toFp32 rneCtx 0 x
    (l.map (·.1), b.2.or (fxAll (l.map (·.2))))
  let half := fun (h : Nat) => rows.flatMap fun r => (r.1.drop (16 * h)).take 16
  putTiles td.toNat [half 0, half 1]
  commitLater (fxAll (rows.map (·.2)))

/-! ### Memory forms (R387) -/

/-- An element of a format of CVTV: a value, or an integer. -/
def cvtElem (fa fb : Nat) (r : RCtx) (lane x : Nat) : Nat × Fx :=
  if isInt fb && isInt fa then satCode (elemBits fa) (sInt (elemBits fb) x)
  else
    let v := elemVal fb x
    if isInt fa then
      let w := elemBits fa
      let p := roundInt (-(2 ^ (w - 1))) (2 ^ (w - 1) - 1) r lane v
      ((p.1 % 2 ^ w).toNat, p.2)
    else ((fmtOf fa).getD fFP32).round r lane v

/-- One run of a conversion: element bytes and a scale byte in, bytes and a scale byte out. `fn` 0 CVTBLK, 1 CVTUNB, 2 CVTV. -/
def cvtRun (fn : Nat) (c : MCmd) (lane n data scale : Nat) : Nat × Nat × Fx :=
  match fn with
  | 0 => encodeBlock c.fa c.rctx lane ((rowElems c.fb data 0 32).map (elemVal c.fb))
  | 1 =>
    let b := decodeBlock c.fb data scale
    let l := b.1.mapIdx fun i v => ((fmtOf c.fa).getD fFP32).round c.rctx ((lane + i) % 256) v
    (packRow (elemBits c.fa) (l.map (·.1)), 0, b.2.or (fxAll (l.map (·.2))))
  | _ =>
    let l := (rowElems c.fb data 0 n).mapIdx fun i x => cvtElem c.fa c.fb c.rctx ((lane + i) % 256) x
    (packRow (elemBits c.fa) (l.map (·.1)), 0, fxAll (l.map (·.2)))

/-- The ranges of run `i`: source, source scale, destination, destination scale; each as address and bytes. -/
structure CvtRun where
  n : Nat
  src : Nat × Nat
  srcScale : Nat × Nat
  dst : Nat × Nat
  dstScale : Nat × Nat
  deriving DecidableEq, Repr

/-- Elements of a conversion. -/
def cvtCount (fn : Nat) (c : MCmd) : Nat := if fn = 2 then c.x0.toNat else 32 * c.x0.toNat

def cvtRuns (fn : Nat) (c : MCmd) : List CvtRun :=
  let total := cvtCount fn c
  let sa := segBase c.seg + c.off.toNat
  let da := segBase c.seg2 + c.off2.toNat
  (List.range ((total + 31) / 32)).map fun i =>
    let n := Min.min 32 (total - 32 * i)
    { n := n
      src := (sa + elemBytes c.fb (32 * i), elemBytes c.fb n)
      srcScale := (segBase c.seg + c.gb.toNat + i, if fn = 1 && isMx c.fb then 1 else 0)
      dst := (da + elemBytes c.fa (32 * i), elemBytes c.fa n)
      dstScale := (segBase c.seg2 + c.gb.toNat + i, if fn = 0 && isMx c.fa then 1 else 0) }

/-- Read a range. -/
def cvtRead (near : Bool) (d : BitVec 128) (r : Nat × Nat) : M Nat := do
  readParts (← partPlacesBy near d aEngR (lineParts r.1 r.2))

/-- The runs in ascending order, each read and then written; answers what they show and the first ERR code of a write. -/
def cvtGo (fn : Nat) (c : MCmd) (srcNear dstNear : Bool) : Nat → List CvtRun → M (Fx × Option (BitVec 5))
  | _, [] => pure ({}, none)
  | i, r :: rs => do
    let data ← cvtRead srcNear c.seg r.src
    let scale ← cvtRead srcNear c.seg r.srcScale
    let o := cvtRun fn c (32 * i % 256) r.n data scale
    let dp ← partPlacesBy dstNear c.seg2 aEngW (lineParts r.dst.1 r.dst.2)
    let sp ← partPlacesBy dstNear c.seg2 aEngW (lineParts r.dstScale.1 r.dstScale.2)
    let e ← writeParts false dp o.1
    let g ← writeParts false sp o.2.1
    let rest ← cvtGo fn c srcNear dstNear (i + 1) rs
    pure (o.2.2.or rest.1, e.or (g.or rest.2))

/-- CVTBLK, CVTUNB and CVTV: every page is translated and every source byte read before the first write (R367); then the runs
are converted in order, so that overlapping ranges are read as earlier writes left them (R387). -/
def runCvt (fn : Nat) (c : MCmd) : M Next := do
  let rs := cvtRuns fn c
  let ss := rs.flatMap fun r => lineParts r.src.1 r.src.2 ++ lineParts r.srcScale.1 r.srcScale.2
  let ds := rs.flatMap fun r => lineParts r.dst.1 r.dst.2 ++ lineParts r.dstScale.1 r.dstScale.2
  mintOpen c.seg ss
  let sp ← partPlaces c.seg aEngR ss
  let _ ← partPlaces c.seg2 aEngW ds
  let _ ← readParts sp
  let g ← look fun s => groupOf s.myCore
  let r ← cvtGo fn c (nearParts g c.seg ss) (nearParts g c.seg2 ds) 0 rs
  wroteAll r.2
  commitNow r.1

end Sys2Proof.Machine
end

