-- ==== Sys2Proof/Machine/Solve.lean ====
section
/-! DEFINITION. The solver commands (R286 to R291, R377, R378). Tiles are stores of complex words (real part, imaginary part);
real tiles have imaginary parts 0 and use the real operations. -/

namespace Sys2Proof.Machine

/-- A real or complex FP32 element. -/
abbrev Cx := Word × Word

/-- A tile or pair under solution, with the flags of what has been done. -/
structure Sv where
  cx : Bool
  m : SMap Cx := []
  fx : Fx := {}
  /-- The counter of free values (log 8). -/
  fresh : Nat := 0

def Sv.at (v : Sv) (i j : Nat) : Cx := smGet (0, 0) v.m (16 * i + j)
def Sv.put (v : Sv) (i j : Nat) (x : Cx) : Sv := { v with m := smSet (0, 0) v.m (16 * i + j) x }

/-! ### Arithmetic (R286): every operation is one FP32 operation rounded RNE -/

def flDiv (x y : Word) : Word × Fx :=
  let q := vDiv (ofFp32 x) (ofFp32 y)
  let r := fp32Step (q.1, q.2.1)
  (r.1, { r.2 with fl := r.2.fl ||| (if q.2.2 then fDZ else 0) })

def flSqrt (x : Word) : Word × Fx := fp32Step (vSqrt (ofFp32 x))

def negWord (x : Word) : Word := x ^^^ 0x80000000
def Cx.conj (x : Cx) : Cx := (x.1, negWord x.2)

/-- x × y. -/
def cxMul (cx : Bool) (x y : Cx) : Cx × Fx :=
  if cx then
    let a := flMul x.1 y.1
    let b := flMul x.2 y.2
    let c := flMul x.1 y.2
    let d := flMul x.2 y.1
    let r := flSub a.1 b.1
    let i := flAdd c.1 d.1
    ((r.1, i.1), fxAll [a.2, b.2, c.2, d.2, r.2, i.2])
  else
    let r := flMul x.1 y.1
    ((r.1, 0), r.2)

/-- s − p. -/
def cxSub (cx : Bool) (s p : Cx) : Cx × Fx :=
  let r := flSub s.1 p.1
  if cx then
    let i := flSub s.2 p.2
    ((r.1, i.1), r.2.or i.2)
  else ((r.1, 0), r.2)

/-- mag(z), or z × z for a real element. -/
def cxMag (cx : Bool) (z : Cx) : Word × Fx :=
  let a := flMul z.1 z.1
  if cx then
    let b := flMul z.2 z.2
    let r := flAdd a.1 b.1
    (r.1, fxAll [a.2, b.2, r.2])
  else a

/-- Division by a real divides each part. -/
def cxDivReal (cx : Bool) (x : Cx) (d : Word) : Cx × Fx :=
  let r := flDiv x.1 d
  if cx then
    let i := flDiv x.2 d
    ((r.1, i.1), r.2.or i.2)
  else ((r.1, 0), r.2)

/-- x / y. By a y whose imaginary part is zero, each part is divided; R286 states no other complex quotient, so both of its
parts and its flags are free values (log 12). -/
def Sv.div (v : Sv) (x y : Cx) : Cx × Sv :=
  if v.cx && !(ofFp32 y.2).isZero then
    ((Config.freeWord v.fresh, Config.freeWord (v.fresh + 1)),
      { v with fresh := v.fresh + 3, fx := v.fx.or { fl := (Config.freeWord (v.fresh + 2)).setWidth 6 &&& 0x1F } })
  else
    let q := cxDivReal v.cx x y.1
    (q.1, { v with fx := v.fx.or q.2 })

/-- s − x × y, flags added. -/
def Sv.step (v : Sv) (s x y : Cx) : Cx × Sv :=
  let p := cxMul v.cx x y
  let r := cxSub v.cx s p.1
  (r.1, { v with fx := v.fx.or (p.2.or r.2) })

def isZeroWord (x : Word) : Bool := (ofFp32 x).isZero
def isZeroCx (x : Cx) : Bool := isZeroWord x.1 && isZeroWord x.2

/-! ### MPOTRF (R287) -/

/-- conj of a complex factor; a real one as it is. -/
def conjIf (cx : Bool) (x : Cx) : Cx := if cx then x.conj else x

/-- Columns from `j` on; answers CODE and INDEX. -/
def potrfCols : Nat → Nat → Sv → (Nat × Nat) × Sv
  | 0, _, v => ((0, 0), v)
  | n + 1, j, v =>
    let d := forUp 0 j ((v.at j j).1, v) fun k p =>
      let q := cxMag v.cx (p.2.at j k)
      let r := flSub p.1 q.1
      (r.1, { p.2 with fx := p.2.fx.or (q.2.or r.2) })
    if !valLt (.zero false) (ofFp32 d.1) then ((1, j), d.2)
    else
      let r := flSqrt d.1
      let v := { (d.2.put j j (r.1, 0)) with fx := d.2.fx.or r.2 }
      let v := forUp (j + 1) (15 - j) v fun i v =>
        let s := forUp 0 j (v.at i j, v) fun k p => p.2.step p.1 (p.2.at i k) (conjIf v.cx (p.2.at j k))
        let q := cxDivReal v.cx s.1 r.1
        { (s.2.put i j q.1) with fx := s.2.fx.or q.2 }
      potrfCols n (j + 1) v

/-! ### MGETRF (R288) -/

/-- The rank of a pivot candidate: none for a NaN. -/
def pivotKey (cx : Bool) (z : Cx) : Option Val × Fx :=
  let p := if cx then cxMag true z else (z.1 &&& 0x7FFFFFFF, {})
  let x := ofFp32 p.1
  (if x.isNan then none else some x, p.2)

/-- The pivot row of column j. -/
def pivotRow (v : Sv) (j : Nat) : Nat × Fx :=
  let r := forUp (j + 1) (15 - j) ((pivotKey v.cx (v.at j j)).1, j, (pivotKey v.cx (v.at j j)).2) fun i p =>
    let k := pivotKey v.cx (v.at i j)
    let better := match p.1, k.1 with
      | none, some _ => true
      | some x, some y => valLt x y
      | _, none => false
    (if better then k.1 else p.1, if better then i else p.2.1, p.2.2.or k.2)
  (r.2.1, r.2.2)

/-- Exchange two rows. -/
def Sv.swap (v : Sv) (i p : Nat) : Sv :=
  if i = p then v else forUp 0 16 v fun c v => (v.put i c (v.at p c)).put p c (v.at i c)

/-- Columns from `j` on; answers the first zero pivot and the pivots. -/
def getrfCols : Nat → Nat → Option Nat → List Nat → Sv → (Option Nat × List Nat) × Sv
  | 0, _, zp, piv, v => ((zp, piv), v)
  | n + 1, j, zp, piv, v =>
    let p := pivotRow v j
    let v := { (v.swap j p.1) with fx := v.fx.or p.2 }
    let d := v.at j j
    if isZeroCx d then getrfCols n (j + 1) (some (zp.getD j)) (piv ++ [p.1]) v
    else
      let v := forUp (j + 1) (15 - j) v fun i v =>
        let q := v.div (v.at i j) d
        q.2.put i j q.1
      let v := forUp (j + 1) (15 - j) v fun i v =>
        forUp (j + 1) (15 - j) v fun k v =>
          let r := v.step (v.at i k) (v.at i j) (v.at j k)
          r.2.put i k r.1
      getrfCols n (j + 1) zp (piv ++ [p.1]) v

/-! ### MTRSM (R289) -/

/-- op(T)[r][c]: `op` 0 none, 1 transpose, 2 conjugate transpose. -/
def opAt (op : Nat) (t : Sv) (r c : Nat) : Cx :=
  match op with
  | 0 => t.at r c
  | 1 => t.at c r
  | _ => conjIf t.cx (t.at c r)

/-- The unknowns of one column (LEFT) or row (RIGHT), in solving order; `done` are those already solved, oldest first. -/
def trsmLine (right unit : Bool) (op : Nat) (t : Sv) (line : Nat) : List Nat → List Nat → Sv × Option Nat → Sv × Option Nat
  | [], _, p => p
  | u :: us, done, (v, z) =>
    let pos := fun (k : Nat) => if right then (line, k) else (k, line)
    let x := done.foldl (fun (p : Cx × Sv) k =>
      if right then p.2.step p.1 (p.2.at line k) (opAt op t k u)
      else p.2.step p.1 (opAt op t u k) (p.2.at k line)) (v.at (pos u).1 (pos u).2, v)
    let dg := opAt op t u u
    let q := if unit then x else x.2.div x.1 dg
    let v := q.2.put (pos u).1 (pos u).2 q.1
    let z := if !unit && isZeroCx dg then some (z.getD u) else z
    trsmLine right unit op t line us (done ++ [u]) (v, z)

/-- Solve all 16 lines; answers the first zero diagonal. -/
def trsmAll (right upper unit : Bool) (op : Nat) (t b : Sv) : Sv × Option Nat :=
  let lower := (!upper) != decide (op ≠ 0)
  let asc := if right then !lower else lower
  let order := if asc then List.range 16 else (List.range 16).reverse
  forUp 0 16 (b, none) fun line p => trsmLine right unit op t line order [] p

/-! ### The commands (R378) -/

/-- A tile, or a pair, as the engine holds it. -/
def loadSv (fa t : Nat) : M Sv := look fun s =>
  let e := s.myEngine
  { cx := isCx fa, fresh := s.fresh
    m := ((List.range 256).map fun k => (k, (e.tileAt t k, if isCx fa then e.tileAt (t + 1) k else 0))).filter
      fun p => p.2 ≠ (0, 0) }

def storeSv (t : Nat) (v : Sv) : M Unit := do
  let part := fun (f : Cx → Word) => (List.range 256).map fun k => f (smGet (0, 0) v.m k)
  upd fun s => { s with fresh := v.fresh }
  putTiles t (part (·.1) :: if v.cx then [part (·.2)] else [])

/-- Status word 0 (R286). -/
def statusWord (code index count : Nat) : Word := word (code + index % 16 * 2 ^ 8 + count * 2 ^ 16)

/-- The end of a solver command: word 0 of its record of `n` bytes is written after the other words, and set full. -/
def endSolve (v n : Nat) (w : Word) (fx : Fx) : M Next := do
  writeStatus v n w
  commitNow fx

def runPotrf (c : MCmd) (td : Tile) : M Next := do
  ownFull c.off.toNat false
  let a ← loadSv c.fa td.toNat
  let r := potrfCols 16 0 a
  storeSv td.toNat r.2
  endSolve c.off.toNat 4 (statusWord r.1.1 r.1.2 0) r.2.fx

def runGetrf (c : MCmd) (td : Tile) : M Next := do
  ownFull c.off.toNat false
  let a ← loadSv c.fa td.toNat
  let r := getrfCols 16 0 none [] a
  storeSv td.toNat r.2
  writeOwn c.off.toNat 20 (c.off.toNat + 4) 16 (packRow 8 r.1.2)
  endSolve c.off.toNat 20 (match r.1.1 with
    | some j => statusWord 2 j 0
    | none => 0) r.2.fx

def runTrsm (c : MCmd) (right upper unit : Bool) (op : Nat) (td ta : Tile) : M Next := do
  ownFull c.off.toNat false
  let t ← loadSv c.fa ta.toNat
  let b ← loadSv c.fa td.toNat
  let r := trsmAll right upper unit op t b
  storeSv td.toNat r.1
  endSolve c.off.toNat 4 (match r.2 with
    | some j => statusWord 3 j 0
    | none => 0) r.1.fx

/-- Words of a block of own words. -/
def wordOf (block i : Nat) : Nat := (block >>> (32 * i)) % 2 ^ 32

/-- MDELTA (R290): list at x0, matrix at x1. -/
def runDelta (c : MCmd) : M Next := do
  let l := c.x0.toNat
  let m := c.x1.toNat
  let lh ← readOwn l 8
  let mh ← readOwn m 16
  let n := wordOf lh 1
  let rows := wordOf mh 1 % 2 ^ 16
  let cols := wordOf mh 1 / 2 ^ 16
  let pitch := wordOf mh 2
  if 4096 < n || pitch < cols || 0x4000000 < l + 8 + 8 * n ||
      (rows ≠ 0 && cols ≠ 0 && 0x4000000 < m + 4 * (4 + (rows - 1) * pitch + cols)) then matrixTrap 7
  else do
    let es ← readOwn (l + 8) (8 * n)
    ownFull c.off.toNat false
    let full ← ownIsFull l
    let row := fun i => wordOf es (2 * i) / 2 ^ 16
    let col := fun i => wordOf es (2 * i) % 2 ^ 16
    if !full then endSolve c.off.toNat 4 (statusWord 7 0 0) {}
    else if wordOf lh 0 ≠ wordOf mh 0 then endSolve c.off.toNat 4 (statusWord 4 0 0) {}
    else match (List.range n).find? fun i => decide (rows ≤ row i) || decide (cols ≤ col i) with
      | some i => endSolve c.off.toNat 4 (statusWord 6 i 0) {}
      | none => do
        (List.range n).forM fun i => writeOwn m (4 * (4 + (rows - 1) * pitch + cols)) (m + 4 * (4 + row i * pitch + col i)) 4 (wordOf es (2 * i + 1))
        ownFull l false
        endSolve c.off.toNat 4 (statusWord 0 0 n) {}

/-- MSHIFT (R291): vector at x0, expected tag x1. -/
def runShift (c : MCmd) (zero : Bool) : M Next := do
  let v := c.x0.toNat
  let vh ← readOwn v 8
  let h := wordOf vh 1 % 2 ^ 16
  let n := wordOf vh 1 / 2 ^ 16
  if h = 0 || n = 0 || 65536 < h * n || 0x4000000 < v + 8 + 4 * h * n then matrixTrap 7
  else do
    let d ← readOwn (v + 8) (4 * h * n)
    ownFull c.off.toNat false
    if wordOf vh 0 ≠ c.x1.toNat then do
      writeOwn v (8 + 4 * h * n) (v + 8) (4 * h * n) 0
      writeOwn v (8 + 4 * h * n) v 4 c.x1.toNat
      endSolve c.off.toNat 4 (statusWord 5 0 0) {}
    else do
      let last := if zero then 0 else d >>> (32 * (h - 1) * n)
      writeOwn v (8 + 4 * h * n) (v + 8) (4 * h * n) (d >>> (32 * n) + last * 2 ^ (32 * (h - 1) * n))
      endSolve c.off.toNat 4 (statusWord 0 0 0) {}

end Sys2Proof.Machine
end

