-- ==== Sys2Proof/Machine/Engine.lean ====
section
/-! DEFINITION. The matrix engine's queue (R272, R273), the operand ring (R279), and the instructions that issue its commands:
their tests at issue (R274, R283, R366, R370 to R378, R385 to R387). -/

namespace Sys2Proof.Machine

/-! ### Commands -/

/-- Perform a command at its place in engine order. -/
def runCmd (c : MCmd) : M Next :=
  match c.op with
  | .zero td => runZero td
  | .ldb => runLdb c
  | .lds b => runLds c b
  | .wra td => runWra c td
  | .ring => runRing
  | .movt td ta => runMovt td ta
  | .rsn d => runRsn d
  | .mma kind td => runMma c kind td
  | .epi2 fn td ta tb => runEpi2 fn td ta tb
  | .epiScale td ta => runEpiScale c td ta
  | .epiBias col td ta => runEpiBias c col td ta
  | .epi1 fn td ta => runEpi1 fn td ta
  | .stt f ta => runStt c f ta
  | .tran td ta => runTran td ta
  | .red kind neg ta => runRed c kind neg ta
  | .potrf td => runPotrf c td
  | .getrf td => runGetrf c td
  | .trsm right upper unit op td ta => runTrsm c right upper unit op td ta
  | .delta => runDelta c
  | .shift zero => runShift c zero
  | .qnt ta => runQnt c ta
  | .dqnt td => runDqnt c td
  | .cvt fn => runCvt fn c

/-- The command reads or writes a latch, or is a ring arrival (R279). -/
def MOp.usesLatch : MOp → Bool
  | .ldb | .ring | .mma .. => true
  | .lds b => b
  | _ => false

/-- A ring step that this engine has arrived for is not complete. -/
def Engine.inStep (e : Engine) : Bool := e.arrivals ≠ e.rsn

/-- The engine has answered its command and goes on with the next. -/
def engineFree (g : Nat) (s : State) : State :=
  let s := s.modEngine g fun e => { e with cmd := none, io := {} }
  if (s.engine g).queue.isEmpty then s else s.push (.matrixCommandTaken g)

/-- A command goes as far as it can. It ends, or its thread stays parked on the engine while words of vaults are read or written
(R207, R273); one whose access is held begins again in the next work cycle. A command that must read has changed nothing (R367). -/
def engineStep (c : MCmd) : M Next := fun s0 =>
  let g := groupOf s0.myCore
  let s := s0.modEngine g fun e => { e with cmd := some c }
  let pending := fun (t : State) => (t.engine g).io.puts ≠ []
  match runCmd c s with
  | .error (.lines near far) _ => .error (.park .matrix) (lineReads (g / 64) (g % 64) 0 near far s)
  | .error (.park (.cond (.access o))) _ => .error (.park .matrix) ((o.touch s).defer (.matrixCommandTaken g))
  | .error st t =>
    if pending t then
      .error (.park .matrix) (lineWrites (g / 64) (g % 64) 0 (modIO (g / 64) (g % 64) 0 (fun x => { x with err := match st with
        | .trap _ v => some (v.setWidth 5)
        | _ => none }) t))
    else .error st (engineFree g t)
  | .ok n t => if pending t then .error (.park .matrix) (lineWrites (g / 64) (g % 64) 0 t) else .ok n (engineFree g t)

/-- Send a command: it runs at once when it stands at the head of the engine's order, else it enters the queue (R272). Either way its
thread has parked once. -/
def engineIssue (c : MCmd) : M Next := fun s =>
  let g := groupOf s.myCore
  let e := s.engine g
  if e.cmd.isNone && e.queue.isEmpty && !(c.op.usesLatch && e.inStep) then
    match engineStep c s with
    | .error (.park .matrix) s => .error (.park .matrix) s
    | .error st s => .error st (count s.myCore 5 s)
    | .ok n s => .ok n (count s.myCore 5 s)
  else if e.queue.length < 16 then
    .error (.park .matrix) (s.modEngine g fun e => { e with queue := e.queue ++ [c] })
  else .error (.park (.cond .engine)) s

/-- Take a command, or go on with it, for its thread, which is parked on it. -/
def engineGo (c : MCmd) (s : State) : State :=
  let cur := s.cur
  match engineStep c { s.modSlot c.slot (fun sl => { sl with run := .ready }) with cur := c.slot } with
  | .error (.park .matrix) s => { s.modSlot c.slot (fun sl => { sl with run := .parked .matrix }) with cur := cur }
  | r => { finish c.slot r with cur := cur }

/-- Every write of the command has been performed: it retires, or draws MEMERR for the first that failed (R273, R367). -/
def engineWrote (g : Nat) (c : MCmd) (s : State) : State :=
  let io := (s.engine g).io
  let s := engineFree g (s.modSlot c.slot fun sl => { sl with run := .ready })
  match io.err with
  | some e => takeTrapAt c.slot cMEMERR (word (e.toNat + 1024)) s
  | none => completeAt c.slot .seq (raiseAt c.slot (unpackFx io.fx) s)

/-- MATRIX_COMMAND_TAKEN: the engine goes on with its command, or takes the one at the head of its queue; one whose thread no longer
waits for it is dropped (R272, R273, R143). -/
def execMatrixCommandTaken (g : Nat) (s : State) : Host.Outcome State Fault Refusal :=
  .next <|
    let e := s.engine g
    match e.cmd, e.queue with
    | some c, _ =>
      if e.io.want ≠ 0 then s
      else if (s.slot c.slot).run ≠ .parked .matrix then engineFree g s
      else if !e.io.writing then engineGo c s
      else if e.io.puts = [] then engineWrote g c s
      else lineWrites (g / 64) (g % 64) 0 s
    | none, [] => s
    | none, c :: q =>
      if c.op.usesLatch && e.inStep then s
      else
        let s := s.modEngine g fun e => { e with queue := q }
        if (s.slot c.slot).run = .parked .matrix then engineGo c s else engineFree g s

/-- The first entry that can retire: no MRING, and none of the same thread before it (R248). -/
def nextRetiring (held : List Nat) : List (Nat × Word) → Option (Nat × Word)
  | [] => none
  | (k, w) :: r =>
    if w = ringMark then nextRetiring (k :: held) r
    else if held.contains k then nextRetiring held r
    else some (k, w)

/-- MATRIX_RETIRE: a committed command retires and its flags are seen (R268, R273). -/
def execMatrixRetire (g : Nat) (s : State) : Host.Outcome State Fault Refusal :=
  .next <| match nextRetiring [] (s.engine g).retiring with
    | none => s
    | some p => raiseAt p.1 (unpackFx p.2) (s.modEngine g fun e => { e with retiring := e.retiring.erase p })

/-! ### The operand ring (R279) -/

/-- All 16 engines of flat quadrant `q` have arrived for the next step. -/
def ringReady (s : State) (q : Nat) : Bool := (List.range 16).all fun i => (s.engine (16 * q + i)).inStep

/-- RING_STEP: each active latch goes to the successor's inactive latch. -/
def execRingStep (q : Nat) (s : State) : Host.Outcome State Fault Refusal :=
  .next <|
    if !ringReady s q then s
    else
      let old := s
      (forUp 0 16 s fun i s =>
        s.modEngine (16 * q + (i + 1) % 16) fun e => e.modInactive fun _ => (old.engine (16 * q + i)).active).push
          (.ringStepComplete q)

/-- RING_STEP_COMPLETE: ACT flips, RSN advances, the step's MRINGs retire, held commands go on. -/
def execRingStepComplete (q : Nat) (s : State) : Host.Outcome State Fault Refusal :=
  .next <|
    if !ringReady s q then s
    else
      forUp 0 16 s fun i s =>
        let g := 16 * q + i
        let e := s.engine g
        let rest := e.retiring.filter fun p => p.2 ≠ ringMark
        let s := s.modEngine g fun e => { e with act := !e.act, rsn := e.rsn + 1, retiring := rest }
        let s := s.pushAll (rest.map fun _ => .matrixRetire g)
        if e.queue.isEmpty then s else s.push (.matrixCommandTaken g)

/-! ### Issue -/

/-- The form of an engine instruction. -/
def engForm (fmt cls : Bool) (base : List Reg := []) (src dst : List Reg := []) : Form :=
  { fmt := fmt, cls := cls, noBursar := true, base := base.head?, src := src, dst := dst }

/-- What every command captures at IS (R366). -/
def captured (op : MOp) (s : State) : MCmd :=
  { op := op, slot := s.cur, x0 := s.xreg 0, x1 := s.xreg 1, x2 := s.xreg 2, fa := s.fmtA, fb := s.fmtB, rnd := s.rndMode
    key := srKey s.myCore s, widLo := s.me.widLo, cls := if s.cv then some (fieldOf s.me.pend 0 2) else none }

/-- A command with a row operand at s[sg] + g[a]. -/
def withSeg (c : MCmd) (sg : BitVec 3) (a : Reg) (s : State) : MCmd := { c with seg := s.seg sg.toNat, off := s.reg a }

/-- A command without memory operand. -/
def plainCmd (f : Form) (op : MOp) (s : State) : Host.Outcome State Fault Refusal :=
  instr f (do engineIssue (← look (captured op))) s

/-- Trap unless a condition holds. -/
def needs (ok : Bool) (code : Nat) : M Unit := if ok then pure () else matrixTrap code

def even (t : Tile) : Bool := t.toNat % 2 = 0

/-! ### Meanings: MATRIX-LOAD (R368 to R372) -/

def execMzero (t : Tile) (s : State) : Host.Outcome State Fault Refusal := plainCmd (engForm false false) (.zero t) s
def execMmovt (t u : Tile) (s : State) : Host.Outcome State Fault Refusal := plainCmd (engForm false false) (.movt t u) s
def execMrsn (a : Reg) (s : State) : Host.Outcome State Fault Refusal := plainCmd (engForm false false [] [] [a]) (.rsn a) s

def execMring (s : State) : Host.Outcome State Fault Refusal :=
  instr (engForm false false) (do
    let used ← look fun s => (launchOf s s.myCore).any fun l => decide (16 * (groupOf s.myCore % 64 / 16 + 1) ≤ l.ng)
    needs used 6
    engineIssue (← look (captured .ring))) s

def execMldb (a : Reg) (sg : BitVec 3) (s : State) : Host.Outcome State Fault Refusal :=
  instr (engForm true true [a]) (do
    let c ← look fun s => withSeg (captured .ldb s) sg a s
    let k := fieldOf c.x0 0 7
    let sh := ldbShape c.fb k
    operCheck c.seg c.off.toNat sh.1 c.x1.toNat sh.2 aEngR
    needs (!kBad c.fb k) 2
    engineIssue c) s

/-- MLDS reads one row of 32 bytes. -/
def ldsOp (b : Bool) (a : Reg) (sg : BitVec 3) (s : State) : Host.Outcome State Fault Refusal :=
  instr (engForm false true [a]) (do
    let c ← look fun s => withSeg (captured (.lds b) s) sg a s
    operCheck c.seg c.off.toNat 1 0 32 aEngR
    engineIssue c) s

def execMldsA (a : Reg) (sg : BitVec 3) (s : State) : Host.Outcome State Fault Refusal := ldsOp false a sg s
def execMldsB (a : Reg) (sg : BitVec 3) (s : State) : Host.Outcome State Fault Refusal := ldsOp true a sg s

/-- A row operand of 16 rows of 16 elements; a format that the instruction refuses has no rows to check (R274). -/
def rows16 (c : MCmd) (ok : Bool) (acc : Access) : M Unit := do
  operCheck c.seg c.off.toNat (if ok then 16 else 0) c.x1.toNat (elemBytes c.fa 16) acc
  needs ok 1

def execMwra (t : Tile) (a : Reg) (sg : BitVec 3) (s : State) : Host.Outcome State Fault Refusal :=
  instr (engForm true true [a]) (do
    let c ← look fun s => withSeg (captured (.wra t) s) sg a s
    rows16 c (decide (c.fa ≤ 2)) aEngR
    engineIssue c) s

/-! ### Meanings: MATRIX-MMA (R373) -/

def mmaOp (kind : Nat) (t : Tile) (a : Reg) (sg : BitVec 3) (s : State) : Host.Outcome State Fault Refusal :=
  instr (engForm true true [a]) (do
    let c ← look fun s => withSeg (captured (.mma kind t) s) sg a s
    let k := fieldOf c.x0 0 7
    let nibble := fun (f : Nat) => decide (f = 9 ∨ f = 12)
    operCheck c.seg c.off.toNat (if k = 0 then 0 else 16) c.x1.toNat (elemBytes c.fa k) aEngR
    needs (pairOk c.fa c.fb) 1
    needs (!(kBad c.fa k || kBad c.fb k || ((nibble c.fa || nibble c.fb) && k % 2 = 1))) 2
    needs (!(isCx c.fa && !even t)) 3
    engineIssue c) s

def execMma (t : Tile) (a : Reg) (sg : BitVec 3) (s : State) : Host.Outcome State Fault Refusal := mmaOp 0 t a sg s
def execMmas (t : Tile) (a : Reg) (sg : BitVec 3) (s : State) : Host.Outcome State Fault Refusal := mmaOp 1 t a sg s
def execMmaz (t : Tile) (a : Reg) (sg : BitVec 3) (s : State) : Host.Outcome State Fault Refusal := mmaOp 2 t a sg s

/-! ### Meanings: MATRIX-EPILOGUE (R374 to R376) -/

def execMepiAdd (t u b : Tile) (s : State) : Host.Outcome State Fault Refusal := plainCmd (engForm false false) (.epi2 0 t u b) s
def execMepiMul (t u b : Tile) (s : State) : Host.Outcome State Fault Refusal := plainCmd (engForm false false) (.epi2 1 t u b) s
def execMepiMax (t u b : Tile) (s : State) : Host.Outcome State Fault Refusal := plainCmd (engForm false false) (.epi2 2 t u b) s

def execMepiScale (t u : Tile) (a : Reg) (s : State) : Host.Outcome State Fault Refusal :=
  instr (engForm false false [] [a]) (do
    engineIssue (← look fun s => { captured (.epiScale t u) s with off := s.reg a })) s

/-- An own-vault range of 64 bytes at V, below `top` (R374, R376). -/
def vecCheck (v : Word) (top : Nat) : M Unit := do
  if v.toNat % 4 ≠ 0 then trap cMISALIGN v
  else if top < v.toNat + 64 then trap cSEGLIMIT v
  else pure ()

def biasOp (col : Bool) (t u : Tile) (a : Reg) (s : State) : Host.Outcome State Fault Refusal :=
  instr (engForm false false [] [a]) (do
    let c ← look fun s => { captured (.epiBias col t u) s with off := s.reg a }
    vecCheck c.off 0x8000000
    engineIssue c) s

def execMepiBiasRow (t u : Tile) (a : Reg) (s : State) : Host.Outcome State Fault Refusal := biasOp false t u a s
def execMepiBiasCol (t u : Tile) (a : Reg) (s : State) : Host.Outcome State Fault Refusal := biasOp true t u a s
def execMepiExp2 (t u : Tile) (s : State) : Host.Outcome State Fault Refusal := plainCmd (engForm false false) (.epi1 5 t u) s
def execMepiSigmoid (t u : Tile) (s : State) : Host.Outcome State Fault Refusal := plainCmd (engForm false false) (.epi1 6 t u) s
def execMepiSilu (t u : Tile) (s : State) : Host.Outcome State Fault Refusal := plainCmd (engForm false false) (.epi1 7 t u) s
def execMepiTanh (t u : Tile) (s : State) : Host.Outcome State Fault Refusal := plainCmd (engForm false false) (.epi1 8 t u) s
def execMepiRecip (t u : Tile) (s : State) : Host.Outcome State Fault Refusal := plainCmd (engForm false false) (.epi1 9 t u) s
def execMepiRsqrt (t u : Tile) (s : State) : Host.Outcome State Fault Refusal := plainCmd (engForm false false) (.epi1 10 t u) s

/-- The formats of MSTT (R375). -/
def sttOk (f : Nat) : Bool := decide (f ≤ 4) || decide (11 ≤ f ∧ f ≤ 14)

def sttOp (setFull : Bool) (u : Tile) (a : Reg) (sg : BitVec 3) (s : State) : Host.Outcome State Fault Refusal :=
  instr (engForm true true [a]) (do
    let c ← look fun s => withSeg (captured (.stt setFull u) s) sg a s
    rows16 c (sttOk c.fa) (if setFull then aEngF else aEngW)
    needs (!(isCx c.fa && !even u)) 3
    engineIssue c) s

def execMstt (u : Tile) (a : Reg) (sg : BitVec 3) (s : State) : Host.Outcome State Fault Refusal := sttOp false u a sg s
def execMsttF (u : Tile) (a : Reg) (sg : BitVec 3) (s : State) : Host.Outcome State Fault Refusal := sttOp true u a sg s

def execMtran (t u : Tile) (s : State) : Host.Outcome State Fault Refusal := plainCmd (engForm false false) (.tran t u) s

def redOp (kind : Nat) (u : Tile) (a : Reg) (n : Bool) (s : State) : Host.Outcome State Fault Refusal :=
  instr (engForm false false [] [a]) (do
    let c ← look fun s => { captured (.red kind n u) s with off := s.reg a }
    vecCheck c.off 0x4000000
    engineIssue c) s

def execMredRowmax (u : Tile) (a : Reg) (n : Bool) (s : State) : Host.Outcome State Fault Refusal := redOp 0 u a n s
def execMredRowsum (u : Tile) (a : Reg) (n : Bool) (s : State) : Host.Outcome State Fault Refusal := redOp 1 u a n s
def execMredColmax (u : Tile) (a : Reg) (n : Bool) (s : State) : Host.Outcome State Fault Refusal := redOp 2 u a n s
def execMredColsum (u : Tile) (a : Reg) (n : Bool) (s : State) : Host.Outcome State Fault Refusal := redOp 3 u a n s

/-! ### Meanings: MATRIX-SOLVE (R377, R378) -/

/-- A structure of `n` bytes at an own-vault offset stands as R378 asks. -/
def structOk (v : Word) (n : Nat) : Bool := v.toNat % 4 = 0 && decide (v.toNat + n ≤ 0x4000000)

/-- MPOTRF, MGETRF and MTRSM: format, pairs, record. -/
def solveOp (op : MOp) (tiles : List Tile) (n : Nat) (a : Reg) (s : State) : Host.Outcome State Fault Refusal :=
  instr (engForm true false [] [a]) (do
    let c ← look fun s => { captured op s with off := s.reg a }
    needs (decide (c.fa = 0 ∨ c.fa = 14)) 1
    needs (c.fa = 0 || tiles.all even) 3
    needs (structOk c.off n) 7
    engineIssue c) s

def execMpotrf (t : Tile) (a : Reg) (s : State) : Host.Outcome State Fault Refusal := solveOp (.potrf t) [t] 4 a s
def execMgetrf (t : Tile) (a : Reg) (s : State) : Host.Outcome State Fault Refusal := solveOp (.getrf t) [t] 20 a s
def execMtrsm (t v : Tile) (a : Reg) (o : BitVec 2) (r q p : Bool) (s : State) : Host.Outcome State Fault Refusal :=
  solveOp (.trsm p q r o.toNat t v) [t, v] 4 a s

def execMdelta (a : Reg) (s : State) : Host.Outcome State Fault Refusal :=
  instr (engForm false false [] [a]) (do
    let c ← look fun s => { captured .delta s with off := s.reg a }
    needs (structOk c.off 4 && structOk c.x0 8 && structOk c.x1 16) 7
    engineIssue c) s

def shiftOp (zero : Bool) (a : Reg) (s : State) : Host.Outcome State Fault Refusal :=
  instr (engForm false false [] [a]) (do
    let c ← look fun s => { captured (.shift zero) s with off := s.reg a }
    needs (structOk c.off 4 && structOk c.x0 8) 7
    engineIssue c) s

def execMshiftDup (a : Reg) (s : State) : Host.Outcome State Fault Refusal := shiftOp false a s
def execMshiftZero (a : Reg) (s : State) : Host.Outcome State Fault Refusal := shiftOp true a s

/-! ### Meanings: BLOCK-CONVERT (R385 to R387) -/

/-- MQNT and MDQNT: rows of blocks and, for an MX format, 16 scale bytes. -/
def tileCvt (op : MOp) (t : Tile) (a : Reg) (sg : BitVec 3) (acc : Access) (s : State) : Host.Outcome State Fault Refusal :=
  instr (engForm true true [a]) (do
    let c ← look fun s => withSeg (captured op s) sg a s
    let ok := isBlocked c.fa
    tests [rowsTest false c.seg c.off.toNat (if ok then 16 else 0) c.x1.toNat (blockBytes c.fa) acc,
      if isMx c.fa then bytesTest false c.seg (c.off.toNat + c.x2.toNat) 16 acc else none]
    needs ok 1
    needs (even t) 3
    engineIssue c) s

def execMqnt (u : Tile) (a : Reg) (sg : BitVec 3) (s : State) : Host.Outcome State Fault Refusal := tileCvt (.qnt u) u a sg aEngW s
def execMdqnt (t : Tile) (a : Reg) (sg : BitVec 3) (s : State) : Host.Outcome State Fault Refusal := tileCvt (.dqnt t) t a sg aEngR s

/-- The format sets of R387: FP32, BF16 and FP16; those of CVTV. -/
def isWide (f : Nat) : Bool := decide (f ≤ 2)
def isVec (f : Nat) : Bool := decide (f ≤ 4) || isInt f

/-- CVTBLK, CVTUNB and CVTV: one run of bytes at each end, counts and formats (R387). `b` is read only with MX blocks. -/
def memCvt (fn : Nat) (d a b : Reg) (sg e : BitVec 3) (s : State) : Host.Outcome State Fault Refusal :=
  let mx := (fn = 0 && isMx s.fmtA) || (fn = 1 && isMx s.fmtB)
  instr { engForm true true [a] with ranges := [(d, 1)], src := if mx then [b] else [], illegal := !mx && b ≠ 0 } (do
    let c ← look fun s => { withSeg (captured (.cvt fn) s) sg a s with seg2 := s.seg e.toNat, off2 := s.reg d, gb := s.reg b }
    let ok := match fn with
      | 0 => isWide c.fb && isBlocked c.fa
      | 1 => isBlocked c.fb && isWide c.fa
      | _ => isVec c.fb && isVec c.fa
    let n := cvtCount fn c
    let rows := if ok && n ≠ 0 then 1 else 0
    tests [rowsTest false c.seg c.off.toNat rows 0 (elemBytes c.fb n) aEngR,
      rowsTest false c.seg2 c.off2.toNat rows 0 (elemBytes c.fa n) aEngW,
      if mx && rows = 1 then
        if fn = 0 then bytesTest false c.seg2 c.gb.toNat c.x0.toNat aEngW else bytesTest false c.seg c.gb.toNat c.x0.toNat aEngR
      else none]
    needs ok 1
    needs (decide (0 < c.x0.toNat) && decide (c.x0.toNat ≤ if fn = 2 then 1024 else 32) &&
      !(fn = 2 && c.x0.toNat % 2 = 1 && (c.fa = 12 || c.fb = 12))) 2
    engineIssue c) s

def execCvtblk (d a b : Reg) (sg e : BitVec 3) (s : State) : Host.Outcome State Fault Refusal := memCvt 0 d a b sg e s
def execCvtunb (d a b : Reg) (sg e : BitVec 3) (s : State) : Host.Outcome State Fault Refusal := memCvt 1 d a b sg e s
def execCvtv (d a : Reg) (sg e : BitVec 3) (s : State) : Host.Outcome State Fault Refusal := memCvt 2 d a 0 sg e s

end Sys2Proof.Machine
end

