-- ==== Sys2Proof/WellFormed.lean ====
section
/-! DEFINITION. What the tables refuse in an encoding beyond its opcode and function: register parity, ranges past g31,
segment number 0, reserved sub-fields (R298, R300, R304, R338). An event is well formed when its unit numbers exist (R2). -/

namespace Sys2Proof

/-- A range of `n` registers from `d` stays within g31 (R338). -/
def rangeOk (d : Reg) (n : Nat) : Bool := d.toNat + n ≤ 32

/-- An FMT halfword that R304 does not give to REL, CLASS or a reserved value. -/
def fmtOk (r : BitVec 3) (a b : BitVec 4) : Bool := !(r == 7 && a == 13 && !(b == 13 || b == 14))

/-- The checks on an instruction's fields. -/
def Instr.wf : Instr → Bool
  | .ld t .. | .sd t .. => t.toNat % 2 == 0
  | .lq t .. | .sq t .. => t.toNat % 4 == 0
  | .tcas _ _ b _ => b.toNat % 2 == 0
  | .msend d _ _ c | .mcall d _ _ c | .mrecv d _ _ c | .mrecvt d _ _ c | .mpoll d _ _ c | .mreply d c => rangeOk d (c.toNat + 1)
  | .qput d _ c | .qputt d _ _ c | .qtaket d _ _ c => rangeOk d (c.toNat + 1)
  | .qtake d _ b s c => rangeOk d (c.toNat + 1) && (s != 0 || b == 0)
  | .wid _ k => k.toNat ≤ 5
  | .dlarmm _ _ y => y != 0
  | .mtrsm _ _ _ o _ _ _ => o != 3
  | .segld n _ | .segnull n => n != 0
  | .segrd d _ => d.toNat % 4 == 0
  | .fmt r a b => fmtOk r a b
  | .cls c => c != 0
  | .bursarStart d | .bursarInit d | .dieThermalTrip d | .hostRefresh d _ | .inboundForward d | .notifyForward d | .mbdoor d
  | .mbset d | .attcmd d | .attestReport d | .ethPause d | .ethTransmit d | .i3cGo d | .i3cRoleGrant d | .i3cRoleTimeout d
  | .i3cRel d | .ethLinkDown d | .ethLinkUp d => d < 4
  | .partitionReset p | .mprstReq p | .launchDispatch p => p < 3
  | .throttleApply c | .clrst c | .clusterResetDone c | .launchSetup c | .bursarLaunch c | .clusterDrained c | .confirm c
  | .confirmAnswer c | .close c | .stallAll c | .preempt c | .preemptSave c | .restore c | .cancel c | .walk c => c < 16
  | .mcRequest c | .refreshWindowEnd c | .mcmapRetire c | .mcmapFence c | .copyGranule c | .mapDrainStart c | .mapActivate c => c < 8
  | .lendStart c p | .lendAck c p | .lendAbort c p | .lendDrainDone c p | .lendQuiesceDone c p | .lendReclaimStart c p
  | .lendRetrainDone c p _ | .lendReclaimDone c p _ => c < 8 && p < 16
  | .ringStep q | .ringStepComplete q => q < 64
  | .copyAccept g | .copyComplete g _ | .matrixCommandTaken g | .matrixRetire g => g < 1024
  | _ => true

end Sys2Proof
end

