-- ==== Sys2Proof/Decode.lean ====
section
/-! DEFINITION. The decoder and the encoder (R6, R296 to R306, R318 to R399). The decoder is total: a halfword or word that
the tables do not define is rejected by name. Field positions are those of R297 and R299. -/

namespace Sys2Proof

-- Lean's runtime has no object tags for more than 245 constructors with fields, so what builds an instruction is evaluated by
-- the kernel only.
noncomputable section

/-- Why bytes do not decode: too few of them, or an encoding the tables do not define (R6, R300, R301). -/
inductive DecodeError where
  | truncated
  | illegalHalf (h : BitVec 16)
  | illegalWord (w : BitVec 32)
  deriving DecidableEq, Repr

/-- x[lo + n - 1 : lo] (R3). -/
def fld {w : Nat} (x : BitVec w) (lo n : Nat) : BitVec n := x.extractLsb' lo n

/-- x[n], a single bit (R3). -/
def bit {w : Nat} (x : BitVec w) (n : Nat) : Bool := x.getLsbD n

/-- A Boolean as one bit. -/
def flag (b : Bool) : BitVec 1 := if b then 1#1 else 0#1

/-- A decoded instruction stands only if it is well formed: ranges, register parity and reserved values (R298, R338). -/
def accept (i : Instr) : Option Instr := if i.wf then some i else none

/-- Alu group (op 0x01). -/
def decodeAlu (w : BitVec 32) : Option Instr :=
  match (fld w 22 10).toNat with
  | 0 => accept (.add (fld w 7 5) (fld w 12 5) (fld w 17 5))
  | 1 => accept (.sub (fld w 7 5) (fld w 12 5) (fld w 17 5))
  | 2 => accept (.adds (fld w 7 5) (fld w 12 5) (fld w 17 5))
  | 3 => accept (.subs (fld w 7 5) (fld w 12 5) (fld w 17 5))
  | 4 => accept (.and (fld w 7 5) (fld w 12 5) (fld w 17 5))
  | 5 => accept (.or (fld w 7 5) (fld w 12 5) (fld w 17 5))
  | 6 => accept (.xor (fld w 7 5) (fld w 12 5) (fld w 17 5))
  | 7 => accept (.andn (fld w 7 5) (fld w 12 5) (fld w 17 5))
  | 8 => accept (.sll (fld w 7 5) (fld w 12 5) (fld w 17 5))
  | 9 => accept (.srl (fld w 7 5) (fld w 12 5) (fld w 17 5))
  | 10 => accept (.sra (fld w 7 5) (fld w 12 5) (fld w 17 5))
  | 11 => accept (.ror (fld w 7 5) (fld w 12 5) (fld w 17 5))
  | 12 => accept (.slt (fld w 7 5) (fld w 12 5) (fld w 17 5))
  | 13 => accept (.sltn (fld w 7 5) (fld w 12 5) (fld w 17 5))
  | 14 => accept (.min (fld w 7 5) (fld w 12 5) (fld w 17 5))
  | 15 => accept (.max (fld w 7 5) (fld w 12 5) (fld w 17 5))
  | 16 => accept (.minn (fld w 7 5) (fld w 12 5) (fld w 17 5))
  | 17 => accept (.maxn (fld w 7 5) (fld w 12 5) (fld w 17 5))
  | 18 => accept (.bext (fld w 7 5) (fld w 12 5) (fld w 17 5))
  | 19 => accept (.bexts (fld w 7 5) (fld w 12 5) (fld w 17 5))
  | 20 => if fld w 17 5 == 0 then accept (.lzc (fld w 7 5) (fld w 12 5)) else none
  | 21 => if fld w 17 5 == 0 then accept (.tzc (fld w 7 5) (fld w 12 5)) else none
  | 22 => if fld w 17 5 == 0 then accept (.ones (fld w 7 5) (fld w 12 5)) else none
  | 23 => if fld w 17 5 == 0 then accept (.bswap (fld w 7 5) (fld w 12 5)) else none
  | 24 => if fld w 17 5 == 0 then accept (.brev (fld w 7 5) (fld w 12 5)) else none
  | 25 => if fld w 17 5 == 0 then accept (.extb (fld w 7 5) (fld w 12 5)) else none
  | 26 => if fld w 17 5 == 0 then accept (.exth (fld w 7 5) (fld w 12 5)) else none
  | _ => none

/-- ShiftI group (op 0x06). -/
def decodeShiftI (w : BitVec 32) : Option Instr :=
  match (fld w 22 10).toNat with
  | 0 => accept (.slli (fld w 7 5) (fld w 12 5) (fld w 17 5))
  | 1 => accept (.srli (fld w 7 5) (fld w 12 5) (fld w 17 5))
  | 2 => accept (.srai (fld w 7 5) (fld w 12 5) (fld w 17 5))
  | 3 => accept (.rori (fld w 7 5) (fld w 12 5) (fld w 17 5))
  | _ => none

/-- MulDiv group (op 0x0B). -/
def decodeMulDiv (w : BitVec 32) : Option Instr :=
  match (fld w 22 10).toNat with
  | 0 => accept (.mul (fld w 7 5) (fld w 12 5) (fld w 17 5))
  | 1 => accept (.mulq (fld w 7 5) (fld w 12 5) (fld w 17 5))
  | 2 => accept (.mulh (fld w 7 5) (fld w 12 5) (fld w 17 5))
  | 3 => accept (.mulhn (fld w 7 5) (fld w 12 5) (fld w 17 5))
  | 4 => accept (.mulhsn (fld w 7 5) (fld w 12 5) (fld w 17 5))
  | 5 => accept (.div (fld w 7 5) (fld w 12 5) (fld w 17 5))
  | 6 => accept (.divn (fld w 7 5) (fld w 12 5) (fld w 17 5))
  | 7 => accept (.rem (fld w 7 5) (fld w 12 5) (fld w 17 5))
  | 8 => accept (.remn (fld w 7 5) (fld w 12 5) (fld w 17 5))
  | _ => none

/-- The size field of a packed instruction (R327). -/
def packSize (z : BitVec 2) : Option PackSize :=
  if z == 1 then some .h else if z == 2 then some .b else none

/-- Packed group (op 0x0C). -/
def decodePacked (w : BitVec 32) : Option Instr :=
  match packSize (fld w 30 2) with
  | none => none
  | some z =>
  match (fld w 22 8).toNat with
  | 0 => accept (.padd (fld w 7 5) (fld w 12 5) (fld w 17 5) z)
  | 1 => accept (.psub (fld w 7 5) (fld w 12 5) (fld w 17 5) z)
  | 2 => accept (.padds (fld w 7 5) (fld w 12 5) (fld w 17 5) z)
  | 3 => accept (.psubs (fld w 7 5) (fld w 12 5) (fld w 17 5) z)
  | 4 => accept (.paddsn (fld w 7 5) (fld w 12 5) (fld w 17 5) z)
  | 5 => accept (.psubsn (fld w 7 5) (fld w 12 5) (fld w 17 5) z)
  | 6 => accept (.pmin (fld w 7 5) (fld w 12 5) (fld w 17 5) z)
  | 7 => accept (.pmax (fld w 7 5) (fld w 12 5) (fld w 17 5) z)
  | 8 => accept (.pminn (fld w 7 5) (fld w 12 5) (fld w 17 5) z)
  | 9 => accept (.pmaxn (fld w 7 5) (fld w 12 5) (fld w 17 5) z)
  | 10 => accept (.pavg (fld w 7 5) (fld w 12 5) (fld w 17 5) z)
  | 11 => accept (.pmul (fld w 7 5) (fld w 12 5) (fld w 17 5) z)
  | 12 => accept (.pmulq (fld w 7 5) (fld w 12 5) (fld w 17 5) z)
  | 13 => accept (.psll (fld w 7 5) (fld w 12 5) (fld w 17 5) z)
  | 14 => accept (.psrl (fld w 7 5) (fld w 12 5) (fld w 17 5) z)
  | 15 => accept (.psra (fld w 7 5) (fld w 12 5) (fld w 17 5) z)
  | 16 => accept (.pdot (fld w 7 5) (fld w 12 5) (fld w 17 5) z)
  | 17 => accept (.ppkl (fld w 7 5) (fld w 12 5) (fld w 17 5) z)
  | 18 => accept (.ppkh (fld w 7 5) (fld w 12 5) (fld w 17 5) z)
  | _ => none

/-- Complex group (op 0x0D). -/
def decodeComplex (w : BitVec 32) : Option Instr :=
  match (fld w 22 10).toNat with
  | 0 => accept (.cadd (fld w 7 5) (fld w 12 5) (fld w 17 5))
  | 1 => accept (.csub (fld w 7 5) (fld w 12 5) (fld w 17 5))
  | 2 => accept (.cmul (fld w 7 5) (fld w 12 5) (fld w 17 5))
  | 3 => accept (.cmulc (fld w 7 5) (fld w 12 5) (fld w 17 5))
  | 4 => if fld w 17 5 == 0 then accept (.cconj (fld w 7 5) (fld w 12 5)) else none
  | 5 => if fld w 17 5 == 0 then accept (.cmulj (fld w 7 5) (fld w 12 5)) else none
  | 6 => if fld w 17 5 == 0 then accept (.cmag2 (fld w 7 5) (fld w 12 5)) else none
  | 7 => accept (.cshr (fld w 7 5) (fld w 12 5) (fld w 17 5))
  | _ => none

/-- PackedMac group (op 0x0E). -/
def decodePackedMac (w : BitVec 32) : Option Instr :=
  match (fld w 27 5).toNat with
  | 0 => accept (.pdotaH (fld w 7 5) (fld w 12 5) (fld w 17 5) (fld w 22 5))
  | 1 => accept (.pdotaB (fld w 7 5) (fld w 12 5) (fld w 17 5) (fld w 22 5))
  | 2 => accept (.pdotasH (fld w 7 5) (fld w 12 5) (fld w 17 5) (fld w 22 5))
  | 3 => accept (.pdotasB (fld w 7 5) (fld w 12 5) (fld w 17 5) (fld w 22 5))
  | 4 => accept (.cmac (fld w 7 5) (fld w 12 5) (fld w 17 5) (fld w 22 5))
  | 5 => accept (.cmacc (fld w 7 5) (fld w 12 5) (fld w 17 5) (fld w 22 5))
  | _ => none

/-- Fpu group (op 0x10). -/
def decodeFpu (w : BitVec 32) : Option Instr :=
  match (fld w 22 9).toNat with
  | 0 => accept (.fadd (fld w 7 5) (fld w 12 5) (fld w 17 5) (bit w 31))
  | 1 => accept (.fsub (fld w 7 5) (fld w 12 5) (fld w 17 5) (bit w 31))
  | 2 => accept (.fmul (fld w 7 5) (fld w 12 5) (fld w 17 5) (bit w 31))
  | 3 => accept (.fdiv (fld w 7 5) (fld w 12 5) (fld w 17 5) (bit w 31))
  | 4 => if fld w 17 5 == 0 then accept (.fsqrt (fld w 7 5) (fld w 12 5) (bit w 31)) else none
  | 5 => accept (.fmin (fld w 7 5) (fld w 12 5) (fld w 17 5) (bit w 31))
  | 6 => if fld w 17 5 == 0 then accept (.fabs (fld w 7 5) (fld w 12 5) (bit w 31)) else none
  | 7 => if fld w 17 5 == 0 then accept (.fneg (fld w 7 5) (fld w 12 5) (bit w 31)) else none
  | 8 => accept (.fcpys (fld w 7 5) (fld w 12 5) (fld w 17 5) (bit w 31))
  | 9 => accept (.fxors (fld w 7 5) (fld w 12 5) (fld w 17 5) (bit w 31))
  | 10 => accept (.fcmpeq (fld w 7 5) (fld w 12 5) (fld w 17 5) (bit w 31))
  | 11 => accept (.fcmplt (fld w 7 5) (fld w 12 5) (fld w 17 5) (bit w 31))
  | 12 => accept (.fcmple (fld w 7 5) (fld w 12 5) (fld w 17 5) (bit w 31))
  | 13 => if fld w 17 5 == 0 then accept (.fclass (fld w 7 5) (fld w 12 5) (bit w 31)) else none
  | 14 => accept (.fmax (fld w 7 5) (fld w 12 5) (fld w 17 5) (bit w 31))
  | _ => none

/-- Fma group (op 0x11). -/
def decodeFma (w : BitVec 32) : Option Instr :=
  match (fld w 27 4).toNat with
  | 0 => accept (.fmadd (fld w 7 5) (fld w 12 5) (fld w 17 5) (fld w 22 5) (bit w 31))
  | 1 => accept (.fmsub (fld w 7 5) (fld w 12 5) (fld w 17 5) (fld w 22 5) (bit w 31))
  | 2 => accept (.fnmsub (fld w 7 5) (fld w 12 5) (fld w 17 5) (fld w 22 5) (bit w 31))
  | 3 => accept (.fnmadd (fld w 7 5) (fld w 12 5) (fld w 17 5) (fld w 22 5) (bit w 31))
  | _ => none

/-- Fcvt group (op 0x12). -/
def decodeFcvt (w : BitVec 32) : Option Instr :=
  match (fld w 22 10).toNat with
  | 0 => if fld w 17 5 == 0 then accept (.fcvtWF (fld w 7 5) (fld w 12 5)) else none
  | 1 => if fld w 17 5 == 0 then accept (.fcvtWnF (fld w 7 5) (fld w 12 5)) else none
  | 2 => if fld w 17 5 == 0 then accept (.fcvtFW (fld w 7 5) (fld w 12 5)) else none
  | 3 => if fld w 17 5 == 0 then accept (.fcvtFWn (fld w 7 5) (fld w 12 5)) else none
  | 4 => accept (.fcvtH2F (fld w 7 5) (fld w 12 5) (fld w 17 5))
  | 5 => if fld w 17 5 == 0 then accept (.fcvtFHl (fld w 7 5) (fld w 12 5)) else none
  | 6 => if fld w 17 5 == 0 then accept (.fcvtFHh (fld w 7 5) (fld w 12 5)) else none
  | 7 => if fld w 17 5 == 0 then accept (.fcvtH2H2 (fld w 7 5) (fld w 12 5)) else none
  | _ => none

/-- Load group (op 0x14). -/
def decodeLoad (w : BitVec 32) : Option Instr :=
  match (fld w 20 3).toNat with
  | 0 => accept (.lb (fld w 7 5) (fld w 12 5) (fld w 17 3) (fld w 23 9))
  | 1 => accept (.lbn (fld w 7 5) (fld w 12 5) (fld w 17 3) (fld w 23 9))
  | 2 => accept (.lh (fld w 7 5) (fld w 12 5) (fld w 17 3) (fld w 23 9))
  | 3 => accept (.lhn (fld w 7 5) (fld w 12 5) (fld w 17 3) (fld w 23 9))
  | 4 => accept (.lw (fld w 7 5) (fld w 12 5) (fld w 17 3) (fld w 23 9))
  | 5 => accept (.ld (fld w 7 5) (fld w 12 5) (fld w 17 3) (fld w 23 9))
  | 6 => accept (.lq (fld w 7 5) (fld w 12 5) (fld w 17 3) (fld w 23 9))
  | _ => none

/-- Store group (op 0x15). -/
def decodeStore (w : BitVec 32) : Option Instr :=
  match (fld w 20 3).toNat with
  | 0 => accept (.sb (fld w 7 5) (fld w 12 5) (fld w 17 3) (fld w 23 9))
  | 1 => accept (.sh (fld w 7 5) (fld w 12 5) (fld w 17 3) (fld w 23 9))
  | 2 => accept (.sw (fld w 7 5) (fld w 12 5) (fld w 17 3) (fld w 23 9))
  | 3 => accept (.sd (fld w 7 5) (fld w 12 5) (fld w 17 3) (fld w 23 9))
  | 4 => accept (.sq (fld w 7 5) (fld w 12 5) (fld w 17 3) (fld w 23 9))
  | _ => none

/-- FullEmpty group (op 0x16). -/
def decodeFullEmpty (w : BitVec 32) : Option Instr :=
  match (fld w 20 3).toNat with
  | 0 => accept (.lwf (fld w 7 5) (fld w 12 5) (fld w 17 3) (fld w 23 9))
  | 1 => accept (.lwt (fld w 7 5) (fld w 12 5) (fld w 17 3) (fld w 23 9))
  | 2 => accept (.swp (fld w 7 5) (fld w 12 5) (fld w 17 3) (fld w 23 9))
  | 3 => accept (.swf (fld w 7 5) (fld w 12 5) (fld w 17 3) (fld w 23 9))
  | 4 => accept (.ferd (fld w 7 5) (fld w 12 5) (fld w 17 3) (fld w 23 9))
  | 5 => accept (.feset (fld w 7 5) (fld w 12 5) (fld w 17 3) (fld w 23 9))
  | _ => none

/-- Atomic group (op 0x17). -/
def decodeAtomic (w : BitVec 32) : Option Instr :=
  match (fld w 25 7).toNat with
  | 0 => accept (.tadd (fld w 7 5) (fld w 12 5) (fld w 17 5) (fld w 22 3))
  | 1 => accept (.tand (fld w 7 5) (fld w 12 5) (fld w 17 5) (fld w 22 3))
  | 2 => accept (.tor (fld w 7 5) (fld w 12 5) (fld w 17 5) (fld w 22 3))
  | 3 => accept (.txor (fld w 7 5) (fld w 12 5) (fld w 17 5) (fld w 22 3))
  | 4 => accept (.tmin (fld w 7 5) (fld w 12 5) (fld w 17 5) (fld w 22 3))
  | 5 => accept (.tmax (fld w 7 5) (fld w 12 5) (fld w 17 5) (fld w 22 3))
  | 6 => accept (.tminn (fld w 7 5) (fld w 12 5) (fld w 17 5) (fld w 22 3))
  | 7 => accept (.tmaxn (fld w 7 5) (fld w 12 5) (fld w 17 5) (fld w 22 3))
  | 8 => accept (.tswap (fld w 7 5) (fld w 12 5) (fld w 17 5) (fld w 22 3))
  | 9 => accept (.tcas (fld w 7 5) (fld w 12 5) (fld w 17 5) (fld w 22 3))
  | 10 => accept (.tfadd (fld w 7 5) (fld w 12 5) (fld w 17 5) (fld w 22 3))
  | 11 => accept (.twinc (fld w 7 5) (fld w 12 5) (fld w 17 5) (fld w 22 3))
  | _ => none

/-- Fence group (op 0x18). -/
def decodeFence (w : BitVec 32) : Option Instr :=
  match (fld w 22 10).toNat with
  | 0 => if fld w 7 15 == 0 then accept (.fenceV) else none
  | 1 => if fld w 7 15 == 0 then accept (.fenceG) else none
  | 2 => if fld w 7 15 == 0 then accept (.fenceA) else none
  | 3 => if fld w 7 15 == 0 then accept (.ifence) else none
  | _ => none

/-- Branch group (op 0x1A). -/
def decodeBranch (w : BitVec 32) : Option Instr :=
  match (fld w 17 3).toNat with
  | 0 => accept (.beq (fld w 7 5) (fld w 12 5) (fld w 20 12))
  | 1 => accept (.bne (fld w 7 5) (fld w 12 5) (fld w 20 12))
  | 2 => accept (.blt (fld w 7 5) (fld w 12 5) (fld w 20 12))
  | 3 => accept (.bge (fld w 7 5) (fld w 12 5) (fld w 20 12))
  | 4 => accept (.bltn (fld w 7 5) (fld w 12 5) (fld w 20 12))
  | 5 => accept (.bgen (fld w 7 5) (fld w 12 5) (fld w 20 12))
  | 6 => accept (.bbs (fld w 7 5) (fld w 12 5) (fld w 20 12))
  | 7 => accept (.bbc (fld w 7 5) (fld w 12 5) (fld w 20 12))
  | _ => none

/-- Barrier group (op 0x20). -/
def decodeBarrier (w : BitVec 32) : Option Instr :=
  match (fld w 22 5).toNat with
  | 0 => if fld w 12 10 == 0 then accept (.bara (fld w 7 5) (fld w 27 5)) else none
  | 1 => if fld w 17 5 == 0 then accept (.barw (fld w 7 5) (fld w 12 5) (fld w 27 5)) else none
  | 2 => if fld w 17 5 == 0 then accept (.barsum (fld w 7 5) (fld w 12 5) (fld w 27 5)) else none
  | 3 => if fld w 17 5 == 0 then accept (.barstmt (fld w 7 5) (fld w 12 5) (fld w 27 5)) else none
  | 4 => if fld w 7 5 == 0 && fld w 17 5 == 0 then accept (.barcfg (fld w 12 5) (fld w 27 5)) else none
  | _ => none

/-- Message group (op 0x21). -/
def decodeMessage (w : BitVec 32) : Option Instr :=
  match (fld w 25 7).toNat with
  | 0 => accept (.msend (fld w 7 5) (fld w 12 5) (fld w 17 5) (fld w 22 3))
  | 1 => accept (.mcall (fld w 7 5) (fld w 12 5) (fld w 17 5) (fld w 22 3))
  | 2 => accept (.mrecv (fld w 7 5) (fld w 12 5) (fld w 17 5) (fld w 22 3))
  | 3 => accept (.mrecvt (fld w 7 5) (fld w 12 5) (fld w 17 5) (fld w 22 3))
  | 4 => accept (.mpoll (fld w 7 5) (fld w 12 5) (fld w 17 5) (fld w 22 3))
  | 5 => if fld w 12 10 == 0 then accept (.mreply (fld w 7 5) (fld w 22 3)) else none
  | _ => none

/-- QueueStream group (op 0x22). -/
def decodeQueueStream (w : BitVec 32) : Option Instr :=
  match (fld w 25 4).toNat with
  | 0 => if fld w 17 8 == 0 then accept (.qput (fld w 7 5) (fld w 12 5) (fld w 29 3)) else none
  | 1 => if fld w 22 3 == 0 then accept (.qputt (fld w 7 5) (fld w 12 5) (fld w 17 5) (fld w 29 3)) else none
  | 2 => accept (.qtake (fld w 7 5) (fld w 12 5) (fld w 17 5) (fld w 22 3) (fld w 29 3))
  | 3 => if fld w 22 3 == 0 then accept (.qtaket (fld w 7 5) (fld w 12 5) (fld w 17 5) (fld w 29 3)) else none
  | 4 => if fld w 7 5 == 0 && fld w 17 5 == 0 && fld w 24 1 == 0 && fld w 29 3 == 0 then accept (.sopen (fld w 12 5) (fld w 22 2)) else none
  | 5 => if fld w 7 5 == 0 && fld w 17 5 == 0 && fld w 24 1 == 0 && fld w 29 3 == 0 then accept (.sput (fld w 12 5) (fld w 22 2)) else none
  | 6 => if fld w 7 15 == 0 && fld w 24 1 == 0 && fld w 29 3 == 0 then accept (.sclose (fld w 22 2)) else none
  | 7 => if fld w 12 5 == 0 && fld w 24 1 == 0 && fld w 29 3 == 0 then accept (.sget (fld w 7 5) (fld w 17 5) (fld w 22 2)) else none
  | _ => none

/-- Task group (op 0x23). -/
def decodeTask (w : BitVec 32) : Option Instr :=
  match (fld w 25 7).toNat with
  | 0 => if fld w 7 5 == 0 then accept (.spawn (fld w 12 5) (fld w 17 5) (fld w 22 3)) else none
  | 1 => if fld w 7 5 == 0 && fld w 17 5 == 0 then accept (.spret (fld w 12 5) (fld w 22 3)) else none
  | 2 => if fld w 7 5 == 0 && fld w 17 5 == 0 then accept (.join (fld w 12 5) (fld w 22 3)) else none
  | 3 => if fld w 22 3 == 0 then accept (.rspawn (fld w 7 5) (fld w 12 5) (fld w 17 5)) else none
  | 4 => if fld w 7 5 == 0 && fld w 17 8 == 0 then accept (.tsubmit (fld w 12 5)) else none
  | 5 => if fld w 7 18 == 0 then accept (.tdone) else none
  | 6 => if fld w 12 10 == 0 then accept (.wid (fld w 7 5) (fld w 22 3)) else none
  | 7 => if fld w 12 13 == 0 then accept (.coreid (fld w 7 5)) else none
  | _ => none

/-- Deadline group (op 0x24). -/
def decodeDeadline (w : BitVec 32) : Option Instr :=
  match (fld w 17 2).toNat with
  | 0 => if fld w 19 13 == 0 then accept (.dlarm (fld w 7 5) (fld w 12 5)) else none
  | 1 => if fld w 27 5 == 0 then accept (.dlarmm (fld w 7 5) (fld w 12 5) (fld w 19 8)) else none
  | 2 => if fld w 12 5 == 0 && fld w 19 13 == 0 then accept (.dldis (fld w 7 5)) else none
  | _ => none

/-- MatrixLoad group (op 0x28). -/
def decodeMatrixLoad (w : BitVec 32) : Option Instr :=
  match (fld w 24 5).toNat with
  | 0 => if fld w 13 11 == 0 && fld w 29 3 == 0 then accept (.mzero (fld w 7 6)) else none
  | 1 => if fld w 7 12 == 0 then accept (.mldb (fld w 19 5) (fld w 29 3)) else none
  | 2 => if fld w 7 12 == 0 then accept (.mldsA (fld w 19 5) (fld w 29 3)) else if fld w 7 12 == 1 then accept (.mldsB (fld w 19 5) (fld w 29 3)) else none
  | 3 => if fld w 13 6 == 0 then accept (.mwra (fld w 7 6) (fld w 19 5) (fld w 29 3)) else none
  | 4 => if fld w 7 17 == 0 && fld w 29 3 == 0 then accept (.mring) else none
  | 5 => if fld w 19 5 == 0 && fld w 29 3 == 0 then accept (.mmovt (fld w 7 6) (fld w 13 6)) else none
  | 6 => if fld w 7 12 == 0 && fld w 29 3 == 0 then accept (.mrsn (fld w 19 5)) else none
  | _ => none

/-- MatrixMma group (op 0x29). -/
def decodeMatrixMma (w : BitVec 32) : Option Instr :=
  match (fld w 24 5).toNat with
  | 0 => if fld w 13 6 == 0 then accept (.mma (fld w 7 6) (fld w 19 5) (fld w 29 3)) else none
  | 1 => if fld w 13 6 == 0 then accept (.mmas (fld w 7 6) (fld w 19 5) (fld w 29 3)) else none
  | 2 => if fld w 13 6 == 0 then accept (.mmaz (fld w 7 6) (fld w 19 5) (fld w 29 3)) else none
  | _ => none

/-- Epilogue group (op 0x2A). -/
def decodeEpilogue (w : BitVec 32) : Option Instr :=
  match (fld w 28 4).toNat with
  | 0 => if fld w 25 3 == 0 then accept (.mepiAdd (fld w 7 6) (fld w 13 6) (fld w 19 6)) else none
  | 1 => if fld w 25 3 == 0 then accept (.mepiMul (fld w 7 6) (fld w 13 6) (fld w 19 6)) else none
  | 2 => if fld w 25 3 == 0 then accept (.mepiMax (fld w 7 6) (fld w 13 6) (fld w 19 6)) else none
  | 3 => if fld w 24 4 == 0 then accept (.mepiScale (fld w 7 6) (fld w 13 6) (fld w 19 5)) else none
  | 4 => if fld w 24 4 == 0 then accept (.mepiBiasRow (fld w 7 6) (fld w 13 6) (fld w 19 5)) else if fld w 24 4 == 1 then accept (.mepiBiasCol (fld w 7 6) (fld w 13 6) (fld w 19 5)) else none
  | 5 => if fld w 19 9 == 0 then accept (.mepiExp2 (fld w 7 6) (fld w 13 6)) else none
  | 6 => if fld w 19 9 == 0 then accept (.mepiSigmoid (fld w 7 6) (fld w 13 6)) else none
  | 7 => if fld w 19 9 == 0 then accept (.mepiSilu (fld w 7 6) (fld w 13 6)) else none
  | 8 => if fld w 19 9 == 0 then accept (.mepiTanh (fld w 7 6) (fld w 13 6)) else none
  | 9 => if fld w 19 9 == 0 then accept (.mepiRecip (fld w 7 6) (fld w 13 6)) else none
  | 10 => if fld w 19 9 == 0 then accept (.mepiRsqrt (fld w 7 6) (fld w 13 6)) else none
  | 11 => if fld w 7 6 == 0 && fld w 24 1 == 0 then accept (.mstt (fld w 13 6) (fld w 19 5) (fld w 25 3)) else if fld w 7 6 == 0 && fld w 24 1 == 1 then accept (.msttF (fld w 13 6) (fld w 19 5) (fld w 25 3)) else none
  | 12 => if fld w 19 9 == 0 then accept (.mtran (fld w 7 6) (fld w 13 6)) else none
  | 13 => if fld w 7 6 == 0 && fld w 24 2 == 0 && fld w 27 1 == 0 then accept (.mredRowmax (fld w 13 6) (fld w 19 5) (bit w 26)) else if fld w 7 6 == 0 && fld w 24 2 == 1 && fld w 27 1 == 0 then accept (.mredRowsum (fld w 13 6) (fld w 19 5) (bit w 26)) else if fld w 7 6 == 0 && fld w 24 2 == 2 && fld w 27 1 == 0 then accept (.mredColmax (fld w 13 6) (fld w 19 5) (bit w 26)) else if fld w 7 6 == 0 && fld w 24 2 == 3 && fld w 27 1 == 0 then accept (.mredColsum (fld w 13 6) (fld w 19 5) (bit w 26)) else none
  | _ => none

/-- Solve group (op 0x2B). -/
def decodeSolve (w : BitVec 32) : Option Instr :=
  match (fld w 29 3).toNat with
  | 0 => if fld w 13 6 == 0 && fld w 24 5 == 0 then accept (.mpotrf (fld w 7 6) (fld w 19 5)) else none
  | 1 => if fld w 13 6 == 0 && fld w 24 5 == 0 then accept (.mgetrf (fld w 7 6) (fld w 19 5)) else none
  | 2 => accept (.mtrsm (fld w 7 6) (fld w 13 6) (fld w 19 5) (fld w 24 2) (bit w 26) (bit w 27) (bit w 28))
  | 3 => if fld w 7 12 == 0 && fld w 24 5 == 0 then accept (.mdelta (fld w 19 5)) else none
  | 4 => if fld w 7 12 == 0 && fld w 24 5 == 0 then accept (.mshiftDup (fld w 19 5)) else if fld w 7 12 == 0 && fld w 24 5 == 1 then accept (.mshiftZero (fld w 19 5)) else none
  | _ => none

/-- Bulk group (op 0x2C). -/
def decodeBulk (w : BitVec 32) : Option Instr :=
  match (fld w 28 3).toNat with
  | 0 => accept (.bcopy (fld w 7 5) (fld w 12 5) (fld w 17 5) (fld w 22 3) (fld w 25 3) (bit w 31))
  | 1 => accept (.bcopy2 (fld w 7 5) (fld w 12 5) (fld w 17 5) (fld w 22 3) (fld w 25 3) (bit w 31))
  | 2 => if fld w 22 3 == 0 then accept (.bfill (fld w 7 5) (fld w 12 5) (fld w 17 5) (fld w 25 3) (bit w 31)) else none
  | 3 => accept (.bgath (fld w 7 5) (fld w 12 5) (fld w 17 5) (fld w 22 3) (fld w 25 3) (bit w 31))
  | 4 => accept (.bscat (fld w 7 5) (fld w 12 5) (fld w 17 5) (fld w 22 3) (fld w 25 3) (bit w 31))
  | 5 => if fld w 12 5 == 0 && fld w 22 6 == 0 && fld w 31 1 == 0 then accept (.bcancel (fld w 7 5) (fld w 17 5)) else none
  | 6 => if fld w 12 16 == 0 && fld w 31 1 == 0 then accept (.bstat (fld w 7 5)) else none
  | _ => none

/-- Convert group (op 0x2D). -/
def decodeConvert (w : BitVec 32) : Option Instr :=
  if bit w 31 then
    match (fld w 25 3).toNat with
    | 0 => accept (.cvtblk (fld w 7 5) (fld w 12 5) (fld w 17 5) (fld w 22 3) (fld w 28 3))
    | 1 => accept (.cvtunb (fld w 7 5) (fld w 12 5) (fld w 17 5) (fld w 22 3) (fld w 28 3))
    | 2 => if fld w 17 5 == 0 then accept (.cvtv (fld w 7 5) (fld w 12 5) (fld w 22 3) (fld w 28 3)) else none
    | _ => none
  else
    match (fld w 24 4).toNat with
    | 0 => if fld w 7 6 == 0 then accept (.mqnt (fld w 13 6) (fld w 19 5) (fld w 28 3)) else none
    | 1 => if fld w 13 6 == 0 then accept (.mdqnt (fld w 7 6) (fld w 19 5) (fld w 28 3)) else none
    | _ => none

/-- System group (op 0x30). -/
def decodeSystem (w : BitVec 32) : Option Instr :=
  match (fld w 22 10).toNat with
  | 0 => if fld w 7 15 == 0 then accept (.syscall) else none
  | 1 => if fld w 7 15 == 0 then accept (.brk) else none
  | 2 => if fld w 7 15 == 0 then accept (.eret) else none
  | 3 => if fld w 7 15 == 0 then accept (.dret) else none
  | 4 => if fld w 17 5 == 0 then accept (.wait (fld w 7 5) (fld w 12 5)) else none
  | 5 => if fld w 7 15 == 0 then accept (.yield) else none
  | 6 => if fld w 7 15 == 0 then accept (.halt) else none
  | 7 => if fld w 10 2 == 0 && fld w 17 5 == 0 then accept (.segld (fld w 7 3) (fld w 12 5)) else none
  | 8 => if fld w 12 5 == 0 && fld w 20 2 == 0 then accept (.segrd (fld w 7 5) (fld w 17 3)) else none
  | 9 => if fld w 7 5 == 0 then accept (.tlbinv (fld w 12 5) (fld w 17 5)) else none
  | 10 => if fld w 10 12 == 0 then accept (.segnull (fld w 7 3)) else none
  | 11 => if fld w 7 5 == 0 && fld w 20 2 == 0 then accept (.mintld (fld w 12 5) (fld w 17 3)) else none
  | 12 => if fld w 7 5 == 0 && fld w 20 2 == 0 then accept (.mintsv (fld w 12 5) (fld w 17 3)) else none
  | _ => none

/-- Csr group (op 0x31). -/
def decodeCsr (w : BitVec 32) : Option Instr :=
  match (fld w 29 3).toNat with
  | 0 => if fld w 12 5 == 0 then accept (.csrr (fld w 7 5) (fld w 17 12)) else none
  | 1 => if fld w 7 5 == 0 then accept (.csrw (fld w 12 5) (fld w 17 12)) else none
  | 2 => accept (.csrx (fld w 7 5) (fld w 12 5) (fld w 17 12))
  | 3 => accept (.csrm (fld w 7 5) (fld w 12 5) (fld w 17 12))
  | _ => none

/-- A 32-bit word by its major opcode (R300). -/
def decode32 (w : BitVec 32) : Option Instr :=
  match (fld w 0 7).toNat with
  | 3 => decodeAlu w
  | 5 => some (.addi (fld w 7 5) (fld w 12 5) (fld w 17 15))
  | 7 => some (.andi (fld w 7 5) (fld w 12 5) (fld w 17 15))
  | 9 => some (.ori (fld w 7 5) (fld w 12 5) (fld w 17 15))
  | 11 => some (.xori (fld w 7 5) (fld w 12 5) (fld w 17 15))
  | 13 => decodeShiftI w
  | 15 => some (.slti (fld w 7 5) (fld w 12 5) (fld w 17 15))
  | 17 => some (.sltni (fld w 7 5) (fld w 12 5) (fld w 17 15))
  | 19 => some (.lui (fld w 7 5) (fld w 12 20))
  | 21 => some (.pcrel (fld w 7 5) (fld w 12 20))
  | 23 => decodeMulDiv w
  | 25 => decodePacked w
  | 27 => decodeComplex w
  | 29 => decodePackedMac w
  | 33 => decodeFpu w
  | 35 => decodeFma w
  | 37 => decodeFcvt w
  | 41 => decodeLoad w
  | 43 => decodeStore w
  | 45 => decodeFullEmpty w
  | 47 => decodeAtomic w
  | 49 => decodeFence w
  | 53 => decodeBranch w
  | 55 => some (.jal (fld w 7 5) (fld w 12 20))
  | 57 => some (.jalr (fld w 7 5) (fld w 12 5) (fld w 17 15))
  | 65 => decodeBarrier w
  | 67 => decodeMessage w
  | 69 => decodeQueueStream w
  | 71 => decodeTask w
  | 73 => decodeDeadline w
  | 81 => decodeMatrixLoad w
  | 83 => decodeMatrixMma w
  | 85 => decodeEpilogue w
  | 87 => decodeSolve w
  | 89 => decodeBulk w
  | 91 => decodeConvert w
  | 97 => decodeSystem w
  | 99 => decodeCsr w
  | _ => none

/-- A 16-bit halfword by its major opcode (R301 to R304). -/
def decode16 (h : BitVec 16) : Option Instr :=
  match (fld h 0 5).toNat with
  | 2 => some (.cAddi (fld h 5 3) (fld h 8 8))
  | 4 => some (.cLi (fld h 5 3) (fld h 8 8))
  | 6 => if fld h 8 3 == 0 then some (.cMv (fld h 5 3) (fld h 11 5)) else none
  | 8 =>
    match (fld h 11 5).toNat with
    | 0 => some (.cAdd (fld h 5 3) (fld h 8 3))
    | 1 => some (.cSub (fld h 5 3) (fld h 8 3))
    | 2 => some (.cAnd (fld h 5 3) (fld h 8 3))
    | 3 => some (.cOr (fld h 5 3) (fld h 8 3))
    | 4 => some (.cXor (fld h 5 3) (fld h 8 3))
    | 5 => some (.cSll (fld h 5 3) (fld h 8 3))
    | 6 => some (.cSrl (fld h 5 3) (fld h 8 3))
    | 7 => some (.cSra (fld h 5 3) (fld h 8 3))
    | _ => none
  | 10 => some (.cLw (fld h 5 3) (fld h 8 3) (fld h 11 5))
  | 12 => some (.cSw (fld h 5 3) (fld h 8 3) (fld h 11 5))
  | 14 => some (.cBeqz (fld h 5 3) (fld h 8 8))
  | 16 => some (.cBnez (fld h 5 3) (fld h 8 8))
  | 18 => some (.cJ (fld h 5 11))
  | 20 =>
    -- R304: f3 in bits 7:5, A in 11:8, B in 15:12
    if fld h 5 3 == 7 && fld h 8 4 == 13 && !(fld h 12 4 == 13 || fld h 12 4 == 14) then
      if fld h 12 4 == 0 then some .rel
      else if fld h 12 4 == 1 || fld h 12 4 == 2 || fld h 12 4 == 3 then some (.cls (fld h 12 2))
      else none
    else some (.fmt (fld h 5 3) (fld h 8 4) (fld h 12 4))
  | 22 =>
    -- R303: bit 7 tells LOX from MOVX, bit 15 the direction of MOVX
    if bit h 7 then some (.lox (fld h 5 2) (fld h 8 8))
    else if fld h 13 2 == 0 then
      if bit h 15 then some (.movxToG (fld h 5 2) (fld h 8 5)) else some (.movxToX (fld h 5 2) (fld h 8 5))
    else none
  | 24 => if h == 0x0018 then some .cNop else if h == 0x0818 then some .cYield else none
  | _ => none

/-- The instruction at the front of a byte stream, with the bytes after it (R296: bit 0 of the first halfword is the length). -/
def decodeBytes : List Byte → Except DecodeError (Instr × List Byte)
  | b0 :: b1 :: rest =>
    let h : BitVec 16 := b1 ++ b0
    if bit h 0 then
      match rest with
      | b2 :: b3 :: rest' =>
        let w : BitVec 32 := b3 ++ b2 ++ b1 ++ b0
        match decode32 w with
        | some i => .ok (i, rest')
        | none => .error (.illegalWord w)
      | _ => .error .truncated
    else
      match decode16 h with
      | some i => .ok (i, rest)
      | none => .error (.illegalHalf h)
  | _ => .error .truncated

/-- The bytes of a number, least significant first (R3). -/
def leBytes (n w : Nat) : List Byte := (List.range n).map fun k => BitVec.ofNat 8 (w >>> (8 * k))

/-- What the decoder reads from the instruction whose bits are `w`: first halfword in bits 15:0, the second above it. -/
def decodeTableWord (nbits w : Nat) : Option Instr :=
  match decodeBytes (leBytes 4 (w % 2 ^ nbits)) with
  | .ok (i, _) => some i
  | .error _ => none

/-! ### The encoder -/

/-- What an instruction is in memory: a halfword, a word, or nothing (an event has no encoding). -/
inductive Code where
  | half (h : BitVec 16)
  | word (w : BitVec 32)
  | event
  deriving DecidableEq, Repr

/-- RR: f b a d op (R297). -/
def rr (f : BitVec 10) (b a d : Reg) (op : BitVec 6) : Code := .word (f ++ b ++ a ++ d ++ op ++ 1#1)
/-- RI: imm15 a d op (R297). -/
def ri (imm : BitVec 15) (a d : Reg) (op : BitVec 6) : Code := .word (imm ++ a ++ d ++ op ++ 1#1)
/-- QR: f c b a d op (R297). -/
def qr (f c b a d : BitVec 5) (op : BitVec 6) : Code := .word (f ++ c ++ b ++ a ++ d ++ op ++ 1#1)
/-- M: imm9 kind seg a t op (R297). -/
def mm (imm : BitVec 9) (kind sg : BitVec 3) (a t : Reg) (op : BitVec 6) : Code := .word (imm ++ kind ++ sg ++ a ++ t ++ op ++ 1#1)
/-- B: off12 cc b a op (R297). -/
def br (off : BitVec 12) (cc : BitVec 3) (b a : Reg) (op : BitVec 6) : Code := .word (off ++ cc ++ b ++ a ++ op ++ 1#1)
/-- J and U: a 20-bit field and d (R297). -/
def ju (imm : BitVec 20) (d : Reg) (op : BitVec 6) : Code := .word (imm ++ d ++ op ++ 1#1)
/-- T: f a ta td op (R297). -/
def tt (f : BitVec 8) (a : Reg) (ta td : Tile) (op : BitVec 6) : Code := .word (f ++ a ++ ta ++ td ++ op ++ 1#1)
/-- E: f seg b a d op (R297). -/
def ee (f : BitVec 7) (sg : BitVec 3) (b a d : Reg) (op : BitVec 6) : Code := .word (f ++ sg ++ b ++ a ++ d ++ op ++ 1#1)
/-- CR and CI and CP: a high byte, three low bits and op4 (R299). -/
def ci (hi : BitVec 8) (lo : BitVec 3) (op : BitVec 4) : Code := .half (hi ++ lo ++ op ++ 0#1)

/-- The size field of a packed instruction (R327). -/
def PackSize.code : PackSize → BitVec 2
  | .h => 1
  | .b => 2

/-- The encoding of an instruction (R297 to R306 and the tables of each group). -/
def encode (i : Instr) : Code :=
  match i with
  | .add d a b => rr 0#10 b a d 0x01
  | .sub d a b => rr 1#10 b a d 0x01
  | .adds d a b => rr 2#10 b a d 0x01
  | .subs d a b => rr 3#10 b a d 0x01
  | .and d a b => rr 4#10 b a d 0x01
  | .or d a b => rr 5#10 b a d 0x01
  | .xor d a b => rr 6#10 b a d 0x01
  | .andn d a b => rr 7#10 b a d 0x01
  | .sll d a b => rr 8#10 b a d 0x01
  | .srl d a b => rr 9#10 b a d 0x01
  | .sra d a b => rr 10#10 b a d 0x01
  | .ror d a b => rr 11#10 b a d 0x01
  | .slt d a b => rr 12#10 b a d 0x01
  | .sltn d a b => rr 13#10 b a d 0x01
  | .min d a b => rr 14#10 b a d 0x01
  | .max d a b => rr 15#10 b a d 0x01
  | .minn d a b => rr 16#10 b a d 0x01
  | .maxn d a b => rr 17#10 b a d 0x01
  | .bext d a b => rr 18#10 b a d 0x01
  | .bexts d a b => rr 19#10 b a d 0x01
  | .lzc d a => rr 20#10 0#5 a d 0x01
  | .tzc d a => rr 21#10 0#5 a d 0x01
  | .ones d a => rr 22#10 0#5 a d 0x01
  | .bswap d a => rr 23#10 0#5 a d 0x01
  | .brev d a => rr 24#10 0#5 a d 0x01
  | .extb d a => rr 25#10 0#5 a d 0x01
  | .exth d a => rr 26#10 0#5 a d 0x01
  | .addi d a i => ri i a d 0x02
  | .andi d a i => ri i a d 0x03
  | .ori d a i => ri i a d 0x04
  | .xori d a i => ri i a d 0x05
  | .slli d a n => ri (0#10 ++ n) a d 0x06
  | .srli d a n => ri (1#10 ++ n) a d 0x06
  | .srai d a n => ri (2#10 ++ n) a d 0x06
  | .rori d a n => ri (3#10 ++ n) a d 0x06
  | .slti d a i => ri i a d 0x07
  | .sltni d a i => ri i a d 0x08
  | .lui d i => ju i d 0x09
  | .pcrel d i => ju i d 0x0A
  | .mul d a b => rr 0#10 b a d 0x0B
  | .mulq d a b => rr 1#10 b a d 0x0B
  | .mulh d a b => rr 2#10 b a d 0x0B
  | .mulhn d a b => rr 3#10 b a d 0x0B
  | .mulhsn d a b => rr 4#10 b a d 0x0B
  | .div d a b => rr 5#10 b a d 0x0B
  | .divn d a b => rr 6#10 b a d 0x0B
  | .rem d a b => rr 7#10 b a d 0x0B
  | .remn d a b => rr 8#10 b a d 0x0B
  | .padd d a b z => rr (z.code ++ 0#8) b a d 0x0C
  | .psub d a b z => rr (z.code ++ 1#8) b a d 0x0C
  | .padds d a b z => rr (z.code ++ 2#8) b a d 0x0C
  | .psubs d a b z => rr (z.code ++ 3#8) b a d 0x0C
  | .paddsn d a b z => rr (z.code ++ 4#8) b a d 0x0C
  | .psubsn d a b z => rr (z.code ++ 5#8) b a d 0x0C
  | .pmin d a b z => rr (z.code ++ 6#8) b a d 0x0C
  | .pmax d a b z => rr (z.code ++ 7#8) b a d 0x0C
  | .pminn d a b z => rr (z.code ++ 8#8) b a d 0x0C
  | .pmaxn d a b z => rr (z.code ++ 9#8) b a d 0x0C
  | .pavg d a b z => rr (z.code ++ 10#8) b a d 0x0C
  | .pmul d a b z => rr (z.code ++ 11#8) b a d 0x0C
  | .pmulq d a b z => rr (z.code ++ 12#8) b a d 0x0C
  | .psll d a b z => rr (z.code ++ 13#8) b a d 0x0C
  | .psrl d a b z => rr (z.code ++ 14#8) b a d 0x0C
  | .psra d a b z => rr (z.code ++ 15#8) b a d 0x0C
  | .pdot d a b z => rr (z.code ++ 16#8) b a d 0x0C
  | .ppkl d a b z => rr (z.code ++ 17#8) b a d 0x0C
  | .ppkh d a b z => rr (z.code ++ 18#8) b a d 0x0C
  | .cadd d a b => rr 0#10 b a d 0x0D
  | .csub d a b => rr 1#10 b a d 0x0D
  | .cmul d a b => rr 2#10 b a d 0x0D
  | .cmulc d a b => rr 3#10 b a d 0x0D
  | .cconj d a => rr 4#10 0#5 a d 0x0D
  | .cmulj d a => rr 5#10 0#5 a d 0x0D
  | .cmag2 d a => rr 6#10 0#5 a d 0x0D
  | .cshr d a b => rr 7#10 b a d 0x0D
  | .pdotaH d a b c => qr 0#5 c b a d 0x0E
  | .pdotaB d a b c => qr 1#5 c b a d 0x0E
  | .pdotasH d a b c => qr 2#5 c b a d 0x0E
  | .pdotasB d a b c => qr 3#5 c b a d 0x0E
  | .cmac d a b c => qr 4#5 c b a d 0x0E
  | .cmacc d a b c => qr 5#5 c b a d 0x0E
  | .fadd d a b p => rr (flag p ++ 0#9) b a d 0x10
  | .fsub d a b p => rr (flag p ++ 1#9) b a d 0x10
  | .fmul d a b p => rr (flag p ++ 2#9) b a d 0x10
  | .fdiv d a b p => rr (flag p ++ 3#9) b a d 0x10
  | .fsqrt d a p => rr (flag p ++ 4#9) 0#5 a d 0x10
  | .fmin d a b p => rr (flag p ++ 5#9) b a d 0x10
  | .fabs d a p => rr (flag p ++ 6#9) 0#5 a d 0x10
  | .fneg d a p => rr (flag p ++ 7#9) 0#5 a d 0x10
  | .fcpys d a b p => rr (flag p ++ 8#9) b a d 0x10
  | .fxors d a b p => rr (flag p ++ 9#9) b a d 0x10
  | .fcmpeq d a b p => rr (flag p ++ 10#9) b a d 0x10
  | .fcmplt d a b p => rr (flag p ++ 11#9) b a d 0x10
  | .fcmple d a b p => rr (flag p ++ 12#9) b a d 0x10
  | .fclass d a p => rr (flag p ++ 13#9) 0#5 a d 0x10
  | .fmax d a b p => rr (flag p ++ 14#9) b a d 0x10
  | .fmadd d a b c p => qr (flag p ++ 0#4) c b a d 0x11
  | .fmsub d a b c p => qr (flag p ++ 1#4) c b a d 0x11
  | .fnmsub d a b c p => qr (flag p ++ 2#4) c b a d 0x11
  | .fnmadd d a b c p => qr (flag p ++ 3#4) c b a d 0x11
  | .fcvtWF d a => rr 0#10 0#5 a d 0x12
  | .fcvtWnF d a => rr 1#10 0#5 a d 0x12
  | .fcvtFW d a => rr 2#10 0#5 a d 0x12
  | .fcvtFWn d a => rr 3#10 0#5 a d 0x12
  | .fcvtH2F d a b => rr 4#10 b a d 0x12
  | .fcvtFHl d a => rr 5#10 0#5 a d 0x12
  | .fcvtFHh d a => rr 6#10 0#5 a d 0x12
  | .fcvtH2H2 d a => rr 7#10 0#5 a d 0x12
  | .lb t a s i => mm i 0#3 s a t 0x14
  | .lbn t a s i => mm i 1#3 s a t 0x14
  | .lh t a s i => mm i 2#3 s a t 0x14
  | .lhn t a s i => mm i 3#3 s a t 0x14
  | .lw t a s i => mm i 4#3 s a t 0x14
  | .ld t a s i => mm i 5#3 s a t 0x14
  | .lq t a s i => mm i 6#3 s a t 0x14
  | .sb t a s i => mm i 0#3 s a t 0x15
  | .sh t a s i => mm i 1#3 s a t 0x15
  | .sw t a s i => mm i 2#3 s a t 0x15
  | .sd t a s i => mm i 3#3 s a t 0x15
  | .sq t a s i => mm i 4#3 s a t 0x15
  | .lwf t a s i => mm i 0#3 s a t 0x16
  | .lwt t a s i => mm i 1#3 s a t 0x16
  | .swp t a s i => mm i 2#3 s a t 0x16
  | .swf t a s i => mm i 3#3 s a t 0x16
  | .ferd t a s i => mm i 4#3 s a t 0x16
  | .feset t a s i => mm i 5#3 s a t 0x16
  | .tadd d a b s => ee 0#7 s b a d 0x17
  | .tand d a b s => ee 1#7 s b a d 0x17
  | .tor d a b s => ee 2#7 s b a d 0x17
  | .txor d a b s => ee 3#7 s b a d 0x17
  | .tmin d a b s => ee 4#7 s b a d 0x17
  | .tmax d a b s => ee 5#7 s b a d 0x17
  | .tminn d a b s => ee 6#7 s b a d 0x17
  | .tmaxn d a b s => ee 7#7 s b a d 0x17
  | .tswap d a b s => ee 8#7 s b a d 0x17
  | .tcas d a b s => ee 9#7 s b a d 0x17
  | .tfadd d a b s => ee 10#7 s b a d 0x17
  | .twinc d a b s => ee 11#7 s b a d 0x17
  | .fenceV => rr 0#10 0#5 0#5 0#5 0x18
  | .fenceG => rr 1#10 0#5 0#5 0#5 0x18
  | .fenceA => rr 2#10 0#5 0#5 0#5 0x18
  | .ifence => rr 3#10 0#5 0#5 0#5 0x18
  | .beq a b o => br o 0#3 b a 0x1A
  | .bne a b o => br o 1#3 b a 0x1A
  | .blt a b o => br o 2#3 b a 0x1A
  | .bge a b o => br o 3#3 b a 0x1A
  | .bltn a b o => br o 4#3 b a 0x1A
  | .bgen a b o => br o 5#3 b a 0x1A
  | .bbs a n o => br o 6#3 n a 0x1A
  | .bbc a n o => br o 7#3 n a 0x1A
  | .jal d o => ju o d 0x1B
  | .jalr d a i => ri i a d 0x1C
  | .bara d n => rr (n ++ 0#5) 0#5 0#5 d 0x20
  | .barw d a n => rr (n ++ 1#5) 0#5 a d 0x20
  | .barsum d a n => rr (n ++ 2#5) 0#5 a d 0x20
  | .barstmt d a n => rr (n ++ 3#5) 0#5 a d 0x20
  | .barcfg a n => rr (n ++ 4#5) 0#5 a 0#5 0x20
  | .msend d a b c => ee 0#7 c b a d 0x21
  | .mcall d a b c => ee 1#7 c b a d 0x21
  | .mrecv d a b c => ee 2#7 c b a d 0x21
  | .mrecvt d a b c => ee 3#7 c b a d 0x21
  | .mpoll d a b c => ee 4#7 c b a d 0x21
  | .mreply d c => ee 5#7 c 0#5 0#5 d 0x21
  | .qput d a c => ee (c ++ 0#4) 0#3 0#5 a d 0x22
  | .qputt d a b c => ee (c ++ 1#4) 0#3 b a d 0x22
  | .qtake d a b s c => ee (c ++ 2#4) s b a d 0x22
  | .qtaket d a b c => ee (c ++ 3#4) 0#3 b a d 0x22
  | .sopen a p => ee 4#7 (0#1 ++ p) 0#5 a 0#5 0x22
  | .sput a p => ee 5#7 (0#1 ++ p) 0#5 a 0#5 0x22
  | .sclose p => ee 6#7 (0#1 ++ p) 0#5 0#5 0#5 0x22
  | .sget d b i => ee 7#7 (0#1 ++ i) b 0#5 d 0x22
  | .spawn a b s => ee 0#7 s b a 0#5 0x23
  | .spret a s => ee 1#7 s 0#5 a 0#5 0x23
  | .join a s => ee 2#7 s 0#5 a 0#5 0x23
  | .rspawn d a b => ee 3#7 0#3 b a d 0x23
  | .tsubmit a => ee 4#7 0#3 0#5 a 0#5 0x23
  | .tdone => ee 5#7 0#3 0#5 0#5 0#5 0x23
  | .wid d k => ee 6#7 k 0#5 0#5 d 0x23
  | .coreid d => ee 7#7 0#3 0#5 0#5 d 0x23
  | .dlarm d a => ri 0#15 a d 0x24
  | .dlarmm d a y => ri (0#5 ++ y ++ 1#2) a d 0x24
  | .dldis d => ri 2#15 0#5 d 0x24
  | .mzero t => tt 0#8 0#5 0#6 t 0x28
  | .mldb a s => tt (s ++ 1#5) a 0#6 0#6 0x28
  | .mldsA a s => tt (s ++ 2#5) a 0#6 0#6 0x28
  | .mldsB a s => tt (s ++ 2#5) a 0#6 1#6 0x28
  | .mwra t a s => tt (s ++ 3#5) a 0#6 t 0x28
  | .mring => tt 4#8 0#5 0#6 0#6 0x28
  | .mmovt t u => tt 5#8 0#5 u t 0x28
  | .mrsn a => tt 6#8 a 0#6 0#6 0x28
  | .mma t a s => tt (s ++ 0#5) a 0#6 t 0x29
  | .mmas t a s => tt (s ++ 1#5) a 0#6 t 0x29
  | .mmaz t a s => tt (s ++ 2#5) a 0#6 t 0x29
  | .mepiAdd t u b => tt (0#7 ++ fld b 5 1) (fld b 0 5) u t 0x2A
  | .mepiMul t u b => tt (8#7 ++ fld b 5 1) (fld b 0 5) u t 0x2A
  | .mepiMax t u b => tt (16#7 ++ fld b 5 1) (fld b 0 5) u t 0x2A
  | .mepiScale t u a => tt 48#8 a u t 0x2A
  | .mepiBiasRow t u a => tt 64#8 a u t 0x2A
  | .mepiBiasCol t u a => tt 65#8 a u t 0x2A
  | .mepiExp2 t u => tt 80#8 0#5 u t 0x2A
  | .mepiSigmoid t u => tt 96#8 0#5 u t 0x2A
  | .mepiSilu t u => tt 112#8 0#5 u t 0x2A
  | .mepiTanh t u => tt 128#8 0#5 u t 0x2A
  | .mepiRecip t u => tt 144#8 0#5 u t 0x2A
  | .mepiRsqrt t u => tt 160#8 0#5 u t 0x2A
  | .mstt u a s => tt (11#4 ++ s ++ 0#1) a u 0#6 0x2A
  | .msttF u a s => tt (11#4 ++ s ++ 1#1) a u 0#6 0x2A
  | .mtran t u => tt 192#8 0#5 u t 0x2A
  | .mredRowmax u a n => tt (26#5 ++ flag n ++ 0#2) a u 0#6 0x2A
  | .mredRowsum u a n => tt (26#5 ++ flag n ++ 1#2) a u 0#6 0x2A
  | .mredColmax u a n => tt (26#5 ++ flag n ++ 2#2) a u 0#6 0x2A
  | .mredColsum u a n => tt (26#5 ++ flag n ++ 3#2) a u 0#6 0x2A
  | .mpotrf t a => tt 0#8 a 0#6 t 0x2B
  | .mgetrf t a => tt 32#8 a 0#6 t 0x2B
  | .mtrsm t v a o r q p => tt (2#3 ++ flag p ++ flag q ++ flag r ++ o) a v t 0x2B
  | .mdelta a => tt 96#8 a 0#6 0#6 0x2B
  | .mshiftDup a => tt 128#8 a 0#6 0#6 0x2B
  | .mshiftZero a => tt 129#8 a 0#6 0#6 0x2B
  | .bcopy d a b s e k => ee (flag k ++ 0#3 ++ e) s b a d 0x2C
  | .bcopy2 d a b s e k => ee (flag k ++ 1#3 ++ e) s b a d 0x2C
  | .bfill d a b e k => ee (flag k ++ 2#3 ++ e) 0#3 b a d 0x2C
  | .bgath d a b s e k => ee (flag k ++ 3#3 ++ e) s b a d 0x2C
  | .bscat d a b s e k => ee (flag k ++ 4#3 ++ e) s b a d 0x2C
  | .bcancel d b => ee 40#7 0#3 b 0#5 d 0x2C
  | .bstat d => ee 48#7 0#3 0#5 0#5 d 0x2C
  | .mqnt u a s => tt (0#1 ++ s ++ 0#4) a u 0#6 0x2D
  | .mdqnt t a s => tt (0#1 ++ s ++ 1#4) a 0#6 t 0x2D
  | .cvtblk d a b s e => ee (1#1 ++ e ++ 0#3) s b a d 0x2D
  | .cvtunb d a b s e => ee (1#1 ++ e ++ 1#3) s b a d 0x2D
  | .cvtv d a s e => ee (1#1 ++ e ++ 2#3) s 0#5 a d 0x2D
  | .syscall => rr 0#10 0#5 0#5 0#5 0x30
  | .brk => rr 1#10 0#5 0#5 0#5 0x30
  | .eret => rr 2#10 0#5 0#5 0#5 0x30
  | .dret => rr 3#10 0#5 0#5 0#5 0x30
  | .wait d a => rr 4#10 0#5 a d 0x30
  | .yield => rr 5#10 0#5 0#5 0#5 0x30
  | .halt => rr 6#10 0#5 0#5 0#5 0x30
  | .segld n a => rr 7#10 0#5 a (0#2 ++ n) 0x30
  | .segrd d n => rr 8#10 (0#2 ++ n) 0#5 d 0x30
  | .tlbinv a b => rr 9#10 b a 0#5 0x30
  | .segnull n => rr 10#10 0#5 0#5 (0#2 ++ n) 0x30
  | .mintld a n => rr 11#10 (0#2 ++ n) a 0#5 0x30
  | .mintsv a n => rr 12#10 (0#2 ++ n) a 0#5 0x30
  | .csrr d c => ri (0#3 ++ c) 0#5 d 0x31
  | .csrw a c => ri (1#3 ++ c) a 0#5 0x31
  | .csrx d a c => ri (2#3 ++ c) a d 0x31
  | .csrm v m c => ri (3#3 ++ c) m v 0x31
  | .cAddi d i => ci i d 0x1
  | .cLi d i => ci i d 0x2
  | .cMv d s => ci (s ++ 0#3) d 0x3
  | .cAdd d a => ci (0#5 ++ a) d 0x4
  | .cSub d a => ci (1#5 ++ a) d 0x4
  | .cAnd d a => ci (2#5 ++ a) d 0x4
  | .cOr d a => ci (3#5 ++ a) d 0x4
  | .cXor d a => ci (4#5 ++ a) d 0x4
  | .cSll d a => ci (5#5 ++ a) d 0x4
  | .cSrl d a => ci (6#5 ++ a) d 0x4
  | .cSra d a => ci (7#5 ++ a) d 0x4
  | .cLw d a f => ci (f ++ a) d 0x5
  | .cSw d a f => ci (f ++ a) d 0x6
  | .cBeqz a o => ci o a 0x7
  | .cBnez a o => ci o a 0x8
  | .cJ o => ci (fld o 3 8) (fld o 0 3) 0x9
  | .fmt r a b => ci (b ++ a) r 0xA
  | .rel => ci 0x0D 7 0xA
  | .cls c => ci (0#2 ++ c ++ 0xD#4) 7 0xA
  | .movxToX n g => ci (0#3 ++ g) (0#1 ++ n) 0xB
  | .movxToG n g => ci (4#3 ++ g) (0#1 ++ n) 0xB
  | .lox n b => ci b (1#1 ++ n) 0xB
  | .cNop => ci 0 0 0xC
  | .cYield => ci 8 0 0xC
  | .porstnAssert .. => .event
  | .railFault => .event
  | .boot => .event
  | .bursarStart .. => .event
  | .bursarInit .. => .event
  | .partitionReset .. => .event
  | .mprstReq .. => .event
  | .preset .. => .event
  | .i3cPrivateWrite .. => .event
  | .i3cDynamicAddress .. => .event
  | .dieThermalTrip .. => .event
  | .thermalSample .. => .event
  | .talstatClear .. => .event
  | .pwralertnEdge .. => .event
  | .clthrWrite .. => .event
  | .throttleApply .. => .event
  | .stackTempUpdate .. => .event
  | .clrst .. => .event
  | .clusterResetDone .. => .event
  | .mcRequest .. => .event
  | .refreshWindowEnd .. => .event
  | .release .. => .event
  | .decline .. => .event
  | .patrolScrub .. => .event
  | .lendStart .. => .event
  | .lendAck .. => .event
  | .lendAbort .. => .event
  | .lendDrainDone .. => .event
  | .lendQuiesceDone .. => .event
  | .lendRetrainDone .. => .event
  | .lendReclaimStart .. => .event
  | .lendReclaimDone .. => .event
  | .mcmapRetire .. => .event
  | .mcmapFence .. => .event
  | .copyGranule .. => .event
  | .mapDrainStart .. => .event
  | .mapActivate .. => .event
  | .mapReceive .. => .event
  | .remap .. => .event
  | .flitTransmit .. => .event
  | .linkFlitReceive .. => .event
  | .linkAck .. => .event
  | .ackSend .. => .event
  | .packetRoute .. => .event
  | .linkTrainingStart .. => .event
  | .linkTrainingEnd .. => .event
  | .linkLost .. => .event
  | .lnkstatRestart .. => .event
  | .replyTimeout .. => .event
  | .lostHandling .. => .event
  | .streamFlush .. => .event
  | .streamIdleExpire .. => .event
  | .streamForcedClose .. => .event
  | .streamDataArrive .. => .event
  | .sliceRd .. => .event
  | .sliceWr .. => .event
  | .sliceTel .. => .event
  | .sliceFe .. => .event
  | .sliceWaiterRetry .. => .event
  | .sliceFill .. => .event
  | .sliceFlush .. => .event
  | .sliceQput .. => .event
  | .sliceQtake .. => .event
  | .requestResend .. => .event
  | .hostActivate .. => .event
  | .hostPrecharge .. => .event
  | .hostRefresh .. => .event
  | .hostRead .. => .event
  | .hostWrite .. => .event
  | .inboundWrite .. => .event
  | .inboundForward .. => .event
  | .inboundAck .. => .event
  | .notification .. => .event
  | .notifyForward .. => .event
  | .completionRecordWrite .. => .event
  | .outboundWrite .. => .event
  | .mbdoor .. => .event
  | .mbset .. => .event
  | .attcmd .. => .event
  | .attestReport .. => .event
  | .ethFrameReceive .. => .event
  | .ethSegmentRefused .. => .event
  | .ethPause .. => .event
  | .ethPauseReceive .. => .event
  | .ethTxQueueWrite .. => .event
  | .ethTransmit .. => .event
  | .vibindWrite .. => .event
  | .i3cGo .. => .event
  | .i3cRoleGrant .. => .event
  | .i3cRoleTimeout .. => .event
  | .i3cTransferDone .. => .event
  | .i3cRel .. => .event
  | .elpost .. => .event
  | .elctlWrite .. => .event
  | .registerWrite .. => .event
  | .launchDispatch .. => .event
  | .launchSetup .. => .event
  | .bursarLaunch .. => .event
  | .clusterDrained .. => .event
  | .drained .. => .event
  | .confirm .. => .event
  | .confirmAnswer .. => .event
  | .close .. => .event
  | .coreDone .. => .event
  | .doneMessage .. => .event
  | .stallAll .. => .event
  | .preempt .. => .event
  | .preemptSave .. => .event
  | .restore .. => .event
  | .cancel .. => .event
  | .lownerWrite .. => .event
  | .idleSlotWorkSearch .. => .event
  | .readyQueueTake .. => .event
  | .stealRequest .. => .event
  | .stealTimeout .. => .event
  | .stealReply .. => .event
  | .remoteSpawn .. => .event
  | .taskReleaseRequest .. => .event
  | .messageArrive .. => .event
  | .handlerStart .. => .event
  | .replyArrival .. => .event
  | .mrecvTimeout .. => .event
  | .barrierArrival .. => .event
  | .deadlineExpiry .. => .event
  | .withdrawal .. => .event
  | .deadlineTrap => .event
  | .deferredMemerr => .event
  | .stepBreak => .event
  | .fbtailWrite .. => .event
  | .fbwakeRetry .. => .event
  | .fbwakeKill .. => .event
  | .coreHalt .. => .event
  | .coreResume .. => .event
  | .coreStep .. => .event
  | .icacheFill .. => .event
  | .tlb2Lookup .. => .event
  | .walk .. => .event
  | .bankGrant .. => .event
  | .waitlistRetry .. => .event
  | .feResend .. => .event
  | .linePortAccess .. => .event
  | .vaultCorrectRewrite .. => .event
  | .remoteVaultAccess .. => .event
  | .ringStep .. => .event
  | .ringStepComplete .. => .event
  | .copyAccept .. => .event
  | .copyComplete .. => .event
  | .waitExpire .. => .event
  | .matrixCommandTaken .. => .event
  | .matrixRetire .. => .event
  | .tlbInvalidation .. => .event
  | .ethLinkDown .. => .event
  | .ethLinkUp .. => .event
  | .illegalEncoding => .event
  | .fetchFailure => .event

/-- An instruction's length in bytes (R296); an event has none. -/
def Code.length : Code → Nat
  | .half _ => 2
  | .word _ => 4
  | .event => 0

/-- The bits of an instruction as a number: first halfword in bits 15:0 (R195, ILLEGAL). -/
def Code.bits : Code → Word
  | .half h => h.setWidth 32
  | .word w => w
  | .event => 0

/-- The bytes of an instruction in ascending address order (R6). -/
def Code.bytes : Code → List Byte
  | .half h => leBytes 2 h.toNat
  | .word w => leBytes 4 w.toNat
  | .event => []

/-- What the decoder reads back from an encoding. -/
def decodeCode : Code → Option Instr
  | .half h => decode16 h
  | .word w => decode32 w
  | .event => none

end

end Sys2Proof
end

