-- ==== Sys2Proof/Machine/Ethernet.lean ====
section
/-! DEFINITION. The Ethernet ports (R95 to R101): classification, delivery into slice queues, pause, and transmission. -/

namespace Sys2Proof.Machine

def modEth (d : Nat) (f : Eth → Eth) (s : State) : State := s.modDie d fun x => { x with eth := f x.eth }

/-- Advance counter `i` of R101's order, saturating. -/
def ethCount (d i : Nat) (s : State) : State :=
  modEth d (fun e => { e with counters := smMod 0 e.counters i fun v => if v = 0xFFFFFFFF then v else v + 1 }) s

/-! ### Classification (R96) -/

/-- A big-endian 16-bit field of a frame. -/
def be16 (f : List Byte) (i : Nat) : Nat := (f.getD i 0).toNat * 256 + (f.getD (i + 1) 0).toNat

/-- The innermost tag and the offset of the EtherType after the tags. -/
def frameTags (f : List Byte) : Option Nat × Nat :=
  if be16 f 12 = 0x88A8 then
    if be16 f 16 = 0x8100 then (some (be16 f 18), 20) else (some (be16 f 14), 16)
  else if be16 f 12 = 0x8100 then (some (be16 f 14), 16)
  else (none, 12)

/-- The enabled matches of a rule all hold. -/
def ruleMatches (r : BitVec 128) (f : List Byte) : Bool :=
  let (tag, o) := frameTags f
  let ety := be16 f o
  let ecpri := decide (ety = 0xAEFE)
  (!bitOf r 30 || decide (ety = fieldOf r 48 16)) &&
  (!bitOf r 29 || (match tag with | some t => decide (t % 4096 = fieldOf r 32 12) | none => false)) &&
  (!bitOf r 28 || (match tag with | some t => decide (t / 8192 = fieldOf r 93 3) | none => false)) &&
  (!bitOf r 27 || (ecpri && decide ((f.getD (o + 3) 0).toNat = fieldOf r 80 8))) &&
  (!bitOf r 26 || (ecpri && decide (be16 f (o + 6) = fieldOf r 64 16)))

/-- The deciding rule: the first valid one that matches; rule 63 matches all. -/
def decidingRule (e : Eth) (f : List Byte) : Nat :=
  ((List.range 63).find? fun i => bitOf (ethRule e i) 31 && ruleMatches (ethRule e i) f).getD 63

/-! ### Delivery (R97, R98) -/

/-- One segment as an entry of `cap` + 16 bytes. -/
def segmentEntry (x : RxFrame) (cap seg nseg : Nat) (lost : Bool) : Nat :=
  x.bytes.length + seg * 2 ^ 16 + nseg * 2 ^ 24 + x.rule * 2 ^ 32 + lost.toNat * 2 ^ 40 + x.arrival % 2 ^ 64 * 2 ^ 64 +
    bytesNat ((x.bytes.drop (seg * cap)).take cap) * 2 ^ 128

/-- How far a frame's segments got: all of them, or one was refused, or `seg` of them until a line or route holds the next. -/
inductive Sent where
  | all
  | refused
  | held (seg : Nat)
  deriving DecidableEq, Repr

/-- The port as a requester in a frame's class (R96). -/
def ethRq (d cls : Nat) (s : State) : Rq := rqUnit (cornerRouter d) 0xA0 (cls = 0) s

/-- Send the segments from `seg` on as QPUTs in order (R98). -/
def sendSegments (d : Nat) (x : RxFrame) (cap nseg : Nat) : Nat → Nat → State → Sent × State
  | _, 0, s => (.all, s)
  | seg, n + 1, s =>
    let rq := ethRq d x.cls s
    match sqOver rq 7 x.slice (sqPut rq x.slice x.queue (segmentEntry x cap seg nseg x.lost)) s with
    | .ok 0 s => sendSegments d x cap nseg (seg + 1) n s
    | .error (.wait o) _ => (.held seg, o.touch s)
    | .ok _ s | .error _ s => (.refused, s)

def frameKey (x : RxFrame) : Nat := 8 * x.slice + x.queue

/-- Deliver a frame from the buffer, behind the queues in `acc.1` that an earlier frame still waits for; what is not delivered stays, and
a frame with a refused segment goes (R97 to R99). -/
def deliverFrame (d : Nat) (acc : List Nat × State) (x : RxFrame) : List Nat × State :=
  let s := acc.2
  let key := frameKey x
  let keep := fun (x : RxFrame) (s : State) => (key :: acc.1, modEth d (fun e => { e with rx := e.rx ++ [x] }) s)
  let gone := fun (s : State) => modEth d (fun e => { e with rxBytes := e.rxBytes - (x.bytes.length + 4) }) s
  if acc.1.contains key then keep x s
  else
    let cap := entBytes (sqOf s x.slice x.queue) - 16
    let nseg := (x.bytes.length + cap - 1) / cap
    let x := if x.seg = 0 then { x with lost := smGet false (s.die d).eth.lostseg key } else x
    match sendSegments d x cap nseg x.seg (nseg - x.seg) s with
    | (.all, s) =>
      (acc.1, ethCount d 0 (gone (modEth d (fun e => if x.lost then { e with lostseg := smSet false e.lostseg key false } else e) s)))
    | (.refused, s) => (key :: acc.1, (gone s).pushFirst (.ethSegmentRefused d x.slice x.queue))
    | (.held seg, s) => keep { x with seg := seg } s

/-- The occupancy at which pause is sent, and that at which it is released (R99, R101). -/
def xoffBytes (e : Eth) : Nat := e.xoff.toNat * 8192
def xonBytes (e : Eth) : Nat := (if e.xoff ≤ e.xon then e.xoff.toNat - 1 else e.xon.toNat) * 8192

/-- A pause to be sent or released at the buffer's occupancy (R99). -/
def pauseDue (d : Nat) (s : State) : State :=
  let e := (s.die d).eth
  if (e.pausing = none && (e.pfcen ≠ 0 || e.pauseen) && decide (xoffBytes e ≤ e.rxBytes)) ||
      (e.pausing ≠ none && decide (e.rxBytes ≤ xonBytes e)) then s.push (.ethPause d) else s

/-- The port delivers what it can of the frames it holds, oldest first. -/
def deliverFrames (d : Nat) (s : State) : State :=
  let held := (s.die d).eth.rx
  if held = [] then s
  else pauseDue d (held.foldl (deliverFrame d) ([], modEth d (fun e => { e with rx := [] }) s)).2

/-- ETH_FRAME_RECEIVE: a frame, FCS included; `fcs` says that its FCS is good (R95 to R99). One that a rule sends outside the partition
is logged as every refusal is (R96, R105). -/
def execEthFrameReceive (d : Nat) (frame : List Byte) (fcs : Bool) (s : State) : Host.Outcome State Fault Refusal :=
  .next <|
    let e := (s.die d).eth
    if !(e.en && e.up) then s
    else if frame.length < 64 || decide (9216 < frame.length) then ethCount d 2 s
    else if !fcs then ethCount d 1 s
    else if 2 ^ 21 < e.rxBytes + frame.length then ethCount d 3 s
    else
      let body := frame.take (frame.length - 4)
      let i := decidingRule e body
      let r := ethRule e i
      let sl := fieldOf r 10 10
      if bitOf r 23 then ethCount d 5 s
      else if s.partOf (sl / 256) ≠ s.partOf d then
        ethCount d 5 (logRecord d 0x10 0xA0 (cornerPos d) 0 (7 + (ethRq d 0 s).source * 2 ^ 32) s)
      else
        let x : RxFrame :=
          { slice := sl, queue := fieldOf r 20 3, cls := if fieldOf r 24 2 = 3 then 0 else fieldOf r 24 2, rule := i
            arrival := (s.die d).mc.toNat, bytes := body }
        deliverFrames d (pauseDue d (modEth d (fun e => { e with rx := e.rx ++ [x], rxBytes := e.rxBytes + frame.length }) s))

/-- ETH_SEGMENT_REFUSED: the frame lost segments, and the next one to its queue says so (R98). -/
def execEthSegmentRefused (d sl q : Nat) (s : State) : Host.Outcome State Fault Refusal :=
  .next (modEth d (fun e => { e with lostseg := smSet false e.lostseg (8 * sl + q) true }) (ethCount d 4 s))

/-- ETH_PAUSE: PFC pause for every priority in PFCEN, or 802.3 pause, is sent while the occupancy stands at XOFF, and released at XON
(R99). -/
def execEthPause (d : Nat) (s : State) : Host.Outcome State Fault Refusal :=
  .next <| modEth d (fun e =>
    if xoffBytes e ≤ e.rxBytes then
      { e with pausing := if e.pfcen ≠ 0 then some (some e.pfcen) else if e.pauseen then some none else none }
    else if e.rxBytes ≤ xonBytes e then { e with pausing := none }
    else e) s

/-- ETH_PAUSE_RECEIVE: 802.3 pause stops or frees all transmission where PAUSEEN is set, PFC the priorities it names that PFCEN enables;
the queues it frees go on (R95, R101). -/
def execEthPauseReceive (d : Nat) (pfc : Option Byte) (pause : Bool) (s : State) : Host.Outcome State Fault Refusal :=
  .next <|
    let s := modEth d (fun e => match pfc with
      | none => { e with pausedAll := pause && (e.pauseen || e.pausedAll) }
      | some p => { e with paused := if pause then e.paused ||| (p &&& e.pfcen) else e.paused &&& ~~~p }) s
    if pause then s else s.push (.ethTransmit d)

/-! ### Transmission (R100) -/

/-- Bytes of a queue's frames. -/
def txBytes (e : Eth) (q : Nat) : Nat := (smGet [] e.tx q).foldl (fun a f => a + f.length) 0

/-- A frame of this length fits queue `q`'s share of the buffer. -/
def txRoom (s : State) (d q n : Nat) : Bool := decide (txBytes (s.die d).eth q + Nat.max n 60 ≤ 131072)

/-- ETH_TX_QUEUE_WRITE: a copy's frame enters queue `q`, padded to 60 bytes. A length outside 1 to 9,212 sends nothing; while
the queue's share is full the write waits. -/
def execEthTxQueueWrite (d q : Nat) (bytes : List Byte) (s : State) : Host.Outcome State Fault Refusal :=
  .next <|
    if bytes = [] || decide (9212 < bytes.length) || !txRoom s d q bytes.length then s
    else
      let f := bytes ++ List.replicate (60 - bytes.length) 0
      (modEth d (fun e => { e with tx := smMod [] e.tx q fun l => l ++ [f] }) s).push (.ethTransmit d)

/-- The CRC-32 of IEEE 802.3, bit by bit. -/
def crc32Bit (c : Word) : Nat → Word
  | 0 => c
  | n + 1 => crc32Bit (if bitOf c 0 then (c >>> 1) ^^^ 0xEDB88320 else c >>> 1) n

def frameFcs (f : List Byte) : List Byte :=
  natBytes (~~~(f.foldl (fun (c : Word) b => crc32Bit (c ^^^ b.setWidth 32) 8) 0xFFFFFFFF)).toNat 4

/-- ETH_TRANSMIT: the oldest frame of the highest queue that is not paused leaves with its FCS. -/
def execEthTransmit (d : Nat) (s : State) : Host.Outcome State Fault Refusal :=
  .next <|
    let e := (s.die d).eth
    if !(e.en && e.up) || e.pausedAll then s
    else match (List.range 8).reverse.find? fun q => smGet [] e.tx q ≠ [] && !bitOf e.paused q with
      | none => s
      | some q =>
        let f := (smGet [] e.tx q).headD []
        let s := modEth d (fun e => { e with tx := smMod [] e.tx q List.tail, wire := [f ++ frameFcs f] }) s
        (ethCount d 6 s).push (.ethTransmit d)

/-- ETH_LINK_DOWN: frames stay in the buffer (R100). -/
def execEthLinkDown (d : Nat) (s : State) : Host.Outcome State Fault Refusal :=
  .next (modEth d (fun e => { e with up := false }) s)

/-- ETH_LINK_UP: the link of an enabled port comes up and transmission resumes (R100, R101). -/
def execEthLinkUp (d : Nat) (s : State) : Host.Outcome State Fault Refusal :=
  .next <| if (s.die d).eth.en then (modEth d (fun e => { e with up := true }) s).push (.ethTransmit d) else s

end Sys2Proof.Machine
end

