-- ==== Sys2Proof/Machine/Bulk.lean ====
section
/-! DEFINITION. Bulk copies (R247, R379 to R384): the tests at issue, acceptance, the payload and the completion word. -/

namespace Sys2Proof.Machine

/-- How a copy's unit ends other than well: with the code of its completion word (R382), at an access that cannot be made yet, at words to
be read first through the line ports and over the mesh, or at a transmit queue without room (R100). -/
inductive CopyStop where
  | code (n : Nat)
  | wait (o : Obst)
  | lines (near far : List Nat)
  | room
  deriving DecidableEq, Repr

/-- A computation of the bulk copy engine. -/
abbrev CM := EStateM CopyStop State

/-- Completion codes of R382. -/
def cvLENGTH : Nat := 0x10
def cvMINTDEST : Nat := 0x11
def cvCANCELLED : Nat := 0x12
def cvPREEMPTED : Nat := 0x13
def cvFAULT : Nat := 0x14
def cvRANGE : Nat := 0x15
def cvMINTOFF : Nat := 0x16

/-- A translation: a fault gives its kind beside the code. -/
def cmEng {α : Type} (x : EM α) : CM α := fun s =>
  match x s with
  | .ok a s => .ok a s
  | .error (.fault k _) s => .error (.code (cvFAULT + 256 * k)) s
  | .error (.err c) s => .error (.code c.toNat) s
  | .error (.wait o) s => .error (.wait o) s
  | .error (.lines near far) s => .error (.lines near far) s

def cmHome {α : Type} (x : HM α) : CM α := fun s =>
  match x s with
  | .ok a s => .ok a s
  | .error (.wait o) s => .error (.wait o) s
  | .error e s => .error (.code e.code.toNat) s

def cmLook {α : Type} (f : State → α) : CM α := fun s => .ok (f s) s

/-- Payload accesses (R231, R238). -/
def aCopyR : Access := { kind := .other, r := true }
def aCopyW : Access := { kind := .other, w := true }
def aCopyF : Access := { kind := .other, w := true, fe := true }

/-- The number of group `g`'s bulk copy engine among the 128 engines of its cluster (R207). -/
def copyEngine (g : Nat) : Nat := 64 + g % 64

/-- What copy `c` of the core in execution does at the line ports. -/
def Copy.ioIn (c : Copy) (s : State) : LineIO := ioOf s s.myUnit (copyEngine (groupOf s.myCore)) c.id

/-- The copy engine as the requester of a part's accesses (R48). -/
def copyRq (p : OpPart) (s : State) : Rq := rqUnit (groupOf s.myCore) 0x30 (p.cls = 0) s

/-- The places of payload bytes. The own vault is reached through the line ports (R207, R384), a remote one over the mesh (R217). -/
def copyParts (c : Copy) (d : BitVec 128) (acc : Access) (a n : Nat) : CM (List OpPart) :=
  (lineParts a n).mapM fun p => do
    let pl ← cmEng (engPlace d acc p.1)
    pure { va := p.1, n := p.2, pl := pl, cls := c.cls.getD (segClass d) }

/-- No part lies in a DISABLED mint window (R221); no range of I/O allows a copy to read it (R233). -/
def copyOpen (ps : List OpPart) : CM Unit :=
  ps.forM fun p => do
    if (← cmLook fun s => match p.pl with
      | .mint u v => (mintBlocked (s.cluster u) v p.n).isSome
      | _ => false) then throw (.code cvMINTOFF)
    match p.pl with
    | .io pa => do cmHome (ioRefuse (← cmLook (copyRq p)) pa 1)
    | _ => pure ()

/-- The bytes of a part. -/
def copyValue (io : LineIO) (p : OpPart) : CM Nat :=
  match p.pl with
  | .vault .. => do
    let ws ← p.words.mapM fun w => match io.got.lookup w with
      | some (some v) => pure v
      | some none => throw (.code 1)
      | none => pure 0
    pure (ws.foldr (fun v a => v.toNat + 2 ^ 32 * a) 0 / 256 ^ p.pl.lane % 256 ^ p.n)
  | pl => do cmHome (placeRead (← cmLook (copyRq p)) pl p.n)

/-- Read parts, those of vaults through the line ports, or over the mesh, first. -/
def copyRead (c : Copy) (ps : List OpPart) : CM (List Nat) := do
  copyOpen ps
  let io ← cmLook c.ioIn
  let miss := ps.map fun p => (p, p.words.filter fun w => (io.got.lookup w).isNone)
  let want := fun (far : Bool) => ((miss.filter fun m => m.1.far = far).flatMap (·.2)).dedup
  if miss.any fun m => m.2 ≠ [] then do
    (miss.filter fun m => m.1.far && m.2 ≠ []).forM fun m => do
      cmHome (portOpen (← cmLook (copyRq m.1)) m.1.pl 1)
    throw (.lines (want false) (want true))
  else ps.mapM (copyValue io)

/-- Parts' values as one number, the first byte lowest. -/
def joinParts (ps : List OpPart) (vs : List Nat) : Nat := (ps.zip vs).foldr (fun x a => x.2 + 256 ^ x.1.n * a) 0

/-- `n` bytes of a vault or of main memory as they stand. -/
def peekPlace (s : State) (pl : Place) (n : Nat) : Nat :=
  match pl with
  | .vault u o _ => rdBytes s.vault (vKey u o) n
  | .home sl pa =>
    let e := sliceLine s sl (pa / 64)
    fieldOf (if e.valid then e.data else memLine s (pa / 64)) (8 * (pa % 64)) (8 * n)
  | _ => 0

/-- A place as the number of its first byte in its store. -/
def Place.key (pl : Place) : Option (Bool × Nat) :=
  match pl with
  | .vault u o _ => some (false, vKey u o)
  | .home _ pa => some (true, pa)
  | _ => none

/-- Byte `k` of a place as it stood before the copy, where the copy has written it. -/
def byteBefore (c : Copy) (pl : Place) (k : Nat) : Option Nat :=
  match pl.key with
  | none => none
  | some (m, a) => c.before.findSome? fun b => match b.1.key with
    | some (m', a') => if m = m' && decide (a' ≤ a + k) && decide (a + k < a' + b.2.1) then some (b.2.2 / 256 ^ (a + k - a') % 256) else none
    | none => none

/-- A source byte that the copy itself has written is read as it stood before the copy, or as the copy wrote it: free value `f` plus the
byte's number chooses (R381, log 13). -/
def mixBytes (c : Copy) (f : Nat) (p : OpPart) (now : Nat) : Nat :=
  if c.before = [] then now
  else
    (List.range p.n).foldr (fun k a =>
      (match byteBefore c p.pl k with
        | some b => if bitOf (Config.freeWord (f + k)) 0 then b else now / 256 ^ k % 256
        | none => now / 256 ^ k % 256) + 256 * a) 0

/-- Source and destination may share bytes: they lie in stores of one kind, and not in separate ranges of one view. -/
def Copy.overlaps (c : Copy) : Bool :=
  let local_ := fun (d : BitVec 128) => segType d = 3 || segType d = 4
  let n := c.x0.toNat
  let view := fun (a : Nat) => a / 0x2000000
  let sa := segBase c.src + c.so.toNat
  let da := segBase c.dst + c.do_.toNat
  c.fn ≠ 2 && local_ c.src = local_ c.dst &&
    !(c.fn = 0 && (view sa = view (sa + n)) && view sa = view da && view da = view (da + n) && (decide (sa + n ≤ da) || decide (da + n ≤ sa)))

/-- Write `n` payload bytes at address `a`; of the I/O ranges the outbound pages take copy writes (R233). -/
def copyWrite (c : Copy) (a n v : Nat) : CM Unit := do
  let ps ← copyParts c c.dst (if c.setFull then aCopyF else aCopyW) a n
  ps.forM fun p => do
    let w := v / 256 ^ (p.va - a) % 256 ^ p.n
    let rq ← cmLook (copyRq p)
    let mod := fun (f : Copy → Copy) (s : State) => s.modBulk (groupOf s.myCore) fun b =>
      { b with copies := b.copies.map fun x => if x.id = c.id then f x else x }
    (if c.overlaps && p.pl.key.isSome then
      fun s => .ok () (mod (fun x => { x with before := x.before ++ [(p.pl, p.n, peekPlace s p.pl p.n)] }) s)
    else pure ())
    match p.pl with
    | .vault .. => do
      (if p.far then cmHome (portOpen rq p.pl 2) else pure ())
      fun s => .ok () (mod (fun x => { x with io := { x.io with puts := x.io.puts ++ p.puts c.setFull false w } }) s)
    | .io pa => cmHome (if (outboundAt pa).isSome then placeWrite rq p.pl p.n w else ioRefuse rq pa 2)
    | pl => do
      cmHome (placeWrite rq pl p.n w)
      fun s => .ok () (if c.setFull then fillPart p.n pl p.va s else s)

/-- Move `n` bytes, at most 64. -/
def copyMove (c : Copy) (src dst n : Nat) : CM Unit := do
  let ps ← copyParts c c.src aCopyR src n
  let vs ← copyRead c ps
  let f ← cmLook (·.fresh)
  let mixed := (ps.zip vs).map fun x => mixBytes c (f + (x.1.va - src)) x.1 x.2
  (fun s => .ok () { s with fresh := s.fresh + 64 })
  copyWrite c dst n (joinParts ps mixed)

/-- A row whose place an index gives lies beyond the segment limit (R381). -/
def rowBeyond (d : BitVec 128) (o n : Nat) : Bool := decide (segLimit d < o + n) || vaultBeyond false d (segBase d + o + (n - 1))

/-- Entry `r` of the index list. -/
def copyIndex (c : Copy) (r : Nat) : CM Nat := do
  let ps ← copyParts c ownSeg aCopyR (c.x2.toNat + 4 * r) 4
  let vs ← copyRead c ps
  pure (joinParts ps vs)

/-- The die and transmit queue of an address of the Ethernet windows, and the offset in the window (R233). -/
def txWindow (pa : Nat) : Option (Nat × Nat × Nat) :=
  if 0xF100000000 ≤ pa ∧ pa < 0xF100400000 ∧ pa % 0x100000 < 0x20000 then
    some ((pa - 0xF100000000) / 0x100000, pa % 0x100000 / 0x4000, pa % 0x4000)
  else none

/-- A copy to a transmit queue: one frame (R100). -/
def copyFrame (c : Copy) (die q off : Nat) : CM Unit := do
  let n := c.x0.toNat
  let part ← cmLook fun s => decide (s.partOf die = s.partOf (dieOfCluster s.myUnit))
  if c.fn ≠ 0 || c.setFull then throw (.code cvLENGTH)
  else if !part || off ≠ 0 then throw (.code 2)
  else if n = 0 || 9212 < n then throw (.code cvLENGTH)
  else do
    let _ ← copyParts c c.dst aCopyW (segBase c.dst + c.do_.toNat) n
    let ps ← copyParts c c.src aCopyR (segBase c.src + c.so.toNat) n
    let vs ← copyRead c ps
    fun s =>
      if txRoom s die q n then
        match execEthTxQueueWrite die q (natBytes (joinParts ps vs) n) s with
        | .next s => .ok () s
        | _ => .ok () s
      else .error .room s

/-- Rows of a copy, and its units of 64 bytes: those of a row follow each other, rows ascend. -/
def Copy.rows (c : Copy) : Nat := if c.x0 = 0 then 0 else if c.fn = 0 || c.fn = 2 then 1 else c.x1.toNat
def Copy.rowUnits (c : Copy) : Nat := (c.x0.toNat + 63) / 64
def Copy.units (c : Copy) : Nat := c.rows * c.rowUnits

/-- Unit `i` of row `r` of a gather or a scatter, at the row's index; answers the index. -/
def copyIndexed (c : Copy) (r i m : Nat) : CM Nat := do
  let n := c.x0.toNat
  let x ← if i = 0 then copyIndex c r else pure c.index
  if c.fn = 3 then do
    let o := c.so.toNat + x * c.x3.toNat
    if rowBeyond c.src o n then throw (.code cvRANGE)
    else copyMove c (segBase c.src + o + 64 * i) (segBase c.dst + c.do_.toNat + r * n + 64 * i) m
  else do
    let o := c.do_.toNat + x * c.x3.toNat
    if rowBeyond c.dst o n then throw (.code cvRANGE)
    else if segType c.dst = 3 && decide (0x4000000 < segBase c.dst + o + n) then throw (.code cvMINTDEST)
    else copyMove c (segBase c.src + c.so.toNat + r * n + 64 * i) (segBase c.dst + o + 64 * i) m
  pure x

/-- The next unit of the payload (R381): it answers the row's index and whether it was the last one. -/
def copyUnit (c : Copy) : CM (Nat × Bool) := do
  let frame ← if c.unit ≠ 0 || (c.fn ≠ 0 && c.rows = 0) || segType c.dst ≠ 2 then pure none
    else do
      let pl ← cmEng (engPlace c.dst (if c.setFull then aCopyF else aCopyW) (segBase c.dst + c.do_.toNat))
      pure (match pl with
        | .io pa => txWindow pa
        | _ => none)
  match frame with
  | some (die, q, off) => do
    copyFrame c die q off
    pure (0, true)
  | none =>
    if c.units ≤ c.unit then pure (0, true)
    else do
      let r := c.unit / c.rowUnits
      let i := c.unit % c.rowUnits
      let m := Min.min 64 (c.x0.toNat - 64 * i)
      let src := segBase c.src + c.so.toNat + 64 * i
      let dst := segBase c.dst + c.do_.toNat + 64 * i
      let x ← match c.fn with
        | 0 => do copyMove c src dst m; pure 0
        | 1 => do copyMove c (src + r * c.x2.toNat) (dst + r * c.x3.toNat) m; pure 0
        | 2 => do
          copyWrite c dst m ((List.range m).foldr (fun k a => fieldOf c.pattern (8 * ((c.do_.toNat + 64 * i + k) % 4)) 8 + 256 * a) 0)
          pure 0
        | _ => copyIndexed c r i m
      pure (x, decide (c.units ≤ c.unit + 1))

/-- A BCANCEL that waits for copy `id` of group `g` (R383). -/
def cancelDone (g id : Nat) (s : State) : State :=
  forUp (256 * g) 256 s fun k s =>
    match (s.slot k).run with
    | .parked (.cancel ids n d) =>
      if ids = [id] then completeAt k .seq (setRegAt k d (word n) s)
      else s.modSlot k fun sl => { sl with run := .parked (.cancel (ids.filter (· ≠ id)) n d) }
    | _ => s

/-- Change a copy. -/
def modCopy (g id : Nat) (f : Copy → Copy) (s : State) : State :=
  s.modBulk g fun b => { b with copies := b.copies.map fun x => if x.id = id then f x else x }

/-- A copy leaves its engine, its completion word written. -/
def dropCopy (g : Nat) (c : Copy) (s : State) : State :=
  let s := s.modBulk g fun b => { b with copies := b.copies.filter fun x => x.id ≠ c.id }
  let s := cancelDone g c.id s
  if (s.bulkOf g).copies.any fun x => !x.accepted then s.push (.copyAccept g) else s

/-- A copy ends with a code: ERRBITS bit 4, and its completion word, stored and set full at its bank (R382). -/
def endCopy (g : Nat) (c : Copy) (code : Nat) (s : State) : State :=
  let s := if code = 0 then s else errBit (coreOf c.slot) 16 s
  match c.comp with
  | none => dropCopy g c s
  | some v =>
    let put : LinePut := { word := vKey (unitOf (coreOf c.slot)) (interleaved v) / 4, data := word code, setFull := true, late := true }
    lineWrites (g / 64) (copyEngine g) c.id (modCopy g c.id (fun x => { x with ending := some code, io := { puts := [put] } }) s)

/-- A unit is done. -/
def unitDone (g : Nat) (c : Copy) (x : Nat) (last : Bool) (s : State) : State :=
  let s := modCopy g c.id (fun y => { y with unit := y.unit + 1, index := x, io := {} }) s
  if last then endCopy g c 0 s else s

/-- The copies that the engine runs: it starts accepted copies in queue order, at most four at once (R384). -/
def BulkEngine.running (b : BulkEngine) : List Copy := (b.copies.filter (·.accepted)).take 4

/-- The copies that have not started hold an entry of the queue each (R380, R384). -/
def BulkEngine.queued (b : BulkEngine) : Nat := b.copies.length - b.running.length

/-- Copy `c` has something to do: it runs, or it is to end without having started. -/
def BulkEngine.moves (b : BulkEngine) (c : Copy) : Bool :=
  c.accepted && c.io.want = 0 && (c.ending.isSome || c.stopCode.isSome || b.running.any fun x => x.id = c.id)

/-- COPY_COMPLETE: the engine moves the next unit of a copy, and with the last the copy ends (R382, R384). One that was cancelled issues
no further payload access (R383). -/
def execCopyComplete (g id : Nat) (s : State) : Host.Outcome State Fault Refusal :=
  .next <| match (s.bulkOf g).copies.find? fun c => c.id = id with
    | none => s
    | some c =>
      let u := g / 64
      let e := copyEngine g
      if !(s.bulkOf g).moves c then s
      else if c.ending.isSome then dropCopy g c s
      else match c.stopCode with
        | some code => endCopy g c code s
        | none =>
          if c.io.writing then
            match c.io.err with
            | some code => endCopy g c code.toNat s
            | none => unitDone g c c.index (decide (c.units ≤ c.unit + 1)) s
          else
            let cur := s.cur
            let back := fun (t : State) => { t with cur := cur }
            match copyUnit c { s with cur := c.slot } with
            | .error (.lines near far) _ => lineReads u e id near far s
            | .error (.wait o) _ => o.touch s
            | .error .room _ => s
            | .error (.code x) t => endCopy g c x (back t)
            | .ok (x, last) t =>
              let t := back t
              if (ioOf t u e id).puts = [] then unitDone g c x last t
              else lineWrites u e id (modCopy g id (fun y => { y with index := x }) t)

/-- Acceptance: the completion word is set empty (R380). -/
def acceptCopy (g : Nat) (c : Copy) (s : State) : State :=
  let s := match c.comp with
    | none => s
    | some v => placeSetFull (ownPlace s v) false s
  (s.modBulk g fun b => { b with copies := b.copies.map fun x => if x.id = c.id then { x with accepted := true } else x }).push
    (.copyComplete g c.id)

/-- COPY_ACCEPT: the engine accepts the copy at the head of its queue and answers its thread (R380, R384). -/
def execCopyAccept (g : Nat) (s : State) : Host.Outcome State Fault Refusal :=
  .next <|
    let b := s.bulkOf g
    match b.copies.find? fun c => !c.accepted with
    | none => s
    | some c =>
      let cur := s.cur
      let s := { acceptCopy g c { s with cur := c.slot } with cur := cur }
      if (s.slot c.slot).run = .parked .copy && !c.orphan then completeAt c.slot .seq s else s

/-- Send a copy to the engine of its group. One that can start is accepted at once; else it enters the queue, where it is accepted in order
and waits for its start; with a full queue the thread waits (R380, R384; log 25). -/
def copyIssue (c : Copy) : M Next := fun s =>
  let g := groupOf s.myCore
  let b := s.bulkOf g
  let c := { c with id := b.nextId }
  let add := fun (s : State) => s.modBulk g fun b => { b with copies := b.copies ++ [c], nextId := b.nextId + 1 }
  if b.queued = 0 && b.running.length < 4 then .ok .seq (acceptCopy g c (add (count s.myCore 5 s)))
  else if b.queued < 16 then .error (.park .copy) ((add s).push (.copyAccept g))
  else .error (.park (.cond .bulk)) s

/-! ### Issue (R379, R380) -/

/-- The completion word's tests. -/
def compTest (b : Reg) (v : Word) : List Test :=
  if b = 0 then []
  else [if v.toNat % 4 ≠ 0 then some (cMISALIGN, v) else none,
    if 0x8000000 ≤ v.toNat then some (cSEGLIMIT, v) else if 0x4000000 ≤ v.toNat then some (cMINTSTORE, v) else none]

/-- The index list's tests. -/
def listTest (c : Copy) : List Test :=
  [if c.x2.toNat % 4 ≠ 0 then some (cMISALIGN, c.x2) else none,
    if 0x4000000 < c.x2.toNat + 4 * c.x1.toNat then some (cSEGLIMIT, c.x2) else none]

/-- The tests of R380. -/
def copyTests (c : Copy) (b : Reg) (gb : Word) : List Test :=
  let n := c.x0.toNat
  let rows := c.x1.toNat
  let span := fun (pitch : Nat) => if rows = 0 || n = 0 then 0 else (rows - 1) * pitch + n
  let w := if c.setFull then aCopyF else aCopyW
  let src := fun (m : Nat) => bytesTest false c.src c.so.toNat m aCopyR
  let dst := fun (m : Nat) => bytesTest false c.dst c.do_.toNat m w
  let own := match c.fn with
    | 0 => [src n, dst n]
    | 1 => [src (span c.x2.toNat), dst (span c.x3.toNat)]
    | 2 => [dst n]
    | 3 => [src 1, dst (rows * n)] ++ listTest c
    | _ => [src (rows * n), dst 1] ++ listTest c
  own ++ [if c.setFull && ((segBase c.dst + c.do_.toNat) % 4 ≠ 0 || n % 4 ≠ 0) then some (cMISALIGN, c.do_) else none] ++
    compTest b gb

/-- A copy instruction: function, destination, source, completion word. -/
def copyOp (fn : Nat) (d a b : Reg) (sg e : BitVec 3) (setFull : Bool) (s : State) : Host.Outcome State Fault Refusal :=
  let srcs := if fn = 2 then [a, b] else [b]
  let bases := if fn = 2 then [(d, 1)] else [(d, 1), (a, 1)]
  instr { cls := true, noBursar := true, ranges := bases, src := srcs } (do
    let gb ← look fun s => s.reg b
    let c ← look fun s =>
      ({ fn := fn, setFull := setFull, src := s.seg sg.toNat, dst := s.seg e.toNat, so := s.reg a, do_ := s.reg d
         pattern := s.reg a, x0 := s.xreg 0, x1 := s.xreg 1, x2 := s.xreg 2, x3 := s.xreg 3
         comp := if b = 0 then none else some gb.toNat, slot := s.cur, cls := if s.cv then some (fieldOf s.me.pend 0 2) else none } : Copy)
    tests (copyTests c b gb)
    copyIssue c) s

/-! ### Meanings (R379 to R383) -/

def execBcopy (d a b : Reg) (sg e : BitVec 3) (k : Bool) (s : State) : Host.Outcome State Fault Refusal := copyOp 0 d a b sg e k s
def execBcopy2 (d a b : Reg) (sg e : BitVec 3) (k : Bool) (s : State) : Host.Outcome State Fault Refusal := copyOp 1 d a b sg e k s
def execBfill (d a b : Reg) (e : BitVec 3) (k : Bool) (s : State) : Host.Outcome State Fault Refusal := copyOp 2 d a b 0 e k s
def execBgath (d a b : Reg) (sg e : BitVec 3) (k : Bool) (s : State) : Host.Outcome State Fault Refusal := copyOp 3 d a b sg e k s
def execBscat (d a b : Reg) (sg e : BitVec 3) (k : Bool) (s : State) : Host.Outcome State Fault Refusal := copyOp 4 d a b sg e k s

/-- The copies of the thread in execution whose completion has not been written. -/
def ownCopies (s : State) : List Copy := (s.bulkOf (groupOf s.myCore)).copies.filter fun c => c.slot = s.cur && !c.orphan

/-- BCANCEL: it stops every copy that has not begun its final write, and waits for those that have (R383). -/
def execBcancel (d b : Reg) (s : State) : Host.Outcome State Fault Refusal :=
  instr { cls := true, noBursar := true, src := [b], dst := [d] } (fun s =>
    let gb := (s.reg b).toNat
    let mine := (ownCopies s).filter fun c => b = 0 || c.comp = some gb
    let ids := mine.map (·.id)
    let stopped := (mine.filter fun c => c.ending.isNone).map (·.id)
    if ids.isEmpty then .ok .seq (s.setReg d 0)
    else
      let s := s.modBulk (groupOf s.myCore) fun x =>
        { x with copies := x.copies.map fun c => if stopped.contains c.id then { c with stopCode := some cvCANCELLED } else c }
      .error (.park (.cancel ids stopped.length d)) (s.pushAll (stopped.map fun i => .copyComplete (groupOf s.myCore) i))) s

def execBstat (d : Reg) (s : State) : Host.Outcome State Fault Refusal :=
  instrUpd { cls := true, noBursar := true, dst := [d] } (fun s => s.setReg d (word (ownCopies s).length)) s

end Sys2Proof.Machine
end

