-- ==== Sys2Proof/Machine/Crypto.lean ====
section
/-! DEFINITION. The algorithms that the trust chain names by their standards (R113 to R118): SHA-256 and SHA-384 (FIPS 180-4), HMAC and
HKDF (RFC 2104, RFC 5869), ECDSA P-384 verification and the scalar of FIPS 186-5 A.2.1, and LMS verification (RFC 8554). The spec names
the standards; their texts are taken from outside it (PRESUMED, log 9). -/

namespace Sys2Proof.Machine

/-! ### SHA-2 (FIPS 180-4) -/

/-- A list of bytes as a number, first byte highest. -/
def bytesBe (l : List Byte) : Nat := l.foldl (fun a b => 256 * a + b.toNat) 0

/-- The low `n` bytes of a number, highest first. -/
def natBe (v n : Nat) : List Byte := (natBytes v n).reverse

/-- Big-endian words of `n` bytes each. -/
def beWords (n : Nat) : Nat → List Byte → List Nat
  | 0, _ => []
  | k + 1, l => bytesBe (l.take n) :: beWords n k (l.drop n)

/-- A message padded to whole blocks of `blk` bytes: the bit 1, zeros, and its bit length in an eighth of a block. -/
def shaPad (blk : Nat) (m : List Byte) : List Byte :=
  let n := m.length + 1 + blk / 8
  m ++ [0x80] ++ List.replicate ((blk - n % blk) % blk) 0 ++ natBe (8 * m.length) (blk / 8)

/-- The rotation and shift amounts of a member of the family: Σ0, Σ1, σ0, σ1. -/
structure ShaShape where
  big0 : Nat × Nat × Nat
  big1 : Nat × Nat × Nat
  small0 : Nat × Nat × Nat
  small1 : Nat × Nat × Nat
  deriving DecidableEq, Repr

def rot3 {w : Nat} (x : BitVec w) (r : Nat × Nat × Nat) : BitVec w :=
  x.rotateRight r.1 ^^^ x.rotateRight r.2.1 ^^^ x.rotateRight r.2.2

def rotShift {w : Nat} (x : BitVec w) (r : Nat × Nat × Nat) : BitVec w :=
  x.rotateRight r.1 ^^^ x.rotateRight r.2.1 ^^^ (x >>> r.2.2)

/-- The message schedule, newest word first: `n` more words. -/
def shaSchedule {w : Nat} (f : ShaShape) : Nat → List (BitVec w) → List (BitVec w)
  | 0, l => l
  | n + 1, l =>
    let at_ := fun i => l.getD (i - 1) 0
    shaSchedule f n ((rotShift (at_ 2) f.small1 + at_ 7 + rotShift (at_ 15) f.small0 + at_ 16) :: l)

/-- One round on the eight working variables. -/
def shaRound {w : Nat} (f : ShaShape) (v : List (BitVec w)) (k x : BitVec w) : List (BitVec w) :=
  match v with
  | [a, b, c, d, e, g, h, i] =>
    let t1 := i + rot3 e f.big1 + ((e &&& g) ^^^ (~~~e &&& h)) + k + x
    let t2 := rot3 a f.big0 + ((a &&& b) ^^^ (a &&& c) ^^^ (b &&& c))
    [t1 + t2, a, b, c, d + t1, e, g, h]
  | v => v

/-- The hash of the blocks that `k` counts. -/
def shaBlocks {w : Nat} (f : ShaShape) (ks : List (BitVec w)) : Nat → List Byte → List (BitVec w) → List (BitVec w)
  | 0, _, h => h
  | k + 1, m, h =>
    let ws := shaSchedule f (ks.length - 16) ((beWords (w / 8) 16 m).map (BitVec.ofNat w)).reverse
    let v := (ks.zip ws.reverse).foldl (fun v p => shaRound f v p.1 p.2) h
    shaBlocks f ks k (m.drop (2 * w)) ((h.zip v).map fun p => p.1 + p.2)

def sha256Shape : ShaShape := { big0 := (2, 13, 22), big1 := (6, 11, 25), small0 := (7, 18, 3), small1 := (17, 19, 10) }
def sha512Shape : ShaShape := { big0 := (28, 34, 39), big1 := (14, 18, 41), small0 := (1, 8, 7), small1 := (19, 61, 6) }

def sha256K : List (BitVec 32) :=
  [0x428A2F98, 0x71374491, 0xB5C0FBCF, 0xE9B5DBA5, 0x3956C25B, 0x59F111F1, 0x923F82A4, 0xAB1C5ED5,
    0xD807AA98, 0x12835B01, 0x243185BE, 0x550C7DC3, 0x72BE5D74, 0x80DEB1FE, 0x9BDC06A7, 0xC19BF174] ++
  [0xE49B69C1, 0xEFBE4786, 0x0FC19DC6, 0x240CA1CC, 0x2DE92C6F, 0x4A7484AA, 0x5CB0A9DC, 0x76F988DA,
    0x983E5152, 0xA831C66D, 0xB00327C8, 0xBF597FC7, 0xC6E00BF3, 0xD5A79147, 0x06CA6351, 0x14292967] ++
  [0x27B70A85, 0x2E1B2138, 0x4D2C6DFC, 0x53380D13, 0x650A7354, 0x766A0ABB, 0x81C2C92E, 0x92722C85,
    0xA2BFE8A1, 0xA81A664B, 0xC24B8B70, 0xC76C51A3, 0xD192E819, 0xD6990624, 0xF40E3585, 0x106AA070] ++
  [0x19A4C116, 0x1E376C08, 0x2748774C, 0x34B0BCB5, 0x391C0CB3, 0x4ED8AA4A, 0x5B9CCA4F, 0x682E6FF3,
    0x748F82EE, 0x78A5636F, 0x84C87814, 0x8CC70208, 0x90BEFFFA, 0xA4506CEB, 0xBEF9A3F7, 0xC67178F2]

def sha256H : List (BitVec 32) :=
  [0x6A09E667, 0xBB67AE85, 0x3C6EF372, 0xA54FF53A, 0x510E527F, 0x9B05688C, 0x1F83D9AB, 0x5BE0CD19]

def sha512K : List (BitVec 64) :=
  [0x428A2F98D728AE22, 0x7137449123EF65CD, 0xB5C0FBCFEC4D3B2F, 0xE9B5DBA58189DBBC,
    0x3956C25BF348B538, 0x59F111F1B605D019, 0x923F82A4AF194F9B, 0xAB1C5ED5DA6D8118,
    0xD807AA98A3030242, 0x12835B0145706FBE, 0x243185BE4EE4B28C, 0x550C7DC3D5FFB4E2,
    0x72BE5D74F27B896F, 0x80DEB1FE3B1696B1, 0x9BDC06A725C71235, 0xC19BF174CF692694] ++
  [0xE49B69C19EF14AD2, 0xEFBE4786384F25E3, 0x0FC19DC68B8CD5B5, 0x240CA1CC77AC9C65,
    0x2DE92C6F592B0275, 0x4A7484AA6EA6E483, 0x5CB0A9DCBD41FBD4, 0x76F988DA831153B5,
    0x983E5152EE66DFAB, 0xA831C66D2DB43210, 0xB00327C898FB213F, 0xBF597FC7BEEF0EE4,
    0xC6E00BF33DA88FC2, 0xD5A79147930AA725, 0x06CA6351E003826F, 0x142929670A0E6E70] ++
  [0x27B70A8546D22FFC, 0x2E1B21385C26C926, 0x4D2C6DFC5AC42AED, 0x53380D139D95B3DF,
    0x650A73548BAF63DE, 0x766A0ABB3C77B2A8, 0x81C2C92E47EDAEE6, 0x92722C851482353B,
    0xA2BFE8A14CF10364, 0xA81A664BBC423001, 0xC24B8B70D0F89791, 0xC76C51A30654BE30,
    0xD192E819D6EF5218, 0xD69906245565A910, 0xF40E35855771202A, 0x106AA07032BBD1B8] ++
  [0x19A4C116B8D2D0C8, 0x1E376C085141AB53, 0x2748774CDF8EEB99, 0x34B0BCB5E19B48A8,
    0x391C0CB3C5C95A63, 0x4ED8AA4AE3418ACB, 0x5B9CCA4F7763E373, 0x682E6FF3D6B2B8A3,
    0x748F82EE5DEFB2FC, 0x78A5636F43172F60, 0x84C87814A1F0AB72, 0x8CC702081A6439EC,
    0x90BEFFFA23631E28, 0xA4506CEBDE82BDE9, 0xBEF9A3F7B2C67915, 0xC67178F2E372532B] ++
  [0xCA273ECEEA26619C, 0xD186B8C721C0C207, 0xEADA7DD6CDE0EB1E, 0xF57D4F7FEE6ED178,
    0x06F067AA72176FBA, 0x0A637DC5A2C898A6, 0x113F9804BEF90DAE, 0x1B710B35131C471B,
    0x28DB77F523047D84, 0x32CAAB7B40C72493, 0x3C9EBE0A15C9BEBC, 0x431D67C49C100D4C,
    0x4CC5D4BECB3E42B6, 0x597F299CFC657E2A, 0x5FCB6FAB3AD6FAEC, 0x6C44198C4A475817]

def sha384H : List (BitVec 64) :=
  [0xCBBB9D5DC1059ED8, 0x629A292A367CD507, 0x9159015A3070DD17, 0x152FECD8F70E5939,
    0x67332667FFC00B31, 0x8EB44A8768581511, 0xDB0C2E0D64F98FA7, 0x47B5481DBEFA4FA4]

/-- SHA-256 as 32 bytes. -/
def sha256 (m : List Byte) : List Byte :=
  let p := shaPad 64 m
  (shaBlocks sha256Shape sha256K (p.length / 64) p sha256H).flatMap fun x => natBe x.toNat 4

/-- SHA-384 as 48 bytes. -/
def sha384Bytes (m : List Byte) : List Byte :=
  let p := shaPad 128 m
  ((shaBlocks sha512Shape sha512K (p.length / 128) p sha384H).take 6).flatMap fun x => natBe x.toNat 8

/-- SHA-384 as a number whose byte 0 is the first of the digest (R117, R119). -/
def sha384 (m : List Byte) : BitVec 384 := BitVec.ofNat 384 (bytesNat (sha384Bytes m))

/-! ### HMAC and HKDF (RFC 2104, RFC 5869) -/

/-- HMAC-SHA-384. -/
def hmac384 (key m : List Byte) : List Byte :=
  let k := if 128 < key.length then sha384Bytes key else key
  let k := k ++ List.replicate (128 - k.length) 0
  sha384Bytes ((k.map (· ^^^ 0x5C)) ++ sha384Bytes ((k.map (· ^^^ 0x36)) ++ m))

/-- HKDF-SHA-384 without salt: `n` bytes, at most 96. -/
def hkdf384 (ikm info : List Byte) (n : Nat) : List Byte :=
  let prk := hmac384 (List.replicate 48 0) ikm
  let t1 := hmac384 prk (info ++ [1])
  (t1 ++ hmac384 prk (t1 ++ info ++ [2])).take n

/-! ### P-384 (FIPS 186-5, SP 800-186) -/

namespace P384

def p : Nat := 0xfffffffffffffffffffffffffffffffffffffffffffffffffffffffffffffffeffffffff0000000000000000ffffffff
def n : Nat := 0xffffffffffffffffffffffffffffffffffffffffffffffffc7634d81f4372ddf581a0db248b0a77aecec196accc52973
def b : Nat := 0xb3312fa7e23ee7e4988e056be3f82d19181d9c6efe8141120314088f5013875ac656398d8a2ed19d2a85c8edd3ec2aef
def gx : Nat := 0xaa87ca22be8b05378eb1c71ef320ad746e1d3b628ba79b9859f741e082542a385502f25dbf55296c3a545e3872760ab7
def gy : Nat := 0x3617de4a96262c6f5d9e98bf9292dc29f8f41dbd289a147ce9da3113b5f0b8c00a60b1ce1d7e819d7a431d7c90ea0e5f

/-- A point (X/Z², Y/Z³); Z = 0 is the point at infinity. -/
structure Pt where
  x : Nat
  y : Nat
  z : Nat
  deriving DecidableEq, Repr

def sub (a c : Nat) : Nat := (a + (p - c % p)) % p

/-- a^e mod m, for exponents of at most `k` bits. -/
def powMod (m : Nat) : Nat → Nat → Nat → Nat
  | 0, _, _ => 1 % m
  | k + 1, a, e =>
    let r := powMod m k (a * a % m) (e / 2)
    if e % 2 = 1 then a * r % m else r

def inv (m a : Nat) : Nat := powMod m 384 (a % m) (m - 2)

def double (q : Pt) : Pt :=
  let yy := q.y * q.y % p
  let s := 4 * q.x * yy % p
  let zz := q.z * q.z % p
  let m := 3 * sub q.x zz * (q.x + zz) % p
  let x := sub (m * m) (2 * s)
  { x := x, y := sub (m * sub s x) (8 * yy * yy), z := 2 * q.y * q.z % p }

def add (q r : Pt) : Pt :=
  if q.z = 0 then r
  else if r.z = 0 then q
  else
    let zq := q.z * q.z % p
    let zr := r.z * r.z % p
    let u1 := q.x * zr % p
    let u2 := r.x * zq % p
    let s1 := q.y * r.z * zr % p
    let s2 := r.y * q.z * zq % p
    if u1 = u2 then (if s1 = s2 then double q else { x := 1, y := 1, z := 0 })
    else
      let h := sub u2 u1
      let d := sub s2 s1
      let hh := h * h % p
      let hhh := h * hh % p
      let v := u1 * hh % p
      let x := sub (sub (d * d) hhh) (2 * v)
      { x := x, y := sub (d * sub v x) (s1 * hhh), z := h * q.z * r.z % p }

/-- e × q for scalars of at most `k` bits. -/
def mul : Nat → Nat → Pt → Pt
  | 0, _, _ => { x := 1, y := 1, z := 0 }
  | k + 1, e, q =>
    let r := mul k (e / 2) (double q)
    if e % 2 = 1 then add q r else r

def onCurve (x y : Nat) : Bool := x < p && y < p && y * y % p = (x * x * x + (p - 3) * x + b) % p

end P384

/-- ECDSA P-384 verification with SHA-384: key x ‖ y, message, signature r ‖ s. A key that is no point of the curve verifies nothing. -/
def ecdsaVerify (key m sig : List Byte) : Bool :=
  let x := bytesBe (key.take 48)
  let y := bytesBe (key.drop 48)
  let r := bytesBe (sig.take 48)
  let s := bytesBe (sig.drop 48)
  let z := bytesBe (sha384Bytes m)
  if key.length ≠ 96 || sig.length ≠ 96 || r = 0 || P384.n ≤ r || s = 0 || P384.n ≤ s || !P384.onCurve x y then false
  else
    let w := P384.inv P384.n s
    let q := P384.add (P384.mul 384 (z * w % P384.n) { x := P384.gx, y := P384.gy, z := 1 })
      (P384.mul 384 (r * w % P384.n) { x := x, y := y, z := 1 })
    q.z ≠ 0 && q.x * P384.inv P384.p (q.z * q.z) % P384.p % P384.n = r

/-- The alias key: HKDF-SHA-384 of the device secret with info "KZ alias" ‖ MS, reduced to a scalar with 64 extra bits (R118). -/
def deriveAlias (secret : BitVec 256) (ms : BitVec 384) : BitVec 384 :=
  let info : List Byte := [0x4B, 0x5A, 0x20, 0x61, 0x6C, 0x69, 0x61, 0x73] ++ natBytes ms.toNat 48
  BitVec.ofNat 384 (bytesBe (hkdf384 (natBytes secret.toNat 32) info 56) % (P384.n - 1) + 1)

/-! ### LMS (RFC 8554): LMS_SHA256_M32_H20 with LMOTS_SHA256_N32_W4 (R114) -/

/-- The chain of a Winternitz digit from step `j`, `k` steps on. -/
def lmotsChain (pre : List Byte) : Nat → Nat → List Byte → List Byte
  | 0, _, t => t
  | k + 1, j, t => lmotsChain pre k (j + 1) (sha256 (pre ++ [BitVec.ofNat 8 j] ++ t))

/-- The candidate for the leaf's public key. -/
def lmotsKey (id : List Byte) (q : Nat) (m sig : List Byte) : List Byte :=
  let idq := id ++ natBe q 4
  let digest := sha256 (idq ++ [0x81, 0x81] ++ (sig.drop 4).take 32 ++ m)
  let digits := digest.flatMap fun x => [x.toNat / 16, x.toNat % 16]
  let sum := digits.foldl (fun a x => a + (15 - x)) 0
  let all := digits ++ [sum / 256 % 16, sum / 16 % 16, sum % 16]
  let ends := all.mapIdx fun i a =>
    lmotsChain (idq ++ natBe i 2) (15 - a) a ((sig.drop (36 + 32 * i)).take 32)
  sha256 (idq ++ [0x80, 0x80] ++ ends.flatten)

/-- The candidate for the root: up the tree from a node. -/
def lmsRoot (id : List Byte) : List (List Byte) → Nat → List Byte → List Byte
  | [], _, t => t
  | x :: r, node, t =>
    let pair := if node % 2 = 1 then x ++ t else t ++ x
    lmsRoot id r (node / 2) (sha256 (id ++ natBe (node / 2) 4 ++ [0x83, 0x83] ++ pair))

/-- LMS verification: key of 56 bytes, message, signature of 2,828 bytes. -/
def lmsVerify (key m sig : List Byte) : Bool :=
  let id := (key.drop 8).take 16
  let q := bytesBe (sig.take 4)
  if key.length ≠ 56 || key.take 8 ≠ [0, 0, 0, 8, 0, 0, 0, 3] || sig.length ≠ 2828 || 2 ^ 20 ≤ q then false
  else
    let node := 2 ^ 20 + q
    let leaf := sha256 (id ++ natBe node 4 ++ [0x82, 0x82] ++ lmotsKey id q m ((sig.drop 4).take 2180))
    lmsRoot id ((List.range 20).map fun i => (sig.drop (2188 + 32 * i)).take 32) node leaf = key.drop 24

end Sys2Proof.Machine
end

