-- ==== Sys2Proof/Machine/Package.lean ====
section
/-! DEFINITION. Power, boot, measurement and the start of a bursar (R11, R17 to R19, R102, R103, R113 to R118, R425), partition
resets (R17, R106, R128, R405), and bursar initialisation (R18, R41). -/

namespace Sys2Proof.Machine

/-! ### Images (R102, R113 to R116) -/

/-- `n` bytes of the boot flash from offset `a`. -/
def flashBytes (r : Strongroom) (a n : Nat) : List Byte := (List.range n).map fun i => smGet 0 r.flash (a + i)

/-- What a container that passes R116 gives: the container's bytes, the digest D, its SVN. -/
structure Image where
  bytes : List Byte := []
  digest : BitVec 384 := 0
  svn : Nat := 0
  deriving DecidableEq, Repr

def Image.body (i : Image) : List Byte := i.bytes.drop 0x1000

/-- Both keys of the container match the same allowed slot (R115). -/
def keyAllowed (kind : Nat) (ecdsa lms : BitVec 384) : Bool :=
  (if kind = 2 then [0, 1] else [0]).any fun k =>
    Config.keyHash k false = ecdsa && Config.keyHash k true = lms &&
      !(Config.keyHash k false = 0 && Config.keyHash k true = 0)

/-- The type fields embedded in an LMS signature are those of R114. -/
def lmsTypes (sig : List Byte) : Bool :=
  (sig.drop 4).take 4 = [0, 0, 0, 3] && (sig.drop 2184).take 4 = [0, 0, 0, 8]

/-- The greatest body of a KIND (R112, R116). -/
def bodyLimit (kind : Nat) : Nat := if kind = 1 then 0x40000 else if kind = 2 then 0x3FF000 else 4096

/-- The verification of R116 of the container of `kind` at a flash offset. -/
def verifyContainer (r : Strongroom) (kind base : Nat) : Option Image :=
  let fb := flashBytes r
  let at_ := fun (o : Nat) => bytesNat (fb (base + o) 4)
  let len := at_ 0xC
  let entry := at_ 0x10
  let svn := at_ 8
  let zero := fun (o n : Nat) => (fb (base + o) n).all (· = 0)
  if at_ 0 ≠ 0x465A4B57 || at_ 4 ≠ kind || !zero 0x14 12 || !zero 0xB8 72 || !zero 0xC6C 0x394 then none
  else if kind = 3 && (len = 0 || 4096 < len || entry ≠ 0 || svn ≠ 0) then none
  else if kind ≠ 3 && (bodyLimit kind < len || len ≤ entry || entry % 2 ≠ 0) then none
  else
    let ek := fb (base + 0x20) 96
    let lk := fb (base + 0x80) 56
    let m := fb base 0x100 ++ fb (base + 0x1000) len
    let lsig := fb (base + 0x160) 2828
    if !keyAllowed kind (sha384 ek) (sha384 lk) then none
    else if kind ≠ 3 && svn < onesBelow (Config.svnFuse kind ||| smGet 0 r.fuses kind) 64 then none
    else if ecdsaVerify ek m (fb (base + 0x100) 96) && (lmsVerify lk m lsig && lmsTypes lsig) then
      some { bytes := fb base (0x1000 + len), digest := sha384 m, svn := svn }
    else none

/-- Extend a measurement (R116, R117). -/
def extend (m d : BitVec 384) : BitVec 384 := sha384 (bytes48 m ++ bytes48 d)

/-! ### The partition configuration (R102, R103, R50) -/

def pcfgPart (b : List Byte) (d : Nat) : Nat := (b.getD 1 0).toNat / 4 ^ d % 4

/-- The dies of partition `p`. -/
def pcfgDies (b : List Byte) (p : Nat) : List Nat := (List.range 4).filter fun d => pcfgPart b d = p

/-- The partitions in use. -/
def pcfgParts (b : List Byte) : List Nat := (List.range 4).filter fun p => pcfgDies b p ≠ []

/-- Two dies share an edge. -/
def diesAdjacent (l : List Nat) : Bool := l = [0, 1] || l = [2, 3] || l = [0, 2] || l = [1, 3]

/-- The record is accepted (R103). -/
def pcfgOk (b : List Byte) : Bool :=
  let v := fun i => (b.getD i 0).toNat
  let ps := pcfgParts b
  v 0 = 1 && v 2 < 64 && v 3 < 2 && v 7 = 0 && v 14 = 0 && v 15 = 0 && ps = List.range ps.length && decide (ps.length ≤ 3) &&
    (ps.all fun p => (pcfgDies b p).length ≠ 2 || diesAdjacent (pcfgDies b p)) &&
    (ps.all fun p => decide (v (4 + p) < 8) && (v (9 + 2 * p) = 0 || decide (v (8 + 2 * p) + v (9 + 2 * p) ≤ 128))) &&
    ps.all fun p => ps.all fun q =>
      p = q || v (9 + 2 * p) = 0 || v (9 + 2 * q) = 0 || decide (v (8 + 2 * p) + v (9 + 2 * p) ≤ v (8 + 2 * q)) ||
        decide (v (8 + 2 * q) + v (9 + 2 * q) ≤ v (8 + 2 * p))

/-- ROUTECFG.DIEYX of the routers of die `a`: YX order exactly where XY order would cross a die outside the partition (R50). -/
def dieYx (b : List Byte) (a : Nat) : BitVec 4 :=
  bitsOf 4 ((List.range 4).filter fun e =>
    pcfgPart b e = pcfgPart b a && a % 2 ≠ e % 2 && a / 2 ≠ e / 2 && pcfgPart b (e % 2 + 2 * (a / 2)) ≠ pcfgPart b a)

/-- The strongroom programs the routers of a die (R18, R50). -/
def routersUp (b : List Byte) (d : Nat) (s : State) : State :=
  (List.range 256).foldl (fun s i =>
    s.modRouter (256 * d + i) fun x => { x with routecfg := putField x.routecfg 16 4 (dieYx b d).toNat }) s

/-- The mesh links and bridges with an end on dies `ds`, one end of each. -/
def meshLinks (ds : List Nat) : List (Nat × Nat) :=
  ds.flatMap fun d => (List.range 256).flatMap fun i => (List.range 4).filterMap fun p =>
    let r := 256 * d + i
    match neighbour r p with
    | some n => if ds.contains (dieOfRouter n) && !(p = 1 || p = 2) then none else some (r, p)
    | none => none

/-- The links of released dies leave DOWN (R64): a mesh link or bridge between released dies trains, one to a stopped die is LOST (R16),
and a Trizen link trains with the device at its other end. -/
def linksUp (ds : List Nat) (s : State) : State :=
  let far := fun (e : Nat × Nat) => ((neighbour e.1 e.2).map dieOfRouter).getD 0
  let s := (meshLinks ds).foldl (fun s e =>
    let d := dieOfRouter e.1
    if (s.die d).stopped || (s.die (far e)).stopped then
      (if far e = d then s else (linkEnds e.1 e.2).foldl (fun s x => endLost x.1 x.2 s) s)
    else if bitOf s.sr.dieup (far e) then
      match execLinkTrainingStart e.1 e.2 s with
      | .next s => s.push (.linkTrainingEnd e.1 e.2 true false)
      | _ => s
    else s) s
  (ds.flatMap fun d => (List.range 3).map fun t => (trizenRouter d t, 5 + t)).foldl (fun s e =>
    match execLinkTrainingStart e.1 e.2 s with
    | .next s => s
    | _ => s) s

/-! ### Steps of the boot (R18) -/

/-- The boot stops at a step (R18). -/
def bootStop (code : BitVec 4) (s : State) : State :=
  { s with sr := { s.sr with stage := 0xF, fail := code } }

/-- A failure of step 5 or 6 stops partition `p` alone (R18). -/
def partFail (p : Nat) (code : BitVec 4) (s : State) : State :=
  { s with sr := { s.sr with
      fail := if s.sr.fail = 0 then code else s.sr.fail, failp := s.sr.failp ||| BitVec.ofNat 3 (2 ^ p) } }

/-- Replace `bytes.length` bytes of a store from key `lo`. -/
def smBlock (lo : Nat) (bytes : List Byte) (m : SMap Byte) : SMap Byte :=
  (m.filter fun e => decide (e.1 < lo)) ++
    ((bytes.zipIdx.filter fun e => e.1 ≠ 0).map fun e => (lo + e.2, e.1)) ++
      m.filter fun e => decide (lo + bytes.length ≤ e.1)

/-- Steps 5 and 6 for partition `p` (R18, R102, R106, R117): verify, measure, copy the container and release the bursars. Where a step
fails the dies stay in reset. -/
def bootPartition (p : Nat) (s : State) : State :=
  let b := s.sr.pcfg.getD []
  match verifyContainer s.sr 2 (0x100000 + (b.getD (4 + p) 0).toNat * 0x800000) with
  | none => s.modPart p (fun x => { x with resetting := true }) |> partFail p 5
  | some im =>
    let s := s.modPart p fun x =>
      { x with mp := extend 0 im.digest, svn := word im.svn, imageLen := im.body.length, resetting := bitOf s.sr.releaseFails p }
    if bitOf s.sr.releaseFails p then partFail p 6 s
    else
      let ds := pcfgDies b p
      let s := { s with
        vault := ds.foldl (fun v d => smBlock (vKey (16 + d) 0) im.bytes v) s.vault
        sr := { s.sr with dieup := s.sr.dieup ||| bitsOf 4 ds } }
      (linksUp ds s).pushAll (ds.flatMap fun d => [.bursarStart d, .bursarInit d])

/-- The partitions in the order in which step 5 takes them: by their lowest die (R18). -/
def bootOrder (b : List Byte) : List Nat :=
  ((List.range 4).map (pcfgPart b)).foldl (fun l p => if l.contains p then l else l ++ [p]) []

/-- Steps 3 to 6 after the strongroom firmware `fw` has been verified (R18). -/
def bootFirmware (fw : Image) (s : State) : State :=
  let b := flashBytes s.sr 0x1000 16
  let ms := extend 0 fw.digest
  let s := { s with sr := { s.sr with
    ms := ms, fuses := [1, 2].foldl (fun f k => smMod 0 f k (· ||| Config.svnRequest fw.body k)) s.sr.fuses } }
  match pcfgOk b, verifyContainer s.sr 3 0x4000 with
  | true, some id =>
    let ms := extend ms (sha384 b)
    let key := deriveAlias Config.deviceSecret ms
    let body := Config.aliasCertBody key ms
    let s := { s with
      sr := { s.sr with
        pcfg := some b, ms := ms, devnum := BitVec.ofNat 6 (b.getD 2 0).toNat, idcert := id.bytes, aliasKey := some key
        aliascert := body ++ Config.ecdsaSign Config.identityKey body } }
    if !s.sr.stacksTrained then bootStop 4 s
    else
      let s := (List.range 4).foldl (fun s d => routersUp b d s) s
      let s := (bootOrder b).foldl (fun s p => bootPartition p s) s
      { s with sr := { s.sr with stage := 8, booted := true } }
  | _, _ => bootStop 3 s

/-- BOOT: PORSTN rises and steps 1 to 6 run (R18). It happens once after a power-on reset. -/
def execBoot (s : State) : Host.Outcome State Fault Refusal :=
  .next <|
    if !s.sr.powered || s.sr.stage ≠ 0 then s
    else
      let s := { s with sr := { s.sr with porstn := true } }
      if !s.sr.selfTested then bootStop 1 s
      else match verifyContainer s.sr 1 0x10000 with
        | none => bootStop 2 s
        | some fw => bootFirmware fw s

/-- The clusters of dies `ds` while PWRALERTN is low: 8 is applied (R13). -/
def alertApplied (ds : List Nat) (s : State) : State :=
  if s.sr.pwralertn then s
  else (ds.flatMap fun d => (List.range 4).map (4 * d + ·)).foldl (fun s c => s.modCluster c fun x => { x with applied := 8, applies := [] }) s

/-- PORSTN_ASSERT: PORSTN low resets the whole device and nothing survives (R17), with the rails standing or after a full power cycle;
after a failed rail only the power cycle ends the stop (R11). What lies outside the device stays: the flash, the carrier, PWRALERTN,
and what training, the self test and the releases will find; and of the device the fuses. -/
def execPorstnAssert (s : State) (cycled : Bool := false) : Host.Outcome State Fault Refusal :=
  .next <|
    if !s.sr.powered && !cycled then s
    else alertApplied [0, 1, 2, 3]
      { sr := { porstn := false, pwralertn := s.sr.pwralertn, flash := s.sr.flash, stacksTrained := s.sr.stacksTrained
                selfTested := s.sr.selfTested, releaseFails := s.sr.releaseFails, fuses := s.sr.fuses, kzmcool := s.sr.kzmcool }
        fresh := s.fresh }

/-- RAIL_FAULT: THERMTRIPN is asserted and every clock stops until a power cycle (R11). -/
def execRailFault (s : State) : Host.Outcome State Fault Refusal :=
  .next (if s.sr.porstn then { s with sr := { s.sr with powered := false, thermtrip := true }, due := [], later := [], mcDue := 0 } else s)

/-! ### Bursars (R120, R425) -/

/-- A CODE descriptor with rights X (R229). -/
def codeSegment (base limit : Nat) : BitVec 128 := BitVec.ofNat 128 (base + 1 * 2 ^ 56 + limit * 2 ^ 64 + 4 * 2 ^ 96)

/-- BURSAR_START: the released bursar's slot 0 starts at ENTRY, everything else of the core zero (R425). -/
def execBursarStart (d : Nat) (s : State) : Host.Outcome State Fault Refusal :=
  .next <|
    let c := bursarCore d
    let at_ := fun (o : Nat) => vWord s (vKey (16 + d) o / 4)
    let s := { s with
      cores := smDel s.cores c, clusters := smDel s.clusters (16 + d), slots := s.slots.filter fun e => coreOf e.1 ≠ c }
    s.setSlot (16 * c)
      { pc := at_ 0x10, status := 0x100, run := .ready, sg := smSet 0 [] 0 (codeSegment 0x1000 (at_ 0xC).toNat) }

/-- BURSAR_INIT: every line of the die's stacks is written with zero data, full bits and valid check symbols, its slices hold
nothing, its clusters are released and its host port opens with zero pages (R18, R41, R86). -/
def execBursarInit (d : Nat) (s : State) : Host.Outcome State Fault Refusal :=
  .next <|
    let mine := fun (line : Nat) => stackOf line / 2 = d
    let s := { s with
      mem := s.mem.filter fun e => !mine (e.1 / 64), memFull := s.memFull.filter fun e => !mine e.1
      flips := s.flips.filter fun e => !mine e.1
      slices := s.slices.filter fun e => e.1 / 256 ≠ d }
    modPort d (fun h => { h with open_ := true, store := [] }) s

/-! ### Partition resets (R17, R106) -/

/-- The die at which an event happens. -/
def eventDie : Instr → Option Nat
  | .bursarStart d | .bursarInit d | .i3cDynamicAddress d _ | .i3cPrivateWrite d .. | .stackTempUpdate d .. | .thermalSample d _ | .talstatClear d _
  | .hostActivate d _ _ _ | .hostPrecharge d _ _ | .hostRefresh d _ | .hostRead d _ _ _ _ | .hostWrite d _ _ _ _
  | .inboundWrite d _ _ _ | .inboundForward d | .inboundAck d _ | .notification d _ _ _ | .notifyForward d
  | .completionRecordWrite d _ _ | .outboundWrite d _ _ _ | .mbdoor d | .mbset d | .ethFrameReceive d _ _
  | .ethSegmentRefused d _ _ | .ethPause d | .ethPauseReceive d .. | .ethTxQueueWrite d _ _ | .ethTransmit d
  | .vibindWrite d .. | .i3cGo d | .i3cRoleGrant d | .i3cRoleTimeout d | .i3cTransferDone d .. | .i3cRel d | .elpost d _
  | .elctlWrite d _ | .ethLinkDown d | .ethLinkUp d | .lnkstatRestart d _ => some d
  | .clthrWrite c _ _ | .throttleApply c | .clrst c | .clusterResetDone c | .launchSetup c | .bursarLaunch c | .clusterDrained c
  | .drained c _ _ | .confirm c | .confirmAnswer c | .close c | .stallAll c | .preempt c | .preemptSave c | .restore c
  | .cancel c | .lownerWrite c _ | .readyQueueTake c _ | .taskReleaseRequest c _ | .barrierArrival c _ _ _ _
  | .deadlineExpiry c _ | .fbtailWrite c _ | .fbwakeRetry c _ | .fbwakeKill c _ _ | .walk c | .remoteVaultAccess c _
  | .tlbInvalidation c _ => some (dieOfCluster c)
  | .coreDone c | .doneMessage c | .stealRequest c _ | .stealTimeout c | .remoteSpawn c .. | .messageArrive c _ | .coreHalt c
  | .coreResume c | .coreStep c | .streamFlush c _ | .streamIdleExpire c _ | .streamForcedClose c _
  | .streamDataArrive c _ _ _ _ _ => some (dieOfCluster (unitOf c))
  | .idleSlotWorkSearch k | .stealReply k | .handlerStart k | .replyArrival k .. | .mrecvTimeout k | .withdrawal k
  | .icacheFill k _ | .tlb2Lookup k _ _ | .feResend k | .waitExpire k => some (dieOfCluster (unitOf (coreOf k)))
  | .mcRequest t | .refreshWindowEnd t | .decline t _ _ | .patrolScrub t _ | .lendStart t _ | .lendAck t _ | .lendAbort t _
  | .lendDrainDone t _ | .lendQuiesceDone t _ | .lendRetrainDone t _ _ | .lendReclaimStart t _ | .lendReclaimDone t _ _
  | .mcmapRetire t | .mcmapFence t | .copyGranule t | .mapDrainStart t | .mapActivate t => some (t / 2)
  | .release g _ | .mapReceive g _ | .remap g _ _ _ | .flitTransmit g _ | .linkFlitReceive g _ _ | .linkAck g .. | .ackSend g _
  | .packetRoute g _ | .linkTrainingStart g _ | .linkTrainingEnd g .. | .linkLost g _ | .sliceRd g _ | .sliceWr g _
  | .sliceTel g _ | .sliceFe g _ | .sliceWaiterRetry g _ | .sliceFill g _ _ _ _ _ | .sliceFlush g _ _ _ | .sliceQput g _
  | .sliceQtake g _ | .copyAccept g | .copyComplete g _ | .matrixCommandTaken g | .matrixRetire g => some (g / 256)
  | .replyTimeout o _ | .lostHandling o _ _ | .requestResend o _ => some (o / 65536)
  | .ringStep q | .ringStepComplete q => some (q / 16)
  | .bankGrant b | .linePortAccess b => some (dieOfCluster (unitOfBank b))
  | .waitlistRetry w | .vaultCorrectRewrite w => some (dieOfCluster (w / 2 ^ 23))
  | _ => none

/-- The entries whose key does not lie on die `d`. -/
def outDie {α : Type} (d : Nat) (f : Nat → Nat) (m : SMap α) : SMap α := m.filter fun e => f e.1 ≠ d

/-- Every unit of a die at its reset values (R17). What the die's I3C pins and the attestation page of its host port hold stays
(R119, R128), and a stopped die stays stopped (R16). -/
def dieReset (d : Nat) (s : State) : State :=
  let ofUnit := fun (u : Nat) => dieOfCluster u
  let D := s.die d
  let h := D.host
  let x : State := { s with
    clusters := outDie d ofUnit s.clusters, cores := outDie d (fun c => ofUnit (unitOf c)) s.cores
    slots := outDie d (fun k => ofUnit (unitOf (coreOf k))) s.slots, engines := outDie d (· / 256) s.engines
    bulk := outDie d (· / 256) s.bulk, slices := outDie d (· / 256) s.slices, routers := outDie d (· / 256) s.routers
    banks := outDie d (fun b => ofUnit (unitOfBank b)) s.banks
    vault := outDie d (fun k => ofUnit (k / 2 ^ 25)) s.vault, vfull := outDie d (fun w => ofUnit (w / 2 ^ 23)) s.vfull
    verr := outDie d (fun w => ofUnit (w / 2 ^ 23)) s.verr, ctls := outDie d (· / 2) s.ctls
    requests := s.requests.filter fun q => q.origin / 65536 ≠ d, due := s.due.filter fun e => eventDie e ≠ some d
    later := s.later.filter fun e => eventDie e ≠ some d, busy := s.busy.filter fun r => dieOfRouter r ≠ d
    hot := s.hot.filter fun b => ofUnit (unitOfBank b) ≠ d
    remotes := s.remotes.filter fun e => dieOfRouter (routerAt e.2.pkt.dstCol.toNat e.2.pkt.dstRow.toNat) ≠ d }
  alertApplied [d] <| x.modDie d fun _ =>
      { stopped := D.stopped, trip := D.trip, i3c := { index := D.i3c.index, dyn := D.i3c.dyn, nack := D.i3c.nack }
        host := { rows := h.rows, attcmd := if h.attcmd = 1 then 3 else h.attcmd, attNonce := h.attNonce, attRep := h.attRep } }

/-- The other end of a bridge to a die in reset closes what crosses it, as for link loss, and is DOWN (R17, R64, R65). -/
def bridgeClose (r port : Nat) (s : State) : State :=
  let st := (linkOf s r port).st
  let s := if st = .up || st = .training then endLost r port s else s
  (modLink r port (fun _ => {}) s).modRouter r fun x => { x with lost := x.lost &&& ~~~(BitVec.ofNat 4 (2 ^ port)) }

/-- The far ends of the bridges that join die `d` to dies outside its partition. -/
def bridgeEnds (s : State) (d : Nat) : List (Nat × Nat) :=
  (List.range 256).flatMap fun i => (List.range 4).filterMap fun p =>
    match neighbour (256 * d + i) p with
    | some n => if s.partOf (dieOfRouter n) ≠ s.partOf d then some (n, oppPort p) else none
    | none => none

/-- PARTITION_RESET: the units of partition `p` reset, and steps 5 to 7 run for it alone (R17, R106). An image verification is
part of a boot or of a partition reset, so none is in progress. -/
def execPartitionReset (p : Nat) (s : State) : Host.Outcome State Fault Refusal :=
  .next <| match s.sr.pcfg with
    | none => s
    | some b =>
      let ds := pcfgDies b p
      if !s.sr.booted || ds = [] then s
      else
        let ends := ds.flatMap fun d => bridgeEnds s d
        let s := ends.foldl (fun s e => bridgeClose e.1 e.2 s) s
        let s := ds.foldl (fun s d => dieReset d s) s
        let mask := bitsOf 4 ds
        let s := { s with
          sr := { s.sr with dieup := s.sr.dieup &&& ~~~mask, failp := s.sr.failp &&& ~~~(BitVec.ofNat 3 (2 ^ p)) }
          parts := smSet {} s.parts p { resetting := true } }
        bootPartition p (ds.foldl (fun s d => routersUp b d s) s)

/-- A request to reset partition `p` merges with one that is waiting (R17). -/
def requestReset (p : Nat) (s : State) : State :=
  if (s.part p).requested then s else (s.modPart p fun x => { x with requested := true }).push (.partitionReset p)

/-- Partition `p` is in use. -/
def partUsed (s : State) (p : Nat) : Bool := (s.sr.pcfg.getD []) ≠ [] && pcfgDies (s.sr.pcfg.getD []) p ≠ []

/-- MPRST_REQ: the strongroom requests a reset (R405). -/
def execMprstReq (p : Nat) (s : State) : Host.Outcome State Fault Refusal := .next (if partUsed s p then requestReset p s else s)

/-- PRESET: an I3C controller requests a reset, when I3CRST allows it; else the write is logged (R128). -/
def execPreset (d : Nat) (v : Word) (s : State) : Host.Outcome State Fault Refusal :=
  .next <|
    let p := fieldOf v 0 2
    if fieldOf v 8 8 = 0xA5 && bitOf ((s.sr.pcfg.getD []).getD 3 0) 0 && partUsed s p then requestReset p s
    else if partUsed s p then logRecord (s.primaryDie p) 0x10 0xC1 (cornerPos d) 0 0 s
    else s

/-- The registers of the I3C target, by index (R128). -/
def i3cListed (i : Nat) : Bool := [0x00, 0x04, 0x08, 0x0C, 0x10].contains i

/-- The target of die `d` answers an address: its static one, and the dynamic one that it has been given (R128). -/
def i3cAnswers (s : State) (d : Nat) (addr : BitVec 7) : Bool :=
  addr.toNat = 0x30 + d || (s.die d).i3c.dyn = some addr

/-- What a private read at an address of the target returns (R128). -/
def i3cRead (s : State) (d : Nat) (addr : BitVec 7) : Option Word :=
  let t := (s.die d).therm
  if !i3cAnswers s d addr then none
  else some (match (s.die d).i3c.index.toNat with
    | 0x00 => bootstat s.sr
    | 0x04 => word (t.valid.toNat * 2 ^ 31 + t.maxtemp.toNat)
    | 0x08 => talstat t
    | 0x0C => word ((List.range 4).foldl (fun a c => a + (s.cluster (4 * d + c)).applied.toNat * 16 ^ c) 0)
    | _ => 0)

/-- I3C_PRIVATE_WRITE: the index, and a value when one is written; an index outside the table is not acknowledged (R128). A write to
another address is none of this target's. -/
def execI3cPrivateWrite (d : Nat) (index : Byte) (value : Option Word) (s : State) (addr : BitVec 7 := BitVec.ofNat 7 (0x30 + d)) :
    Host.Outcome State Fault Refusal :=
  .next <|
    let i3 := fun (f : I3c → I3c) => s.modDie d fun D => { D with i3c := f D.i3c }
    if !i3cAnswers s d addr then s
    else if !i3cListed index.toNat then i3 fun x => { x with nack := true }
    else
      let s := i3 fun x => { x with index := index, nack := false }
      match value with
      | some v => if index = 0x10 then s.push (.preset d v) else s
      | none => s

/-- I3C_DYNAMIC_ADDRESS: ENTDAA or SETDASA gives the target an address (R128). -/
def execI3cDynamicAddress (d : Nat) (a : BitVec 7) (s : State) : Host.Outcome State Fault Refusal :=
  .next (s.modDie d fun D => { D with i3c := { D.i3c with dyn := some a } })

end Sys2Proof.Machine
end

