-- ==== Sys2Proof/Machine/Launch.lean ====
section
/-! DEFINITION. Launches: records, headers and their checks (R130 to R132), dispatch (R133, R147), set-up (R136, R166, R170), drain
(R140, R141), the done tree and completion (R142, R90), and STALL-ALL (R175). -/

namespace Sys2Proof.Machine

/-! ### Records and headers (R130, R131) -/

/-- Bytes `off` to `off + n - 1` of an image. -/
def imgBytes (x off n : Nat) : Nat := x / 256 ^ off % 256 ^ n

/-- The launch unit of cluster `c` as a requester (R48). -/
def launchRq (c : Nat) (s : State) : Rq := rqUnit (64 * c) 0x52 false s

/-- The dispatcher of die `d`'s host port as a requester. -/
def hostRq (d : Nat) (s : State) : Rq := rqUnit (cornerRouter d) 0x90 false s

/-- `n` bytes of main memory from `pa`, line by line from their homes. -/
def readImage (rq : Rq) (pa n : Nat) : HM Nat := do
  let lo := pa / 64 * 64
  let ls ← (List.range ((pa % 64 + n + 63) / 64)).mapM fun i => do
    let pl ← physical rq (lo + 64 * i)
    placeRead rq pl 64
  pure (ls.foldr (fun v a => v + 2 ^ 512 * a) 0 / 256 ^ (pa % 64) % 256 ^ n)

/-- The mint block at `pa`: a line of descriptors none of which MINTEN loads is not read (R136). -/
def readMint (rq : Rq) (pa : Nat) (en : BitVec 16) : HM Nat := do
  let ls ← (List.range 24).mapM fun i =>
    if i < 8 && fieldOf en (2 * i) 2 = 0 then pure 0
    else do
      let pl ← physical rq (pa + 64 * i)
      placeRead rq pl 64
  pure (ls.foldr (fun v a => v + 2 ^ 512 * a) 0)

/-- `n` bytes from `lo` lie in main memory of partition `p`. -/
def insidePartition (s : State) (p lo n : Nat) : Bool :=
  decide (lo + n ≤ 2 ^ 39) && (List.range ((lo + n - 1) / 2 ^ 36 - lo / 2 ^ 36 + 1)).all fun i =>
    s.partOf ((lo / 2 ^ 36 + i) / 2) = p

/-- Fields of a record image. -/
def recTag (r : Nat) : Word := word (imgBytes r 0 4)
def recWaitPrev (r : Nat) : Bool := r.testBit 59
def recHdr (r : Nat) : Nat := imgBytes r 8 6
def recArg (r i : Nat) : Word := word (imgBytes r (32 + 4 * i) 4)

/-- Segment descriptor `i` of a header. -/
def hdrSeg (h i : Nat) : BitVec 128 := BitVec.ofNat 128 (imgBytes h (0x80 + 16 * i) 16)

/-- Width `k` of a WIDSHAPE image. -/
def hdrWidth (h k : Nat) : Nat := imgBytes h 8 4 / 64 ^ k % 64

/-- The checks 1 to 8 of R132 in their order; 0 when all pass. `vcs` bounds NCLUSTER; `place` says whether HDR and MINTPTR lie
where they must. -/
def launchCheck (vcs : Nat) (place : Bool) (r h : Nat) : Nat :=
  let b := fun off n => imgBytes h off n
  let nc := b 1 1
  let ng := b 2 1
  let mask := BitVec.ofNat 16 (b 4 2)
  let w := fun k => hdrWidth h k
  let code := hdrSeg h 0
  let lim1 := segLimit (hdrSeg h 1)
  if imgBytes r 4 4 / 2 ^ 28 ≠ 1 || imgBytes r 4 4 % 2 ^ 27 ≠ 0 || imgBytes r 14 2 ≠ 0 || imgBytes r 16 16 ≠ 0 || b 0 1 ≠ 1 ||
      b 0x4A 0x36 ≠ 0 || b 8 4 / 2 ^ 30 ≠ 0 || b 0x28 4 / 2 ^ 11 ≠ 0 || b 0x38 4 / 2 ^ 21 % 8 ≠ 0 || b 0x3C 4 / 2 ^ 25 ≠ 0 ||
      b 0x3C 4 / 2 % 1024 ≠ 0 then 1
  else if recHdr r % 64 ≠ 0 || b 0x40 8 % 64 ≠ 0 || !place then 2
  else if nc = 0 || vcs < nc || ng = 0 || 64 < ng || mask = 0 || 1 < b 3 1 || 1 < b 6 1 || 2 < b 7 1 then 3
  else if ((List.range 5).any fun k => decide (32 < w k)) || 64 < ((List.range 5).map w).sum then 4
  else if segType code ≠ 1 || !segValid false nc code || !(List.range 7).all (fun i => segValid false nc (hdrSeg h (i + 1))) then 5
  else if b 0xC 4 % 2 ≠ 0 || segLimit code ≤ b 0xC 4 then 6
  else if b 0x24 4 % 16 ≠ 0 || lim1 < b 0x20 4 + 16 * ng * onesBelow mask 16 * b 0x24 4 then 7
  else if b 6 1 = 1 && (b 0x18 4 = 0 || (b 7 1 = 2 && b 0x1C 4 = 0)) then 8
  else 0

/-- The launch that a record, its header and its mint block describe; the root's STALLEN and STALLMSG are read here (R176). -/
def makeLaunch (root : Cluster) (ks : List Nat) (r h m : Nat) : Launch :=
  let b := fun off n => imgBytes h off n
  let w := fun off => word (b off 4)
  let en := BitVec.ofNat 16 (b 0x48 2)
  let c := setMintBlock (fun i => if i < 128 && !bitOf en (i / 8) then 0 else word (imgBytes m (4 * i) 4)) {}
  { tag := recTag r, clusters := ks, nc := b 1 1, ng := b 2 1, rotmode := b 3 1 = 1, slotmask := BitVec.ofNat 16 (b 4 2)
    place := b 6 1, dmode := b 7 1, widshape := w 8, entry := w 0xC, widbase := BitVec.ofNat 64 (b 0x10 8), ntask := b 0x18 4
    bsize := b 0x1C 4, stkbase := w 0x20, stksize := w 0x24, fmtdef := w 0x28, tvec := w 0x2C, srkeyLo := w 0x30
    srkeyHi := w 0x34, segtab := w 0x38, msgvec := w 0x3C, mintptr := BitVec.ofNat 64 (b 0x40 8), minten := en
    segs := forUp 0 8 [] fun i t => smSet 0 t i (hdrSeg h i), args := forUp 0 8 [] fun i t => smSet 0 t i (recArg r i)
    mint := c.mint, freq := c.freq, stallEn := root.stallEn, stallMsg := root.stallMsg }

/-! ### Completion records (R90) -/

/-- A completion record's eight words; PHASE is set when it is written. -/
def completionWords (slot status : Nat) (tag : Word) (count : BitVec 64) (err : Word) (ecause : Byte) (slotNum : Nat) : List Word :=
  [word (slot * 2 ^ 16 + status), tag, count.setWidth 32, (count >>> 32).setWidth 32, err,
    word (ecause.toNat * 2 ^ 24 + slotNum), 0, 0]

/-- A completion record takes its place in its queue's order. -/
def postCompletion (d v q : Nat) (ws : List Word) (s : State) : State :=
  (modAp d v (fun x => { x with held := smMod [] x.held q fun l => l ++ [ws] }) s).push (.completionRecordWrite d v q)

/-- The record of a bursar launch at LBCOMP of cluster `c`, with its message (R147). What its PHASE and SLOT hold no rule says. Where its
line is held it is written later. -/
def bursarCompletion (c : Nat) (ws : List Word) (s : State) : Except Obst State :=
  let x := s.cluster c
  let pa := x.lbcompLo.toNat + x.lbcompHi.toNat * 2 ^ 32
  let free := Config.freeWord s.fresh &&& 0x80FF0000
  let s := { s with fresh := s.fresh + 1 }
  let v := ws.zipIdx.foldl (fun a w => a + w.1.toNat * 2 ^ (32 * w.2)) 0 + free.toNat
  let go : HM Unit := do
    let rq ← fun s => .ok (launchRq c s) s
    placeWrite rq (← physical rq pa) 32 v
  match go s with
  | .error (.wait o) _ => .error o
  | .ok _ s | .error _ s => .ok (clusterMessage c 2 x.lbmsg [] s)

/-- Go on with what a held line does not stop; else the event is due again in the next work cycle. -/
def orLater (e : Instr) (s : State) : Except Obst State → State
  | .ok t => t
  | .error o => (o.touch s).defer e

/-! ### Dispatch (R133) -/

/-- Virtual clusters 0 to `n` - 1 of interface `v` are resident and IDLE: where. -/
def residents (s : State) (p v n : Nat) : Option (List Nat) :=
  (List.range n).mapM fun vc => (List.range 16).find? (fun k =>
    let c := s.cluster k
    s.partOf (dieOfCluster k) = p && c.owEn && !c.owBursar && c.owVi.toNat = v && c.owVc.toNat = vc) >>= fun k =>
      if (s.cluster k).owState = 0 then some k else none

/-- The previous record of the queue has no completion record written yet. -/
def prevPending (x : Aperture) (q slot : Nat) : Bool :=
  let prev := (slot + 62) % 63
  (smGet [] x.running q).contains prev || (smGet [] x.held q).any fun ws => fieldOf (ws.getD 0 0) 16 8 = prev

/-- The launch starts on its clusters: their set-up is due (R133, R203). -/
def startLaunch (l : Launch) (s : State) : State :=
  l.clusters.zipIdx.foldl (fun s k =>
    (s.modCluster k.1 fun c =>
      { c with
        owState := 1, lnum := c.lnum + 1, launch := some { l with vc := k.2, stealWait := c.stealWait.toNat }, drainedSent := false, reports := []
        confirming := false, answers := [], closeSent := false, rootGot := [], ending := none }).push (.launchSetup k.1)) s

/-- Try the oldest record of pair `n` = 128 q + v: none when it cannot be dispatched or refused now; an obstacle when a read is held. -/
def tryPair (s : State) (p n : Nat) : Option (Except Obst State) :=
  let v := n % 128
  let q := n / 128
  match (List.range 4).find? fun d => s.partOf d = p && (s.ap d v).en with
  | none => none
  | some d =>
    let x := s.ap d v
    let slot := smGet 0 x.head q
    let r := rdBytes (s.port d).store (apKey v (4096 * q + 64 * (1 + slot))) 64
    if slot = smGet 0 x.known q || (recWaitPrev r && prevPending x q slot) then none
    else
      let rq := hostRq d s
      let inb := x.inbase.toNat * 2 ^ 23
      let took := modAp d v fun x => { x with head := smSet 0 x.head q ((slot + 1) % 63) }
      let refused := fun (s : State) (n : Nat) =>
        some (.ok (postCompletion d v q (completionWords slot 3 (recTag r) 0 (word n) 0 0) (took s)))
      match readImage rq (inb + recHdr r) 256 s with
      | .error (.wait o) _ => some (.error o)
      | .error _ s => refused s 9
      | .ok h s =>
        let mp := imgBytes h 0x40 8
        match launchCheck (x.vcnm1.toNat + 1) (decide (recHdr r + 256 ≤ 0x800000) && decide (mp + 1536 ≤ 0x800000)) r h with
        | 0 =>
          match residents s p v (imgBytes h 1 1) with
          | none => none
          | some ks =>
            (match readMint rq (inb + mp) (BitVec.ofNat 16 (imgBytes h 0x48 2)) s with
            | .error (.wait o) _ => some (.error o)
            | .error _ s => refused s 9
            | .ok m s =>
              let l := { makeLaunch (s.cluster (ks.headD 0)) ks r h m with
                vi := v, die := d, queue := q, slotNo := slot, binding := x.binding }
              let s := modAp d v (fun x => { x with running := smMod [] x.running q fun l => l ++ [slot] }) (took s)
              some (.ok (startLaunch l (s.modPart p fun x => { x with lastVq := n }))))
        | n => refused s n

/-- LAUNCH_DISPATCH: the first pair after the last dispatched one whose oldest record can go; the dispatcher looks again while it
finds one (R133). -/
def execLaunchDispatch (p : Nat) (s : State) : Host.Outcome State Fault Refusal :=
  .next <| match (List.range 2048).findSome? fun i => tryPair s p (((s.part p).lastVq + 1 + i) % 2048) with
    | some (.ok s) => s.push (.launchDispatch p)
    | some (.error o) => (o.touch s).defer (.launchDispatch p)
    | none => s

/-- BURSAR_LAUNCH: a write of LBRECHI starts the record it names on the first C clusters with BURSAR and EN (R147). With fewer, or
one not IDLE, the request is ignored. -/
def execBursarLaunch (c : Nat) (s : State) : Host.Outcome State Fault Refusal :=
  .next <|
    let x := s.cluster c
    let d := dieOfCluster c
    let p := s.partOf d
    let rq := launchRq c s
    let refused := fun (t : State) (tag : Word) (n : Nat) =>
      orLater (.bursarLaunch c) s (bursarCompletion c (completionWords 0 3 tag 0 (word n) 0 0) t)
    let held := fun (o : Obst) => (o.touch s).defer (.bursarLaunch c)
    match readImage rq (x.lbrecLo.toNat + x.lbrecHi.toNat * 2 ^ 32) 64 s with
    | .error (.wait o) _ => held o
    | .error _ s => refused s 0 9
    | .ok r s =>
      match readImage rq (recHdr r) 256 s with
      | .error (.wait o) _ => held o
      | .error _ s => refused s (recTag r) 9
      | .ok h s =>
        let mp := imgBytes h 0x40 8
        match launchCheck 16 (insidePartition s p (recHdr r) 256 && insidePartition s p mp 1536) r h with
        | 0 =>
          let ks := ((List.range 16).filter fun k =>
            s.partOf (dieOfCluster k) = p && (s.cluster k).owEn && (s.cluster k).owBursar).take (imgBytes h 1 1)
          if ks.length < imgBytes h 1 1 || ks.any fun k => (s.cluster k).owState ≠ 0 then
            s.modCluster c fun x => { x with prIgn := true }
          else match readMint rq mp (BitVec.ofNat 16 (imgBytes h 0x48 2)) s with
            | .error (.wait o) _ => held o
            | .error _ s => refused s (recTag r) 9
            | .ok m s =>
              startLaunch { makeLaunch (s.cluster (ks.headD 0)) ks r h m with bursar := true, die := d, queue := c } s
        | n => refused s (recTag r) n

/-! ### Set-up (R136, R166, R170, R234, R240) -/

/-- The used cores of cluster `c`. -/
def usedCores (l : Launch) (c : Nat) : List Nat := (List.range (16 * l.ng)).map (1024 * c + ·)

/-- The whole vault holds zero data and full bits, and every tile, escrow tile and B latch is zero (R136). -/
def clearCluster (c : Nat) (s : State) : State :=
  { s with
    vault := s.vault.filter fun e => e.1 / 2 ^ 25 ≠ c, vfull := s.vfull.filter fun e => e.1 / 2 ^ 23 ≠ c
    verr := s.verr.filter fun e => e.1 / 2 ^ 23 ≠ c
    engines := smEach {} s.engines fun k x => if k / 64 = c then { x with tiles := [], escrow := [], l0 := {}, l1 := {} } else x }

/-- The TLBs take the context of the launch and its root is read (R234, R240). -/
def loadContext (l : Launch) (c : Nat) (s : State) : State :=
  let ctx := some (l.bursar, if l.bursar then 0 else l.vi)
  let place := (s.part (s.partOf (dieOfCluster c))).place
  let w := if l.bursar then 256 else 2 * l.vi
  let s := if (s.cluster c).ctx = ctx then s
    else { s.modCluster c (fun x => { x with tlb2 := [] }) with
      cores := smEach {} s.cores fun k x => if unitOf k = c then { x with tlb := [] } else x }
  s.modCluster c fun x =>
    { x with ctx := ctx, root := (smGet 0 place (w + 1)).setWidth 64 <<< 32 ||| (smGet 0 place w).setWidth 64, walkQueue := [] }

/-- A used core at the set-up: shared CSRs from the header, the rest empty, the slot-class map under R166. -/
def setupCore (l : Launch) (s : State) (n : Nat) : State :=
  let s := s.modCore n fun x =>
    { x with
      tvec := l.tvec, srkeyLo := l.srkeyLo, srkeyHi := l.srkeyHi, segtab := l.segtab, msgvec := l.msgvec, widshape := l.widshape
      classMap := 0, counters := [], queues := [], deque := [], mailbox := [], victim := 0, stealing := false, heldSteal := none
      rxbuf := [], parkedRecv := [], sendReq := [], sendRsp := [], ports := [], inputs := [], errbits := 0, count := 0
      first := none, closing := false, done := false, got := [] }
  if bitOf l.msgvec 0 then
    let map := ownWord s n (fieldOf l.msgvec 11 14 * 2048)
    s.modCore n fun x => { x with classMap := map }
  else s

/-- The launch slots of a used core start, or take the first entries of their lists (R136, R138). -/
def startSlots (l : Launch) (s : State) (n : Nat) : State :=
  ((List.range 16).filter fun i => bitOf l.slotmask i).foldl (fun s i =>
    let k := 16 * n + i
    if l.place = 1 then
      let s := s.modSlot k fun sl => { sl with detIdx := 0 }
      (nextEntry l k s).getD s
    else startEntry l k (l.vc * l.ng * 16 * l.ranks + stackIndex l k) s) s

/-- The barriers at a launch (R170). -/
def launchBarriers (l : Launch) : SMap Barrier :=
  forUp 0 32 [] fun b m => smSet {} m b { cores := BitVec.ofNat 1024 (2 ^ (16 * l.ng) - 1), slots := l.slotmask }

/-- LAUNCH_SETUP: cores, engines, mint state, barriers and the slot-class maps, then the threads (R136). -/
def execLaunchSetup (c : Nat) (s : State) : Host.Outcome State Fault Refusal :=
  .next <| match (s.cluster c).launch with
    | none => s
    | some l =>
      let vi := (s.cluster c).owVi.toNat
      let s := if (s.cluster c).prevVi = some vi then s else clearCluster c s
      let s := loadContext l c s
      let s := s.modCluster c fun x =>
        { x with
          prevVi := some vi, rotmode := l.rotmode, rotNext := [], barriers := launchBarriers l, timers := [], heads := [], tails := []
          qlen := 0, mint := l.mint, freq := l.freq }
      let s := (List.range l.ng).foldl (fun s g => s.modEngine (64 * c + g) fun e =>
        { e with
          l0 := { e.l0 with tag := none }, l1 := { e.l1 with tag := none }, act := false, rsn := 0, arrivals := 0
          queue := [], cmd := none, io := {}, retiring := [] }) s
      let cores := usedCores l c
      cores.foldl (startSlots l) (cores.foldl (setupCore l) s)

/-! ### Drain (R140, R141) -/

/-- A slot of cluster `c` is not idle. -/
def threadsOf (s : State) (c : Nat) : List (Nat × Slot) := s.slots.filter fun e => unitOf (coreOf e.1) = c && e.2.run ≠ .idle

def coresOf (s : State) (c : Nat) : List (Nat × Core) := s.cores.filter fun e => unitOf e.1 = c
def copiesOf (s : State) (c : Nat) : List (Nat × Copy) :=
  (s.bulk.filter fun e => e.1 / 64 = c).flatMap fun e => e.2.copies.map fun x => (e.1, x)

/-- The requests of core `n` that are not answered yet (R66). -/
def coreRequests (s : State) (n : Nat) : List Request :=
  s.requests.filter fun q => q.origin = originOf (coreRouter n) (coreEndpoint n) && q.answer.isNone

/-- A packet that is work of its launch until it is acknowledged: a remote spawn or a typed message (R140). -/
def isWork (p : Packet) : Bool := p.opcode = 0x06 || (p.opcode = 0x05 && fieldOf p.param 0 8 ≠ 0)

/-- No typed message, remote spawn or steal reply of core `n` waits anywhere: its sends are acknowledged. -/
def coreQuiet (s : State) (n : Nat) : Bool :=
  let x := s.core n
  x.heldSteal.isNone && !((coreRequests s n).any fun q => isWork q.pkt) && !x.rxbuf.any fun m => m.typ ≠ 0

/-- A deterministic list of the cluster has an entry left. -/
def entriesLeft (s : State) (l : Launch) (c : Nat) : Bool :=
  l.place = 1 && (usedCores l c).any fun n => (List.range 16).any fun i =>
    bitOf l.slotmask i && (detTask l (16 * n + i) (s.slot (16 * n + i)).detIdx).isSome

/-- Cluster `c` is drained for its launch (R140). -/
def isDrained (s : State) (c : Nat) : Bool :=
  match (s.cluster c).launch with
  | none => false
  | some l =>
    (threadsOf s c).isEmpty && ((coresOf s c).all fun e => e.2.deque.isEmpty && e.2.mailbox.isEmpty && coreQuiet s e.1) && (s.cluster c).qlen = 0 &&
      (copiesOf s c).isEmpty && !entriesLeft s l c

/-- The root of cluster `c`'s launch. -/
def rootOf (s : State) (c : Nat) : Nat := (((s.cluster c).launch.map fun l => l.clusters.headD c)).getD c

def launchClusters (s : State) (c : Nat) : List Nat := ((s.cluster c).launch.map (·.clusters)).getD []

/-- CLUSTER_DRAINED: the cluster sends DRAINED with its epoch (R141). -/
def execClusterDrained (c : Nat) (s : State) : Host.Outcome State Fault Refusal :=
  .next <|
    let x := s.cluster c
    if x.owState ≠ 1 || x.drainedSent || !isDrained s c then s
    else (s.modCluster c fun x => { x with drainedSent := true }).push (.drained (rootOf s c) c x.epoch)

/-- The root asks for confirmation when it holds a report of every cluster. -/
def startRound (root : Nat) (s : State) : State :=
  let ks := launchClusters s root
  let x := s.cluster root
  if x.confirming || x.closeSent || ks.any fun k => smGet 0 x.reports k = 0 then s
  else (s.modCluster root fun x => { x with confirming := true, answers := [] }).pushAll (ks.map Instr.confirm)

/-- DRAINED: a report reaches the root (R141). -/
def execDrained (root c epoch : Nat) (s : State) : Host.Outcome State Fault Refusal :=
  .next <|
    if (launchClusters s root).contains c then
      startRound root (s.modCluster root fun x => { x with reports := smSet 0 x.reports c (epoch + 1) })
    else s

/-- CONFIRM: the cluster answers with its drained state and epoch (R141). -/
def execConfirm (c : Nat) (s : State) : Host.Outcome State Fault Refusal :=
  .next <|
    let x := s.cluster c
    let a := 2 * x.epoch + (x.drainedSent && isDrained s c).toNat + 1
    (s.modCluster (rootOf s c) fun r => { r with answers := smSet 0 r.answers c a }).push (.confirmAnswer (rootOf s c))

/-- CONFIRM_ANSWER: with every answer in, CLOSE goes out, or the round is discarded (R141). -/
def execConfirmAnswer (root : Nat) (s : State) : Host.Outcome State Fault Refusal :=
  .next <|
    let ks := launchClusters s root
    let x := s.cluster root
    if !x.confirming || ks.any fun k => smGet 0 x.answers k = 0 then s
    else
      let good := fun k => smGet 0 x.answers k = 2 * (smGet 0 x.reports k - 1) + 2
      if ks.all good then
        (s.modCluster root fun x => { x with confirming := false, closeSent := true }).pushAll (ks.map Instr.close)
      else
        s.modCluster root fun x =>
          { x with confirming := false, answers := [], reports := x.reports.filter fun e => good e.1 }

/-! ### The done tree (R142) -/

/-- The threads of cluster `c` are discarded with what its cores and task unit hold for them (R147). -/
def discardThreads (c : Nat) (s : State) : State :=
  let s := (threadsOf s c).foldl (fun s e =>
    let s := if e.2.access.isSome then orphanWords e.1 s else s
    (disown e.1 (freeTimer e.1 (qAll e.1 (qRelease e.1) (unlist e.1 s)))).modSlot e.1 fun sl =>
      { sl with
        run := .idle, access := none, pend := 0, pv := false, chain := none, taken := [], tcb := none, handler := false, replyOwed := false
        deferred := none, deadline := none, stepDue := false, icnt := 0, faultVa := 0, reissue := false, marks := 0, relaxed := [] }) s
  let s := (coresOf s c).foldl (fun s e => s.modCore e.1 fun x =>
    { x with deque := [], heldSteal := none, stealing := false, mailbox := [], rxbuf := [], parkedRecv := [], sendReq := []
             sendRsp := [] }) s
  s.modCluster c fun x => { x with heads := [], tails := [], qlen := 0, released := [], fbHeld := [] }

/-- CLOSE: the cluster passes it to its used cores; type-0 messages that wait are discarded (R140, R142). -/
def execClose (c : Nat) (s : State) : Host.Outcome State Fault Refusal :=
  .next <| match (s.cluster c).launch with
    | none => s
    | some l =>
      let s := if (s.cluster c).ending.isSome then discardThreads c s else s
      (usedCores l c).foldl (fun s n =>
        (s.modCore n fun x => { x with closing := true, done := false, got := [], rxbuf := [] }).push (.coreDone n)) s

/-- Every write and copy of the core is performed and its matrix instructions have retired (R142). -/
def coreFinished (s : State) (n : Nat) : Bool :=
  ((List.range 16).all fun i => (s.slot (16 * n + i)).relaxed.isEmpty) &&
  !((s.bulkOf (groupOf n)).copies.any fun x => coreOf x.slot = n) &&
  !((s.engine (groupOf n)).queue.any fun x => coreOf x.slot = n) && !((s.engine (groupOf n)).cmd.any fun x => coreOf x.slot = n) &&
  !(s.engine (groupOf n)).retiring.any fun x => coreOf x.1 = n

/-- CORE_DONE: a closing core whose work is complete has its own done status (R142). -/
def execCoreDone (n : Nat) (s : State) : Host.Outcome State Fault Refusal :=
  .next <|
    if (s.core n).closing && !(s.core n).done && coreFinished s n then
      (s.modCore n fun x => { x with done := true }).push (.doneMessage n)
    else s

/-- The number of children of core `i` of a cluster in the tree, with `ng` used groups. -/
def treeChildren (ng i : Nat) : Nat :=
  let g := i / 16
  (if i % 16 = 0 then 15 else 0) + (if i % 256 = 0 then Nat.min 16 (ng - g) - 1 else 0) + (if i = 0 then (ng + 15) / 16 - 1 else 0)

/-- The parent of core `i`; none for the top, whose parent is the launch unit. -/
def treeParent (i : Nat) : Option Nat :=
  if i % 16 ≠ 0 then some (i / 16 * 16) else if i % 256 ≠ 0 then some (i / 256 * 256) else if i ≠ 0 then some 0 else none

abbrev DoneMsg := BitVec 64 × Word × Option (Nat × Byte × Nat)

/-- The combination of done messages: sum, OR, and FIRST of the lowest flat core (R142). -/
def combineDone (l : List DoneMsg) : DoneMsg :=
  l.foldl (fun a m =>
    (a.1 + m.1, a.2.1 ||| m.2.1, match a.2.2, m.2.2 with
      | some x, some y => some (if y.1 < x.1 then y else x)
      | x, y => x.or y)) (0, 0, none)

/-- A core's own done message. -/
def ownDone (s : State) (n : Nat) : DoneMsg :=
  let x := s.core n
  (x.count, x.errbits, x.first.map fun f => (flatCore s n, f.1, 16 * flatCore s n + f.2))

/-- The launch's clusters become IDLE; what their cores still hold of it is discarded, and waiting records are looked at again. -/
def releaseClusters (l : Launch) (s : State) : State :=
  l.clusters.foldl (fun s k =>
    let s := (coresOf s k).foldl (fun s e => s.modCore e.1 fun x =>
      { x with closing := false, done := false, got := [], rxbuf := [] }) s
    (s.modCluster k fun x =>
      { x with
        owState := 0, launch := none, lcancel := false, closeSent := false, confirming := false, reports := [], answers := []
        rootGot := [], ending := none, drainedSent := false, prGo := false }).push (.launchDispatch (s.partOf (dieOfCluster k)))) s

/-- The completion record is written and the launch ends (R142, R90, R147); that of a launch whose aperture has been unbound since is
discarded (R108). -/
def completeLaunch (l : Launch) (ending : Option (Nat × Byte)) (m : DoneMsg) (s : State) : Except Obst State :=
  let err := m.2.1 ||| l.errbits
  let status := match ending with
    | some e => e.1
    | none => if err &&& 3 = 0 then 0 else 1
  let cause := match ending with
    | some e => if e.1 = 2 then e.2 else ((m.2.2.map (·.2.1)).getD 0)
    | none => (m.2.2.map (·.2.1)).getD 0
  let ws := completionWords l.slotNo status l.tag m.1 err cause ((m.2.2.map (·.2.2)).getD 0)
  if l.bursar then (bursarCompletion l.queue ws s).map (releaseClusters l)
  else .ok <| releaseClusters l <|
    if (s.ap l.die l.vi).binding = l.binding && (smGet [] (s.ap l.die l.vi).running l.queue).contains l.slotNo then
      postCompletion l.die l.vi l.queue ws
        (modAp l.die l.vi (fun x => { x with running := smMod [] x.running l.queue fun q => q.erase l.slotNo }) s)
    else s

/-- DONE_MESSAGE: a node that holds its own status and every used child's forwards one message; the root completes (R142). -/
def execDoneMessage (n : Nat) (s : State) : Host.Outcome State Fault Refusal :=
  .next <|
    let s0 := s
    let x := s.core n
    let c := unitOf n
    match (s.cluster c).launch with
    | none => s
    | some l =>
      if !x.closing || !x.done || x.got.length < treeChildren l.ng (n % 1024) then s
      else
        let m := combineDone (ownDone s n :: x.got)
        let s := s.modCore n fun x => { x with closing := false }
        match treeParent (n % 1024) with
        | some p => (s.modCore (1024 * c + p) fun x => { x with got := x.got ++ [m] }).push (.doneMessage (1024 * c + p))
        | none =>
          let root := rootOf s c
          let s := s.modCluster root fun x => { x with rootGot := x.rootGot ++ [m] }
          let r := s.cluster root
          if r.rootGot.length < l.nc then s
          else orLater (.doneMessage n) s0 (completeLaunch (r.launch.getD l) r.ending (combineDone r.rootGot) s)

/-! ### STALL-ALL (R175) -/

/-- A thread parked in a full/empty wait, JOIN, MRECV or BARW without a timeout or timer. -/
def parkedForever (sl : Slot) : Bool :=
  sl.timer.isNone && sl.relaxed.isEmpty &&
  match sl.run with
  | .parked (.fullEmpty _) | .parked (.barw ..) | .parked (.mrecv _ _ _ _ _ none) => true
  | _ => false

/-- A router holds flits of a packet that a core of cluster `c` has sent, a stream's among them. -/
def meshHolds (s : State) (c : Nat) : Bool :=
  let from_ := fun (p : Packet) => p.srcDev = s.sr.devnum && p.srcEp.toNat < 16 && routerAt p.srcCol.toNat p.srcRow.toNat / 64 = c
  s.routers.any fun r => r.2.ins.any fun b =>
    b.2.flits ≠ [] && (from_ b.2.pkt || b.2.part.any fun p => from_ p.1)

/-- What core `n` has sent has been taken: its packets and its stream words (R175). -/
def coreSilent (s : State) (n : Nat) : Bool :=
  let x := s.core n
  coreQuiet s n && x.sendReq.isEmpty && x.sendRsp.isEmpty && (coreRequests s n).isEmpty && x.ports.all fun p => p.2.words = []

/-- A bank has a request of a waiting thread of cluster `c` on its way, or is to retry it. -/
def bankHolds (s : State) (c : Nat) : Bool :=
  let mine := fun (r : BankReq) => match r.asker with
    | .thread k => unitOf (coreOf k) = c
    | _ => false
  s.banks.any fun b => b.2.held.any mine || b.2.waiters.any fun r => mine r && b.2.retries.any fun q => q.1 = r.word

/-- Cluster `c` is quiescent (R175). -/
def isQuiescent (s : State) (c : Nat) : Bool :=
  ((threadsOf s c).all fun e => parkedForever e.2) && ((coresOf s c).all fun e => coreSilent s e.1) &&
    (s.cluster c).qlen = 0 && (copiesOf s c).isEmpty && !meshHolds s c && !bankHolds s c

/-- Every cluster of the launch is quiescent and a thread exists. -/
def launchQuiescent (s : State) (ks : List Nat) : Bool :=
  (ks.all fun k => isQuiescent s k) && ks.any fun k => !(threadsOf s k).isEmpty

/-- STALL_ALL: ERRBITS bit 6, TASKSTAT.STALL and the message, once until a thread runs again (R175). -/
def execStallAll (root : Nat) (s : State) : Host.Outcome State Fault Refusal :=
  .next <| match (s.cluster root).launch with
    | none => s
    | some l =>
      if l.stalled || !launchQuiescent s l.clusters then s
      else
        let n := ((l.clusters.map fun k => (threadsOf s k).length).sum)
        let s := s.modCluster root fun x =>
          { x with stall := true, launch := some { l with stalled := true, errbits := l.errbits ||| 0x40 } }
        if l.stallEn then clusterMessage root 0 l.stallMsg [clusterRead s root 0x8000, word n] s else s

end Sys2Proof.Machine
end

