-- ==== Sys2Proof/Machine/Preempt.lean ====
section
/-! DEFINITION. Pre-emption, the context save and restore (R143 to R146), LCTL.CANCEL, LOWNER and CLRST (R147). -/

namespace Sys2Proof.Machine

/-! ### Stopping a launch (R143, steps 1 to 3) -/

/-- Take back the queued command or copy that slot `k` waits to have accepted. -/
def dropQueued (k : Nat) (s : State) : State :=
  let g := groupOf (coreOf k)
  let s := s.modEngine g fun e => { e with queue := e.queue.filter fun x => x.slot ≠ k }
  s.modBulk g fun b => { b with copies := b.copies.filter fun x => x.accepted || x.slot ≠ k || x.orphan }

/-- A stopped slot: a full/empty wait, a receive, a barrier wait and every other wait that has had no effect is withdrawn and issues again;
a WAIT ends with what is left of it; other requests are awaited (R143, R393). A matrix command that its engine has taken completes.
An MCALL whose message has been sent goes on waiting for its reply, over the save (DESIGN CHOICE, log 14). -/
def stopSlot (k : Nat) (s : State) : State :=
  let again := fun (s : State) => (withdraw k s).modSlot k fun sl => { sl with reissue := true }
  match (s.slot k).run with
  | .parked w =>
    match w with
    | .fill _ | .vault | .mcall .. | .rspawn .. | .entry .. | .tlbinv .. | .cancel .. => s
    | .wait u d => completeAt k .seq (setRegAt k d (word (u - (s.cluster (unitOf (coreOf k))).cycle.toNat)) s)
    | .matrix => if (s.engine (groupOf (coreOf k))).cmd.any fun x => x.slot = k then s else again (dropQueued k s)
    | .copy => again (dropQueued k s)
    | _ => again s
  | _ => s

/-- A stopped core: its mailbox is answered EMPTY (R155), a held entry goes back to a deque, and its OPEN ports send what they
hold and suspend their routes (R145). -/
def stopCore (n : Nat) (s : State) : State :=
  let x := s.core n
  let s := s.modCore n fun x =>
    { x with mailbox := [], deque := x.deque ++ x.heldSteal.toList, heldSteal := none, stealing := false }
  let s := s.pushAll (x.mailbox.map fun m => Instr.stealReply m.1)
  x.ports.foldl (fun s p => if p.2.state = 1 then streamEnd n p.1 6 s else s) s

/-- Every cluster of the launch stops. -/
def stopClusters (ks : List Nat) (s : State) : State :=
  let s := ks.foldl (fun s k => s.modCluster k fun x => { x with owState := 2 }) s
  ks.foldl (fun s k =>
    (coresOf s k).foldl (fun s e => stopCore e.1 s) ((threadsOf s k).foldl (fun s e => stopSlot e.1 s) s)) s

/-- PREEMPT: every cluster of the launch stops; after CLOSE, or without a running launch, the request is ignored (R143). -/
def execPreempt (c : Nat) (s : State) : Host.Outcome State Fault Refusal :=
  .next <|
    let ks := launchClusters s c
    if (s.cluster c).owState ≠ 1 || ks = [] || (s.cluster (rootOf s c)).closeSent then
      s.modCluster c fun x => { x with prIgn := true }
    else
      let s := ks.foldl (fun s k => s.modCluster k fun x =>
        { x with prGo := x.prGo || k = c, launch := x.launch.map fun l => { l with errbits := l.errbits ||| 0x80 } }) s
      (stopClusters ks s).pushAll (ks.map Instr.preemptSave)

/-! ### The save area (R144, R145)

R144 gives the places of the blocks. Its core records of 8 KiB each reach over the cluster block and the engines: those of cores 512 to
1,023 stand past the vault. What lies in which word of the cluster block and of an engine's 80 KiB, a block of notes past the core
records, and the mark of a complete save are the model's (DESIGN CHOICE, log 14). -/

/-- A list of words filled up with zeros. -/
def padWords (n : Nat) (l : List Word) : List Word := (List.range n).map fun i => l.getD i 0

/-- The hidden block of a slot (R145). -/
def hiddenWords (s : State) (k : Nat) : List Word :=
  let sl := s.slot k
  [match sl.tcb with
    | some off => word (2 ^ 31 + off / 64)
    | none => 0,
   if sl.handler then
     word (2 ^ 31 + sl.replyOwed.toNat * 2 ^ 30 + sl.msg.cls.toNat * 2 ^ 27 + fieldOf sl.msg.sender 0 14)
   else 0,
   if sl.handler then word (sl.msg.seq.toNat * 2 ^ 16 + sl.msg.typ.toNat) else 0,
   sl.cyclehLatch, if sl.pv then word (2 ^ 31 + sl.pend.toNat) else 0, 0, 0, 0]

/-- The written entries of an inter-slot queue, oldest first. -/
def writtenEntries (q : List QEntry) : List Word := q.filterMap fun e => if e.res then none else e.val

/-- The 2,048 words of a core's record (R145). -/
def coreRecord (s : State) (n : Nat) : List Word :=
  let x := s.core n
  let deque := x.deque.flatMap fun e => [e.pc, e.g2, e.g3, word (e.slot.toNat + e.icnt.toNat * 16)]
  let mail := x.mailbox.flatMap fun m => [word (flatSlot s m.1), word m.2, 0, 0]
  let queues := (List.range 4).flatMap fun i =>
    let ws := writtenEntries (smGet [] x.queues i)
    padWords 8 ws ++ padWords 8 [word ws.length]
  let ports := (List.range 4).flatMap fun p =>
    let y := smGet {} x.ports p
    padWords 32 ([word (y.state.toNat + y.bound.toNat * 4 + y.words.length * 2 ^ 8 + y.lost * 2 ^ 16), y.dst] ++ y.words)
  let inputs := (List.range 4).flatMap fun i =>
    let y := smGet {} x.inputs i
    padWords 64 y.words ++
      padWords 16 [word (y.words.length + y.fin.toNat * 2 ^ 8 + y.suspended.toNat * 2 ^ 10 +
        (if y.active then flatCore s (y.sender / 4) else 0) * 2 ^ 16)]
  let rx := x.rxbuf.flatMap fun m =>
    padWords 16 ([word (2 ^ 31 + (decide (m.typ ≠ 0)).toNat * 2 ^ 30 + m.reply.toNat * 2 ^ 29 + m.cls.toNat * 2 ^ 27 +
      m.typ.toNat * 2 ^ 16 + m.words.length), m.sender, m.seq.setWidth 32] ++ m.words)
  padWords 128 deque ++ padWords 16 mail ++ queues ++ (List.range 16).map (fun i => smGet 0 x.counters i) ++
    [x.tvec, x.srkeyLo, x.srkeyHi, x.segtab, x.msgvec, x.widshape, x.classMap,
      word (x.deque.length + x.mailbox.length * 2 ^ 8)] ++
    (List.range 16).flatMap (fun i => hiddenWords s (16 * n + i)) ++ padWords 24 [] ++ ports ++ inputs ++ padWords 192 [] ++
    padWords 1024 rx

/-- Where the record of core `i` of a cluster lies. -/
def coreArea (i : Nat) : Nat := if i < 512 then 0x480000 + 8192 * i else 0x2F00000 + 8192 * (i - 512)

/-- Where the notes on core `i` lie. -/
def noteArea (i : Nat) : Nat := 0x3300000 + 2048 * i

/-- A register number, and a flag in bit `n`, of a packed word. -/
def flagAt (n : Nat) (b : Bool) : Nat := b.toNat * 2 ^ n

/-- What the records do not hold of a slot: a deferred MEMERR, a pending DEADLINE, an armed step, the wait of an MCALL with its
instruction, the handled message's caller, and the place in its deterministic list. -/
def slotNote (sl : Slot) : List Word :=
  let call := match sl.run with
    | .parked (.mcall id d b cnt) => [id + 2 ^ 31, d.toNat + b.toNat * 2 ^ 8 + cnt * 2 ^ 16]
    | _ => [0, 0]
  let memerr := match sl.deferred with
    | some (c, more) => c.toNat + flagAt 5 more + 2 ^ 31
    | none => 0
  let dead := match sl.deadline with
    | some t => t.toNat * 2 ^ 8 + 2 ^ 30
    | none => 0
  padWords 8 [word (memerr + dead + flagAt 29 sl.stepDue + flagAt 28 sl.yielding + flagAt 27 sl.chain.isSome), word (call.getD 0 0),
    word (call.getD 1 0), sl.pc, word (sl.pend.toNat + sl.irLen * 2 ^ 16), word sl.msg.caller, word sl.detIdx]

/-- The notes on a core, 512 words: its status for the done tree, its tags, who sends its streams, its slots, its messages. -/
def coreNote (s : State) (n : Nat) : List Word :=
  let x := s.core n
  let first := match x.first with
    | some (c, i) => c.toNat + i * 2 ^ 8 + 2 ^ 31
    | none => 0
  padWords 16 ([x.errbits, x.count.setWidth 32, (x.count >>> 32).setWidth 32, word first, word x.victim, x.nextTag.setWidth 32] ++
    (List.range 4).map (fun p => (smGet {} x.ports p).tag.setWidth 32) ++
    (List.range 4).map (fun i => word ((smGet {} x.inputs i).sender % 4 + flagAt 31 (smGet {} x.inputs i).active))) ++
    (List.range 16).flatMap (fun i => slotNote (s.slot (16 * n + i))) ++
    padWords 368 (x.rxbuf.flatMap fun m => [word m.caller, m.pc, m.ctl])

/-- A launch as the cluster block holds it, 80 words. -/
def launchWords (l : Launch) : List Word :=
  let owner := flagAt 0 l.bursar + l.vi * 2 ^ 1 + l.die * 2 ^ 8 + l.queue * 2 ^ 11 + l.slotNo * 2 ^ 16 + l.vc * 2 ^ 24
  let shape := l.nc + l.ng * 2 ^ 8 + flagAt 16 l.rotmode + l.place * 2 ^ 17 + l.dmode * 2 ^ 20 + flagAt 24 l.stallEn + flagAt 25 l.stalled
  padWords 16 [word owner, word l.binding, l.tag, word shape, word (l.slotmask.toNat + l.minten.toNat * 2 ^ 16), l.widshape, l.entry,
      l.widbase.setWidth 32, (l.widbase >>> 32).setWidth 32, word l.ntask, word l.bsize, l.stkbase, l.stksize, l.fmtdef, l.errbits,
      word (l.stealWait + l.stallMsg.toNat * 2 ^ 16)] ++
    padWords 8 [l.tvec, l.srkeyLo, l.srkeyHi, l.segtab, l.msgvec, l.mintptr.setWidth 32, (l.mintptr >>> 32).setWidth 32] ++
    padWords 16 (l.clusters.map word) ++
    (List.range 8).flatMap (fun i => (List.range 4).map fun j => word (fieldOf (smGet 0 l.segs i) (32 * j) 32)) ++
    (List.range 8).map (smGet 0 l.args)

/-- The launch in a cluster block. -/
def wordsLaunch (w : Nat → Word) : Launch :=
  let f := fun (i lo n : Nat) => fieldOf (w i) lo n
  let long := fun (i : Nat) => (w i).setWidth 64 ||| (w (i + 1)).setWidth 64 <<< 32
  { bursar := bitOf (w 0) 0, vi := f 0 1 7, die := f 0 8 3, queue := f 0 11 5, slotNo := f 0 16 6, vc := f 0 24 4, binding := (w 1).toNat
    tag := w 2, nc := f 3 0 8, ng := f 3 8 8, rotmode := bitOf (w 3) 16, place := f 3 17 3, dmode := f 3 20 4, stallEn := bitOf (w 3) 24
    stalled := bitOf (w 3) 25, slotmask := BitVec.ofNat 16 (f 4 0 16), minten := BitVec.ofNat 16 (f 4 16 16), widshape := w 5, entry := w 6
    widbase := long 7, ntask := (w 9).toNat, bsize := (w 10).toNat, stkbase := w 11, stksize := w 12, fmtdef := w 13, errbits := w 14
    stealWait := f 15 0 16, stallMsg := BitVec.ofNat 8 (f 15 16 8), tvec := w 16, srkeyLo := w 17, srkeyHi := w 18, segtab := w 19
    msgvec := w 20, mintptr := long 21
    clusters := (List.range (f 3 0 8)).map fun i => (w (24 + i)).toNat
    segs := forUp 0 8 [] fun i m =>
      smSet 0 m i ((List.range 4).foldl (fun (a : BitVec 128) j => putField a (32 * j) 32 (w (40 + 4 * i + j)).toNat) 0)
    args := forUp 0 8 [] fun i m => smSet 0 m i (w (72 + i)) }

/-- Member numbers as the bits of 512 words. -/
def memberWords (l : List Nat) : List Word :=
  l.foldl (fun ws n => ws.modify (n / 32) fun w => putField w (n % 32) 1 1) (List.replicate 512 0)

/-- Statements of a barrier's generation as one record of 19 words: their number, the lowest member's number and offset, the sums
(R173). -/
def statementWords (l : List (Nat × List Word × Word)) : List Word :=
  match l with
  | [] => padWords 19 []
  | a :: r =>
    let low := r.foldl (fun (m : Nat × List Word × Word) e => if e.1 < m.1 then e else m) a
    [word l.length, word low.1, low.2.2] ++ (List.range 16).map fun i =>
      word (Nat.min ((l.map fun e => (e.2.1.getD i 0).toNat).sum) 0xFFFFFFFF)

/-- Statements that give the same record. -/
def wordsStatement (w : Nat → Word) : List (Nat × List Word × Word) :=
  if w 0 = 0 then []
  else ((w 1).toNat, (List.range 16).map fun i => w (3 + i), w 2) :: List.replicate ((w 0).toNat - 1) (16384, [], 0)

/-- A barrier, 1,152 words. -/
def barrierWords (b : Barrier) : List Word :=
  padWords 1152 ((List.range 32).map (fun i => word (fieldOf b.cores (32 * i) 32)) ++
    [b.slots.setWidth 32, b.gen, b.sum0, b.sum1, b.sumLast] ++ memberWords b.arr0 ++ memberWords b.arr1 ++
    statementWords b.stm0 ++ statementWords b.stm1)

def wordsBarrier (w : Nat → Word) : Barrier :=
  let members := fun (i : Nat) => (List.range 16384).filter fun n => bitOf (w (i + n / 32)) (n % 32)
  { cores := (List.range 32).foldl (fun (a : BitVec 1024) i => putField a (32 * i) 32 (w i).toNat) 0
    slots := (w 32).setWidth 16, gen := w 33, sum0 := w 34, sum1 := w 35, sumLast := w 36, arr0 := members 37, arr1 := members 549
    stm0 := wordsStatement fun i => w (1061 + i), stm1 := wordsStatement fun i => w (1080 + i) }

/-- The cluster block, 37,888 words: owner as LOWNER shows it, the mark of a complete save and whether the vault is part of it, ready
queue, ROTMODE, the drain's epoch and reports, the launch, timers, mint state, barriers. -/
def clusterBlock (x : Cluster) (complete : Bool) : List Word :=
  let owner := flagAt 30 x.owBursar + x.owVi.toNat * 2 ^ 16 + x.owVc.toNat
  let timer := fun (t : Timer) =>
    [t.count, word (flagAt 31 t.armed + flagAt 30 t.msgwait + t.typ.toNat), word (t.owner % 16384), 0]
  padWords 16 ([word owner, word (flagAt 31 complete + flagAt 30 x.prVault), word x.qlen, ofBit 32 (rotWritten x)] ++
      (List.range 4).map (fun p => word (smGet 0 x.heads p)) ++ (List.range 4).map (fun p => word (smGet 0 x.tails p)) ++
      [word x.epoch, word x.drainedSent.toNat]) ++
    padWords 80 ((x.launch.map launchWords).getD []) ++ padWords 32 ((List.range 16).map fun k => word (smGet 0 x.reports k)) ++
    padWords 128 ((List.range 16).flatMap fun t => timer (smGet {} x.timers t)) ++
    padWords 768 ((List.range 128).map (smGet 0 x.mint) ++ (List.range 256).map (smGet 0 x.freq)) ++
    (List.range 32).flatMap fun b => barrierWords (smGet {} x.barriers b)

/-- A B latch, 272 words. -/
def latchWords (l : Latch) : List Word :=
  padWords 272 ((List.range 256).map (fun i => word (fieldOf l.elems (32 * i) 32)) ++
    (List.range 8).map (fun i => word (fieldOf l.scales (32 * i) 32)) ++
    [match l.tag with
      | some (f, k) => word (f + k * 2 ^ 8 + 2 ^ 31)
      | none => 0])

def wordsLatch (w : Nat → Word) : Latch :=
  { elems := (List.range 256).foldl (fun (a : BitVec 8192) i => putField a (32 * i) 32 (w i).toNat) 0
    scales := (List.range 8).foldl (fun (a : BitVec 256) i => putField a (32 * i) 32 (w (256 + i)).toNat) 0
    tag := if bitOf (w 264) 31 then some (fieldOf (w 264) 0 8, fieldOf (w 264) 8 16) else none }

/-- An engine, 80 KiB: the tiles, the escrow tile, the latches, the A scale register, ACT, ring arrival count, ring step number. -/
def engineWords (e : Engine) : List Word :=
  padWords 20480 ((List.range 16384).map (smGet 0 e.tiles) ++ (List.range 256).map (smGet 0 e.escrow) ++ latchWords e.l0 ++
    latchWords e.l1 ++ (List.range 8).map (fun i => word (fieldOf e.scaleA (32 * i) 32)) ++ [ofBit 32 e.act, e.arrivals, e.rsn])

/-- A store of words from its first `n` words. -/
def wordStore (w : Nat → Word) (n : Nat) : SMap Word := ((List.range n).map fun i => (i, w i)).filter fun e => e.2 ≠ 0

/-- An engine from its words: nothing is queued. -/
def wordsEngine (w : Nat → Word) : Engine :=
  { tiles := wordStore w 16384, escrow := wordStore (fun i => w (16384 + i)) 256, l0 := wordsLatch fun i => w (16640 + i)
    l1 := wordsLatch fun i => w (16912 + i)
    scaleA := (List.range 8).foldl (fun (a : BitVec 256) i => putField a (32 * i) 32 (w (17184 + i)).toNat) 0
    act := bitOf (w 17192) 0, arrivals := w 17193, rsn := w 17194 }

/-- Write words from a physical address on, `n` lines of them. -/
def writeLines (rq : Rq) : Nat → Nat → List Word → HM Unit
  | 0, _, _ => pure ()
  | n + 1, pa, ws => do
    let pl ← physical rq pa
    placeWrite rq pl 64 (wordsNat (ws.take 16))
    writeLines rq n (pa + 64) (ws.drop 16)

def writeWords (rq : Rq) (pa : Nat) (ws : List Word) : HM Unit := writeLines rq ((ws.length + 15) / 16) pa ws

/-- `n` words from a physical address on. -/
def readWords (rq : Rq) (pa n : Nat) : HM (List Word) := do
  let v ← readImage rq pa (4 * n)
  pure ((List.range n).map fun i => word (imgBytes v (4 * i) 4))

/-- The full/empty bits of words 32j to 32j + 31 of a vault. -/
def fullWord (s : State) (c j : Nat) : Word := bitsOf 32 ((List.range 32).filter fun i => vFullOf s (vKey c 0 / 4 + 32 * j + i))

/-- Steps 4 and 5 of R143 for cluster `c`; with its last write the save is complete. -/
def saveCluster (c : Nat) : HM Unit := do
  let s ← get
  let x := s.cluster c
  let rq := launchRq c s
  let base := x.lsave.toNat * 2 ^ 26
  writeWords rq (base + 0x880000) (clusterBlock x false)
  writeWords rq base ((List.range 16384).flatMap fun i => (List.range 72).map (recordWord (s.slot (16384 * c + i))))
  (List.range 1024).forM fun i => do
    writeWords rq (base + coreArea i) (coreRecord s (1024 * c + i))
    writeWords rq (base + noteArea i) (coreNote s (1024 * c + i))
  (List.range 64).forM fun g => writeWords rq (base + 0x900000 + 81920 * g) (engineWords (s.engine (64 * c + g)))
  if x.prVault then do
    if s.verr.any fun e => e.1 / 2 ^ 23 = c && e.2 = 2 then throw (.err 1)
    writeWords rq (base + 0xE00000) ((List.range 0x800000).map fun i => vWord s (vKey c 0 / 4 + i))
    writeWords rq (base + 0x2E00000) ((List.range 0x40000).map (fullWord s c))
  writeWords rq (base + 0x880000) ((clusterBlock x true).take 16)

/-- A memory error ends the launch with STATUS FAULT and ECAUSE 0x07 (R146). -/
def faultLaunch (c : Nat) (s : State) : State :=
  let ks := launchClusters s c
  let s := s.modCluster c fun x => { x with prErr := true, prGo := false }
  let s := ks.foldl (fun s k => s.modCluster k fun x => { x with ending := some (2, 7) }) s
  (s.modCluster (rootOf s c) fun x => { x with closeSent := true }).pushAll (ks.map Instr.close)

/-- What the save leaves in a cluster: no thread and no work. -/
def emptyCluster (c : Nat) (s : State) : State :=
  let s := (coresOf s c).foldl (fun s e => s.modCore e.1 fun x =>
    { icache := x.icache, tlb := x.tlb, stamp := x.stamp, halt := x.halt, step := x.step, brkhalt := x.brkhalt, sslot := x.sslot
      brkhit := x.brkhit, bslot := x.bslot }) s
  { s with slots := s.slots.filter fun e => unitOf (coreOf e.1) ≠ c }

/-- An event brings something to cluster `c`'s part of its launch. -/
def bringsTo (c : Nat) (e : Instr) : Bool :=
  match e with
  | .messageArrive n _ | .remoteSpawn n .. | .stealRequest n _ | .streamDataArrive n .. | .streamForcedClose n _ => unitOf n = c
  | .stealReply k | .replyArrival k .. | .handlerStart k => unitOf (coreOf k) = c
  | .taskReleaseRequest u _ => u = c
  | _ => false

/-- Nothing of the launch is in progress in cluster `c` or on its way there: every thread is stopped at an instruction boundary, replies
have come, copies have ended, what was sent has been acknowledged, and streams have been suspended (R143, steps 1 to 3). -/
def settled (s : State) (c : Nat) : Bool :=
  ((threadsOf s c).all fun e => e.2.relaxed.isEmpty && match e.2.run with
    | .parked (.mcall ..) => true
    | .parked _ | .busy => false
    | _ => true) &&
  (copiesOf s c).isEmpty && (s.engines.all fun e => e.1 / 64 ≠ c || (e.2.cmd.isNone && e.2.queue.isEmpty && e.2.retiring.isEmpty)) &&
  ((coresOf s c).all fun e => e.2.sendReq.isEmpty && e.2.sendRsp.isEmpty && (coreRequests s e.1).isEmpty && e.2.heldSteal.isNone) &&
  (s.cluster c).released.isEmpty && !meshHolds s c && !(s.due ++ s.later).any (bringsTo c)

/-- Copies still running are cancelled with the pre-empted code (R143, step 3). -/
def stopCopies (c : Nat) (s : State) : State :=
  ((copiesOf s c).filter fun e => e.2.stopCode.isNone && e.2.ending.isNone).foldl (fun s e =>
    (modCopy e.1 e.2.id (fun x => { x with stopCode := some cvPREEMPTED }) s).push (.copyComplete e.1 e.2.id)) s

/-- PREEMPT_SAVE: when every cluster of the launch has stopped, the cluster is saved (R143). -/
def execPreemptSave (c : Nat) (s : State) : Host.Outcome State Fault Refusal :=
  .next <|
    if (s.cluster c).owState ≠ 2 || (s.cluster c).ending.isSome then s
    else
      let s := stopCopies c s
      if !(launchClusters s c).all (settled s) then s.defer (.preemptSave c)
      else match saveCluster c s with
        | .error (.wait o) _ => (o.touch s).defer (.preemptSave c)
        | .error _ s => faultLaunch c s
        | .ok _ s =>
          emptyCluster c (s.modCluster c fun x =>
            { x with owState := 3, prGo := false, timers := [], heads := [], tails := [], qlen := 0 })

/-! ### Restore (R146) -/

/-- Two records of one launch. -/
def sameLaunch (a b : Launch) : Bool :=
  a.bursar = b.bursar && a.vi = b.vi && a.die = b.die && a.queue = b.queue && a.slotNo = b.slotNo

/-- The clusters that hold a launch. -/
def holders (s : State) (l : Launch) : List Nat :=
  (List.range 16).filter fun k => match (s.cluster k).launch with
    | some x => sameLaunch l x
    | none => false

/-- A launch that is saved, or is being restored, ends: COUNT 0 and ERRBITS bit 7 (R146, R147). -/
def endSaved (l : Launch) (ending : Nat × Byte) (s : State) : Except Obst State :=
  let ks := holders s l
  let s := ks.foldl (fun s k => emptyCluster k (s.modCluster k fun x => { x with prRestore := false, timers := [] })) s
  completeLaunch { l with clusters := ks, errbits := l.errbits ||| 0x80 } (some ending) (0, 0, none) s

/-- A slot from its record, its hidden block and its note. -/
def restoreSlot (l : Launch) (rec hid note : Nat → Word) : Slot :=
  let sl := (List.range 72).foldl (fun sl i => setRecordWord sl i (rec i)) ({ sg := smSet 0 [] 0 (smGet 0 l.segs 0) } : Slot)
  let w := hid 1
  let flags := note 0
  let call := fieldOf (rec 70) 26 3 = 2 && bitOf (note 1) 31
  let sl : Slot :=
    { sl with
      tcb := if bitOf (hid 0) 31 then some (fieldOf (hid 0) 0 19 * 64) else none
      handler := bitOf w 31, replyOwed := bitOf w 30
      msg := { cls := BitVec.ofNat 2 (fieldOf w 27 2), sender := word (fieldOf w 0 14), seq := BitVec.ofNat 16 (fieldOf (hid 2) 16 16)
               typ := BitVec.ofNat 8 (fieldOf (hid 2) 0 8), reply := bitOf w 30, caller := (note 5).toNat }
      cyclehLatch := hid 3, pv := bitOf (hid 4) 31
      pend := if bitOf (hid 4) 31 then BitVec.ofNat 16 (fieldOf (hid 4) 0 16) else 0
      deferred := if bitOf flags 31 then some (BitVec.ofNat 5 (fieldOf flags 0 5), bitOf flags 5) else none
      deadline := if bitOf flags 30 then some (BitVec.ofNat 4 (fieldOf flags 8 4)) else none
      stepDue := bitOf flags 29, yielding := bitOf flags 28, detIdx := (note 6).toNat }
  if call then
    { sl with
      run := .parked (.mcall (fieldOf (note 1) 0 16) (BitVec.ofNat 5 (note 2).toNat) (BitVec.ofNat 5 (fieldOf (note 2) 8 5)) (fieldOf (note 2) 16 4))
      chain := if bitOf flags 27 then some (rec 0) else none, pc := note 3, pend := BitVec.ofNat 16 (fieldOf (note 4) 0 16)
      irLen := fieldOf (note 4) 16 8, reissue := false }
  else sl

/-- The physical core of the launch's flat core `n`, in the clusters `ks`. -/
def physCore (ks : List Nat) (n : Nat) : Nat := 1024 * ks.getD (n / 1024) 0 + n % 1024

/-- A core from its record and its note; `ks` are the launch's clusters as they were. -/
def restoreCore (ks : List Nat) (c : Nat) (now : Core) (r e : Nat → Word) : Core :=
  let words := fun (i n : Nat) => (List.range n).map fun j => r (i + j)
  let nd := Nat.min 32 (fieldOf (r 231) 0 6)
  let nm := Nat.min 4 (fieldOf (r 231) 8 3)
  { icache := now.icache, tlb := now.tlb, stamp := now.stamp, halt := now.halt, step := now.step, brkhalt := now.brkhalt
    sslot := now.sslot, brkhit := now.brkhit, bslot := now.bslot
    errbits := e 0, count := (e 1).setWidth 64 ||| (e 2).setWidth 64 <<< 32, victim := (e 4).toNat, nextTag := (e 5).setWidth 16
    first := if bitOf (e 3) 31 then some (BitVec.ofNat 8 (fieldOf (e 3) 0 8), fieldOf (e 3) 8 4) else none
    deque := (List.range nd).map fun i =>
      { pc := r (4 * i), g2 := r (4 * i + 1), g3 := r (4 * i + 2), slot := BitVec.ofNat 4 (fieldOf (r (4 * i + 3)) 0 4)
        icnt := BitVec.ofNat 6 (fieldOf (r (4 * i + 3)) 4 6) }
    mailbox := (List.range nm).map fun i => (16384 * c + fieldOf (r (128 + 4 * i)) 0 14, (r (129 + 4 * i)).toNat)
    queues := forUp 0 4 [] fun i m =>
      smSet [] m i ((words (144 + 16 * i) (Nat.min 8 (r (152 + 16 * i)).toNat)).map fun w => { val := some w })
    counters := forUp 0 16 [] fun i m => smSet 0 m i (r (208 + i))
    tvec := r 224, srkeyLo := r 225, srkeyHi := r 226, segtab := r 227, msgvec := r 228, widshape := r 229, classMap := r 230
    -- an OPEN port holds no route: its next word opens one again (R145)
    ports := forUp 0 4 [] fun p m =>
      let w := r (384 + 32 * p)
      smSet {} m p
        { state := BitVec.ofNat 2 (fieldOf w 0 2), bound := bitOf w 2, dst := r (385 + 32 * p)
          words := words (386 + 32 * p) (Nat.min 16 (fieldOf w 8 5)), lost := fieldOf w 16 16
          resume := fieldOf w 0 2 = 1, tag := (e (6 + p)).setWidth 16 }
    inputs := forUp 0 4 [] fun i m =>
      let w := r (576 + 80 * i)
      smSet {} m i
        { words := words (512 + 80 * i) (Nat.min 64 (fieldOf w 0 7)), fin := BitVec.ofNat 2 (fieldOf w 8 2), suspended := bitOf w 10
          active := bitOf (e (10 + i)) 31, sender := if bitOf (e (10 + i)) 31 then 4 * physCore ks (fieldOf w 16 14) + fieldOf (e (10 + i)) 0 2 else 0 }
    rxbuf := (List.range 64).filterMap fun i =>
      let w := r (1024 + 16 * i)
      if bitOf w 31 then
        some
          { typ := if bitOf w 30 then BitVec.ofNat 8 (fieldOf w 16 8) else 0, reply := bitOf w 29
            cls := BitVec.ofNat 2 (fieldOf w 27 2), sender := r (1025 + 16 * i), seq := BitVec.ofNat 16 (r (1026 + 16 * i)).toNat
            words := words (1027 + 16 * i) (Nat.min 8 (fieldOf w 0 4)), caller := (e (144 + 3 * i)).toNat, pc := e (145 + 3 * i)
            ctl := e (146 + 3 * i) }
      else none }

/-- The vault of cluster `c` from its save. -/
def restoreVault (c base : Nat) (rq : Rq) : HM Unit := do
  let bytes ← readImage rq (base + 0xE00000) 0x2000000
  let full ← readImage rq (base + 0x2E00000) 0x100000
  modify fun s =>
    { s with
      vault := smBlock (vKey c 0) (natBytes bytes 0x2000000) s.vault
      vfull := (s.vfull.filter fun e => decide (e.1 / 2 ^ 23 < c)) ++
        (((List.range 0x800000).filter fun i => !full.testBit i).map fun i => (vKey c 0 / 4 + i, false)) ++
          s.vfull.filter fun e => decide (c < e.1 / 2 ^ 23)
      verr := s.verr.filter fun e => e.1 / 2 ^ 23 ≠ c }

/-- The blocks of a save area, each as its words. -/
structure SaveImage where
  cluster : List Word
  slots : List (List Word)
  cores : List (List Word)
  notes : List (List Word)
  engines : List (List Word)

/-- Read a save area whose cluster block is `b`. -/
def readSave (rq : Rq) (base : Nat) (b : List Word) : HM SaveImage := do
  let slots ← (List.range 16384).mapM fun i => readWords rq (base + 288 * i) 72
  let cores ← (List.range 1024).mapM fun i => readWords rq (base + coreArea i) 2048
  let notes ← (List.range 1024).mapM fun i => readWords rq (base + noteArea i) 512
  let engines ← (List.range 64).mapM fun g => readWords rq (base + 0x900000 + 81920 * g) 20480
  pure { cluster := b, slots := slots, cores := cores, notes := notes, engines := engines }

/-- A task whose faulting instruction is to be issued again is RUNNING (R159). -/
def taskResumed (c k : Nat) (s : State) : State :=
  match (s.slot k).tcb with
  | some off => if (s.slot k).reissue && tcbStatus s c off = 6 then setTcbStatus c off 3 s else s
  | none => s

/-- Put a save into cluster `c`: the reverse of R143, steps 5 to 1. -/
def putSave (c : Nat) (l : Launch) (m : SaveImage) (s : State) : State :=
  let at_ := fun (ws : List Word) (i : Nat) => ws.getD i 0
  let s := emptyCluster c s
  let s := (m.cores.zip m.notes).zipIdx.foldl (fun s e => s.modCore (1024 * c + e.2) fun now =>
    restoreCore l.clusters c now (at_ e.1.1) (at_ e.1.2)) s
  let s := m.slots.zipIdx.foldl (fun s e => s.modSlot (16384 * c + e.2) fun _ =>
    restoreSlot l (at_ e.1) (fun w => (m.cores.getD (e.2 / 16) []).getD (232 + 8 * (e.2 % 16) + w) 0)
      fun w => (m.notes.getD (e.2 / 16) []).getD (16 + 8 * (e.2 % 16) + w) 0) s
  let s := m.engines.zipIdx.foldl (fun s e => s.modEngine (64 * c + e.2) fun _ => wordsEngine (at_ e.1)) s
  let w := at_ m.cluster
  let s := loadContext l c (s.modCluster c fun x =>
    { x with
      launch := some l, owState := 2, prRestore := true, prevVi := some x.owVi.toNat, qlen := (w 2).toNat, rotmode := bitOf (w 3) 0
      rotNext := [], heads := forUp 0 4 [] fun p r => smSet 0 r p (w (4 + p)).toNat, tails := forUp 0 4 [] fun p r => smSet 0 r p (w (8 + p)).toNat, released := []
      epoch := (w 12).toNat, drainedSent := bitOf (w 13) 0, confirming := false, answers := [], closeSent := false, rootGot := []
      reports := forUp 0 16 [] fun k r => smSet 0 r k (w (96 + k)).toNat
      timers := forUp 0 16 [] fun t r => smSet {} r t
        { count := w (128 + 4 * t), armed := bitOf (w (129 + 4 * t)) 31, msgwait := bitOf (w (129 + 4 * t)) 30
          typ := BitVec.ofNat 8 (w (129 + 4 * t)).toNat
          owner := if bitOf (w (129 + 4 * t)) 31 then 16384 * c + fieldOf (w (130 + 4 * t)) 0 14 else 0 }
      mint := wordStore (fun i => w (256 + i)) 128, freq := wordStore (fun i => w (384 + i)) 256
      barriers := forUp 0 32 [] fun b r => smSet {} r b (wordsBarrier fun i => w (1024 + 1152 * b + i)) })
  (threadsOf s c).foldl (fun s e => taskResumed c e.1 s) s

/-- Number `k` of a slot, with the launch's old clusters replaced by the new ones. -/
def moveSlot (old new : List Nat) (k : Nat) : Nat :=
  match old.idxOf? (k / 16384) with
  | some i => 16384 * (new.getD i (k / 16384)) + k % 16384
  | none => k

def moveCore (old new : List Nat) (n : Nat) : Nat := moveSlot old new (16 * n) / 16

/-- A message's sending core with the tag of its packet. -/
def moveMessage (old new : List Nat) (m : Message) : Message :=
  if m.device then m else { m with caller := moveCore old new (m.caller / 2 ^ 16) * 2 ^ 16 + m.caller % 2 ^ 16 }

/-- The senders that a core's messages and inputs name follow their launch. -/
def moveSenders (old new : List Nat) (x : Core) : Core :=
  { x with
    rxbuf := x.rxbuf.map (moveMessage old new)
    inputs := x.inputs.map fun i => (i.1, { i.2 with sender := 4 * moveCore old new (i.2.sender / 4) + i.2.sender % 4 }) }

/-- The launch runs again when every cluster of it has been restored (R146). -/
def resumeLaunch (l : Launch) (s : State) : State :=
  match (List.range l.nc).mapM fun vc => (holders s l).find? fun k =>
      (s.cluster k).prRestore && ((s.cluster k).launch.map (·.vc)) = some vc with
  | none => s
  | some ks =>
    let s := ks.foldl (fun s k => s.modCluster k fun x =>
      { x with
        owState := 1, prRestore := false, launch := x.launch.map fun y => { y with clusters := ks }
        reports := ks.zipIdx.foldl (fun m e => smSet 0 m e.1 (smGet 0 x.reports (l.clusters.getD e.2 e.1))) [] }) s
    let s := ks.foldl (fun s k =>
      (coresOf s k).foldl (fun s e => s.modCore e.1 (moveSenders l.clusters ks)) s) s
    ks.foldl (fun s k =>
      (threadsOf s k).foldl (fun s e => s.modSlot e.1 fun sl => { sl with msg := moveMessage l.clusters ks sl.msg }) s) s

/-- The vault and the tiles as a restore finds them: cleared when another interface had the cluster before (R136), then as saved. -/
def vaultBack (c base : Nat) (rq : Rq) (saved : Bool) : HM Unit := do
  modify fun s => if (s.cluster c).prevVi = some (s.cluster c).owVi.toNat then s else clearCluster c s
  if saved then restoreVault c base rq

/-- RESTORE: an IDLE cluster whose LOWNER is the saved owner takes the save at LSAVE; otherwise ERR is set (R146, R177). -/
def execRestore (c : Nat) (s : State) : Host.Outcome State Fault Refusal :=
  .next <|
    let x := s.cluster c
    let bad := fun (s : State) => s.modCluster c fun x => { x with prErr := true }
    let held := fun (o : Obst) => (o.touch s).defer (.restore c)
    let rq := launchRq c s
    let base := x.lsave.toNat * 2 ^ 26
    if x.owState ≠ 0 then bad s
    else match readWords rq (base + 0x880000) 37888 s with
      | .error (.wait o) _ => held o
      | .error _ s => bad s
      | .ok b s0 =>
        let w := b.getD 0 0
        if !bitOf (b.getD 1 0) 31 || bitOf w 30 ≠ x.owBursar || fieldOf w 16 7 ≠ x.owVi.toNat || fieldOf w 0 4 ≠ x.owVc.toNat then bad s0
        else
          let l := wordsLaunch fun i => b.getD (16 + i) 0
          let fail := fun (t : State) => orLater (.restore c) s (endSaved l (2, 7) (bad t))
          match readSave rq base b s0 with
          | .error (.wait o) _ => held o
          | .error _ t => fail t
          | .ok m s1 =>
            if m.slots.any fun r => 3 < fieldOf (r.getD 70 0) 26 3 then bad s1
            else match vaultBack c base rq (bitOf (b.getD 1 0) 30) s1 with
              | .error (.wait o) _ => held o
              | .error _ t => fail t
              | .ok _ s => resumeLaunch l (putSave c l m s)

/-! ### The launch registers (R147) -/

/-- CANCEL: the launch's threads are discarded and it closes with ERRBITS bit 0; a saved launch ends at once (R147). -/
def execCancel (c : Nat) (s : State) : Host.Outcome State Fault Refusal :=
  .next <|
    let x := s.cluster c
    let e : Nat × Byte := if x.lcause = 0 then (4, 0) else (2, x.lcause)
    match x.launch with
    | none => s.modCluster c fun x => { x with lcancel := false }
    | some l =>
      if x.owState = 3 || x.prRestore then orLater (.cancel c) s (endSaved l e s)
      else if (s.cluster (rootOf s c)).closeSent then s
      else
        let ks := l.clusters
        let s := stopClusters ks s
        let s := ks.foldl (fun s k => stopCopies k (discardThreads k s)) s
        let s := ks.foldl (fun s k => s.modCluster k fun x =>
          { x with ending := some e, launch := x.launch.map fun l => { l with errbits := l.errbits ||| 1 } }) s
        (s.modCluster (rootOf s c) fun x => { x with closeSent := true, confirming := false }).pushAll (ks.map Instr.close)

/-- LOWNER_WRITE: ignored while RUN or STOPPING; a SAVED cluster becomes IDLE; the dispatcher looks again (R147, R133). -/
def execLownerWrite (c : Nat) (v : Word) (s : State) : Host.Outcome State Fault Refusal :=
  .next <|
    let st := (s.cluster c).owState
    if st = 1 || st = 2 then s
    else
      (s.modCluster c fun x =>
        { x with
          owEn := bitOf v 31, owBursar := bitOf v 30, owVi := BitVec.ofNat 7 (fieldOf v 16 7), owVc := BitVec.ofNat 4 v.toNat
          owState := 0, launch := none }).push (.launchDispatch (s.partOf (dieOfCluster c)))

/-- Throttle values that wait for their time, counted anew from work cycle 0 (R123). -/
def rebased (x : Cluster) : List (Nat × BitVec 4) := x.applies.map fun a => (a.1 - x.cycle.toNat, a.2)

/-- CLRST: the cluster control block, TLBs, fault buffer and ready queue take their reset values at once; RESET reads 1 until the
rest is done. THROTTLE lies outside the block (R147, R123). -/
def execClrst (c : Nat) (s : State) : Host.Outcome State Fault Refusal :=
  .next <|
    let x := s.cluster c
    if x.owState = 1 || x.owState = 2 then s.modCluster c fun x => { x with prIgn := true }
    else (s.setCluster c { k := x.k, applied := x.applied, applies := rebased x, clrst := true }).push (.clusterResetDone c)

/-- A packet waits for the answer. -/
def Asker.far : Asker → Bool
  | .remote .. | .packet _ => true
  | _ => false

/-- Requests at the banks of cluster `c` go with them: the packets that wait for an answer are told that it is lost (log 51). -/
def dropBanks (c : Nat) (s : State) : State :=
  let mine := s.banks.filter fun b => b.1 / 2048 = c
  ((mine.flatMap fun b => b.2.held ++ b.2.waiters).filter (·.asker.far)).foldl
    (fun s r => answer r.asker r.op.isRead (.error 4) 0 s)
    { s with banks := s.banks.filter fun b => b.1 / 2048 ≠ c, hot := s.hot.filter fun b => b / 2048 ≠ c }

/-- CLUSTER_RESET_DONE: cores, engines and vault are reset, and RESET reads 0 (R147, R206, R14). -/
def execClusterResetDone (c : Nat) (s : State) : Host.Outcome State Fault Refusal :=
  .next <|
    if !(s.cluster c).clrst then s
    else
      let s := clearCluster c s
      dropBanks c { s.modCluster c (fun x => { x with clrst := false, cycle := 0, applies := rebased x, rpos := 0, idleDue := false }) with
        cores := s.cores.filter fun e => unitOf e.1 ≠ c, slots := s.slots.filter fun e => unitOf (coreOf e.1) ≠ c
        engines := s.engines.filter fun e => e.1 / 64 ≠ c, bulk := s.bulk.filter fun e => e.1 / 64 ≠ c }

end Sys2Proof.Machine
end

