-- ==== Sys2Proof/Machine/Firmware.lean ====
section
/-! DEFINITION. What firmware does to a cluster and a die: the fault buffer and FBWAKE (R197, R198), halt, resume and step (R199,
R200), throttle, thermal alerts, PWRALERTN and stack temperature (R13, R16, R122 to R124), the error log's posts (R125), and
the I3C controller (R129). -/

namespace Sys2Proof.Machine

/-! ### The fault buffer (R197, R198) -/

/-- Accept held records while the ring has room, in flat slot order after the last slot accepted. -/
def acceptHeld (c : Nat) : Nat → State → State
  | 0, s => s
  | n + 1, s =>
    let x := s.cluster c
    if 256 ≤ (x.fbHead - x.fbTail).toNat then s
    else
      let dist := fun (r : FaultRec) => (r.slot + 16383 - x.fbLast) % 16384
      match x.fbHeld with
      | [] => s
      | r :: rs =>
        let m := rs.foldl (fun a y => if dist y < dist a then y else a) r
        acceptHeld c n (postRecord c m (s.setCluster c { x with fbHeld := x.fbHeld.erase m }))

/-- FBTAIL_WRITE: a value outside FBHEAD - 256 to FBHEAD is ignored (R197, R203). -/
def execFbtailWrite (c : Nat) (v : Word) (s : State) : Host.Outcome State Fault Refusal :=
  .next <|
    let x := s.cluster c
    let t := BitVec.ofNat 16 v.toNat
    if 256 < (x.fbHead - t).toNat then s
    else acceptHeld c x.fbHeld.length (s.setCluster c { x with fbTail := t })

def badWake (c : Nat) (s : State) : State := s.modCluster c fun x => { x with badwake := true }

/-- FBWAKE_RETRY: a FAULTED slot parks on its translation, a STOPPED slot issues again (R198, R159). -/
def execFbwakeRetry (c k : Nat) (s : State) : Host.Outcome State Fault Refusal :=
  .next <|
    let sl := s.slot k
    match sl.run with
    | .faulted =>
      let s := match sl.tcb with
        | some off => setTcbStatus c off 3 s
        | none => s
      (parkAt k (.fill sl.faultVa) s).push (.tlb2Lookup k sl.faultVa { kind := sl.faultAcc })
    | .stopped => s.modSlot k fun sl => { sl with run := .ready, reissue := false }
    | _ => badWake c s

/-- FBWAKE_KILL: the thread stops and the slot is IDLE; its task is KILLED with FCODE, the core records FIRST (R198, R142). -/
def execFbwakeKill (c k : Nat) (cause : Byte) (s : State) : Host.Outcome State Fault Refusal :=
  .next <|
    if (s.slot k).run = .idle then badWake c s
    else
      let s := qAll k (qRelease k) (stopSlot k s)
      let s := if (s.slot k).access.isSome then orphanWords k s else s
      let s := match (s.slot k).tcb with
        | some off => setTcbWord c off 7 (putField (putField (tcbWord s c off 7) 4 3 5) 8 8 cause.toNat) (errBit (coreOf k) 2 s)
        | none => s
      let s := s.modCore (coreOf k) fun x => { x with first := x.first.or (some (cause, slotIn k)), errbits := x.errbits ||| 1 }
      endThread k (s.modSlot k fun sl => { sl with marks := 0, relaxed := [] })

/-! ### Halt and step (R199, R200) -/

/-- CORE_HALT: the core issues nothing; it still takes replies and messages. -/
def execCoreHalt (n : Nat) (s : State) : Host.Outcome State Fault Refusal := .next (s.modCore n fun x => { x with halt := true })

/-- CORE_RESUME: issue resumes; its idle slots take what waits. -/
def execCoreResume (n : Nat) (s : State) : Host.Outcome State Fault Refusal :=
  .next <|
    let s := s.modCore n fun x => { x with halt := false, step := false }
    ((List.range 16).filter fun i => (s.slot (16 * n + i)).run = .idle).foldl (fun s i =>
      s.pushAll [.handlerStart (16 * n + i), .idleSlotWorkSearch (16 * n + i)]) s

/-- CORE_STEP: one instruction of SSLOT is to issue while the core stays HALTED. -/
def execCoreStep (n : Nat) (s : State) : Host.Outcome State Fault Refusal :=
  .next (if (s.core n).halt then s.modCore n fun x => { x with step := true } else s)

/-! ### Throttle and power alert (R13, R123) -/

/-- A value to apply from the first rotation at least `wait` wc away; it supersedes what would come after it (R123). -/
def applyAfter (c wait : Nat) (v : Cluster → BitVec 4) (s : State) : State :=
  s.modCluster c fun x =>
    { x with applies := (x.applies.filter fun a => decide (a.1 < x.cycle.toNat + wait)) ++ [(x.cycle.toNat + wait, v x)] }

/-- CLTHR_WRITE: the value is stored, a bursar's before a cluster's, and applied unless PWRALERTN is low (R13, R123). A CSR write reaches
the cluster in WB. -/
def execClthrWrite (c : Nat) (bursar csr : Option Word) (s : State) : Host.Outcome State Fault Refusal :=
  .next <| match bursar.or csr with
    | none => s
    | some v =>
      let s := s.modCluster c fun x => { x with k := BitVec.ofNat 4 (Nat.min 8 (fieldOf v 0 4)) }
      if s.sr.pwralertn then applyAfter c (if bursar.isSome then 32 else 39) (·.k) s else s

/-- THROTTLE_APPLY: a rotation begins with the youngest value whose time has come as APPLIED (R13, R123). -/
def execThrottleApply (c : Nat) (s : State) : Host.Outcome State Fault Refusal :=
  .next (s.modCluster c fun x =>
    let due := fun (a : Nat × BitVec 4) => decide (a.1 ≤ x.cycle.toNat)
    { x with applied := (((x.applies.filter due).getLast?).map (·.2)).getD x.applied, applies := x.applies.filter fun a => !due a })

/-- PWRALERTN_EDGE: every cluster changes APPLIED and every die logs the edge (R13, R126). A KZ-4M's carrier pulls the line low with
LEAK, FLOWLOW or VRFAULT (`cause`, in that order from bit 2), or with none of them for its power; the line stays low while one of
those bits stands (R20). -/
def execPwralertnEdge (level : Bool) (s : State) (cause : BitVec 3 := 0) : Host.Outcome State Fault Refusal :=
  .next <|
    let s := if level || !Config.module then s
      else { s with sr := { s.sr with kzmcool := s.sr.kzmcool ||| cause.setWidth 32 <<< 29 } }
    if s.sr.pwralertn = level || (level && Config.module && fieldOf s.sr.kzmcool 29 3 ≠ 0) then s
    else
      let s := { s with sr := { s.sr with pwralertn := level } }
      let s := (List.range 16).foldl (fun s c => applyAfter c 32 (fun x => if level then x.k else 8) s) s
      (List.range 4).foldl (fun s d => logRecord d 0x21 0xC1 (cornerPos d) 0 (!level).toNat s) s

/-! ### Thermal (R15, R16, R121, R122, R124) -/

/-- DIE_THERMAL_TRIP: the die stops its clocks and drives THERMTRIPN; its bridges are lost (R16). -/
def execDieThermalTrip (d : Nat) (s : State) : Host.Outcome State Fault Refusal :=
  .next <|
    let s := { s.modDie d (fun D => { D with stopped := true, trip := true }) with sr := { s.sr with thermtrip := true } }
    s.pushAll ((List.range 256).flatMap fun i => (List.range 4).filterMap fun p =>
      match neighbour (256 * d + i) p with
      | some n => if dieOfRouter n ≠ d then some (Instr.linkLost n (oppPort p)) else none
      | none => none)

/-- The maximum is at or above HIGH; it is below LOW, which acts as HIGH - 1 at or above HIGH. -/
def hotNow (t : Thermal) : Bool := decide ((8 * t.high.toNat : Int) ≤ t.maxtemp.toInt)
def coolNow (t : Thermal) : Bool :=
  let low : Int := if t.high ≤ t.low then (t.high.toNat : Int) - 1 else t.low.toNat
  decide (t.maxtemp.toInt < 8 * low)

/-- THERMAL_SAMPLE: the 64 sensors are read; HOT and COOL and their message (R122); 115 °C trips the die (R16). -/
def execThermalSample (d : Nat) (temps : List (BitVec 16)) (s : State) : Host.Outcome State Fault Refusal :=
  .next <|
    let ts := (List.range 64).map fun i => temps.getD i 0
    let best := ts.zipIdx.foldl (fun (a : BitVec 16 × Nat) x => if a.1.toInt < x.1.toInt then x else a) (ts.headD 0, 0)
    let t0 := (s.die d).therm
    let t : Thermal :=
      { t0 with
        sens := ts.zipIdx.foldl (fun m x => smSet 0 m x.2 x.1) [], valid := true, maxidx := BitVec.ofNat 6 best.2, maxtemp := best.1 }
    let t' := if t.en then { t with hot := t.hot || hotNow t, cool := t.cool || coolNow t } else t
    let s := s.modDie d fun D => { D with therm := t' }
    let s := if (t'.hot && !t0.hot) || (t'.cool && !t0.cool) then dieMessage d 0xC1 t'.msgtype [talstat t'] s else s
    if 920 ≤ best.1.toInt then s.push (.dieThermalTrip d) else s

/-- TALSTAT_CLEAR: a bit clears unless the last sample still meets its condition (R122). -/
def execTalstatClear (d : Nat) (v : Word) (s : State) : Host.Outcome State Fault Refusal :=
  .next (s.modDie d fun D =>
    let t := D.therm
    { D with therm := { t with
        hot := t.hot && !(bitOf v 31 && !(t.valid && hotNow t)), cool := t.cool && !(bitOf v 30 && !(t.valid && coolNow t)) } })

/-- STACK_TEMP_UPDATE: the reading of stack 2d + i, and whether it is above 85 °C (R124). -/
def execStackTempUpdate (d i : Nat) (temp : Byte) (s : State) : Host.Outcome State Fault Refusal :=
  .next (s.modCtl (2 * d + i % 2) fun c => { c with stkTemp := temp, stkHot := decide (85 < temp.toNat) })

/-! ### The error log's registers (R125, R126) -/

/-- ELCTL_WRITE: while EN = 1 only EN changes; a pass begins when EN is set. -/
def execElctlWrite (d : Nat) (v : Word) (s : State) : Host.Outcome State Fault Refusal :=
  .next (s.modDie d fun D =>
    let l := D.log
    if l.en then { D with log := { l with en := bitOf v 31 } }
    else
      { D with log := { l with
          en := bitOf v 31, basehi := BitVec.ofNat 4 (fieldOf v 24 4)
          log2n := BitVec.ofNat 4 (Nat.max 7 (fieldOf v 20 4)), msgtype := BitVec.ofNat 8 v.toNat
          wrap := if bitOf v 31 then false else l.wrap } })

/-- ELPOST: a write of word 7 posts the eight words, if their code is one that firmware may post. -/
def execElpost (d : Nat) (v : Word) (s : State) : Host.Outcome State Fault Refusal :=
  .next <|
    let s := s.modDie d fun D => { D with log := { D.log with post := smSet 0 D.log.post 7 v } }
    let w := fun i => smGet 0 (s.die d).log.post i
    let code := fieldOf (w 0) 16 8
    if code = 0x30 || 0x80 ≤ code then
      logWords d ((w 0).toNat % 2 ^ 30) ((List.range 7).foldl (fun a i => a + (w (i + 1)).toNat * 2 ^ (32 * i)) 0) s
    else s

/-! ### The I3C controller (R129, R20) -/

def modI3c (d : Nat) (f : I3c → I3c) (s : State) : State := s.modDie d fun D => { D with i3c := f D.i3c }

/-- I3C_GO: the role is asked for, or the transfer runs. -/
def execI3cGo (d : Nat) (s : State) : Host.Outcome State Fault Refusal :=
  .next (if (s.die d).i3c.busy then s else modI3c d (fun x => { x with go := true, busy := true }) s)

/-- I3C_ROLE_GRANT: the active controller hands the role over. -/
def execI3cRoleGrant (d : Nat) (s : State) : Host.Outcome State Fault Refusal :=
  .next (if (s.die d).i3c.go then modI3c d (fun x => { x with role := true }) s else s)

/-- The transfer ends: GO clears with DONE, and the bursar is told. -/
def i3cEnd (d : Nat) (nack err : Bool) (s : State) : State :=
  dieMessage d 0xC1 (s.die d).i3c.msgtype []
    (modI3c d (fun x => { x with go := false, busy := false, done := true, nackS := x.nackS || nack, err := x.err || err }) s)

/-- I3C_ROLE_TIMEOUT: the role was not granted within 10 ms. -/
def execI3cRoleTimeout (d : Nat) (s : State) : Host.Outcome State Fault Refusal :=
  .next (if (s.die d).i3c.go && !(s.die d).i3c.role then i3cEnd d false true s else s)

/-- Data bytes of a transfer: LEN, with 0 and 9 to 15 as 8. -/
def i3cLen (ctl : Word) : Nat := if fieldOf ctl 0 4 = 0 || 8 < fieldOf ctl 0 4 then 8 else fieldOf ctl 0 4

/-- The five bytes of a write transfer to KZMCOOL: its index, then the value (DEDUCED, log 19). -/
def coolWrite (x : I3c) : Option Word :=
  if !bitOf x.ctl 22 && i3cLen x.ctl = 5 && fieldOf x.data0 0 8 = 0x10 then
    some (word (fieldOf x.data0 8 24 + fieldOf x.data1 0 8 * 2 ^ 24))
  else none

/-- The carrier answers a transfer: it measures `cool`, whose bits 31:29 are the conditions that hold; a written 1 clears a bit whose
condition does not hold (R20, R5). -/
def carrierTurn (cool : Word) (w1c : Word) (s : State) : State :=
  let old := s.sr.kzmcool &&& ~~~w1c ||| cool
  let s := { s with sr := { s.sr with kzmcool := old &&& 0xE0000000 ||| cool &&& 0xFFFFFF } }
  if fieldOf s.sr.kzmcool 29 3 ≠ 0 && s.sr.pwralertn then s.push (.pwralertnEdge false 0) else s

/-- I3C_TRANSFER_DONE: a read places its bytes; nothing answers at 0x52 on a KZ-4P, and a KZ-4M's carrier shows KZMCOOL or clears bits of
it (R20). -/
def execI3cTransferDone (d : Nat) (nack err : Bool) (data : List Byte) (s : State) (cool : Word := 0) : Host.Outcome State Fault Refusal :=
  .next <|
    let x := (s.die d).i3c
    if !(x.go && x.role) then s
    else
      let carrier := fieldOf x.ctl 23 7 = 0x52
      let nack := nack || (carrier && !Config.module)
      let n := i3cLen x.ctl
      let s := if carrier && !nack && !err then carrierTurn cool ((coolWrite x).getD 0) s else s
      let data := if carrier && bitOf x.ctl 21 && fieldOf x.ctl 13 8 = 0x10 then natBytes s.sr.kzmcool.toNat 4 ++ data.drop 4 else data
      let put := fun (old : Word) (lo : Nat) => (List.range 4).foldl (fun (a : Word) i =>
        if lo + i < n then putField a (8 * i) 8 (data.getD (lo + i) 0).toNat else a) old
      let s := if bitOf x.ctl 22 && !nack && !err then
          modI3c d (fun x => { x with data0 := put x.data0 0, data1 := put x.data1 4 }) s
        else s
      i3cEnd d nack err s

/-- I3C_REL: the handoff ends and the role has been handed back (R129; log 46). -/
def execI3cRel (d : Nat) (s : State) : Host.Outcome State Fault Refusal :=
  .next (if (s.die d).i3c.rel then modI3c d (fun x => { x with rel := false, role := false, busy := false }) s else s)

end Sys2Proof.Machine
end

