-- ==== Sys2Proof/Machine/Issue.lean ====
section
/-! DEFINITION. Which slot a core issues in a work cycle (R178 to R183, R199, R200), and what it issues: a deferred error, a
DEADLINE, a step BREAK, a failed fetch, or the instruction at pc (R184, R190, R194, R296, R392). -/

namespace Sys2Proof.Machine

/-! ### Wakes (R185 to R187) -/

/-- The condition that slot `k`'s instruction waits on holds. -/
def Cond.holds (s : State) (k : Nat) (c : Cond) : Bool :=
  let x := s.core (coreOf k)
  let sl := s.slot k
  match c with
  | .mark m => sl.marks &&& m = 0
  | .queue src dst => !queueBlocked (nowAt s (coreOf k)) x src dst
  | .order | .relaxed => sl.relaxed.isEmpty
  | .sendReq | .sendHeld => decide (x.sendReq.length < 8)
  | .sendRsp => decide (x.sendRsp.length < 8)
  | .engine => decide ((s.engine (groupOf (coreOf k))).queue.length < 16)
  | .bulk => decide ((s.bulkOf (groupOf (coreOf k))).queued < 16)
  | .relaxedLimit => decide (sl.relaxed.length < 8)
  | .stream p => decide ((smGet {} x.ports p).words.length < 16)
  | .retired => retiredAll k s
  | .quiet => quietAll k s
  | .access o => !o.blocked s

/-- Slot `k` may issue: ELIGIBLE, or parked on a condition that now holds (R178, R185). -/
def eligible (s : State) (k : Nat) : Bool :=
  let sl := s.slot k
  decide (sl.busyUntil ≤ (s.cluster (unitOf (coreOf k))).cycle.toNat) && !sl.yielding &&
    match sl.run with
    | .ready => true
    | .parked (.cond c) => c.holds s k
    | _ => false

/-! ### The slot of a work cycle (R180, R181) -/

/-- The core issues in this work cycle, whatever its slots: no throttle idle cycle, no halt, no stop. A step lets one slot issue. -/
def coreOpen (s : State) (n : Nat) : Bool :=
  let x := s.core n
  let cl := s.cluster (unitOf n)
  !cl.idleDue && (isBursar n || cl.owState ≠ 2) && (!x.halt || (x.step && x.sslot = cl.rpos))

/-- The slot that core `n` issues, and whether in a lent cycle. -/
def pickSlot (s : State) (n : Nat) : Option (Nat × Bool) :=
  let cl := s.cluster (unitOf n)
  let p := cl.rpos.toNat
  if !coreOpen s n then none
  else if eligible s (16 * n + p) then some (16 * n + p, false)
  else if cl.rotmode && !(s.core n).halt then
    ((List.range 15).map fun j => 16 * n + (p + 1 + j) % 16).find? (eligible s) |>.map (·, true)
  else none

/-- A work cycle of core `n` without an issue: a bubble, unless it is a throttle idle cycle or the core is halted (R201). -/
def bubble (n : Nat) (s : State) : State :=
  if (s.cluster (unitOf n)).idleDue || (s.core n).halt then s else count n 8 s

/-! ### Issue -/

/-- Some thread of the launch runs again: a later quiescence is a new stall (R175). -/
def clearStall (c : Nat) (s : State) : State :=
  let r := rootOf s c
  match (s.cluster r).launch with
  | some l => if l.stalled then s.modCluster r fun x => { x with launch := some { l with stalled := false } } else s
  | none => s

/-- Mark the cached lines of an instruction of `len` bytes used (R184). -/
def icTouch (n va len : Nat) (s : State) : State :=
  s.modCore n fun x =>
    { x with
      stamp := x.stamp + 1, icache := x.icache.map fun l => if l.va = va / 64 * 64 || l.va = (va + len - 1) / 64 * 64 then { l with used := x.stamp + 1 } else l }

/-- The slot's instruction word is read: its bits and length, its busy time, and the counts of R201; a step is made (R200). -/
def loadInstr (k : Nat) (lent : Bool) (bits : Word) (len : Nat) (s : State) : State :=
  let n := coreOf k
  let va := segBase (smGet 0 (s.slot k).sg 0) + (s.slot k).pc.toNat
  let x := s.core n
  let old := s.slot k
  let undo : IssueUndo :=
    { issued := smGet 0 x.counters 7, lent := smGet 0 x.counters 9, step := x.step, busyUntil := old.busyUntil, counted := old.counted }
  let s := icTouch n va len s
  let s := if (s.slot k).counted then s else count n 7 (if lent then count n 9 s else s)
  let s := if (s.core n).halt then s.modCore n fun x => { x with step := false } else s
  clearStall (unitOf n) (s.modSlot k fun sl =>
    { sl with
      ir := bits, irLen := len, busyUntil := (s.cluster (unitOf n)).cycle.toNat + 8, counted := true, undo := some undo
      reissue := sl.reissue || sl.run ≠ .ready, run := .ready })

noncomputable section

/-- The instruction that a fetched word stands for (R6, R296). -/
def instrOf (bits : Word) (len : Nat) : Instr :=
  ((if len = 2 then decode16 (bits.setWidth 16) else decode32 bits)).getD .illegalEncoding

/-- What slot `k` issues: a change of the state, and what is then executed in it. Without an instruction the work cycle is a bubble
(R201); an instruction whose fetch traps has been stepped (R200). -/
def issueSlot (k : Nat) (lent : Bool) (s : State) : State × Option Instr :=
  let s := { s with cur := k }
  let sl := s.me
  let n := coreOf k
  let stop := fun (i : Instr) => (bubble n (s.modMe fun sl => { sl with run := .ready }), some i)
  if sl.deferred.isSome then stop .deferredMemerr
  else if sl.deadline.isSome && !bitOf sl.status 0 && !sl.reissue && sl.run = .ready then stop .deadlineTrap
  else if sl.stepDue then stop .stepBreak
  else match fetchAt s k with
    | .tlbMiss va => (bubble n ((parkAt k (.fill va) s).push (.tlb2Lookup k va aFetch)), none)
    | .lineMiss va => (bubble n ((parkAt k (.fill va) s).push (.icacheFill k va)), none)
    | .stop _ => ((stop .fetchFailure).1.modCore n fun x => { x with step := false }, some .fetchFailure)
    | .code bits len => (loadInstr k lent bits len s, some (instrOf bits len))

end

/-! ### Events -/

/-- What cannot happen: with the power off, everything but a power-on reset; on a stopped die, everything (R11, R16). -/
def eventLost (s : State) (e : Instr) : Bool :=
  match e with
  | .porstnAssert _ => false
  | e => !s.sr.powered || match eventDie e with
    | some d => (s.die d).stopped
    | none => false

/-- The next core at or after the turn that holds a thread and whose die runs. -/
def nextCore (s : State) : Option Nat :=
  (s.slots.find? fun e =>
    decide (s.turn ≤ coreOf e.1) && e.2.run ≠ .idle && !(s.die (dieOfCluster (unitOf (coreOf e.1)))).stopped).map fun e => coreOf e.1

end Sys2Proof.Machine
end

