-- ==== Sys2Proof/Machine/Tick.lean ====
section
/-! DEFINITION. The end of a work cycle, when every core has had its turn and the ports have acted: rotation and throttle (R179, R183),
cycle counts (R14, R403), timers and timeouts (R164, R189, R393), the error log's writes (R126), and what units do of themselves:
searches and steals, copies, frames, drain and stall detection. -/

namespace Sys2Proof.Machine

/-! ### A cluster, or a bursar's unit -/

/-- The order in which throttle idle cycles are inserted (R183). -/
def idleList : List Nat := [15, 7, 11, 3, 13, 5, 9, 1]

/-- The rotation's next position, and whether an idle cycle comes first. -/
def nextRpos (x : Cluster) : BitVec 4 × Bool :=
  if !x.idleDue && (idleList.take x.applied.toNat).contains x.rpos.toNat then (x.rpos, true) else (x.rpos + 1, false)

/-- A timer counts from its first work cycle on while armed and not waiting for a message (R189). -/
def Timer.counts (t : Timer) (now : Nat) : Bool := t.armed && !t.msgwait && decide (t.start ≤ now)

/-- The timers after this work cycle; those of a stopped launch stand (R189, R143). -/
def timersTick (x : Cluster) : SMap Timer :=
  if x.owState = 2 then x.timers
  else x.timers.map fun t =>
    if t.2.counts x.cycle.toNat && t.2.count ≠ 0 then (t.1, { t.2 with count := t.2.count - 1 }) else t

/-- The timers that reach 0 in this tick. -/
def expiring (x : Cluster) : List Nat :=
  if x.owState = 2 then []
  else (x.timers.filter fun t => t.2.counts x.cycle.toNat && decide (t.2.count.toNat ≤ 1)).map (·.1)

/-- One unit's work cycle ends. With a rotation the rotation mode and the throttle value whose time has come take force (R404, R123). -/
def unitTick (c : Nat) (s : State) : State :=
  let x := s.cluster c
  let due := (expiring x).map (Instr.deadlineExpiry c)
  let next := nextRpos x
  let now := x.cycle.toNat + 1
  let start := next.1 = 0 && !next.2
  let rot := fun (r : Nat × Bool) => start && decide (r.1 ≤ now)
  let s := s.setCluster c
    { x with
      cycle := x.cycle + 1, rpos := next.1, idleDue := next.2, timers := timersTick x
      rotmode := (((x.rotNext.filter rot).getLast?).map (·.2)).getD x.rotmode, rotNext := x.rotNext.filter fun r => !rot r }
  let s := if next.2 then
      (match x.launch with
      | some l => (usedCores l c).foldl (fun s n => count n 10 s) s
      | none => s)
    else s
  s.pushAll (due ++ if start && x.applies.any fun a => decide (a.1 ≤ now) then [.throttleApply c] else [])

/-- The unit's clock runs: a cluster's of a die whose initialisation is done, a released bursar's (R14, R18). -/
def unitRuns (s : State) (u : Nat) : Bool :=
  let d := dieOfCluster u
  (if u < 16 then (s.port d).open_ else bitOf s.sr.dieup d) && !(s.die d).stopped

def runningUnits (s : State) : List Nat := (List.range 20).filter (unitRuns s)

/-! ### Slots and cores -/

/-- What waiting threads' time brings, judged at the end of the cycle before the counts advance (R164, R216, R353, R393), and the replies
that arrive in the next one (R186, R210). -/
def waitEvents (s : State) (k : Nat) (sl : Slot) : List Instr :=
  let now := nowAt s (coreOf k)
  let wait : List Instr := match sl.run with
    | .parked (.mrecv _ _ _ _ _ (some u)) => if u ≤ now then [.mrecvTimeout k] else []
    | .parked (.wait u _) => if u ≤ now + 1 then [.waitExpire k] else []
    | .parked (.resend (.vault _ _ false) _ _ _ _ t) => if t ≤ now + 1 then [.feResend k] else []
    | .parked (.resend _ _ _ _ _ t) => if t ≤ mcAt s (coreRouter (coreOf k)) then [.feResend k] else []
    | _ => []
  let came := fun (left ready : Nat) => left = 0 && decide (ready ≤ now + 1)
  let datum : List Instr := match sl.access with
    | some a => if came a.left a.ready then [.replyArrival k accessId none] else []
    | none => []
  wait ++ datum ++ (sl.relaxed.filter fun r => came r.left r.ready).map fun r => .replyArrival k r.id none

/-- A YIELD ends with the own cycle that it gives away (R394). -/
def yieldTick (s : State) (k : Nat) (sl : Slot) : State :=
  let x := s.cluster (unitOf (coreOf k))
  if sl.yielding && x.rpos.toNat = slotIn k && !x.idleDue && decide (sl.busyUntil ≤ x.cycle.toNat) then
    s.modSlot k fun sl => { sl with yielding := false }
  else s

/-- What a core's own units do: mailbox waits (R155), the close (R142). -/
def coreTick (s : State) (n : Nat) (x : Core) : State :=
  let mail := x.mailbox.map fun m => (m.1, m.2 + 1)
  let s := if mail = [] then s else s.modCore n fun x => { x with mailbox := mail }
  s.pushAll ((if mail.any fun m => decide (stealLimit s n ≤ m.2) then [Instr.stealTimeout n] else []) ++
    if x.closing && !x.done then [.coreDone n] else [])

/-- Slot `k`, idle and of class 0, would find work other than by a steal (R138, R148, R155). -/
def workFor (s : State) (l : Launch) (k : Nat) : Bool :=
  let c := coreOf k
  let det := detSlot l k
  (det && (detTask l k (s.slot k).detIdx).isSome) || ((s.core c).heldSteal.isSome && !(s.core c).stealing) || (stealable s c).isSome ||
    (!det && (readyHead s (unitOf c)).isSome)

/-- The idle class-0 slots of each used core that look for work: those that would find some, and the lowest for a steal (R148,
R155). -/
def searchEvents (s : State) (c : Nat) : List Instr :=
  let x := s.cluster c
  match x.launch with
  | some l =>
    if x.owState ≠ 1 || x.closeSent then []
    else (usedCores l c).flatMap fun n =>
      let idle := idleSlots s n 0
      ((idle.filter fun k => workFor s l k || (l.place ≠ 1 && !(s.core n).stealing && idle.head? = some k)).map Instr.idleSlotWorkSearch)
  | none => []

/-- The engines of a group: copies to move on and to accept, commands to take and to go on with. -/
def groupEvents (s : State) : List Instr :=
  (s.bulk.flatMap fun e =>
    (e.2.copies.filter e.2.moves).map (fun c => Instr.copyComplete e.1 c.id) ++
      if e.2.copies.all (·.accepted) then [] else [.copyAccept e.1]) ++
    (s.engines.filter fun e => (!e.2.queue.isEmpty || e.2.cmd.isSome) && e.2.io.want = 0).map fun e => Instr.matrixCommandTaken e.1

/-- What the launch unit of cluster `c` finds: drained (R141), or as a root quiescent (R175). -/
def launchEvents (s : State) (c : Nat) : List Instr :=
  let x := s.cluster c
  match x.launch with
  | some l =>
    if x.owState ≠ 1 then []
    else
      (if !x.drainedSent && !x.closeSent && isDrained s c then [.clusterDrained c] else []) ++
        (if l.clusters.headD c = c && !x.closeSent && !l.stalled && launchQuiescent s l.clusters then [.stallAll c] else [])
  | none => []

/-! ### The error log's writes (R125 to R127) -/

/-- A record is dropped (R127). -/
def logDrop (d : Nat) (s : State) : State :=
  s.modDie d fun e =>
    { e with log := { e.log with drop := if e.log.drop = 0xFFFFFFFF then e.log.drop else e.log.drop + 1, dropped := true } }

/-- The log unit writes a record whole, then advances ELHEAD; none while the ring's line cannot be reached. A full ring drops it. A ring
outside its partition's main memory, or a write that draws an error, takes no record: it is dropped as by a full ring
(DESIGN CHOICE, log 13). -/
def logPut (d : Nat) (r : Nat × Nat) (s : State) : Option State :=
  let l := (s.die d).log
  let n := 2 ^ l.log2n.toNat
  let ix := l.head.toNat % n
  let pa := l.base.toNat * 4096 + l.basehi.toNat * 2 ^ 44 + 32 * ix
  if !l.en then some s
  else if (l.head - l.tail).toNat = n || 2 ^ 39 ≤ pa || s.partOf (pa / 2 ^ 36 / 2) ≠ s.partOf d then some (logDrop d s)
  else match hashHome (s.part (s.partOf d)).place 63 pa with
    | none => some (logDrop d s)
    | some sl =>
      let w0 := (if l.wrap then 0 else 2 ^ 31) + (if l.dropped then 2 ^ 30 else 0) + r.1
      match placeWrite (rqUnit (cornerRouter d) 0xC1 false s) (.home sl pa) 32 (w0 + r.2 % 2 ^ 224 * 2 ^ 32) s with
      | .error (.wait _) _ => none
      | .error _ s => some (logDrop d s)
      | .ok _ s =>
        let s := s.modDie d fun e =>
          { e with log := { e.log with head := l.head + 1, dropped := false, wrap := if ix + 1 = n then !l.wrap else l.wrap } }
        some (if l.head = l.tail then dieMessage d 0xC1 l.msgtype [] s else s)

/-- The log unit of die `d` writes the records that have reached it, at most `n`, in their order. -/
def logFlush (d : Nat) : Nat → State → State
  | 0, s => s
  | n + 1, s =>
    match (s.die d).log.pend with
    | [] => s
    | r :: rs =>
      match logPut d r (s.modDie d fun e => { e with log := { e.log with pend := rs } }) with
      | some s => logFlush d n s
      | none => s

/-! ### The end of a work cycle -/

/-- What the blocks of a running die do: frames to deliver, records to write. -/
def dieTick (s : State) (d : Nat) : State :=
  if (s.die d).stopped then s else logFlush d (s.die d).log.pend.length (deliverFrames d s)

/-- The end of a work cycle; the cores' turns begin again, and the mesh cycles of the next one are due (R4). -/
def tick (s : State) : State :=
  let units := runningUnits s
  let slots := s.slots.filter fun e => units.contains (unitOf (coreOf e.1))
  let s := units.foldl (fun s c => if c < 16 then linkReleased c s else s) s
  let found := (List.range 16).flatMap (launchEvents s) ++ groupEvents s
  let waits := slots.flatMap fun e => waitEvents s e.1 e.2
  let search := (List.range 16).flatMap (searchEvents s)
  let s := slots.foldl (fun s e => queuePoll e.1 (yieldTick s e.1 e.2)) s
  let s := s.cores.foldl (fun s e => if units.contains (unitOf e.1) then coreTick s e.1 e.2 else s) s
  let s := (List.range 4).foldl dieTick s
  let s := units.foldl (fun s c => unitTick c s) s
  { s.pushAll (s.later ++ waits ++ found ++ search) with
    later := [], turn := 0, ported := false, mcDue := mcOf s.mcPhase, mcPhase := (s.mcPhase + 1) % 3 }

end Sys2Proof.Machine
end

