-- ==== Sys2Proof/Machine/Dispatch.lean ====
section
/-! DEFINITION. The meaning of every constructor, one arm each: a direct call of the meaning of its own. -/

namespace Sys2Proof.Machine

/-- What a step does: an instruction of the slot in execution, or an event. -/
def exec (i : Instr) (s : State) : Host.Outcome State Fault Refusal :=
  match i with
  | .porstnAssert cycled => Sys2Proof.Machine.execPorstnAssert s cycled
  | .railFault => Sys2Proof.Machine.execRailFault s
  | .boot => Sys2Proof.Machine.execBoot s
  | .bursarStart die => Sys2Proof.Machine.execBursarStart die s
  | .bursarInit die => Sys2Proof.Machine.execBursarInit die s
  | .partitionReset p => Sys2Proof.Machine.execPartitionReset p s
  | .mprstReq p => Sys2Proof.Machine.execMprstReq p s
  | .preset die value => Sys2Proof.Machine.execPreset die value s
  | .i3cPrivateWrite die index value addr => Sys2Proof.Machine.execI3cPrivateWrite die index value s addr
  | .i3cDynamicAddress die addr => Sys2Proof.Machine.execI3cDynamicAddress die addr s
  | .dieThermalTrip die => Sys2Proof.Machine.execDieThermalTrip die s
  | .thermalSample die temps => Sys2Proof.Machine.execThermalSample die temps s
  | .talstatClear die value => Sys2Proof.Machine.execTalstatClear die value s
  | .pwralertnEdge level cause => Sys2Proof.Machine.execPwralertnEdge level s cause
  | .clthrWrite cluster bursar csr => Sys2Proof.Machine.execClthrWrite cluster bursar csr s
  | .throttleApply cluster => Sys2Proof.Machine.execThrottleApply cluster s
  | .stackTempUpdate die k temp => Sys2Proof.Machine.execStackTempUpdate die k temp s
  | .clrst cluster => Sys2Proof.Machine.execClrst cluster s
  | .clusterResetDone cluster => Sys2Proof.Machine.execClusterResetDone cluster s
  | .mcRequest ctl => Sys2Proof.Machine.execMcRequest ctl s
  | .refreshWindowEnd ctl => Sys2Proof.Machine.execRefreshWindowEnd ctl s
  | .release slice stack => Sys2Proof.Machine.execRelease slice stack s
  | .decline ctl line parity => Sys2Proof.Machine.execDecline ctl line parity s
  | .patrolScrub ctl line => Sys2Proof.Machine.execPatrolScrub ctl line s
  | .lendStart ctl pair => Sys2Proof.Machine.execLendStart ctl pair s
  | .lendAck ctl pair => Sys2Proof.Machine.execLendAck ctl pair s
  | .lendAbort ctl pair => Sys2Proof.Machine.execLendAbort ctl pair s
  | .lendDrainDone ctl pair => Sys2Proof.Machine.execLendDrainDone ctl pair s
  | .lendQuiesceDone ctl pair => Sys2Proof.Machine.execLendQuiesceDone ctl pair s
  | .lendRetrainDone ctl pair good => Sys2Proof.Machine.execLendRetrainDone ctl pair good s
  | .lendReclaimStart ctl pair => Sys2Proof.Machine.execLendReclaimStart ctl pair s
  | .lendReclaimDone ctl pair good => Sys2Proof.Machine.execLendReclaimDone ctl pair good s
  | .mcmapRetire ctl => Sys2Proof.Machine.execMcmapRetire ctl s
  | .mcmapFence ctl => Sys2Proof.Machine.execMcmapFence ctl s
  | .copyGranule ctl => Sys2Proof.Machine.execCopyGranule ctl s
  | .mapDrainStart ctl => Sys2Proof.Machine.execMapDrainStart ctl s
  | .mapActivate ctl => Sys2Proof.Machine.execMapActivate ctl s
  | .mapReceive slice stack => Sys2Proof.Machine.execMapReceive slice stack s
  | .remap slice stack gen req => Sys2Proof.Machine.execRemap slice stack gen req s
  | .flitTransmit router port => Sys2Proof.Machine.execFlitTransmit router port s
  | .linkFlitReceive router port flit => Sys2Proof.Machine.execLinkFlitReceive router port flit s
  | .linkAck router port seq nak stop => Sys2Proof.Machine.execLinkAck router port seq nak s stop
  | .ackSend router port => Sys2Proof.Machine.execAckSend router port s
  | .packetRoute router port => Sys2Proof.Machine.execPacketRoute router port s
  | .linkTrainingStart router port => Sys2Proof.Machine.execLinkTrainingStart router port s
  | .linkTrainingEnd router port good half => Sys2Proof.Machine.execLinkTrainingEnd router port good s half
  | .linkLost router port => Sys2Proof.Machine.execLinkLost router port s
  | .lnkstatRestart die trizen => Sys2Proof.Machine.execLnkstatRestart die trizen s
  | .replyTimeout origin tag => Sys2Proof.Machine.execReplyTimeout origin tag s
  | .lostHandling origin tag code => Sys2Proof.Machine.execLostHandling origin tag code s
  | .streamFlush core port => Sys2Proof.Machine.execStreamFlush core port s
  | .streamIdleExpire core port => Sys2Proof.Machine.execStreamIdleExpire core port s
  | .streamForcedClose core port => Sys2Proof.Machine.execStreamForcedClose core port s
  | .streamDataArrive core input sender words fin suspend => Sys2Proof.Machine.execStreamDataArrive core input sender words fin suspend s
  | .sliceRd slice pkt => Sys2Proof.Machine.execSliceRd slice pkt s
  | .sliceWr slice pkt => Sys2Proof.Machine.execSliceWr slice pkt s
  | .sliceTel slice pkt => Sys2Proof.Machine.execSliceTel slice pkt s
  | .sliceFe slice pkt => Sys2Proof.Machine.execSliceFe slice pkt s
  | .sliceWaiterRetry slice word => Sys2Proof.Machine.execSliceWaiterRetry slice word s
  | .sliceFill slice line data full capture parity => Sys2Proof.Machine.execSliceFill slice line data full capture parity s
  | .sliceFlush slice stack invalidate chan => Sys2Proof.Machine.execSliceFlush slice stack invalidate s chan
  | .sliceQput slice pkt => Sys2Proof.Machine.execSliceQput slice pkt s
  | .sliceQtake slice pkt => Sys2Proof.Machine.execSliceQtake slice pkt s
  | .requestResend origin tag => Sys2Proof.Machine.execRequestResend origin tag s
  | .hostActivate die ch bank row => Sys2Proof.Machine.execHostActivate die ch bank row s
  | .hostPrecharge die ch bank => Sys2Proof.Machine.execHostPrecharge die ch bank s
  | .hostRefresh die cmd => Sys2Proof.Machine.execHostRefresh die s cmd
  | .hostRead die ch bank col len => Sys2Proof.Machine.execHostRead die ch bank col len s
  | .hostWrite die ch bank col bytes => Sys2Proof.Machine.execHostWrite die ch bank col bytes s
  | .inboundWrite die ap off bytes => Sys2Proof.Machine.execInboundWrite die ap off bytes s
  | .inboundForward die => Sys2Proof.Machine.execInboundForward die s
  | .inboundAck die err => Sys2Proof.Machine.execInboundAck die err s
  | .notification die ap q value => Sys2Proof.Machine.execNotification die ap q value s
  | .notifyForward die => Sys2Proof.Machine.execNotifyForward die s
  | .completionRecordWrite die ap q => Sys2Proof.Machine.execCompletionRecordWrite die ap q s
  | .outboundWrite die ap off bytes => Sys2Proof.Machine.execOutboundWrite die ap off bytes s
  | .mbdoor die => Sys2Proof.Machine.execMbdoor die s
  | .mbset die => Sys2Proof.Machine.execMbset die s
  | .attcmd die => Sys2Proof.Machine.execAttcmd die s
  | .attestReport die => Sys2Proof.Machine.execAttestReport die s
  | .ethFrameReceive die frame fcs => Sys2Proof.Machine.execEthFrameReceive die frame fcs s
  | .ethSegmentRefused die slice q => Sys2Proof.Machine.execEthSegmentRefused die slice q s
  | .ethPause die => Sys2Proof.Machine.execEthPause die s
  | .ethPauseReceive die pfc pause => Sys2Proof.Machine.execEthPauseReceive die pfc pause s
  | .ethTxQueueWrite die q bytes => Sys2Proof.Machine.execEthTxQueueWrite die q bytes s
  | .ethTransmit die => Sys2Proof.Machine.execEthTransmit die s
  | .vibindWrite die v word value src => Sys2Proof.Machine.execVibindWrite die v word value s src
  | .i3cGo die => Sys2Proof.Machine.execI3cGo die s
  | .i3cRoleGrant die => Sys2Proof.Machine.execI3cRoleGrant die s
  | .i3cRoleTimeout die => Sys2Proof.Machine.execI3cRoleTimeout die s
  | .i3cTransferDone die nack err data cool => Sys2Proof.Machine.execI3cTransferDone die nack err data s cool
  | .i3cRel die => Sys2Proof.Machine.execI3cRel die s
  | .elpost die value => Sys2Proof.Machine.execElpost die value s
  | .elctlWrite die value => Sys2Proof.Machine.execElctlWrite die value s
  | .registerWrite pa value src => Sys2Proof.Machine.execRegisterWrite pa value s src
  | .launchDispatch p => Sys2Proof.Machine.execLaunchDispatch p s
  | .launchSetup cluster => Sys2Proof.Machine.execLaunchSetup cluster s
  | .bursarLaunch cluster => Sys2Proof.Machine.execBursarLaunch cluster s
  | .clusterDrained cluster => Sys2Proof.Machine.execClusterDrained cluster s
  | .drained root cluster epoch => Sys2Proof.Machine.execDrained root cluster epoch s
  | .confirm cluster => Sys2Proof.Machine.execConfirm cluster s
  | .confirmAnswer root => Sys2Proof.Machine.execConfirmAnswer root s
  | .close cluster => Sys2Proof.Machine.execClose cluster s
  | .coreDone core => Sys2Proof.Machine.execCoreDone core s
  | .doneMessage core => Sys2Proof.Machine.execDoneMessage core s
  | .stallAll root => Sys2Proof.Machine.execStallAll root s
  | .preempt cluster => Sys2Proof.Machine.execPreempt cluster s
  | .preemptSave cluster => Sys2Proof.Machine.execPreemptSave cluster s
  | .restore cluster => Sys2Proof.Machine.execRestore cluster s
  | .cancel cluster => Sys2Proof.Machine.execCancel cluster s
  | .lownerWrite cluster value => Sys2Proof.Machine.execLownerWrite cluster value s
  | .idleSlotWorkSearch slot => Sys2Proof.Machine.execIdleSlotWorkSearch slot s
  | .readyQueueTake cluster slots => Sys2Proof.Machine.execReadyQueueTake cluster slots s
  | .stealRequest victim thief => Sys2Proof.Machine.execStealRequest victim thief s
  | .stealTimeout victim => Sys2Proof.Machine.execStealTimeout victim s
  | .stealReply thief => Sys2Proof.Machine.execStealReply thief s
  | .remoteSpawn core pc args req => Sys2Proof.Machine.execRemoteSpawn core pc args req s
  | .taskReleaseRequest cluster tcb => Sys2Proof.Machine.execTaskReleaseRequest cluster tcb s
  | .messageArrive core msg => Sys2Proof.Machine.execMessageArrive core msg s
  | .handlerStart slot => Sys2Proof.Machine.execHandlerStart slot s
  | .replyArrival slot id pkt => Sys2Proof.Machine.execReplyArrival slot id s pkt
  | .mrecvTimeout slot => Sys2Proof.Machine.execMrecvTimeout slot s
  | .barrierArrival cluster b member value record => Sys2Proof.Machine.execBarrierArrival cluster b member value record s
  | .deadlineExpiry cluster timer => Sys2Proof.Machine.execDeadlineExpiry cluster timer s
  | .withdrawal slot => Sys2Proof.Machine.execWithdrawal slot s
  | .deadlineTrap => Sys2Proof.Machine.execDeadlineTrap s
  | .deferredMemerr => Sys2Proof.Machine.execDeferredMemerr s
  | .stepBreak => Sys2Proof.Machine.execStepBreak s
  | .fbtailWrite cluster value => Sys2Proof.Machine.execFbtailWrite cluster value s
  | .fbwakeRetry cluster slot => Sys2Proof.Machine.execFbwakeRetry cluster slot s
  | .fbwakeKill cluster slot cause => Sys2Proof.Machine.execFbwakeKill cluster slot cause s
  | .coreHalt core => Sys2Proof.Machine.execCoreHalt core s
  | .coreResume core => Sys2Proof.Machine.execCoreResume core s
  | .coreStep core => Sys2Proof.Machine.execCoreStep core s
  | .icacheFill slot va => Sys2Proof.Machine.execIcacheFill slot va s
  | .tlb2Lookup slot va acc => Sys2Proof.Machine.execTlb2Lookup slot va acc s
  | .walk cluster => Sys2Proof.Machine.execWalk cluster s
  | .bankGrant bank => Sys2Proof.Machine.execBankGrant bank s
  | .waitlistRetry word => Sys2Proof.Machine.execWaitlistRetry word s
  | .feResend slot => Sys2Proof.Machine.execFeResend slot s
  | .linePortAccess bank => Sys2Proof.Machine.execLinePortAccess bank s
  | .vaultCorrectRewrite word => Sys2Proof.Machine.execVaultCorrectRewrite word s
  | .remoteVaultAccess cluster pkt => Sys2Proof.Machine.execRemoteVaultAccess cluster pkt s
  | .ringStep quadrant => Sys2Proof.Machine.execRingStep quadrant s
  | .ringStepComplete quadrant => Sys2Proof.Machine.execRingStepComplete quadrant s
  | .copyAccept group => Sys2Proof.Machine.execCopyAccept group s
  | .copyComplete group id => Sys2Proof.Machine.execCopyComplete group id s
  | .waitExpire slot => Sys2Proof.Machine.execWaitExpire slot s
  | .matrixCommandTaken group => Sys2Proof.Machine.execMatrixCommandTaken group s
  | .matrixRetire group => Sys2Proof.Machine.execMatrixRetire group s
  | .tlbInvalidation cluster slot => Sys2Proof.Machine.execTlbInvalidation cluster slot s
  | .ethLinkDown die => Sys2Proof.Machine.execEthLinkDown die s
  | .ethLinkUp die => Sys2Proof.Machine.execEthLinkUp die s
  | .illegalEncoding => Sys2Proof.Machine.execIllegalEncoding s
  | .fetchFailure => Sys2Proof.Machine.execFetchFailure s
  | .add d a b => Sys2Proof.Machine.execAdd d a b s
  | .sub d a b => Sys2Proof.Machine.execSub d a b s
  | .adds d a b => Sys2Proof.Machine.execAdds d a b s
  | .subs d a b => Sys2Proof.Machine.execSubs d a b s
  | .and d a b => Sys2Proof.Machine.execAnd d a b s
  | .or d a b => Sys2Proof.Machine.execOr d a b s
  | .xor d a b => Sys2Proof.Machine.execXor d a b s
  | .andn d a b => Sys2Proof.Machine.execAndn d a b s
  | .sll d a b => Sys2Proof.Machine.execSll d a b s
  | .srl d a b => Sys2Proof.Machine.execSrl d a b s
  | .sra d a b => Sys2Proof.Machine.execSra d a b s
  | .ror d a b => Sys2Proof.Machine.execRor d a b s
  | .slt d a b => Sys2Proof.Machine.execSlt d a b s
  | .sltn d a b => Sys2Proof.Machine.execSltn d a b s
  | .min d a b => Sys2Proof.Machine.execMin d a b s
  | .max d a b => Sys2Proof.Machine.execMax d a b s
  | .minn d a b => Sys2Proof.Machine.execMinn d a b s
  | .maxn d a b => Sys2Proof.Machine.execMaxn d a b s
  | .bext d a b => Sys2Proof.Machine.execBext d a b s
  | .bexts d a b => Sys2Proof.Machine.execBexts d a b s
  | .lzc d a => Sys2Proof.Machine.execLzc d a s
  | .tzc d a => Sys2Proof.Machine.execTzc d a s
  | .ones d a => Sys2Proof.Machine.execOnes d a s
  | .bswap d a => Sys2Proof.Machine.execBswap d a s
  | .brev d a => Sys2Proof.Machine.execBrev d a s
  | .extb d a => Sys2Proof.Machine.execExtb d a s
  | .exth d a => Sys2Proof.Machine.execExth d a s
  | .addi d a imm => Sys2Proof.Machine.execAddi d a imm s
  | .andi d a imm => Sys2Proof.Machine.execAndi d a imm s
  | .ori d a imm => Sys2Proof.Machine.execOri d a imm s
  | .xori d a imm => Sys2Proof.Machine.execXori d a imm s
  | .slli d a n => Sys2Proof.Machine.execSlli d a n s
  | .srli d a n => Sys2Proof.Machine.execSrli d a n s
  | .srai d a n => Sys2Proof.Machine.execSrai d a n s
  | .rori d a n => Sys2Proof.Machine.execRori d a n s
  | .slti d a imm => Sys2Proof.Machine.execSlti d a imm s
  | .sltni d a imm => Sys2Proof.Machine.execSltni d a imm s
  | .lui d imm => Sys2Proof.Machine.execLui d imm s
  | .pcrel d imm => Sys2Proof.Machine.execPcrel d imm s
  | .mul d a b => Sys2Proof.Machine.execMul d a b s
  | .mulq d a b => Sys2Proof.Machine.execMulq d a b s
  | .mulh d a b => Sys2Proof.Machine.execMulh d a b s
  | .mulhn d a b => Sys2Proof.Machine.execMulhn d a b s
  | .mulhsn d a b => Sys2Proof.Machine.execMulhsn d a b s
  | .div d a b => Sys2Proof.Machine.execDiv d a b s
  | .divn d a b => Sys2Proof.Machine.execDivn d a b s
  | .rem d a b => Sys2Proof.Machine.execRem d a b s
  | .remn d a b => Sys2Proof.Machine.execRemn d a b s
  | .padd d a b z => Sys2Proof.Machine.execPadd d a b z s
  | .psub d a b z => Sys2Proof.Machine.execPsub d a b z s
  | .padds d a b z => Sys2Proof.Machine.execPadds d a b z s
  | .psubs d a b z => Sys2Proof.Machine.execPsubs d a b z s
  | .paddsn d a b z => Sys2Proof.Machine.execPaddsn d a b z s
  | .psubsn d a b z => Sys2Proof.Machine.execPsubsn d a b z s
  | .pmin d a b z => Sys2Proof.Machine.execPmin d a b z s
  | .pmax d a b z => Sys2Proof.Machine.execPmax d a b z s
  | .pminn d a b z => Sys2Proof.Machine.execPminn d a b z s
  | .pmaxn d a b z => Sys2Proof.Machine.execPmaxn d a b z s
  | .pavg d a b z => Sys2Proof.Machine.execPavg d a b z s
  | .pmul d a b z => Sys2Proof.Machine.execPmul d a b z s
  | .pmulq d a b z => Sys2Proof.Machine.execPmulq d a b z s
  | .psll d a b z => Sys2Proof.Machine.execPsll d a b z s
  | .psrl d a b z => Sys2Proof.Machine.execPsrl d a b z s
  | .psra d a b z => Sys2Proof.Machine.execPsra d a b z s
  | .pdot d a b z => Sys2Proof.Machine.execPdot d a b z s
  | .ppkl d a b z => Sys2Proof.Machine.execPpkl d a b z s
  | .ppkh d a b z => Sys2Proof.Machine.execPpkh d a b z s
  | .cadd d a b => Sys2Proof.Machine.execCadd d a b s
  | .csub d a b => Sys2Proof.Machine.execCsub d a b s
  | .cmul d a b => Sys2Proof.Machine.execCmul d a b s
  | .cmulc d a b => Sys2Proof.Machine.execCmulc d a b s
  | .cconj d a => Sys2Proof.Machine.execCconj d a s
  | .cmulj d a => Sys2Proof.Machine.execCmulj d a s
  | .cmag2 d a => Sys2Proof.Machine.execCmag2 d a s
  | .cshr d a b => Sys2Proof.Machine.execCshr d a b s
  | .pdotaH d a b c => Sys2Proof.Machine.execPdotaH d a b c s
  | .pdotaB d a b c => Sys2Proof.Machine.execPdotaB d a b c s
  | .pdotasH d a b c => Sys2Proof.Machine.execPdotasH d a b c s
  | .pdotasB d a b c => Sys2Proof.Machine.execPdotasB d a b c s
  | .cmac d a b c => Sys2Proof.Machine.execCmac d a b c s
  | .cmacc d a b c => Sys2Proof.Machine.execCmacc d a b c s
  | .fadd d a b p => Sys2Proof.Machine.execFadd d a b p s
  | .fsub d a b p => Sys2Proof.Machine.execFsub d a b p s
  | .fmul d a b p => Sys2Proof.Machine.execFmul d a b p s
  | .fdiv d a b p => Sys2Proof.Machine.execFdiv d a b p s
  | .fsqrt d a p => Sys2Proof.Machine.execFsqrt d a p s
  | .fmin d a b p => Sys2Proof.Machine.execFmin d a b p s
  | .fabs d a p => Sys2Proof.Machine.execFabs d a p s
  | .fneg d a p => Sys2Proof.Machine.execFneg d a p s
  | .fcpys d a b p => Sys2Proof.Machine.execFcpys d a b p s
  | .fxors d a b p => Sys2Proof.Machine.execFxors d a b p s
  | .fcmpeq d a b p => Sys2Proof.Machine.execFcmpeq d a b p s
  | .fcmplt d a b p => Sys2Proof.Machine.execFcmplt d a b p s
  | .fcmple d a b p => Sys2Proof.Machine.execFcmple d a b p s
  | .fclass d a p => Sys2Proof.Machine.execFclass d a p s
  | .fmax d a b p => Sys2Proof.Machine.execFmax d a b p s
  | .fmadd d a b c p => Sys2Proof.Machine.execFmadd d a b c p s
  | .fmsub d a b c p => Sys2Proof.Machine.execFmsub d a b c p s
  | .fnmsub d a b c p => Sys2Proof.Machine.execFnmsub d a b c p s
  | .fnmadd d a b c p => Sys2Proof.Machine.execFnmadd d a b c p s
  | .fcvtWF d a => Sys2Proof.Machine.execFcvtWF d a s
  | .fcvtWnF d a => Sys2Proof.Machine.execFcvtWnF d a s
  | .fcvtFW d a => Sys2Proof.Machine.execFcvtFW d a s
  | .fcvtFWn d a => Sys2Proof.Machine.execFcvtFWn d a s
  | .fcvtH2F d a b => Sys2Proof.Machine.execFcvtH2F d a b s
  | .fcvtFHl d a => Sys2Proof.Machine.execFcvtFHl d a s
  | .fcvtFHh d a => Sys2Proof.Machine.execFcvtFHh d a s
  | .fcvtH2H2 d a => Sys2Proof.Machine.execFcvtH2H2 d a s
  | .lb t a s_ imm => Sys2Proof.Machine.execLb t a s_ imm s
  | .lbn t a s_ imm => Sys2Proof.Machine.execLbn t a s_ imm s
  | .lh t a s_ imm => Sys2Proof.Machine.execLh t a s_ imm s
  | .lhn t a s_ imm => Sys2Proof.Machine.execLhn t a s_ imm s
  | .lw t a s_ imm => Sys2Proof.Machine.execLw t a s_ imm s
  | .ld t a s_ imm => Sys2Proof.Machine.execLd t a s_ imm s
  | .lq t a s_ imm => Sys2Proof.Machine.execLq t a s_ imm s
  | .sb t a s_ imm => Sys2Proof.Machine.execSb t a s_ imm s
  | .sh t a s_ imm => Sys2Proof.Machine.execSh t a s_ imm s
  | .sw t a s_ imm => Sys2Proof.Machine.execSw t a s_ imm s
  | .sd t a s_ imm => Sys2Proof.Machine.execSd t a s_ imm s
  | .sq t a s_ imm => Sys2Proof.Machine.execSq t a s_ imm s
  | .lwf t a s_ imm => Sys2Proof.Machine.execLwf t a s_ imm s
  | .lwt t a s_ imm => Sys2Proof.Machine.execLwt t a s_ imm s
  | .swp t a s_ imm => Sys2Proof.Machine.execSwp t a s_ imm s
  | .swf t a s_ imm => Sys2Proof.Machine.execSwf t a s_ imm s
  | .ferd t a s_ imm => Sys2Proof.Machine.execFerd t a s_ imm s
  | .feset t a s_ imm => Sys2Proof.Machine.execFeset t a s_ imm s
  | .tadd d a b s_ => Sys2Proof.Machine.execTadd d a b s_ s
  | .tand d a b s_ => Sys2Proof.Machine.execTand d a b s_ s
  | .tor d a b s_ => Sys2Proof.Machine.execTor d a b s_ s
  | .txor d a b s_ => Sys2Proof.Machine.execTxor d a b s_ s
  | .tmin d a b s_ => Sys2Proof.Machine.execTmin d a b s_ s
  | .tmax d a b s_ => Sys2Proof.Machine.execTmax d a b s_ s
  | .tminn d a b s_ => Sys2Proof.Machine.execTminn d a b s_ s
  | .tmaxn d a b s_ => Sys2Proof.Machine.execTmaxn d a b s_ s
  | .tswap d a b s_ => Sys2Proof.Machine.execTswap d a b s_ s
  | .tcas d a b s_ => Sys2Proof.Machine.execTcas d a b s_ s
  | .tfadd d a b s_ => Sys2Proof.Machine.execTfadd d a b s_ s
  | .twinc d a b s_ => Sys2Proof.Machine.execTwinc d a b s_ s
  | .fenceV => Sys2Proof.Machine.execFenceV s
  | .fenceG => Sys2Proof.Machine.execFenceG s
  | .fenceA => Sys2Proof.Machine.execFenceA s
  | .ifence => Sys2Proof.Machine.execIfence s
  | .beq a b o => Sys2Proof.Machine.execBeq a b o s
  | .bne a b o => Sys2Proof.Machine.execBne a b o s
  | .blt a b o => Sys2Proof.Machine.execBlt a b o s
  | .bge a b o => Sys2Proof.Machine.execBge a b o s
  | .bltn a b o => Sys2Proof.Machine.execBltn a b o s
  | .bgen a b o => Sys2Proof.Machine.execBgen a b o s
  | .bbs a n o => Sys2Proof.Machine.execBbs a n o s
  | .bbc a n o => Sys2Proof.Machine.execBbc a n o s
  | .jal d o => Sys2Proof.Machine.execJal d o s
  | .jalr d a imm => Sys2Proof.Machine.execJalr d a imm s
  | .bara d n => Sys2Proof.Machine.execBara d n s
  | .barw d a n => Sys2Proof.Machine.execBarw d a n s
  | .barsum d a n => Sys2Proof.Machine.execBarsum d a n s
  | .barstmt d a n => Sys2Proof.Machine.execBarstmt d a n s
  | .barcfg a n => Sys2Proof.Machine.execBarcfg a n s
  | .msend d a b c => Sys2Proof.Machine.execMsend d a b c s
  | .mcall d a b c => Sys2Proof.Machine.execMcall d a b c s
  | .mrecv d a b c => Sys2Proof.Machine.execMrecv d a b c s
  | .mrecvt d a b c => Sys2Proof.Machine.execMrecvt d a b c s
  | .mpoll d a b c => Sys2Proof.Machine.execMpoll d a b c s
  | .mreply d c => Sys2Proof.Machine.execMreply d c s
  | .qput d a c => Sys2Proof.Machine.execQput d a c s
  | .qputt d a b c => Sys2Proof.Machine.execQputt d a b c s
  | .qtake d a b s_ c => Sys2Proof.Machine.execQtake d a b s_ c s
  | .qtaket d a b c => Sys2Proof.Machine.execQtaket d a b c s
  | .sopen a p => Sys2Proof.Machine.execSopen a p s
  | .sput a p => Sys2Proof.Machine.execSput a p s
  | .sclose p => Sys2Proof.Machine.execSclose p s
  | .sget d b imm => Sys2Proof.Machine.execSget d b imm s
  | .spawn a b s_ => Sys2Proof.Machine.execSpawn a b s_ s
  | .spret a s_ => Sys2Proof.Machine.execSpret a s_ s
  | .join a s_ => Sys2Proof.Machine.execJoin a s_ s
  | .rspawn d a b => Sys2Proof.Machine.execRspawn d a b s
  | .tsubmit a => Sys2Proof.Machine.execTsubmit a s
  | .tdone => Sys2Proof.Machine.execTdone s
  | .wid d k => Sys2Proof.Machine.execWid d k s
  | .coreid d => Sys2Proof.Machine.execCoreid d s
  | .dlarm d a => Sys2Proof.Machine.execDlarm d a s
  | .dlarmm d a y => Sys2Proof.Machine.execDlarmm d a y s
  | .dldis d => Sys2Proof.Machine.execDldis d s
  | .mzero t => Sys2Proof.Machine.execMzero t s
  | .mldb a s_ => Sys2Proof.Machine.execMldb a s_ s
  | .mldsA a s_ => Sys2Proof.Machine.execMldsA a s_ s
  | .mldsB a s_ => Sys2Proof.Machine.execMldsB a s_ s
  | .mwra t a s_ => Sys2Proof.Machine.execMwra t a s_ s
  | .mring => Sys2Proof.Machine.execMring s
  | .mmovt t u => Sys2Proof.Machine.execMmovt t u s
  | .mrsn a => Sys2Proof.Machine.execMrsn a s
  | .mma t a s_ => Sys2Proof.Machine.execMma t a s_ s
  | .mmas t a s_ => Sys2Proof.Machine.execMmas t a s_ s
  | .mmaz t a s_ => Sys2Proof.Machine.execMmaz t a s_ s
  | .mepiAdd t u b => Sys2Proof.Machine.execMepiAdd t u b s
  | .mepiMul t u b => Sys2Proof.Machine.execMepiMul t u b s
  | .mepiMax t u b => Sys2Proof.Machine.execMepiMax t u b s
  | .mepiScale t u a => Sys2Proof.Machine.execMepiScale t u a s
  | .mepiBiasRow t u a => Sys2Proof.Machine.execMepiBiasRow t u a s
  | .mepiBiasCol t u a => Sys2Proof.Machine.execMepiBiasCol t u a s
  | .mepiExp2 t u => Sys2Proof.Machine.execMepiExp2 t u s
  | .mepiSigmoid t u => Sys2Proof.Machine.execMepiSigmoid t u s
  | .mepiSilu t u => Sys2Proof.Machine.execMepiSilu t u s
  | .mepiTanh t u => Sys2Proof.Machine.execMepiTanh t u s
  | .mepiRecip t u => Sys2Proof.Machine.execMepiRecip t u s
  | .mepiRsqrt t u => Sys2Proof.Machine.execMepiRsqrt t u s
  | .mstt u a s_ => Sys2Proof.Machine.execMstt u a s_ s
  | .msttF u a s_ => Sys2Proof.Machine.execMsttF u a s_ s
  | .mtran t u => Sys2Proof.Machine.execMtran t u s
  | .mredRowmax u a n => Sys2Proof.Machine.execMredRowmax u a n s
  | .mredRowsum u a n => Sys2Proof.Machine.execMredRowsum u a n s
  | .mredColmax u a n => Sys2Proof.Machine.execMredColmax u a n s
  | .mredColsum u a n => Sys2Proof.Machine.execMredColsum u a n s
  | .mpotrf t a => Sys2Proof.Machine.execMpotrf t a s
  | .mgetrf t a => Sys2Proof.Machine.execMgetrf t a s
  | .mtrsm t v a o r q p => Sys2Proof.Machine.execMtrsm t v a o r q p s
  | .mdelta a => Sys2Proof.Machine.execMdelta a s
  | .mshiftDup a => Sys2Proof.Machine.execMshiftDup a s
  | .mshiftZero a => Sys2Proof.Machine.execMshiftZero a s
  | .bcopy d a b s_ e k => Sys2Proof.Machine.execBcopy d a b s_ e k s
  | .bcopy2 d a b s_ e k => Sys2Proof.Machine.execBcopy2 d a b s_ e k s
  | .bfill d a b e k => Sys2Proof.Machine.execBfill d a b e k s
  | .bgath d a b s_ e k => Sys2Proof.Machine.execBgath d a b s_ e k s
  | .bscat d a b s_ e k => Sys2Proof.Machine.execBscat d a b s_ e k s
  | .bcancel d b => Sys2Proof.Machine.execBcancel d b s
  | .bstat d => Sys2Proof.Machine.execBstat d s
  | .mqnt u a s_ => Sys2Proof.Machine.execMqnt u a s_ s
  | .mdqnt t a s_ => Sys2Proof.Machine.execMdqnt t a s_ s
  | .cvtblk d a b s_ e => Sys2Proof.Machine.execCvtblk d a b s_ e s
  | .cvtunb d a b s_ e => Sys2Proof.Machine.execCvtunb d a b s_ e s
  | .cvtv d a s_ e => Sys2Proof.Machine.execCvtv d a s_ e s
  | .syscall => Sys2Proof.Machine.execSyscall s
  | .brk => Sys2Proof.Machine.execBrk s
  | .eret => Sys2Proof.Machine.execEret s
  | .dret => Sys2Proof.Machine.execDret s
  | .wait d a => Sys2Proof.Machine.execWait d a s
  | .yield => Sys2Proof.Machine.execYield s
  | .halt => Sys2Proof.Machine.execHalt s
  | .segld n a => Sys2Proof.Machine.execSegld n a s
  | .segrd d n => Sys2Proof.Machine.execSegrd d n s
  | .tlbinv a b => Sys2Proof.Machine.execTlbinv a b s
  | .segnull n => Sys2Proof.Machine.execSegnull n s
  | .mintld a n => Sys2Proof.Machine.execMintld a n s
  | .mintsv a n => Sys2Proof.Machine.execMintsv a n s
  | .csrr d c => Sys2Proof.Machine.execCsrr d c s
  | .csrw a c => Sys2Proof.Machine.execCsrw a c s
  | .csrx d a c => Sys2Proof.Machine.execCsrx d a c s
  | .csrm v m c => Sys2Proof.Machine.execCsrm v m c s
  | .cAddi d imm => Sys2Proof.Machine.execCAddi d imm s
  | .cLi d imm => Sys2Proof.Machine.execCLi d imm s
  | .cMv d s_ => Sys2Proof.Machine.execCMv d s_ s
  | .cAdd d a => Sys2Proof.Machine.execCAdd d a s
  | .cSub d a => Sys2Proof.Machine.execCSub d a s
  | .cAnd d a => Sys2Proof.Machine.execCAnd d a s
  | .cOr d a => Sys2Proof.Machine.execCOr d a s
  | .cXor d a => Sys2Proof.Machine.execCXor d a s
  | .cSll d a => Sys2Proof.Machine.execCSll d a s
  | .cSrl d a => Sys2Proof.Machine.execCSrl d a s
  | .cSra d a => Sys2Proof.Machine.execCSra d a s
  | .cLw d a f => Sys2Proof.Machine.execCLw d a f s
  | .cSw d a f => Sys2Proof.Machine.execCSw d a f s
  | .cBeqz a o => Sys2Proof.Machine.execCBeqz a o s
  | .cBnez a o => Sys2Proof.Machine.execCBnez a o s
  | .cJ o => Sys2Proof.Machine.execCJ o s
  | .cNop => Sys2Proof.Machine.execCNop s
  | .cYield => Sys2Proof.Machine.execCYield s
  | .movxToX n g => Sys2Proof.Machine.execMovxToX n g s
  | .movxToG n g => Sys2Proof.Machine.execMovxToG n g s
  | .lox n b => Sys2Proof.Machine.execLox n b s
  | .fmt r a b => Sys2Proof.Machine.execFmt r a b s
  | .rel => Sys2Proof.Machine.execRel s
  | .cls c => Sys2Proof.Machine.execCls c s

end Sys2Proof.Machine
end

