-- ==== Sys2Proof/Machine/Next.lean ====
section
/-! DEFINITION. What the next step is: the oldest event that is due, else a mesh cycle of this work cycle, else the issue of the next
core in the order of core numbers, else the ports of the banks, else the end of the work cycle (log 1); and the placing of one
instruction under slot 0 of core 0 (log 5). -/

namespace Sys2Proof.Machine

/-- Nothing can happen any more: every clock is stopped and no event is due (R11). -/
def stuck (s : State) : Bool := s.due.isEmpty && !s.sr.powered

noncomputable section

/-- The turn of core `n` in this work cycle: what its slot executes, if it issues (R180, R181). -/
def coreTurn (n : Nat) (s : State) : State × Option Instr :=
  let s := { s with turn := n + 1 }
  match pickSlot s n with
  | some (k, lent) => issueSlot k lent s
  | none => (bubble n s, none)

/-- The state a step starts from and what is executed in it, if anything. -/
def nextOf (s : State) : State × Option Instr :=
  match s.due with
  | e :: r => ({ s with due := r }, if eventLost s e then none else some e)
  | [] =>
    if s.mcDue ≠ 0 then (mcTick s, none)
    else match nextCore s with
      | some n => coreTurn n s
      | none => (if !s.ported && s.hot ≠ [] then portTick s else tick s, none)

end

/-- Slot 0 with one instruction at its pc (log 5): eligible, offset 0 of a code segment of one line. -/
def Slot.placed (sl : Slot) : Slot :=
  { sl with
    pc := 0, run := .ready, busyUntil := 0, pend := 0, pv := false, chain := none, deferred := none, deadline := none
    stepDue := false, yielding := false, access := none, undo := none, sg := smSet 0 sl.sg 0 (codeSegment 0 64) }

/-- The device with the `nbits` bits of `w` as the instruction that core 0 issues next: its first line cached, its cluster at
position 0, nothing due (log 5). -/
def placeInstr (s : State) (nbits w : Nat) : State :=
  let s := { s with due := [], later := [], mcDue := 0, turn := 0, sr := { s.sr with powered := true } }
  let s := (s.modDie 0 fun d => { d with stopped := false }).modCluster 0 fun c =>
    { c with rpos := 0, idleDue := false, owState := if c.owState = 2 then 1 else c.owState }
  (s.modCore 0 fun c => { c with halt := false, icache := [{ va := 0, data := BitVec.ofNat 512 (w % 2 ^ nbits) }] }).modSlot 0
    Slot.placed

end Sys2Proof.Machine
end

