-- ==== Sys2Proof/Machine/Step.lean ====
section
/-! DEFINITION. One step of the device: an event, or one core's turn in a work cycle, or the end of the cycle. -/

namespace Sys2Proof.Machine

noncomputable section

/-- One step. -/
def step (s : State) : Host.Outcome State Fault Refusal :=
  if stuck s then .fault .clocksStopped
  else match nextOf s with
    | (t, some i) => exec i t
    | (t, none) => .next t

end

/-- `s` with an instruction stored where the next step fetches it. -/
def State.withFetchWord (s : State) (nbits w : Nat) : State := placeInstr s nbits w

end Sys2Proof.Machine
end

