-- ==== Sys2Proof/Safety.lean ====
section
/-! DEFINITION. The terms that statements use: when an instruction's common tests pass, what a completed instruction changes and
what it leaves alone, what a trap and a park do, and the canonical form of memory. -/

namespace Sys2Proof.Machine

/-! ### Safe steps -/

/-- The device goes on. -/
def Goes (o : Host.Outcome State Fault Refusal) : Prop := ∃ t, o = .next t

/-- Main memory and the vaults are in canonical form: equal contents are equal data. -/
def Canonical (s : State) : Prop := Memory.wf s.mem = true ∧ Memory.wf s.vault = true

/-! ### The state an instruction issues in -/

/-- Nothing stands between the instruction and its own effect: no register is mapped onto an inter-slot queue and no entry is
held (R187), no register is marked (R186). -/
def Unmapped (s : State) : Prop :=
  s.me.qmap = 0 ∧ s.me.taken = [] ∧ qOwned s.cur (s.core s.myCore) = false ∧ s.me.marks = 0

/-- The same with no prefix pending (R306). -/
def Clear (s : State) : Prop := s.me.pend = 0 ∧ Unmapped s

/-- The pending prefix, if any, is an FMT, and does not join a complex format with another (R304, R305). -/
def FmtOnly (s : State) : Prop := Unmapped s ∧ s.me.pend &&& 0x000F = 0 ∧ (bitOf s.me.pend 15 = true → mixedPair s.me.pend = false)

/-! ### Completed instructions -/

/-- The thread's slot after an instruction that goes on at `pc`: the prefixes are used up (R306) and an armed software step
becomes due (R392); registers and everything else as before. -/
def Slot.went (sl : Slot) (pc : Word) : Slot :=
  { sl with
    pc := pc, pend := 0, pv := false, chain := none, run := .ready, faultVa := 0, reissue := false, counted := false
    stepDue := sl.stepDue || bitOf sl.status 1, status := putField sl.status 1 1 0 }

/-- The offset of the next instruction. -/
def State.npc (s : State) : Word := s.me.pc + word s.me.irLen

/-- The registers of the slot in execution after the writes `ws`: g0 reads 0, a later write counts, every other register is
unchanged. -/
def Registers (s t : State) (ws : List (Reg × Word)) : Prop :=
  ∀ r, t.reg r = if r = 0 then 0 else (ws.reverse.lookup r).getD (s.reg r)

/-- `t` is `s` after an instruction of the slot in execution that wrote the registers `ws` and nothing else, and went on at
`pc`. -/
structure WroteTo (s t : State) (ws : List (Reg × Word)) (pc : Word) : Prop where
  cur : t.cur = s.cur
  regs : Registers s t ws
  slot : { t.me with g := s.me.g } = s.me.went pc
  others : ∀ k, k ≠ s.cur → t.slot k = s.slot k
  rest : { t with slots := s.slots } = s

/-- The instruction completes, writes `v` to `d` and nothing else, and the next instruction follows. -/
def Gives (s : State) (i : Instr) (d : Reg) (v : Word) : Prop := ∃ t, exec i s = .next t ∧ WroteTo s t [(d, v)] s.npc

/-- The instruction completes, writes to `d` a value that meets `p` and nothing else, and the next instruction follows. -/
def GivesSome (s : State) (i : Instr) (d : Reg) (p : Word → Prop) : Prop := ∃ v, p v ∧ Gives s i d v

/-- The instruction completes, writes no register, and the thread goes on at `pc`. -/
def GoesTo (s : State) (i : Instr) (pc : Word) : Prop := ∃ t, exec i s = .next t ∧ WroteTo s t [] pc

/-- A saturating counter after `n` more events (R201). -/
def bump (v : Word) (n : Nat) : Word := word (Nat.min (v.toNat + n) 0xFFFFFFFF)

/-- How often an instruction that shows `fx` advances counter 0x060 + i: OV, UF and a NaN produced count once, every draw of
stochastic rounding counts (R201). -/
def Fx.advances (fx : Fx) : Nat → Nat
  | 0 => (bitOf fx.fl 2).toNat
  | 1 => (bitOf fx.fl 1).toNat
  | 2 => fx.nan.toNat
  | 3 => fx.draws
  | _ => 0

/-- As `WroteTo`, going on in sequence, with the flags of `fx` raised in FFLAGS (R268) and its events counted (R201). -/
structure WroteFlags (s t : State) (ws : List (Reg × Word)) (fx : Fx) : Prop where
  cur : t.cur = s.cur
  regs : Registers s t ws
  slot : { t.me with g := s.me.g } = { s.me.went s.npc with fflags := s.me.fflags ||| fx.fl.setWidth 32 }
  others : ∀ k, k ≠ s.cur → t.slot k = s.slot k
  mine : { t.core s.myCore with counters := (s.core s.myCore).counters } = s.core s.myCore
  counters : ∀ i, smGet 0 (t.core s.myCore).counters i = bump (smGet 0 (s.core s.myCore).counters i) (fx.advances i)
  cores : ∀ n, n ≠ s.myCore → t.core n = s.core n
  rest : { t with slots := s.slots, cores := s.cores } = s

/-- The instruction completes, writes `v` to `d`, shows `fx` and changes nothing else. -/
def GivesFx (s : State) (i : Instr) (d : Reg) (v : Word) (fx : Fx) : Prop :=
  ∃ t, exec i s = .next t ∧ WroteFlags s t [(d, v)] fx

/-- The same for a result without a NaN or a draw: `fl` as FFLAGS numbers it (R268). -/
def GivesFlags (s : State) (i : Instr) (d : Reg) (v : Word) (fl : BitVec 6) : Prop := GivesFx s i d v { fl := fl }

/-- What an instruction that completes does to its own thread and core: the registers `ws` are written, the thread goes on at `pc`,
and `parks` entries into PARKED are counted (R185, R201). Other threads and cores are unchanged; what else of the device
changes, the statement says. -/
structure ThreadWent (s t : State) (ws : List (Reg × Word)) (pc : Word) (parks : Nat) : Prop where
  cur : t.cur = s.cur
  regs : Registers s t ws
  slot : { t.me with g := s.me.g } = s.me.went pc
  others : ∀ k, k ≠ s.cur → t.slot k = s.slot k
  mine : { t.core s.myCore with counters := (s.core s.myCore).counters } = s.core s.myCore
  counters : ∀ i, smGet 0 (t.core s.myCore).counters i = bump (smGet 0 (s.core s.myCore).counters i) (if i = 5 then parks else 0)
  cores : ∀ n, n ≠ s.myCore → t.core n = s.core n

/-! ### Memory as accesses see it -/

/-- `n` bytes from byte `k` of the vaults, little-endian (R3, R204). -/
def vaultBytes (s : State) (k n : Nat) : Nat := ((List.range n).map fun i => (smGet 0 s.vault (k + i)).toNat * 256 ^ i).sum

/-- The byte key of offset `a` of the own vault of the slot in execution, in the interleaved order of R205. -/
def ownKey (s : State) (a : Nat) : Nat := vKey s.myUnit (interleaved a)

/-- The bytes of a general register pair or quad from `t`, lowest register first, reduced to `n` bytes (R342). -/
def registerBytes (s : State) (t : Reg) (n : Nat) : Nat :=
  ((List.range ((n + 3) / 4)).map fun i => (s.reg (t + BitVec.ofNat 5 i)).toNat * 2 ^ (32 * i)).sum % 256 ^ n

/-- The same of the cluster of core `c`. -/
def ownKeyOf (c a : Nat) : Nat := vKey (unitOf c) (interleaved a)

/-- The access of `n` bytes at offset `o` of segment `sg` passes every check of R231 and lies in the own vault below the mint
windows (R204, R219). -/
def OwnVaultAccess (s : State) (sg : Nat) (o n : Nat) (acc : Access) : Prop :=
  isBursar s.myCore = false ∧ segType (s.seg sg) = 3 ∧ segOwn (s.seg sg) = true ∧
  segTest false (s.seg sg) o n n acc = none ∧ segBase (s.seg sg) + o < 0x4000000

/-- The work cycle in which a request of the core in execution reaches bank `b` of its cluster, issued now: LOCAL to its own group's
banks, NEAR to its quadrant's, FAR to the others (R208). -/
def reachAt (s : State) (b : Nat) : Nat :=
  let g := s.myCore / 16 % 64
  let h := b % 2048 / 32
  (s.cluster s.myUnit).cycle.toNat + if g = h then 2 else if g / 16 = h / 16 then 3 else 6

/-- The requests of the core in execution for the words from key `w` on of its own vault: each with its operation and asker. -/
def ownRequests (s : State) (w n : Nat) (op : Nat → WordOp) (asker : Nat → Asker) : List BankReq :=
  (List.range n).map fun i =>
    { requester := s.myCore % 1024, word := w + i, op := op i, asker := asker i, arrive := reachAt s (bankOf (w + i)) }

/-- The requests `rs` are on their way to their banks' word ports, and no other bank has changed (R208, R209, R211). -/
structure Asks (s t : State) (rs : List BankReq) : Prop where
  banks : ∀ b, t.bank b = { s.bank b with held := (s.bank b).held ++ rs.filter fun r => bankOf r.word = b }
  hot : ∀ b, b ∈ t.hot ↔ b ∈ s.hot ∨ ∃ r ∈ rs, bankOf r.word = b

/-- The instruction has sent the requests `rs` to banks: its thread is BUSY or PARKED as `run` says, with the access `a` under way;
`parks` entries into PARKED are counted (R178, R185, R201). No byte of memory, no register and nothing else changes. -/
structure SentAccess (s t : State) (run : Run) (a : Option VaultAccess) (rs : List BankReq) (parks : Nat) : Prop where
  cur : t.cur = s.cur
  slot : t.me = { s.me with run := run, access := a }
  others : ∀ k, k ≠ s.cur → t.slot k = s.slot k
  mine : { t.core s.myCore with counters := (s.core s.myCore).counters } = s.core s.myCore
  counters : ∀ i, smGet 0 (t.core s.myCore).counters i = bump (smGet 0 (s.core s.myCore).counters i) (if i = 5 then parks else 0)
  cores : ∀ n, n ≠ s.myCore → t.core n = s.core n
  asks : Asks s t rs
  rest : { t with slots := s.slots, cores := s.cores, banks := s.banks, hot := s.hot } = s

/-- The access of slot `k` that the instruction in execution has begun, with `n` words at its banks. -/
def VaultAccess.begun (s : State) (use_ : VaultUse) (size lane n : Nat) (busy : Bool) : VaultAccess :=
  { use_ := use_, size := size, lane := lane, left := n, ready := (s.cluster s.myUnit).cycle.toNat
    issued := if busy then some (s.cluster s.myUnit).cycle.toNat else none }

/-- The word port of bank `b` grants the request `r` in this work cycle: it has arrived, it is the oldest of its requester's, and its
requester is the next one after the last granted that has one (R209). -/
def Grants (s : State) (b : Nat) (r : BankReq) : Prop :=
  let after := fun q : BankReq => (q.requester + 1024 - (s.bank b).last) % 1025
  bankOf r.word = b ∧ r.arrive ≤ bankNow s b ∧ ∃ older newer, (s.bank b).held = older ++ r :: newer ∧
    (∀ q ∈ older, q.arrive ≤ bankNow s b → after r < after q) ∧ ∀ q ∈ newer, q.arrive ≤ bankNow s b → after r ≤ after q

/-- The request has left its bank's port, which it moved on; no other bank has changed (R209). -/
def BankGranted (s t : State) (b : Nat) (r : BankReq) : Prop :=
  ∀ n, t.bank n = if n = b then { s.bank b with held := (s.bank b).held.erase r, last := r.requester } else s.bank n

/-- A vault access with one more of its words performed: its datum `v` reaches the core in work cycle `at_` (R211). -/
def VaultAccess.stepped (a : VaultAccess) (part : Nat) (v : Word) (at_ : Nat) : VaultAccess :=
  { a with
    left := a.left - 1, ready := Nat.max a.ready at_
    data := if a.use_ = .store then a.data else putField a.data (32 * part) 32 v.toNat }

/-- Slot `k`'s vault access is as `a`, and its answer is due if that was the last word and its datum is there (R211). -/
structure AccessIs (s t : State) (k : Nat) (a : VaultAccess) : Prop where
  slot : t.slot k = { s.slot k with access := some a }
  others : ∀ j, j ≠ k → t.slot j = s.slot j
  due : t.due = s.due ++ if a.left = 0 ∧ a.ready ≤ nowAt s (coreOf k) then [.replyArrival k accessId none] else []

/-- Bank `b` performs a request of slot `k`'s access for word `part`, answering `v`, and touches nothing but its word's store. -/
structure BankServes (s t : State) (b : Nat) (r : BankReq) (k part : Nat) (a : VaultAccess) (v : Word) : Prop where
  granted : BankGranted s t b r
  access : AccessIs s t k (a.stepped part v (if r.requester = 1024 then nowAt s (coreOf k) else
    nowAt s (coreOf k) + (vaultPath (coreOf k) b).2))
  others : ∀ x, x / 4 ≠ r.word → smGet 0 t.vault x = smGet 0 s.vault x
  rest : { t with slots := s.slots, banks := s.banks, vault := s.vault, verr := s.verr, due := s.due } = s

/-- A request of slot `k`'s access for word `part`, in the word port of bank `b` and granted in this work cycle. -/
def Serves (s : State) (b : Nat) (r : BankReq) (k part : Nat) (a : VaultAccess) : Prop :=
  Grants s b r ∧ r.asker = .access k part ∧ part < 4 ∧ (s.slot k).access = some a ∧ a.use_ ≠ .mint

/-- The access at offset `o` of the GLOBAL segment `sg` passes every check, translates in the core's own TLB to a page that allows
it, and is homed at slice `sl`, address `pa`, where the line is resident; the routes there and back take no detour and hold nothing
(R49, R64, R68), and the request finds room in the send queue (R231, R237 to R239, R70, R163). -/
structure ResidentAccess (s : State) (sg o n : Nat) (acc : Access) (sl pa : Nat) : Prop where
  core : isBursar s.myCore = false
  type : segType (s.seg sg) = 2
  test : segTest false (s.seg sg) o n n acc = none
  tlb : ∃ e, tlbFind (s.core s.myCore) (segBase (s.seg sg) + o) = some e ∧ leafAllows e.leaf acc = true ∧
    leafTarget s (s.partOf (dieOfCluster s.myUnit)) e.leaf (segBase (s.seg sg) + o) = some (.home sl pa)
  near : coreRouter s.myCore = sl ∨
    (routeOf s (coreRouter s.myCore) sl (s.clsOf (s.seg sg) = 0) = .there [] ∧ routeOf s sl (coreRouter s.myCore) = .there [])
  line : (sliceLine s sl (pa / 64)).valid = true
  room : (s.core s.myCore).sendReq.length < 8

/-- Thread `s.cur` has completed an access at a home: it wrote the registers `ws` and went on, with one park counted (R185, R201); its
core used a translation; other threads and cores, and everything outside the slices, are unchanged. -/
structure HomeWent (s t : State) (ws : List (Reg × Word)) (pc : Word) : Prop where
  cur : t.cur = s.cur
  regs : Registers s t ws
  slot : { t.me with g := s.me.g } = s.me.went pc
  others : ∀ k, k ≠ s.cur → t.slot k = s.slot k
  mine : { t.core s.myCore with
    counters := (s.core s.myCore).counters, tlb := (s.core s.myCore).tlb, stamp := (s.core s.myCore).stamp } = s.core s.myCore
  counters : ∀ i, smGet 0 (t.core s.myCore).counters i = bump (smGet 0 (s.core s.myCore).counters i) (if i = 5 then 1 else 0)
  cores : ∀ n, n ≠ s.myCore → t.core n = s.core n
  rest : { t with slots := s.slots, cores := s.cores, slices := s.slices, due := s.due } = s

/-- Every resident line of every slice is as before but for the order of use. -/
def SameLines (s t : State) : Prop :=
  ∀ sl line, { sliceLine t sl line with used := (sliceLine s sl line).used } = sliceLine s sl line

/-- The `n` bytes at `pa` of its line in slice `sl` hold `v`, and the line has the full/empty bits `full`; every other byte of the line
and every other line is as before but for the order of use. -/
structure LineWrote (s t : State) (sl pa n v : Nat) (full : BitVec 16) : Prop where
  valid : (sliceLine t sl (pa / 64)).valid = true
  field : fieldOf (sliceLine t sl (pa / 64)).data (8 * (pa % 64)) (8 * n) = v
  full : (sliceLine t sl (pa / 64)).full = full
  bits : ∀ b < 512, (b < 8 * (pa % 64) ∨ 8 * (pa % 64) + 8 * n ≤ b) →
    (sliceLine t sl (pa / 64)).data.getLsbD b = (sliceLine s sl (pa / 64)).data.getLsbD b
  others : ∀ sl' line, ¬ (sl' = sl ∧ line = pa / 64) →
    { sliceLine t sl' line with used := (sliceLine s sl' line).used } = sliceLine s sl' line

/-- A retry of the waiters on a word of a slice is due when its bit changed (R72). -/
def wakes (s : State) (sl pa : Nat) (full : Bool) : List Instr :=
  if bitOf (sliceLine s sl (pa / 64)).full (pa % 64 / 4) ≠ full ∧ (s.slice sl).waiters.any (fun w => w.word = pa / 4) then
    [.sliceWaiterRetry sl (pa / 4)] else []

/-! ### Integer helpers of the tables (R3, R326) -/

/-- `v` clamped to [lo, hi]. -/
def clampTo (lo hi v : Int) : Int := if v < lo then lo else if hi < v then hi else v

/-- OV, as FFLAGS shows a clamped result (R268). -/
def ovFlag (b : Bool) : BitVec 6 := if b then 4 else 0

/-- The instruction gives `v` clamped to [lo, hi] and raises OV when that clamps. -/
def GivesClamped (s : State) (i : Instr) (d : Reg) (lo hi v : Int) : Prop :=
  GivesFlags s i d (BitVec.ofInt 32 (clampTo lo hi v)) (ovFlag (decide (v < lo ∨ hi < v)))

/-! ### Floating-point results (R253, R330) -/

/-- The rational number that a finite exact value stands for. -/
def Val.toRat : Val → ℚ
  | .fin n m e _ => (if n then -1 else 1) * m * (2 : ℚ) ^ e
  | _ => 0

/-- A finite value that is exact. -/
def Val.Exact : Val → Prop
  | .fin _ _ _ st => st = false
  | _ => False

/-- The word and the effects of an operation on each lane: one FP32 value, or two values of the 16-bit format. -/
def GivesLanes (s : State) (i : Instr) (d : Reg) (p : Bool) (op : Nat → LaneOp) : Prop :=
  let lane := fun l => op l (laneFmt p s) s.rctx l
  if p then
    GivesFx s i d (BitVec.ofNat 32 ((lane 0).1 % 2 ^ 16 + 2 ^ 16 * ((lane 1).1 % 2 ^ 16)))
      { fl := (lane 0).2.fl ||| (lane 1).2.fl, draws := (lane 0).2.draws + (lane 1).2.draws, nan := (lane 0).2.nan || (lane 1).2.nan }
  else GivesFx s i d (BitVec.ofNat 32 (lane 0).1) (lane 0).2

/-! ### Traps and parks -/

/-- The slot of a thread that enters its handler: EPC, ECAUSE, EVAL and STATUS.PP are saved, EXL is set, DSTEP clears, the pc is
the vector without its bit 0, and no prefix is pending (R192). -/
def Slot.handling (sl : Slot) (cause : Nat) (eval tvec : Word) : Slot :=
  { sl with
    epc := sl.pc, ecause := BitVec.ofNat 32 cause, eval := eval
    status := (sl.pend.setWidth 32 <<< 16) ||| (sl.status &&& 0x0000FFFC) ||| 1
    pc := tvec &&& 0xFFFFFFFE, pend := 0, pv := false, chain := none, run := .ready, stepDue := false, faultVa := 0, reissue := false
    counted := false }

/-- How often a trap advances counter 0x060 + i: the trap itself, and those of DEADLINE and OVERDRAFT (R201). -/
def trapAdvances (cause i : Nat) : Nat :=
  if i = 15 ∨ (i = 14 ∧ cause = 11) ∨ (i = 13 ∧ cause = 8) then 1 else 0

/-- The ERRBITS that a trap sets in its core: MEMERR, DEADLINE and OVERDRAFT (R142). -/
def trapErrbits (cause : Nat) : Word := if cause = 7 then 4 else if cause = 11 then 8 else if cause = 8 then 32 else 0

/-- `t` is `s` after a trap of the slot in execution into its handler. -/
structure Trapped (s t : State) (cause : Nat) (eval : Word) : Prop where
  cur : t.cur = s.cur
  regs : ∀ r, t.reg r = s.reg r
  slot : t.me = s.me.handling cause eval (s.core s.myCore).tvec
  others : ∀ k, k ≠ s.cur → t.slot k = s.slot k
  mine : { t.core s.myCore with counters := (s.core s.myCore).counters } =
    { s.core s.myCore with errbits := (s.core s.myCore).errbits ||| trapErrbits cause }
  counters : ∀ i, smGet 0 (t.core s.myCore).counters i = bump (smGet 0 (s.core s.myCore).counters i) (trapAdvances cause i)
  cores : ∀ n, n ≠ s.myCore → t.core n = s.core n
  rest : { t with slots := s.slots, cores := s.cores } = s

/-- `t` is `s` after a trap of slot `k` into its handler. -/
structure TrappedAt (s t : State) (k cause : Nat) (eval : Word) : Prop where
  cur : t.cur = s.cur
  slot : t.slot k = (s.slot k).handling cause eval (s.core (coreOf k)).tvec
  others : ∀ j, j ≠ k → t.slot j = s.slot j
  mine : { t.core (coreOf k) with counters := (s.core (coreOf k)).counters } =
    { s.core (coreOf k) with errbits := (s.core (coreOf k)).errbits ||| trapErrbits cause }
  counters : ∀ i, smGet 0 (t.core (coreOf k)).counters i = bump (smGet 0 (s.core (coreOf k)).counters i) (trapAdvances cause i)
  cores : ∀ n, n ≠ coreOf k → t.core n = s.core n
  rest : { t with slots := s.slots, cores := s.cores } = s

/-- A trap of slot `k` enters its handler (R192, R193). -/
def HandlesAt (s : State) (k : Nat) : Prop := bitOf (s.slot k).status 0 = false ∧ bitOf (s.core (coreOf k)).tvec 0 = true

/-- The instruction traps into the handler of its thread. -/
def Traps (s : State) (i : Instr) (cause : Nat) (eval : Word) : Prop := ∃ t, exec i s = .next t ∧ Trapped s t cause eval

/-- A trap of this thread enters its handler: TVEC is enabled and no handler is running (R192, R193). -/
def Handles (s : State) : Prop := bitOf s.me.status 0 = false ∧ bitOf (s.core s.myCore).tvec 0 = true

/-- `t` is `s` after a trap that stops the thread (R193): EPC, ECAUSE, EVAL and PP are written only when no handler was running,
EXL keeps its value, the pc is the start of the instruction's chain, and the bursar of the die gets the stop message. -/
structure Stopped (s t : State) (cause : Nat) (eval : Word) : Prop where
  cur : t.cur = s.cur
  regs : ∀ r, t.reg r = s.reg r
  run : t.me.run = .stopped
  pc : t.me.pc = s.me.reportPc
  exl : bitOf t.me.status 0 = bitOf s.me.status 0
  kept : bitOf s.me.status 0 = true → t.me.epc = s.me.epc ∧ t.me.ecause = s.me.ecause ∧ t.me.eval = s.me.eval ∧
    fieldOf t.me.status 16 16 = fieldOf s.me.status 16 16
  saved : bitOf s.me.status 0 = false → t.me.epc = s.me.pc ∧ t.me.ecause = BitVec.ofNat 32 cause ∧ t.me.eval = eval ∧
    fieldOf t.me.status 16 16 = s.me.pend.toNat
  others : ∀ k, k ≠ s.cur → t.slot k = s.slot k
  message : ∃ m, t.due = s.due ++ (if (s.cluster s.myUnit).stopmsg = 0 then [] else
      [.messageArrive (bursarCore (dieOfCluster s.myUnit)) m]) ∧
    m.typ = (s.cluster s.myUnit).stopmsg ∧ m.words = [BitVec.ofNat 32 (s.cur % 16384), BitVec.ofNat 32 cause, s.me.reportPc]
  rest : { t with slots := s.slots, cores := s.cores, due := s.due } = s

/-- The slot in execution parks on a condition with nothing of the instruction done (R185). -/
structure ParkedOn (s t : State) (w : Wait) : Prop where
  cur : t.cur = s.cur
  slot : t.me = { s.me with run := .parked w }
  others : ∀ k, k ≠ s.cur → t.slot k = s.slot k
  mine : { t.core s.myCore with counters := (s.core s.myCore).counters } = s.core s.myCore
  parks : ∀ i, i ≠ 5 → smGet 0 (t.core s.myCore).counters i = smGet 0 (s.core s.myCore).counters i
  cores : ∀ n, n ≠ s.myCore → t.core n = s.core n
  rest : { t with slots := s.slots, cores := s.cores } = s

/-! ### One slot -/

/-- Nothing but the slot in execution differs, and it is `sl`. -/
structure OnlySlot (s t : State) (sl : Slot) : Prop where
  cur : t.cur = s.cur
  mine : t.me = sl
  others : ∀ k, k ≠ s.cur → t.slot k = s.slot k
  rest : { t with slots := s.slots } = s

/-- The instruction completes, writes `d` to s[n] and nothing else, and the next instruction follows. -/
def GivesSeg (s : State) (i : Instr) (n : Nat) (d : BitVec 128) : Prop :=
  ∃ t, exec i s = .next t ∧ OnlySlot s t { s.me.went s.npc with sg := t.me.sg } ∧ ∀ m, t.seg m = if m = n then d else s.seg m

/-- Slot `k` holds nothing of an inter-slot queue (R187). -/
def Unheld (s : State) (k : Nat) : Prop := (s.slot k).taken = [] ∧ qOwned k (s.core (coreOf k)) = false

/-- Slot `k` after its parked instruction was answered: the registers `ws` are written and the thread goes on in sequence. -/
structure Answered (s t : State) (k : Nat) (ws : List (Reg × Word)) : Prop where
  cur : t.cur = s.cur
  regs : ∀ r : Reg, regAt k r t = if r = 0 then 0 else (ws.reverse.lookup r).getD (regAt k r s)
  slot : { t.slot k with g := (s.slot k).g } = (s.slot k).went ((s.slot k).pc + word (s.slot k).irLen)
  others : ∀ j, j ≠ k → t.slot j = s.slot j

/-- The vault access `a` of slot `k` has been answered: the registers `ws` are written and the thread goes on, BUSY until its last datum
came; a datum past its slack counts as a vault miss (R178, R210, R211, R201). Nothing else changes. -/
structure Replied (s t : State) (k : Nat) (a : VaultAccess) (ws : List (Reg × Word)) : Prop where
  answered : Answered (s.modSlot k fun sl => { sl with access := none, busyUntil := a.ready }) t k ws
  mine : { t.core (coreOf k) with counters := (s.core (coreOf k)).counters } = s.core (coreOf k)
  counters : ∀ i, smGet 0 (t.core (coreOf k)).counters i =
    bump (smGet 0 (s.core (coreOf k)).counters i) (if i = 4 ∧ a.issued.any (fun c => c + 16 < a.ready) then 1 else 0)
  cores : ∀ n, n ≠ coreOf k → t.core n = s.core n
  rest : { t with slots := s.slots, cores := s.cores } = s

/-- The last word of slot `k`'s vault access has been performed without an error, and its thread holds nothing of a queue. -/
def Performed (s : State) (k : Nat) (a : VaultAccess) : Prop :=
  (s.slot k).access = some a ∧ a.left = 0 ∧ a.err = none ∧ Unheld s k

/-! ### Packets that leave an endpoint -/

/-- The packet `p` has entered its source's local input of its router; nothing else differs (R48). -/
structure PacketIn (s t : State) (p : Packet) : Prop where
  flits : let r := routerAt p.srcCol.toNat p.srcRow.toNat
    let k := inKey (16 + p.srcEp.toNat) (pairIx p.vn p.cls.toNat)
    (inBuf t r k).flits.map (·.1) = (inBuf s r k).flits.map (·.1) ++ packetFlits p ∧
    (∀ j, j ≠ k → inBuf t r j = inBuf s r j) ∧
    { t.router r with ins := (s.router r).ins, localFree := (s.router r).localFree } = s.router r ∧
    (∀ n, n ≠ r → t.router n = s.router n) ∧ ∀ n, n ∈ t.busy ↔ n ∈ s.busy ∨ n = r
  rest : { t with routers := s.routers, busy := s.busy } = s

/-- The packet `p` is the last of core `n`'s send queue of its network; the oldest one has left the queue for the core's local input if
that was empty (R163, R48). A request takes the core's next tag. Nothing else differs. -/
structure Posted (s t : State) (n : Nat) (p : Packet) : Prop where
  all : let x := s.core n
    let q := (if p.vn then x.sendRsp else x.sendReq) ++ [p]
    let h := q.headD p
    let free := (inBuf s (coreRouter n) (inKey (16 + coreEndpoint n) (pairIx h.vn h.cls.toNat))).flits = []
    let with_ := fun (l : List Packet) => if p.vn then { x with sendRsp := l } else { x with sendReq := l, nextTag := x.nextTag + 1 }
    (∀ m, m ≠ n → t.core m = s.core m) ∧
    (free → t.core n = with_ (q.drop 1) ∧ PacketIn { s with cores := t.cores } t h) ∧
    (¬ free → t.core n = with_ q ∧ { t with cores := s.cores } = s)

/-- The request of slot `k` that its core's port keeps until it is answered (R66). -/
def requestOf (s : State) (k : Nat) (p : Packet) : Request :=
  { origin := 256 * coreRouter (coreOf k) + coreEndpoint (coreOf k), slot := k, tag := p.tag, pkt := p
    since := (s.die (dieOfRouter (coreRouter (coreOf k)))).mc.toNat }

/-! ### Routers and links -/

/-- The front flit `f` of input buffer `k` has left by output `port` of router `r` (R57): the buffer, the output's open packet, its last
winner and network, and the mesh cycle of its last flit follow; other routers' buffers and links are as before. -/
structure FrontLeft (s t : State) (r port k : Nat) (f : Flit) : Prop where
  ins : let b := inBuf s r k
    let b' := { b with flits := b.flits.drop 1, last := mcAt s r }
    ∀ j, inBuf t r j =
      if j = k then (if f.last then { b' with out := none, started := false, pkt := {} } else { b' with started := true })
      else inBuf s r j
  owner : ∀ j, smGet 0 (t.router r).owner j =
    if j = 6 * port + k % 6 then (if f.last then 0 else k / 6 + 1) else smGet 0 (s.router r).owner j
  winner : ∀ j, smGet 0 (t.router r).lastWin j =
    if (inBuf s r k).started = false ∧ j = 8 * port + k % 6 then rrPlace (k / 6) else smGet 0 (s.router r).lastWin j
  network : ∀ j, smGet true (t.router r).lastVn j =
    if j = 4 * port + f.cls.toNat then f.vn else smGet true (s.router r).lastVn j
  sent : ∀ j, smGet 0 (t.router r).sent j = if j = port then mcAt s r + 1 else smGet 0 (s.router r).sent j
  ucount : ∀ j, j ≠ port → smGet 0 (t.router r).ucount j = smGet 0 (s.router r).ucount j
  router : { t.router r with
    ins := (s.router r).ins, owner := (s.router r).owner, lastWin := (s.router r).lastWin, lastVn := (s.router r).lastVn
    sent := (s.router r).sent, ucount := (s.router r).ucount, links := (s.router r).links } = s.router r
  others : ∀ n, n ≠ r → t.router n = s.router n

/-- The link at `port` of router `r` is `l`, `more` has become due, the router is looked at again if `woken`, and nothing else
differs. -/
structure LinkIs (s t : State) (r port : Nat) (l : Link) (more : List Instr) (woken : Bool := true) : Prop where
  it : ∀ k, linkOf t r k = if k = port then l else linkOf s r k
  router : { t.router r with links := (s.router r).links } = s.router r
  others : ∀ n, n ≠ r → t.router n = s.router n
  due : t.due = s.due ++ more
  busy : ∀ n, n ∈ t.busy ↔ n ∈ s.busy ∨ (woken = true ∧ n = r)
  rest : { t with routers := s.routers, due := s.due, busy := s.busy } = s

/-- Both ends of the link at `port` of router `r`, of which a link that leaves the device has one, have changed by `f` (R64); a change
that is `logged` has reached the logs of their dies as R126 says. -/
structure EndsBecome (s t : State) (r port : Nat) (f : Link → Link) (more : List Instr) (woken logged : Bool) : Prop where
  ends : ∀ n q, linkOf t n q =
    if (n = r ∧ q = port) ∨ (neighbour r port = some n ∧ q = oppPort port) then f (linkOf s n q) else linkOf s n q
  routers : ∀ n, { t.router n with links := (s.router n).links } = s.router n
  logs : t.dies = if logged then
      ((neighbour r port).toList.foldl (fun u n => logLink n (oppPort port) u) (logLink r port { t with dies := s.dies })).dies
    else s.dies
  due : t.due = s.due ++ more
  busy : ∀ n, n ∈ t.busy ↔ n ∈ s.busy ∨ (woken = true ∧ (n = r ∨ neighbour r port = some n))
  rest : { t with routers := s.routers, due := s.due, busy := s.busy, dies := s.dies } = s

/-- Input buffer `k` of router `r` is `b`, and nothing else differs. -/
structure BufferIs (s t : State) (r k : Nat) (b : InBuf) : Prop where
  it : ∀ j, inBuf t r j = if j = k then b else inBuf s r j
  router : { t.router r with ins := (s.router r).ins } = s.router r
  others : ∀ n, n ≠ r → t.router n = s.router n
  rest : { t with routers := s.routers } = s

/-- The event cannot go on now and is due again in the next work cycle; nothing else changes. -/
def Defers (s : State) (e : Instr) : Prop := exec e s = .next { s with later := s.later ++ [e] }

/-- The flits `fs` have entered an endpoint's buffer `k` of the local input of router `r`; nothing else differs (R48). -/
structure FlitsIn (s t : State) (r k : Nat) (fs : List Flit) : Prop where
  flits : (inBuf t r k).flits.map (·.1) = (inBuf s r k).flits.map (·.1) ++ fs
  front : { inBuf t r k with flits := [], part := none, drop := false } = { inBuf s r k with flits := [], part := none, drop := false }
  buffers : ∀ j, j ≠ k → inBuf t r j = inBuf s r j
  router : { t.router r with ins := (s.router r).ins, localFree := (s.router r).localFree } = s.router r
  others : ∀ n, n ≠ r → t.router n = s.router n
  busy : ∀ n, n ∈ t.busy ↔ n ∈ s.busy ∨ n = r
  rest : { t with routers := s.routers, busy := s.busy } = s

/-! ### Matrix engines -/

/-- `n` bytes from natural offset `a` of the own vault (R205), as the words of `f` hold them. -/
def bytesOf (s : State) (f : Nat → Word) (a n : Nat) : Nat :=
  ((List.range n).map fun i => (f (ownKey s (a + i) / 4)).toNat / 256 ^ (ownKey s (a + i) % 4) % 256 * 256 ^ i).sum

/-- The group of the slot in execution. -/
def State.myGroup (s : State) : Nat := groupOf s.myCore

/-- The state with a command under way in the group's engine. -/
def State.taking (s : State) (c : MCmd) : State := s.modMyEngine fun e => { e with cmd := some c }

/-- The state with other words in escrow. -/
def State.escrowed (s : State) (m : SMap Word) : State := s.modMyEngine fun e => { e with escrow := m }

/-- The slot's group has an engine, and a new command stands at the head of its order (R272, R279). -/
def EngineFree (s : State) : Prop :=
  isBursar s.myCore = false ∧ s.myEngine.queue = [] ∧ s.myEngine.cmd = none ∧ s.myEngine.io = {} ∧
  s.myEngine.arrivals = s.myEngine.rsn

/-- What every command captures at issue: formats, rounding and random key, and x0 to x2 (R366). -/
def commandIn (s : State) (op : MOp) : MCmd :=
  { op := op, slot := s.cur, x0 := s.xreg 0, x1 := s.xreg 1, x2 := s.xreg 2, fa := s.fmtA, fb := s.fmtB, rnd := s.rndMode
    key := srKey s.myCore s, widLo := s.me.widLo }

/-- The command of a matrix or block conversion instruction (R364 to R387). -/
def commandOf (s : State) (i : Instr) : Option MCmd :=
  let plain := commandIn s
  let rows := fun (op : MOp) (a : Reg) (g : BitVec 3) => ({ commandIn s op with seg := s.seg g.toNat, off := s.reg a } : MCmd)
  let own := fun (op : MOp) (a : Reg) => ({ commandIn s op with off := s.reg a } : MCmd)
  let two := fun (fn : Nat) (d a b : Reg) (g e : BitVec 3) =>
    ({ rows (.cvt fn) a g with seg2 := s.seg e.toNat, off2 := s.reg d, gb := s.reg b } : MCmd)
  match i with
  | .mzero t => plain (.zero t)
  | .mmovt t u => plain (.movt t u)
  | .mtran t u => plain (.tran t u)
  | .mrsn d => plain (.rsn d)
  | .mring => plain .ring
  | .mldb a g => rows .ldb a g
  | .mldsA a g => rows (.lds false) a g
  | .mldsB a g => rows (.lds true) a g
  | .mwra t a g => rows (.wra t) a g
  | .mma t a g => rows (.mma 0 t) a g
  | .mmas t a g => rows (.mma 1 t) a g
  | .mmaz t a g => rows (.mma 2 t) a g
  | .mepiAdd t u b => plain (.epi2 0 t u b)
  | .mepiMul t u b => plain (.epi2 1 t u b)
  | .mepiMax t u b => plain (.epi2 2 t u b)
  | .mepiScale t u a => own (.epiScale t u) a
  | .mepiBiasRow t u a => own (.epiBias false t u) a
  | .mepiBiasCol t u a => own (.epiBias true t u) a
  | .mepiExp2 t u => plain (.epi1 5 t u)
  | .mepiSigmoid t u => plain (.epi1 6 t u)
  | .mepiSilu t u => plain (.epi1 7 t u)
  | .mepiTanh t u => plain (.epi1 8 t u)
  | .mepiRecip t u => plain (.epi1 9 t u)
  | .mepiRsqrt t u => plain (.epi1 10 t u)
  | .mstt u a g => rows (.stt false u) a g
  | .msttF u a g => rows (.stt true u) a g
  | .mredRowmax u a n => own (.red 0 n u) a
  | .mredRowsum u a n => own (.red 1 n u) a
  | .mredColmax u a n => own (.red 2 n u) a
  | .mredColsum u a n => own (.red 3 n u) a
  | .mpotrf t a => own (.potrf t) a
  | .mgetrf t a => own (.getrf t) a
  | .mtrsm t u a o r q p => own (.trsm p q r o.toNat t u) a
  | .mdelta a => own .delta a
  | .mshiftDup a => own (.shift false) a
  | .mshiftZero a => own (.shift true) a
  | .mqnt u a g => rows (.qnt u) a g
  | .mdqnt t a g => rows (.dqnt t) a g
  | .cvtblk d a b g e => two 0 d a b g e
  | .cvtunb d a b g e => two 1 d a b g e
  | .cvtv d a g e => two 2 d a 0 g e
  | _ => none

/-- The instruction takes an FMT prefix (R364 to R387). -/
def MOp.takesFmt : MOp → Bool
  | .ldb | .wra _ | .mma .. | .stt .. | .potrf _ | .getrf _ | .trsm .. | .qnt _ | .dqnt _ | .cvt _ => true
  | _ => false

/-- The first of the tests of a command at issue that fails: its cause and EVAL (R274, R283, R366, R370 to R378, R385 to R387). -/
def issueTest (s : State) (c : MCmd) : Option (Nat × Word) :=
  let k := c.x0.toNat % 2 ^ 7
  let matrix := fun (l : List (Bool × Nat)) => (l.find? (·.1)).map fun p => (12, BitVec.ofNat 32 p.2)
  let rows := fun (n len : Nat) (acc : Access) => rowsTest false c.seg c.off.toNat n c.x1.toNat len acc
  let range := fun (top : Nat) => if c.off.toNat % 4 ≠ 0 then some (5, c.off) else if top < c.off.toNat + 64 then some (3, c.off) else none
  let lies := fun (v : Word) (n : Nat) => v.toNat % 4 = 0 ∧ v.toNat + n ≤ 0x4000000
  let cx := fun (t : Tile) => (c.fa = 13 ∨ c.fa = 14) ∧ t.toNat % 2 = 1
  let odd := k % 2 = 1 ∧ (c.fa = 9 ∨ c.fa = 12 ∨ c.fb = 9 ∨ c.fb = 12)
  let solver := fun (ts : List Tile) (n : Nat) => matrix [(decide (c.fa ≠ 0 ∧ c.fa ≠ 14), 1),
    (decide (c.fa = 14 ∧ ∃ t ∈ ts, t.toNat % 2 = 1), 3), (decide ¬ lies c.off n, 7)]
  let blocks := fun (acc : Access) (t : Tile) => (firstTest [rows (if isBlocked c.fa then 16 else 0) (4 * elemBits c.fa) acc,
    if isMx c.fa then bytesTest false c.seg (c.off.toNat + c.x2.toNat) 16 acc else none]).or
      (matrix [(!isBlocked c.fa, 1), (decide (t.toNat % 2 = 1), 3)])
  match c.op with
  | .ring => matrix [(decide (∀ l, launchOf s s.myCore = some l → l.ng < 16 * (s.myGroup % 64 / 16 + 1)), 6)]
  | .ldb => (rows (if c.fb = 15 then k / 32 else k) (if c.fb = 15 then 512 else 2 * elemBits c.fb) aEngR).or
      (matrix [(kBad c.fb k, 2)])
  | .lds _ => rowsTest false c.seg c.off.toNat 1 0 32 aEngR
  | .wra _ => (rows (if c.fa ≤ 2 then 16 else 0) (2 * elemBits c.fa) aEngR).or (matrix [(decide (2 < c.fa), 1)])
  | .mma _ t => (rows (if k = 0 then 0 else 16) (k * elemBits c.fa / 8) aEngR).or
      (matrix [(!pairOk c.fa c.fb, 1), (kBad c.fa k || kBad c.fb k || decide odd, 2), (decide (cx t), 3)])
  | .epiBias .. => range 0x8000000
  | .red .. => range 0x4000000
  | .stt full t => (rows (if sttOk c.fa then 16 else 0) (2 * elemBits c.fa) (if full then aEngF else aEngW)).or
      (matrix [(!sttOk c.fa, 1), (decide (cx t), 3)])
  | .potrf t => solver [t] 4
  | .getrf t => solver [t] 20
  | .trsm _ _ _ _ t u => solver [t, u] 4
  | .delta => matrix [(decide ¬ (lies c.off 4 ∧ lies c.x0 8 ∧ lies c.x1 16), 7)]
  | .shift _ => matrix [(decide ¬ (lies c.off 4 ∧ lies c.x0 8), 7)]
  | .qnt t => blocks aEngW t
  | .dqnt t => blocks aEngR t
  | .cvt fn =>
    let ok := if fn = 0 then isWide c.fb && isBlocked c.fa else if fn = 1 then isBlocked c.fb && isWide c.fa else isVec c.fb && isVec c.fa
    let n := if fn = 2 then c.x0.toNat else 32 * c.x0.toNat
    let mx := (fn = 0 && isMx c.fa) || (fn = 1 && isMx c.fb)
    let one := if ok && n ≠ 0 then 1 else 0
    (firstTest [rowsTest false c.seg c.off.toNat one 0 (n * elemBits c.fb / 8) aEngR,
      rowsTest false c.seg2 c.off2.toNat one 0 (n * elemBits c.fa / 8) aEngW,
      if mx && one = 1 then
        if fn = 0 then bytesTest false c.seg2 c.gb.toNat c.x0.toNat aEngW else bytesTest false c.seg c.gb.toNat c.x0.toNat aEngR
      else none]).or (matrix [(!ok, 1), (decide (c.x0 = 0 ∨ (if fn = 2 then 1024 else 32) < c.x0.toNat ∨
        (fn = 2 ∧ c.x0.toNat % 2 = 1 ∧ (c.fa = 12 ∨ c.fb = 12))), 2)])
  | _ => none

/-- The instruction's command is `c`, no prefix refuses it, and a register that must be g0 is (R305, R387). -/
def Commands (s : State) (i : Instr) (c : MCmd) : Prop :=
  commandOf s i = some c ∧ (s.me.pend = 0 ∨ c.op.takesFmt = true) ∧ FmtOnly s ∧ isBursar s.myCore = false ∧
  ∀ d a b g e, (i = .cvtblk d a b g e → isMx s.fmtA = false → b = 0) ∧ (i = .cvtunb d a b g e → isMx s.fmtB = false → b = 0)

/-- In `w` the thread of command `c` is parked on its engine, which takes the command from the head of its queue or goes on with it, in
the state `s` (R272, R273). -/
structure Waits (w s : State) (c : MCmd) : Prop where
  parked : (w.slot c.slot).run = .parked .matrix
  idle : s.myEngine.io.want = 0 ∧ s.myEngine.io.writing = false ∧ s.myEngine.io.puts = [] ∧ s.myEngine.io.err = none
  held : Unmapped s
  state :
    let go := fun (w : State) => { w.modSlot c.slot fun sl => { sl with run := .ready } with cur := c.slot }
    (s.myEngine.cmd = some c ∧ s = go w) ∨
    (s.myEngine.cmd = none ∧ s.myEngine.io = {} ∧ s.myEngine.arrivals = s.myEngine.rsn ∧
      ∃ q, (w.engine s.myGroup).queue = c :: q ∧ s = go (w.modEngine s.myGroup fun e => { e with queue := q }))

/-- The engine performs command `c` in the state `s`, with the outcome `p`: at the issue of each instruction whose command it is and
whose tests pass, with one park of its thread, and when the engine takes it or goes on with it (R272, R273). -/
def Runs (s : State) (c : MCmd) (p : State → Nat → Prop) : Prop :=
  (∀ i, Commands s i c → issueTest s c = none → EngineFree s → ∃ t, exec i s = .next t ∧ p t 1) ∧
  ∀ w, Waits w s c → ∃ t, exec (.matrixCommandTaken s.myGroup) w = .next { t with cur := w.cur } ∧ p t 0

/-- The engine after it has answered its command (R273). -/
def Engine.answered (e : Engine) : Engine := { e with cmd := none, io := {} }

/-- The event that its queue lets follow. -/
def queueNext (s : State) : List Instr := if s.myEngine.queue = [] then [] else [.matrixCommandTaken s.myGroup]

/-- The engine has performed a command that writes only its own state: it is as `e`, and the command, with what it shows, waits to
retire (R273). -/
structure EngineDid (s t : State) (ws : List (Reg × Word)) (e : Engine) (shows : Word) (parks : Nat) : Prop where
  went : ThreadWent s t ws s.npc parks
  engine : t.engine s.myGroup = { e.answered with retiring := s.myEngine.retiring ++ [(s.cur, shows)] }
  engines : ∀ n, n ≠ s.myGroup → t.engine n = s.engine n
  due : t.due = s.due ++ .matrixRetire s.myGroup :: queueNext s
  rest : { t with slots := s.slots, cores := s.cores, engines := s.engines, due := s.due } = s

/-- A command that writes vault or memory, or a solver command, has committed and retires: its thread goes on with the flags of `fx`
shown, and the engine, otherwise unchanged, goes on (R273, R268). -/
structure EngineRetires (s t : State) (fx : Fx) (parks : Nat) : Prop where
  cur : t.cur = s.cur
  regs : ∀ r, t.reg r = s.reg r
  slot : { t.me with g := s.me.g } = { s.me.went s.npc with fflags := s.me.fflags ||| fx.fl.setWidth 32 }
  others : ∀ k, k ≠ s.cur → t.slot k = s.slot k
  mine : { t.core s.myCore with counters := (s.core s.myCore).counters } = s.core s.myCore
  counters : ∀ i, smGet 0 (t.core s.myCore).counters i =
    bump (smGet 0 (s.core s.myCore).counters i) (fx.advances i + if i = 5 then parks else 0)
  cores : ∀ n, n ≠ s.myCore → t.core n = s.core n
  engine : t.engine s.myGroup = s.myEngine.answered
  engines : ∀ n, n ≠ s.myGroup → t.engine n = s.engine n
  due : t.due = s.due ++ queueNext s
  rest : { t with slots := s.slots, cores := s.cores, engines := s.engines, due := s.due } = s

/-- A command ends in a trap: its thread enters its handler, and the engine, otherwise unchanged, goes on (R273, R283). -/
structure EngineTraps (s t : State) (cause : Nat) (eval : Word) (parks : Nat) : Prop where
  cur : t.cur = s.cur
  slot : t.me = s.me.handling cause eval (s.core s.myCore).tvec
  others : ∀ k, k ≠ s.cur → t.slot k = s.slot k
  mine : { t.core s.myCore with counters := (s.core s.myCore).counters } =
    { s.core s.myCore with errbits := (s.core s.myCore).errbits ||| trapErrbits cause }
  counters : ∀ i, smGet 0 (t.core s.myCore).counters i =
    bump (smGet 0 (s.core s.myCore).counters i) (trapAdvances cause i + if i = 5 then parks else 0)
  cores : ∀ n, n ≠ s.myCore → t.core n = s.core n
  engine : t.engine s.myGroup = { s.myEngine.answered with escrow := (t.engine s.myGroup).escrow }
  engines : ∀ n, n ≠ s.myGroup → t.engine n = s.engine n
  due : t.due = s.due ++ queueNext s
  rest : { t with slots := s.slots, cores := s.cores, engines := s.engines, due := s.due } = s

/-- Tiles `td`, …, `td + n - 1` hold the words of `f`, the others as before. -/
def TilesAre (s t : State) (td n : Nat) (f : Nat → Nat → Word) : Prop :=
  ∀ u k, k < 256 → (t.engine s.myGroup).tileAt u k = if td ≤ u ∧ u < td + n then f (u - td) k else s.myEngine.tileAt u k

/-- A command whose reads lead from `s` to `u` writes `n` tiles from `td` on and shows flags, and nothing else. -/
def GivesTiles (s u : State) (c : MCmd) (td n : Nat) (f : Nat → Nat → Word) (shows : Word → Prop) : Prop :=
  Runs s c fun t parks => ∃ w, shows w ∧ TilesAre u t td n f ∧
    EngineDid u t [] { u.myEngine with tiles := (t.engine s.myGroup).tiles } w parks

/-- The reads of a command succeed and leave the state `u` (R367). -/
def Reads (x : M Nat) (s : State) (v : Nat) (u : State) : Prop :=
  x s = .ok v u ∧ u.cur = s.cur ∧ Unmapped u

/-- The engine has not begun to write. -/
def NoPuts (s : State) : Prop := s.myEngine.io.puts = []

/-- A range of the own vault below the mint windows (R204, R219). -/
def OwnRange (d : BitVec 128) (o rows pitch len : Nat) : Prop :=
  segType d = 3 ∧ segOwn d = true ∧ segBase d + o + (rows - 1) * pitch + len ≤ 0x4000000

/-- The bytes of the own vault that rows of an operand cover. -/
def covers (s : State) (d : BitVec 128) (o rows pitch len k : Nat) : Prop :=
  ∃ r < rows, ∃ b < len, k = ownKey s (segBase d + o + r * pitch + b)

/-- The bytes of a row operand, rows ascending, as the words of `f` hold them. -/
def operandBits (s : State) (f : Nat → Word) (d : BitVec 128) (o rows pitch len : Nat) : Nat :=
  ((List.range rows).map fun r => bytesOf s f (segBase d + o + r * pitch) len * 2 ^ (8 * len * r)).sum

/-- The engine holds the words of `f`, read from its vault, for the bytes that `p` names (R207). -/
def HoldsWords (s : State) (f : Nat → Word) (p : Nat → Prop) : Prop :=
  ∀ k, p k → s.myEngine.io.got.lookup (k / 4) = some (some (f (k / 4)))

/-- The operand lies wholly in the group-local view of the group's own banks: the line ports serve it, else the mesh does (R366). -/
def usesLines (s : State) (d : BitVec 128) (o rows pitch len : Nat) : Bool :=
  let lo := 0x2000000 + s.myGroup % 64 * 0x80000
  (List.range rows).all fun r => lo ≤ segBase d + o + r * pitch && segBase d + o + r * pitch + len ≤ lo + 0x80000

/-- The own cluster's remote ports take a packet of this class from the group's router, and their replies come back (R217, R64, R67). -/
def PortsOpen (s : State) (bulk : Bool) : Prop :=
  ∀ r, r / 64 = s.myUnit → portFull s r = false ∧
    (r = s.myGroup ∨ (routeOf s s.myGroup r bulk = .there [] ∧ routeOf s r s.myGroup = .there []))

/-- Two words agree in the bytes of a mask. -/
def SameBytes (m : BitVec 4) (x y : Word) : Prop := ∀ j < 4, bitOf m j = true → fieldOf x (8 * j) 8 = fieldOf y (8 * j) 8

/-- Word `w` as bytes at keys give it: the mask of the bytes given, and the word. -/
def putOf (f : Nat → Option Byte) (w : Nat) : BitVec 4 × Word :=
  (BitVec.ofNat 4 ((List.range 4).map fun i => if (f (4 * w + i)).isSome then 2 ^ i else 0).sum,
    BitVec.ofNat 32 ((List.range 4).map fun i => ((f (4 * w + i)).getD 0).toNat * 256 ^ i).sum)

/-- The bytes that storing row `r` as the number `v r` gives at keys; of rows that overlap the later one counts (R366). -/
def rowBytes (s : State) (d : BitVec 128) (o rows pitch len : Nat) (v : Nat → Nat) (k : Nat) : Option Byte :=
  ((List.range rows).reverse.flatMap fun r => (List.range len).map fun i =>
    (ownKey s (segBase d + o + r * pitch + i), BitVec.ofNat 8 (v r / 256 ^ i))).lookup k

/-- Engine `e` of unit `u` has asked, for its command or its copy `job`, for the words `w` whose mask `(put w).1` is not 0: `n` accesses
of the line ports, one for the bytes asked of each bank and four rows, which take part from the next work cycle on; or one
request for each word by way of the remote ports (R207, R217). -/
structure AsksWords (s t : State) (u e job n : Nat) (far write full : Bool) (put : Nat → BitVec 4 × Word) : Prop where
  near : far = false → ∃ rs : List (Nat × LineReq), rs.length = n ∧ (rs.map fun r => (r.1, r.2.row)).Nodup ∧
    (∀ b, t.bank b = { s.bank b with lineHeld := (s.bank b).lineHeld ++ (rs.filter fun r => r.1 = b).map (·.2) }) ∧
    (∀ w, (put w).1 ≠ 0 → ∃ r ∈ rs, r.1 = bankOf w ∧ r.2.row = rowOf w / 4 * 4) ∧
    ∀ b r, (b, r) ∈ rs → r.engine = e ∧ r.job = job ∧ r.write = write ∧ r.setFull = full ∧ r.arrive = bankNow s b + 1 ∧ r.row % 4 = 0 ∧
      r.mask ≠ 0 ∧ ∀ l < 4,
        let w := lineKey b r.row (4 * l) / 4
        BitVec.ofNat 4 (fieldOf r.mask (4 * l) 4) = (put w).1 ∧ SameBytes (put w).1 (BitVec.ofNat 32 (fieldOf r.data (32 * l) 32)) (put w).2
  far : far = true → ∃ rs : List BankReq, rs.length = n ∧ (rs.map (·.word)).Nodup ∧
    (∀ b, t.bank b = { s.bank b with held := (s.bank b).held ++ rs.filter fun r => bankOf r.word = b }) ∧
    (∀ w, (put w).1 ≠ 0 → ∃ r ∈ rs, r.word = w) ∧
    ∀ r ∈ rs, (put r.word).1 ≠ 0 ∧ r.requester = 1024 ∧ r.asker = .engine u e job r.word ∧ r.arrive = bankNow s (bankOf r.word) ∧
      match r.op with
      | .read => write = false
      | .write m x => write = true ∧ full = false ∧ m = (put r.word).1 ∧ SameBytes m x (put r.word).2
      | .fe code x => write = true ∧ full = true ∧ code = 3 ∧ x = (put r.word).2
      | _ => False
  hot : ∀ b, b ∈ t.hot ↔ b ∈ s.hot ∨ ∃ w, bankOf w = b ∧ (put w).1 ≠ 0

/-- The engine goes on to wait for words: its thread is parked on it, it is as `x` with the accesses `io` under way, and nothing else
differs but the ports it has asked (R207, R273). -/
structure EngineAsks (s t : State) (x : Engine) (io : LineIO) (far write full : Bool) (put : Nat → BitVec 4 × Word) (parks : Nat) :
    Prop where
  cur : t.cur = s.cur
  slot : t.me = { s.me with run := .parked .matrix }
  others : ∀ k, k ≠ s.cur → t.slot k = s.slot k
  mine : { t.core s.myCore with counters := (s.core s.myCore).counters } = s.core s.myCore
  counters : ∀ i, smGet 0 (t.core s.myCore).counters i = bump (smGet 0 (s.core s.myCore).counters i) (if i = 5 then parks else 0)
  cores : ∀ n, n ≠ s.myCore → t.core n = s.core n
  engine : ∃ n, t.engine s.myGroup = { x with io := { io with want := n } } ∧
    AsksWords s t (s.myGroup / 64) (s.myGroup % 64) 0 n far write full put
  engines : ∀ n, n ≠ s.myGroup → t.engine n = s.engine n
  rest : { t with slots := s.slots, cores := s.cores, engines := s.engines, banks := s.banks, hot := s.hot } = s

/-- Command `c` first asks for the words it does not hold of the vault bytes that `p` names, having changed nothing else (R207, R367). -/
def AsksToRead (s : State) (c : MCmd) (far : Bool) (p : Nat → Prop) : Prop :=
  Runs s c fun t parks => ∃ put : Nat → BitVec 4 × Word,
    (∀ w, let asked := (∃ k, p k ∧ k / 4 = w) ∧ s.myEngine.io.got.lookup w = none
      (asked → put w = (15, 0)) ∧ (¬ asked → put w = (0, 0))) ∧
    EngineAsks (s.taking c) t { s.myEngine with cmd := some c } s.myEngine.io far false false put parks

/-- A command whose reads lead from `s` to `u` stores the words `put` of its vault, and waits for them; `late` are the status words it
will store after them, and `fx` is what it will show (R207, R273, R286, R367). Its tiles are now `tiles`. -/
def Stores (s u : State) (c : MCmd) (far full : Bool) (put : Nat → BitVec 4 × Word) (late : List LinePut) (tiles : State → SMap Word)
    (fx : Fx) : Prop :=
  Runs s c fun t parks => EngineAsks u t { u.myEngine with tiles := tiles t }
    { u.myEngine.io with puts := late, writing := true, fx := packFx fx } far true full put parks

/-! ### Budget timers -/

/-- The decrements of the thread's timer up to WB of the instruction, 7 wc after its issue: one in each work cycle from its start on,
while it counts (R189, R363). -/
def timerTaken (s : State) : Nat :=
  let x := smGet {} (s.cluster s.myUnit).timers (s.me.dlstat.toNat % 2 ^ 4)
  if x.armed && !x.msgwait then nowAt s s.myCore + 8 - Nat.max x.start (nowAt s s.myCore) else 0

/-- The thread's timer counts, and has reached 0 in WB. -/
def timerGone (s : State) : Bool :=
  let x := smGet {} (s.cluster s.myUnit).timers (s.me.dlstat.toNat % 2 ^ 4)
  bitOf s.me.dlstat 4 && x.armed && !x.msgwait && decide (x.count.toNat ≤ timerTaken s)

/-- The thread holds a timer in WB. -/
def timerHeld (s : State) : Bool := bitOf s.me.dlstat 4 && !timerGone s

/-- DLSTAT in WB: a timer that has reached 0 has set EXPIRED and cleared ARMED, MSGWAIT and WAITX (R190, R191). -/
def timerStatus (s : State) : Word := if timerGone s then s.me.dlstat &&& 0xFFFFFF2F ||| 0x20 else s.me.dlstat

/-- What the thread's timer has left in WB, 0 without one. -/
def timerCount (s : State) : Word :=
  if timerHeld s then BitVec.ofNat 32 ((smGet {} (s.cluster s.myUnit).timers (s.me.dlstat.toNat % 2 ^ 4)).count.toNat - timerTaken s) else 0

/-! ### Bulk copy engines -/

/-- Copy `c` has left engine `g`, a code other than 0 in ERRBITS; a BCANCEL that waited for it alone has ended with its count, one that
waits for others goes on waiting, and a queued copy may be accepted (R382 to R384). -/
structure CopyDropped (s t : State) (g : Nat) (c : Copy) (code : Nat) : Prop where
  cur : t.cur = s.cur
  bulk : ∀ n, t.bulkOf n =
    if n = g then { s.bulkOf g with copies := (s.bulkOf g).copies.filter fun x => x.id ≠ c.id } else s.bulkOf n
  others : ∀ k, (k / 256 = g → ∀ ids n d, (s.slot k).run ≠ .parked (.cancel ids n d)) → t.slot k = s.slot k
  waits : ∀ k ids n d, k / 256 = g → (s.slot k).run = .parked (.cancel ids n d) → ids ≠ [c.id] →
    t.slot k = { s.slot k with run := .parked (.cancel (ids.filter (· ≠ c.id)) n d) }
  ends : ∀ k n d, k / 256 = g → (s.slot k).run = .parked (.cancel [c.id] n d) → Unheld s k →
    (∀ r : Reg, regAt k r t = if r = 0 then 0 else if r = d then BitVec.ofNat 32 n else regAt k r s) ∧
    { t.slot k with g := (s.slot k).g } = (s.slot k).went ((s.slot k).pc + word (s.slot k).irLen)
  cores : ∀ n, { t.core n with queues := (s.core n).queues } =
    if n = coreOf c.slot ∧ code ≠ 0 then { s.core n with errbits := (s.core n).errbits ||| 16 } else s.core n
  due : t.due = s.due ++ if (s.bulkOf g).copies.any fun x => x.id ≠ c.id && !x.accepted then [.copyAccept g] else []
  rest : { t with slots := s.slots, cores := s.cores, bulk := s.bulk, due := s.due } = s

/-- Copy `c` of engine `g` becomes `c'`, and nothing else differs but its bank ports. -/
structure CopyBecomes (s t : State) (g : Nat) (c c' : Copy) : Prop where
  bulk : ∀ n, t.bulkOf n =
    if n = g then { s.bulkOf g with copies := (s.bulkOf g).copies.map fun x => if x.id = c.id then c' else x } else s.bulkOf n
  rest : { t with bulk := s.bulk, banks := s.banks, hot := s.hot } = s

/-- Copy `c` has ended with `code`: it leaves, or its completion word is on its way to its bank, to be stored and set full (R382). -/
def CopyEnds (s t : State) (g : Nat) (c : Copy) (code : Nat) : Prop :=
  (c.comp = none → CopyDropped s t g c code) ∧
  ∀ v, c.comp = some v → ∃ n,
    let cores := fun (u : State) => ∀ m, u.core m =
      if m = coreOf c.slot ∧ code ≠ 0 then { s.core m with errbits := (s.core m).errbits ||| 16 } else s.core m
    let w := ownKeyOf (coreOf c.slot) v / 4
    cores t ∧ CopyBecomes { s with cores := t.cores } t g c { c with ending := some code, io := { want := n, writing := true } } ∧
    AsksWords s t (g / 64) (64 + g % 64) c.id n false true true fun k => if k = w then (15, BitVec.ofNat 32 code) else (0, 0)

/-- The words that a list of writes stores, each once, with their masks. -/
def PutsAre (l : List LinePut) (far full : Bool) (put : Nat → BitVec 4 × Word) : Prop :=
  (l.map (·.word)).Nodup ∧ (∀ w, (put w).1 ≠ 0 → ∃ p ∈ l, p.word = w) ∧
  ∀ p ∈ l, p.far = far ∧ p.late = false ∧ p.setFull = full ∧ p.mask = (put p.word).1 ∧ p.mask ≠ 0 ∧ SameBytes p.mask p.data (put p.word).2

/-- The bytes of the own vault from address `a` on, `n` of them. -/
def spanOf (s : State) (a n k : Nat) : Prop := ∃ i < n, k = ownKey s (a + i)

/-- The bytes that storing the low `n` bytes of `v` at address `a` of the own vault gives at keys. -/
def spanBytes (s : State) (a n v : Nat) (k : Nat) : Option Byte :=
  ((List.range n).map fun i => (ownKey s (a + i), BitVec.ofNat 8 (v / 256 ^ i))).lookup k

/-! ### One record of the device -/

/-- Nothing but controller `k` differs, which is `x`, and `more` has become due. -/
structure OnlyCtlAt (s t : State) (k : Nat) (x : Ctl) (more : List Instr) : Prop where
  it : t.ctl k = x
  others : ∀ n, n ≠ k → t.ctl n = s.ctl n
  due : t.due = s.due ++ more
  rest : { t with ctls := s.ctls, due := s.due } = s

/-- The event makes controller `k` into `x`, lets `more` be due, and changes nothing else. -/
def CtlBecomes (s : State) (e : Instr) (k : Nat) (x : Ctl) (more : List Instr) : Prop :=
  ∃ t, exec e s = .next t ∧ OnlyCtlAt s t k x more

/-- Nothing but slice `k` differs, which is `x`, and `more` has become due. -/
structure OnlySliceAt (s t : State) (k : Nat) (x : Slice) (more : List Instr) : Prop where
  it : t.slice k = x
  others : ∀ n, n ≠ k → t.slice n = s.slice n
  due : t.due = s.due ++ more
  rest : { t with slices := s.slices, due := s.due } = s

/-- The event makes slice `k` into `x`, lets `more` be due, and changes nothing else. -/
def SliceBecomes (s : State) (e : Instr) (k : Nat) (x : Slice) (more : List Instr) : Prop :=
  ∃ t, exec e s = .next t ∧ OnlySliceAt s t k x more

/-- Nothing but router `k` differs, which is `x`, and `more` has become due. -/
structure OnlyRouterAt (s t : State) (k : Nat) (x : Router) (more : List Instr) : Prop where
  it : t.router k = x
  others : ∀ n, n ≠ k → t.router n = s.router n
  due : t.due = s.due ++ more
  rest : { t with routers := s.routers, due := s.due } = s

/-- The event makes router `k` into `x`, lets `more` be due, and changes nothing else. -/
def RouterBecomes (s : State) (e : Instr) (k : Nat) (x : Router) (more : List Instr) : Prop :=
  ∃ t, exec e s = .next t ∧ OnlyRouterAt s t k x more

/-- Nothing but die `k` differs, which is `x`, and `more` has become due. -/
structure OnlyDieAt (s t : State) (k : Nat) (x : Die) (more : List Instr) : Prop where
  it : t.die k = x
  others : ∀ n, n ≠ k → t.die n = s.die n
  due : t.due = s.due ++ more
  rest : { t with dies := s.dies, due := s.due } = s

/-- The event makes die `k` into `x`, lets `more` be due, and changes nothing else. -/
def DieBecomes (s : State) (e : Instr) (k : Nat) (x : Die) (more : List Instr) : Prop :=
  ∃ t, exec e s = .next t ∧ OnlyDieAt s t k x more

/-- Nothing but cluster `k` differs, which is `x`, and `more` has become due. -/
structure OnlyClusterAt (s t : State) (k : Nat) (x : Cluster) (more : List Instr) : Prop where
  it : t.cluster k = x
  others : ∀ n, n ≠ k → t.cluster n = s.cluster n
  due : t.due = s.due ++ more
  rest : { t with clusters := s.clusters, due := s.due } = s

/-- The event makes cluster `k` into `x`, lets `more` be due, and changes nothing else. -/
def ClusterBecomes (s : State) (e : Instr) (k : Nat) (x : Cluster) (more : List Instr) : Prop :=
  ∃ t, exec e s = .next t ∧ OnlyClusterAt s t k x more

/-- Nothing but core `k` differs, which is `x`, and `more` has become due. -/
structure OnlyCoreAt (s t : State) (k : Nat) (x : Core) (more : List Instr) : Prop where
  it : t.core k = x
  others : ∀ n, n ≠ k → t.core n = s.core n
  due : t.due = s.due ++ more
  rest : { t with cores := s.cores, due := s.due } = s

/-- The event makes core `k` into `x`, lets `more` be due, and changes nothing else. -/
def CoreBecomes (s : State) (e : Instr) (k : Nat) (x : Core) (more : List Instr) : Prop :=
  ∃ t, exec e s = .next t ∧ OnlyCoreAt s t k x more

/-- Nothing but slot `k` differs, which is `x`, and `more` has become due. -/
structure OnlySlotAt (s t : State) (k : Nat) (x : Slot) (more : List Instr) : Prop where
  it : t.slot k = x
  others : ∀ n, n ≠ k → t.slot n = s.slot n
  due : t.due = s.due ++ more
  rest : { t with slots := s.slots, due := s.due } = s

/-- The event makes slot `k` into `x`, lets `more` be due, and changes nothing else. -/
def SlotBecomes (s : State) (e : Instr) (k : Nat) (x : Slot) (more : List Instr) : Prop :=
  ∃ t, exec e s = .next t ∧ OnlySlotAt s t k x more

/-- Nothing but partition `k` differs, which is `x`, and `more` has become due. -/
structure OnlyPartAt (s t : State) (k : Nat) (x : Part) (more : List Instr) : Prop where
  it : t.part k = x
  others : ∀ n, n ≠ k → t.part n = s.part n
  due : t.due = s.due ++ more
  rest : { t with parts := s.parts, due := s.due } = s

/-- The event makes partition `k` into `x`, lets `more` be due, and changes nothing else. -/
def PartBecomes (s : State) (e : Instr) (k : Nat) (x : Part) (more : List Instr) : Prop :=
  ∃ t, exec e s = .next t ∧ OnlyPartAt s t k x more

/-- The event changes nothing but that `more` becomes due. -/
def Lets (s : State) (e : Instr) (more : List Instr) : Prop := exec e s = .next { s with due := s.due ++ more }

/-- The event changes nothing. -/
def NoEffect (s : State) (e : Instr) : Prop := exec e s = .next s

/-- A saturating count. -/
def upTo (top n : Nat) : Nat := if n < top then n + 1 else top

/-- The lending pair `j` of a controller becomes `p`; `more` becomes due; nothing else changes. -/
def PairBecomes (s : State) (e : Instr) (st j : Nat) (p : Pair) (more : List Instr) : Prop :=
  ∃ t, exec e s = .next t ∧ OnlyCtlAt s t st { s.ctl st with pairs := (t.ctl st).pairs } more ∧
    ∀ k, pairOf t st k = if k = j then p else pairOf s st k

/-- A home has served a request on a line of a slice, which is now `e`; every line keeps all but its place in the order of use. -/
structure Served (s u : State) (sl line : Nat) (e : SliceLine) (more : List Instr) : Prop where
  lines : ∀ l, { sliceLine u sl l with used := 0 } =
    if l = line then { e with used := 0 } else { sliceLine s sl l with used := 0 }
  it : { u.slice sl with lines := (s.slice sl).lines, stamp := (s.slice sl).stamp } = s.slice sl
  others : ∀ n, n ≠ sl → u.slice n = s.slice n
  due : u.due = s.due ++ more
  rest : { u with slices := s.slices, due := s.due } = s

/-- Word `w` of the vaults holds `v` and has the full/empty bit `full`; every other word is as before. -/
structure WordIs (s u : State) (w : Nat) (v : Word) (full : Bool) (more : List Instr) : Prop where
  word : vWord u w = v
  bytes : ∀ a, a / 4 ≠ w → smGet 0 u.vault a = smGet 0 s.vault a
  bits : ∀ n, vFullOf u n = if n = w then full else vFullOf s n
  due : u.due = s.due ++ more
  rest : { u with banks := s.banks, hot := s.hot, vault := s.vault, vfull := s.vfull, verr := s.verr, due := s.due } = s

/-- The message of a block of die `d` to its bursar: from endpoint `ep` of the corner router, of class 1; type 0 is none (R120, R425). -/
def noticeOf (d ep : Nat) (typ : Byte) (words : List Word) : List Instr :=
  if typ = 0 then [] else
    [.messageArrive (16384 + d)
      { typ := typ, sender := BitVec.ofNat 32 (2 ^ 31 + position (cornerCol d) (cornerRow d) ep), words := words, cls := 1
        device := true }]

/-- The event makes the host port of die `d` into `h`, but for the maps named by `f`, and lets `more` be due. -/
def PortBecomes (s : State) (e : Instr) (d : Nat) (h : HostPort → HostPort) (more : List Instr) (f : HostPort → Prop) : Prop :=
  ∃ t, exec e s = .next t ∧ OnlyDieAt s t d { s.die d with host := h (t.die d).host } more ∧ f (t.die d).host

/-- The same of aperture `a` of the port: it becomes `x`, the others are as before. -/
def ApBecomes (s : State) (e : Instr) (d a : Nat) (h : HostPort) (x : Aperture → Aperture) (more : List Instr)
    (f : Aperture → Prop) : Prop :=
  PortBecomes s e d (fun p => { h with aps := p.aps }) more fun p =>
    smGet {} p.aps a = x (smGet {} p.aps a) ∧ f (smGet {} p.aps a) ∧ ∀ k, k ≠ a → smGet {} p.aps k = smGet {} h.aps k

/-- The Ethernet port of die `d` becomes `e'` but for its counters, of which `i` advances. -/
def EthBecomes (s : State) (e : Instr) (d : Nat) (e' : Eth → Eth) (i : Nat) (more : List Instr) : Prop :=
  ∃ t, exec e s = .next t ∧ OnlyDieAt s t d { s.die d with eth := { e' (t.die d).eth with counters := (t.die d).eth.counters } } more ∧
    ∀ k, smGet 0 (t.die d).eth.counters k =
      if k = i then bump (smGet 0 (s.die d).eth.counters k) 1 else smGet 0 (s.die d).eth.counters k

/-! ### Starts of threads -/

/-- The launch slots of a core below slot `j`. -/
def rankOf (l : Launch) (j : Nat) : Nat := (List.range j).countP fun m => bitOf l.slotmask m

/-- The stack top of slot `k` in a launch: its launch slots' areas first, then the others' (R426). -/
def ownStackTop (l : Launch) (k : Nat) : Word :=
  let n := rankOf l 16
  let i := coreOf k % 1024
  let j := slotIn k
  let a := if bitOf l.slotmask j then i * n + rankOf l j else 16 * l.ng * n + i * (16 - n) + (j - rankOf l j)
  BitVec.ofNat 32 (l.stkbase.toNat + (a + 1) * l.stksize.toNat)

/-- The work identifier of a thread whose start names none: a launch slot's own under dynamic placement, else 0 (R426). -/
def ownWid (l : Launch) (k : Nat) : BitVec 64 :=
  if bitOf l.slotmask (slotIn k) ∧ l.place = 0 then
    l.widbase + BitVec.ofNat 64 ((l.vc * l.ng * 16 + coreOf k % 1024) * rankOf l 16 + rankOf l (slotIn k))
  else 0

/-- Nothing of an earlier thread of slot `k` is still in its group's engines, and its cluster has not reported that it is drained. -/
def FreshStart (s : State) (k : Nat) : Prop :=
  (s.bulkOf (groupOf (coreOf k))).copies = [] ∧ (s.engine (groupOf (coreOf k))).retiring = [] ∧
  (s.cluster (unitOf (coreOf k))).drainedSent = false

/-- A thread of launch `l` has started in slot `k` at `pc` with the registers `g` and the work identifier `wid`; the fields its kind of
start sets stand as they are (R136, R426). -/
structure StartsThread (s t : State) (l : Launch) (k : Nat) (pc : Word) (wid : BitVec 64) (g : Nat → Word) : Prop where
  regs : ∀ r, smGet 0 (t.slot k).g r = g r
  slot : t.slot k =
    { pc := pc, g := (t.slot k).g, x := (t.slot k).x, sg := l.segs, status := if l.bursar then 0x100 else 0, fmtdef := l.fmtdef
      widLo := wid.setWidth 32, widHi := (wid >>> 32).setWidth 32, run := .ready, busyUntil := (s.slot k).busyUntil
      nextId := (s.slot k).nextId, detIdx := (t.slot k).detIdx, tcb := (t.slot k).tcb
      handler := (t.slot k).handler, replyOwed := (t.slot k).replyOwed, msg := (t.slot k).msg }
  others : ∀ j, j ≠ k → t.slot j = s.slot j

/-- As a thread starts that goes on with a deque entry in a slot of its own: at the entry's pc with its g3 and the slot's own
stack and work identifier (R153). -/
def Resumes (s t : State) (l : Launch) (k : Nat) (e : DequeEntry) : Prop :=
  StartsThread s t l k e.pc ((s.slot k).widHi ++ (s.slot k).widLo) (fun r => if r = 2 then ownStackTop l k else if r = 3 then e.g3 else 0) ∧
  (t.slot k).detIdx = (s.slot k).detIdx ∧ (t.slot k).tcb = none ∧ (t.slot k).handler = false

/-- The core's pointer takes a victim and the steal request is due, unless stealing is off, a request or a held reply is there, or
another slot is the core's lowest idle one (R148, R155). -/
def TriesToSteal (s t : State) (l : Launch) (k : Nat) : Prop :=
  let c := coreOf k
  let x := s.core c
  let n := 16 * l.ng
  if l.place = 1 ∨ x.stealing = true ∨ x.heldSteal ≠ none ∨
    (∃ j < slotIn k, (s.slot (16 * c + j)).run = .idle ∧ fieldOf x.classMap (2 * j) 2 = 0) then t = s
  else OnlyCoreAt s t c { x with stealing := true, victim := (x.victim + 1) % (n - 1) }
    [.stealRequest (1024 * (c / 1024) + (c % 1024 + 1 + x.victim % (n - 1)) % n) k]

end Sys2Proof.Machine
end

