-- ==== Sys2Proof/Certificates/Slice0/Obligations.lean ====
section
/-! DEFINITION. The statements about the device. Each docstring names the rules of the spec that it formalises; the terms are those
of Safety. -/

open Sys2Proof Sys2Proof.Machine

/-! ### Integer instructions -/

/-- R321: what the functions 0 to 19 of the ALU group write, and what FFLAGS shows; nothing else changes. -/
def Claim.AluTwoOperandResults : Prop :=
  ∀ (s : State) (d a b : Reg), Clear s →
    let x := s.reg a
    let y := s.reg b
    let n := y.toNat % 32
    let p := y.toNat % 32
    let m := Nat.min (y.toNat / 32 % 32 + 1) (32 - p)
    let field := x.toNat / 2 ^ p % 2 ^ m
    Gives s (.add d a b) d (BitVec.ofNat 32 (x.toNat + y.toNat)) ∧
    Gives s (.sub d a b) d (BitVec.ofInt 32 (x.toInt - y.toInt)) ∧
    GivesClamped s (.adds d a b) d (-2 ^ 31) (2 ^ 31 - 1) (x.toInt + y.toInt) ∧
    GivesClamped s (.subs d a b) d (-2 ^ 31) (2 ^ 31 - 1) (x.toInt - y.toInt) ∧
    Gives s (.and d a b) d (x &&& y) ∧
    Gives s (.or d a b) d (x ||| y) ∧
    Gives s (.xor d a b) d (x ^^^ y) ∧
    Gives s (.andn d a b) d (x &&& ~~~y) ∧
    Gives s (.sll d a b) d (BitVec.ofNat 32 (x.toNat * 2 ^ n)) ∧
    Gives s (.srl d a b) d (BitVec.ofNat 32 (x.toNat / 2 ^ n)) ∧
    Gives s (.sra d a b) d (BitVec.ofInt 32 (x.toInt / 2 ^ n)) ∧
    Gives s (.ror d a b) d ((x >>> n) ||| (x <<< (32 - n))) ∧
    Gives s (.slt d a b) d (if x.toInt < y.toInt then 1 else 0) ∧
    Gives s (.sltn d a b) d (if x.toNat < y.toNat then 1 else 0) ∧
    Gives s (.min d a b) d (if x.toInt < y.toInt then x else y) ∧
    Gives s (.max d a b) d (if x.toInt < y.toInt then y else x) ∧
    Gives s (.minn d a b) d (if x.toNat < y.toNat then x else y) ∧
    Gives s (.maxn d a b) d (if x.toNat < y.toNat then y else x) ∧
    Gives s (.bext d a b) d (BitVec.ofNat 32 field) ∧
    Gives s (.bexts d a b) d (BitVec.ofInt 32 (if field < 2 ^ (m - 1) then field else (field : Int) - 2 ^ m))

/-- R321: what the functions 20 to 26 of the ALU group write. Bit numbers count from the least significant. -/
def Claim.AluOneOperandResults : Prop :=
  ∀ (s : State) (d a : Reg), Clear s →
    let x := s.reg a
    GivesSome s (.lzc d a) d (fun v => ∃ n ≤ 32, v = BitVec.ofNat 32 n ∧ (∀ i < n, x.getLsbD (31 - i) = false) ∧
      (n < 32 → x.getLsbD (31 - n) = true)) ∧
    GivesSome s (.tzc d a) d (fun v => ∃ n ≤ 32, v = BitVec.ofNat 32 n ∧ (∀ i < n, x.getLsbD i = false) ∧
      (n < 32 → x.getLsbD n = true)) ∧
    Gives s (.ones d a) d (BitVec.ofNat 32 ((List.range 32).countP x.getLsbD)) ∧
    GivesSome s (.bswap d a) d (fun v => ∀ i < 4, ∀ j < 8, v.getLsbD (8 * i + j) = x.getLsbD (8 * (3 - i) + j)) ∧
    GivesSome s (.brev d a) d (fun v => ∀ i < 32, v.getLsbD i = x.getLsbD (31 - i)) ∧
    Gives s (.extb d a) d ((x.setWidth 8).signExtend 32) ∧
    Gives s (.exth d a) d ((x.setWidth 16).signExtend 32)

/-- R322, R323, R324 and R302: what the immediate forms, LUI, PCREL and the 16-bit ALU and move forms write. Short registers are g8
to g15 (R299). -/
def Obligations.ImmediateAndShortResults : Prop :=
  (∀ (s : State) (d a : Reg) (i : BitVec 15) (n : BitVec 5) (u : BitVec 20), Clear s →
    let x := s.reg a
    let k := i.signExtend 32
    Gives s (.addi d a i) d (x + k) ∧
    Gives s (.andi d a i) d (x &&& k) ∧
    Gives s (.ori d a i) d (x ||| k) ∧
    Gives s (.xori d a i) d (x ^^^ k) ∧
    Gives s (.slti d a i) d (if x.toInt < k.toInt then 1 else 0) ∧
    Gives s (.sltni d a i) d (if x.toNat < k.toNat then 1 else 0) ∧
    Gives s (.slli d a n) d (BitVec.ofNat 32 (x.toNat * 2 ^ n.toNat)) ∧
    Gives s (.srli d a n) d (BitVec.ofNat 32 (x.toNat / 2 ^ n.toNat)) ∧
    Gives s (.srai d a n) d (BitVec.ofInt 32 (x.toInt / 2 ^ n.toNat)) ∧
    Gives s (.rori d a n) d ((x >>> n.toNat) ||| (x <<< (32 - n.toNat))) ∧
    Gives s (.lui d u) d (BitVec.ofNat 32 (u.toNat * 2 ^ 12)) ∧
    Gives s (.pcrel d u) d (s.me.pc + BitVec.ofNat 32 (u.toNat * 2 ^ 12))) ∧
  ∀ (s : State) (d a : BitVec 3) (r : Reg) (i : BitVec 8), Clear s →
    let gd : Reg := BitVec.ofNat 5 (8 + d.toNat)
    let x := s.reg gd
    let y := s.reg (BitVec.ofNat 5 (8 + a.toNat))
    let n := y.toNat % 32
    Gives s (.cAddi d i) gd (x + i.signExtend 32) ∧
    Gives s (.cLi d i) gd (i.signExtend 32) ∧
    Gives s (.cMv d r) gd (s.reg r) ∧
    Gives s (.cAdd d a) gd (x + y) ∧
    Gives s (.cSub d a) gd (x - y) ∧
    Gives s (.cAnd d a) gd (x &&& y) ∧
    Gives s (.cOr d a) gd (x ||| y) ∧
    Gives s (.cXor d a) gd (x ^^^ y) ∧
    Gives s (.cSll d a) gd (BitVec.ofNat 32 (x.toNat * 2 ^ n)) ∧
    Gives s (.cSrl d a) gd (BitVec.ofNat 32 (x.toNat / 2 ^ n)) ∧
    Gives s (.cSra d a) gd (BitVec.ofInt 32 (x.toInt / 2 ^ n)) ∧
    GoesTo s .cNop s.npc

/-- R325: what the MULDIV group writes and raises, the cases of a zero divisor and of the one overflow included; a reserved function
does not decode. -/
def Obligations.MultiplyDivideResults : Prop :=
  (∀ (s : State) (d a b : Reg), Clear s →
    let x := s.reg a
    let y := s.reg b
    Gives s (.mul d a b) d (BitVec.ofInt 32 (x.toInt * y.toInt)) ∧
    GivesClamped s (.mulq d a b) d (-2 ^ 31) (2 ^ 31 - 1) ((x.toInt * y.toInt + 2 ^ 30) / 2 ^ 31) ∧
    Gives s (.mulh d a b) d (BitVec.ofInt 32 (x.toInt * y.toInt / 2 ^ 32)) ∧
    Gives s (.mulhn d a b) d (BitVec.ofNat 32 (x.toNat * y.toNat / 2 ^ 32)) ∧
    Gives s (.mulhsn d a b) d (BitVec.ofInt 32 (x.toInt * (y.toNat : Int) / 2 ^ 32)) ∧
    (y = 0 →
      GivesFlags s (.div d a b) d (if x = 0 then 0 else if 0 < x.toInt then 0x7FFFFFFF else 0x80000000) 8 ∧
      GivesFlags s (.divn d a b) d (if x = 0 then 0 else 0xFFFFFFFF) 8 ∧
      GivesFlags s (.rem d a b) d 0 8 ∧
      GivesFlags s (.remn d a b) d 0 8) ∧
    (y ≠ 0 →
      (if x = 0x80000000 ∧ y = 0xFFFFFFFF then GivesFlags s (.div d a b) d 0x7FFFFFFF 4
        else GivesFlags s (.div d a b) d (BitVec.ofInt 32 (x.toInt.tdiv y.toInt)) 0) ∧
      GivesFlags s (.divn d a b) d (BitVec.ofNat 32 (x.toNat / y.toNat)) 0 ∧
      GivesFlags s (.rem d a b) d (BitVec.ofInt 32 (x.toInt - y.toInt * x.toInt.tdiv y.toInt)) 0 ∧
      GivesFlags s (.remn d a b) d (BitVec.ofNat 32 (x.toNat % y.toNat)) 0)) ∧
  ∀ w : BitVec 32, w.toNat % 128 = 23 → 9 ≤ w.toNat / 2 ^ 22 → decode32 w = none

/-! ### Packed and complex instructions -/

/-- R326, R327: every lane of the packed results, and OV exactly when some lane was clamped. -/
def Obligations.PackedResults : Prop :=
  ∀ (s : State) (d a b : Reg) (z : PackSize), Clear s →
    let w : Nat := match z with
      | .h => 16
      | .b => 8
    let lanes := 32 / w
    let nat : Word → Nat → Nat := fun v i => v.toNat / 2 ^ (w * i) % 2 ^ w
    let sig : Word → Nat → Int := fun v i => if nat v i < 2 ^ (w - 1) then (nat v i : Int) else (nat v i : Int) - 2 ^ w
    let x := s.reg a
    let y := s.reg b
    let c := y.toNat % w
    -- each lane of the result modulo 2^w, none clamped
    let exact := fun (i : Instr) (f : Nat → Int) =>
      ∃ v, GivesFlags s i d v 0 ∧ ∀ l < lanes, (nat v l : Int) = f l % 2 ^ w
    -- each lane clamped to lo..hi
    let sat := fun (i : Instr) (lo hi : Int) (f : Nat → Int) =>
      ∃ v, GivesFlags s i d v (ovFlag (decide (∃ l < lanes, f l < lo ∨ hi < f l))) ∧
        ∀ l < lanes, (nat v l : Int) = clampTo lo hi (f l) % 2 ^ w
    let smin : Int := -2 ^ (w - 1)
    let smax : Int := 2 ^ (w - 1) - 1
    exact (.padd d a b z) (fun i => sig x i + sig y i) ∧
    exact (.psub d a b z) (fun i => sig x i - sig y i) ∧
    sat (.padds d a b z) smin smax (fun i => sig x i + sig y i) ∧
    sat (.psubs d a b z) smin smax (fun i => sig x i - sig y i) ∧
    sat (.paddsn d a b z) 0 (2 ^ w - 1) (fun i => (nat x i : Int) + nat y i) ∧
    sat (.psubsn d a b z) 0 (2 ^ w - 1) (fun i => (nat x i : Int) - nat y i) ∧
    exact (.pmin d a b z) (fun i => if sig x i < sig y i then sig x i else sig y i) ∧
    exact (.pmax d a b z) (fun i => if sig x i < sig y i then sig y i else sig x i) ∧
    exact (.pminn d a b z) (fun i => if nat x i < nat y i then nat x i else nat y i) ∧
    exact (.pmaxn d a b z) (fun i => if nat x i < nat y i then nat y i else nat x i) ∧
    exact (.pavg d a b z) (fun i => (sig x i + sig y i + 1) / 2) ∧
    exact (.pmul d a b z) (fun i => sig x i * sig y i) ∧
    sat (.pmulq d a b z) smin smax (fun i => (sig x i * sig y i + 2 ^ (w - 2)) / 2 ^ (w - 1)) ∧
    exact (.psll d a b z) (fun i => (nat x i : Int) * 2 ^ c) ∧
    exact (.psrl d a b z) (fun i => ((nat x i / 2 ^ c : Nat) : Int)) ∧
    exact (.psra d a b z) (fun i => sig x i / 2 ^ c) ∧
    Gives s (.pdot d a b z) d (BitVec.ofInt 32 (((List.range lanes).map fun i => sig x i * sig y i).sum)) ∧
    exact (.ppkl d a b z) (fun i => if i < lanes / 2 then nat x (2 * i) else nat y (2 * (i - lanes / 2))) ∧
    exact (.ppkh d a b z) (fun i => if i < lanes / 2 then nat x (2 * i + 1) else nat y (2 * (i - lanes / 2) + 1))

/-- R328, R329: the complex results part by part, the dot products with an accumulator, and OV exactly when a value was clamped.
RQ(v, 15) is the floor of (v + 2^14) / 2^15 (R326). -/
def Obligations.ComplexAndAccumulateResults : Prop :=
  ∀ (s : State) (d a b c : Reg), Clear s →
    let lane := fun (w : Nat) (v : Word) i => ((v.toNat / 2 ^ (w * i) : Nat) : Int).bmod (2 ^ w)
    let re := lane 16
    let x := s.reg a
    let y := s.reg b
    let z := s.reg c
    let r := fun v => re v 0
    let m := fun v => re v 1
    let rq := fun (v : Int) (q : Nat) => (v + 2 ^ (q - 1)) / 2 ^ q
    let out := fun (v : Int) => v < -2 ^ 15 ∨ 2 ^ 15 - 1 < v
    let pair := fun (i : Instr) (p q : Int) =>
      ∃ v, GivesFlags s i d v (ovFlag (decide (out p ∨ out q))) ∧ r v = clampTo (-2 ^ 15) (2 ^ 15 - 1) p ∧
        m v = clampTo (-2 ^ 15) (2 ^ 15 - 1) q
    let dot := fun (w n : Nat) => ((List.range n).map fun i => lane w x i * lane w y i).sum
    let k := y.toNat % 16
    pair (.cadd d a b) (r x + r y) (m x + m y) ∧
    pair (.csub d a b) (r x - r y) (m x - m y) ∧
    pair (.cmul d a b) (rq (r x * r y - m x * m y) 15) (rq (r x * m y + m x * r y) 15) ∧
    pair (.cmulc d a b) (rq (r x * r y + m x * m y) 15) (rq (m x * r y - r x * m y) 15) ∧
    pair (.cconj d a) (r x) (-m x) ∧
    pair (.cmulj d a) (-m x) (r x) ∧
    Gives s (.cmag2 d a) d (BitVec.ofInt 32 (r x * r x + m x * m x)) ∧
    pair (.cshr d a b) (if k = 0 then r x else rq (r x) k) (if k = 0 then m x else rq (m x) k) ∧
    Gives s (.pdotaH d a b c) d (BitVec.ofInt 32 (z.toInt + dot 16 2)) ∧
    Gives s (.pdotaB d a b c) d (BitVec.ofInt 32 (z.toInt + dot 8 4)) ∧
    GivesClamped s (.pdotasH d a b c) d (-2 ^ 31) (2 ^ 31 - 1) (z.toInt + dot 16 2) ∧
    GivesClamped s (.pdotasB d a b c) d (-2 ^ 31) (2 ^ 31 - 1) (z.toInt + dot 8 4) ∧
    pair (.cmac d a b c) (r z + rq (r x * r y - m x * m y) 15) (m z + rq (r x * m y + m x * r y) 15) ∧
    pair (.cmacc d a b c) (r z + rq (r x * r y + m x * m y) 15) (m z + rq (m x * r y - r x * m y) 15)

/-! ### Floating-point instructions -/

/-- R331 to R333: what the FPU and FMA groups write in their scalar and packed forms: the exact result of the operation on the
values of the operands, rounded once, with NV for an invalid operation or a NaN operand and DZ for a division by zero.
The model's choices of log entry 35 enter here. -/
def Obligations.FloatArithmeticResults : Prop :=
  ∀ (s : State) (d a b c : Reg) (p : Bool), FmtOnly s → fpIllegal p s = false →
    let f := laneFmt p s
    let val := fun (r : Reg) (l : Nat) => f.decode (if p then (s.reg r).toNat / 2 ^ (16 * l) % 2 ^ 16 else (s.reg r).toNat)
    let rounded := fun (v : Val × Bool) (dz : Bool) (l : Nat) =>
      let r := f.round s.rctx l v.1
      (r.1, { r.2 with fl := r.2.fl ||| (if v.2 then fNV else 0) ||| (if dz then fDZ else 0) })
    let gives := fun (i : Instr) (v : Nat → Val × Bool) (dz : Nat → Bool) =>
      GivesLanes s i d p fun l _ _ _ => rounded (v l) (dz l) l
    let rdn := s.rctx.rdn
    let prod := fun l => vMul (val a l) (val b l)
    let fma := fun (np nz : Bool) (l : Nat) =>
      let t := vAdd rdn (if np then (prod l).1.neg else (prod l).1) (if nz then (val c l).neg else val c l)
      (t.1, (prod l).2 || t.2)
    gives (.fadd d a b p) (fun l => vAdd rdn (val a l) (val b l)) (fun _ => false) ∧
    gives (.fsub d a b p) (fun l => vAdd rdn (val a l) (val b l).neg) (fun _ => false) ∧
    gives (.fmul d a b p) prod (fun _ => false) ∧
    gives (.fdiv d a b p) (fun l => ((vDiv (val a l) (val b l)).1, (vDiv (val a l) (val b l)).2.1))
      (fun l => (vDiv (val a l) (val b l)).2.2) ∧
    gives (.fsqrt d a p) (fun l => vSqrt (val a l)) (fun _ => false) ∧
    gives (.fmadd d a b c p) (fma false false) (fun _ => false) ∧
    gives (.fmsub d a b c p) (fma false true) (fun _ => false) ∧
    gives (.fnmsub d a b c p) (fma true false) (fun _ => false) ∧
    gives (.fnmadd d a b c p) (fma true true) (fun _ => false)

/-- R332: the FPU functions that round nothing, in their scalar forms: sign operations on the bits, selections that treat −0 as
less than +0 and answer the canonical NaN with NV, comparisons that are false on NaN (NV but for FCMPEQ), and the class word. -/
def Claim.FloatSelectAndCompareResults : Prop :=
  ∀ (s : State) (d a b : Reg), FmtOnly s → fpIllegal false s = false →
    let x := s.reg a
    let y := s.reg b
    let nan := fun (v : Word) => v.toNat % 2 ^ 31 > 0x7F800000
    let inf := fun (v : Word) => v.toNat % 2 ^ 31 = 0x7F800000
    -- the order of numbers and infinities: of their codes with the sign, both zeros together
    let key := fun (v : Word) => if v.toNat < 2 ^ 31 then (v.toNat : Int) else -((v.toNat - 2 ^ 31 : Nat) : Int)
    let less := key x < key y ∨ (x = 0x80000000 ∧ y = 0)
    GivesFlags s (.fabs d a false) d (x &&& 0x7FFFFFFF) 0 ∧
    GivesFlags s (.fneg d a false) d (x ^^^ 0x80000000) 0 ∧
    GivesFlags s (.fcpys d a b false) d ((x &&& 0x7FFFFFFF) ||| (y &&& 0x80000000)) 0 ∧
    GivesFlags s (.fxors d a b false) d (x ^^^ (y &&& 0x80000000)) 0 ∧
    (if nan x ∨ nan y then GivesFx s (.fmin d a b false) d 0x7FC00000 { fl := 16, nan := true }
      else GivesFlags s (.fmin d a b false) d (if less then x else y) 0) ∧
    (if nan x ∨ nan y then GivesFx s (.fmax d a b false) d 0x7FC00000 { fl := 16, nan := true }
      else GivesFlags s (.fmax d a b false) d (if less then y else x) 0) ∧
    GivesFlags s (.fcmpeq d a b false) d (if ¬ nan x ∧ ¬ nan y ∧ key x = key y then 1 else 0) 0 ∧
    GivesFlags s (.fcmplt d a b false) d (if ¬ nan x ∧ ¬ nan y ∧ key x < key y then 1 else 0) (if nan x ∨ nan y then 16 else 0) ∧
    GivesFlags s (.fcmple d a b false) d (if ¬ nan x ∧ ¬ nan y ∧ key x ≤ key y then 1 else 0) (if nan x ∨ nan y then 16 else 0) ∧
    GivesFlags s (.fclass d a false) d
      (BitVec.ofNat 32 ((if x.toNat % 2 ^ 31 = 0 then 0 else if x.toNat % 2 ^ 31 < 2 ^ 23 then 1 else if nan x then 4
        else if inf x then 3 else 2) + 8 * (x.toNat / 2 ^ 31) + 256 * (x.toNat / 2 ^ 23 % 2 ^ 8))) 0

/-- R332: the same functions in their packed forms act on each 16-bit lane as on a value of the lane's format. -/
def Claim.PackedFloatSelectResults : Prop :=
  ∀ (s : State) (d a b : Reg), FmtOnly s → fpIllegal true s = false →
    let lane := fun (r : Reg) (l : Nat) => (s.reg r).toNat / 2 ^ (16 * l) % 2 ^ 16
    let f := laneFmt true s
    let v := fun r l => f.decode (lane r l)
    let bad := fun (l : Nat) => (v a l).isNan || (v b l).isNan
    let bits := fun (i : Instr) (g : Nat → Nat) => GivesLanes s i d true fun l _ _ _ => (g l, {})
    let pick := fun (i : Instr) (first : Nat → Bool) => GivesLanes s i d true fun l _ _ _ =>
      if bad l then (if s.fmtA = 1 then 0x7FC0 else 0x7E00, { fl := 16, nan := true })
      else (if first l then lane a l else lane b l, {})
    let less := fun l => valLt (v a l) (v b l) || (valEq (v a l) (v b l) && (v a l).sign && !(v b l).sign)
    let cmp := fun (i : Instr) (r : Nat → Bool) (quiet : Bool) => GivesLanes s i d true fun l _ _ _ =>
      (if r l then 0xFFFF else 0, { fl := if !quiet && bad l then 16 else 0 })
    bits (.fabs d a true) (fun l => lane a l % 2 ^ 15) ∧
    bits (.fneg d a true) (fun l => (lane a l + 2 ^ 15) % 2 ^ 16) ∧
    bits (.fcpys d a b true) (fun l => lane a l % 2 ^ 15 + 2 ^ 15 * (lane b l / 2 ^ 15)) ∧
    bits (.fxors d a b true) (fun l => (lane a l + 2 ^ 15 * (lane b l / 2 ^ 15)) % 2 ^ 16) ∧
    pick (.fmin d a b true) less ∧
    pick (.fmax d a b true) (fun l => !less l) ∧
    cmp (.fcmpeq d a b true) (fun l => valEq (v a l) (v b l)) true ∧
    cmp (.fcmplt d a b true) (fun l => valLt (v a l) (v b l)) false ∧
    cmp (.fcmple d a b true) (fun l => valLt (v a l) (v b l) || valEq (v a l) (v b l)) false ∧
    bits (.fclass d a true) (fun l => (match v a l with
        | .nan => 4
        | .inf _ => 3
        | w => if w.isZero then 0 else if lane a l % 2 ^ 15 / 2 ^ f.mb = 0 then 1 else 2) +
      8 * (lane a l / 2 ^ 15) + 256 * (lane a l % 2 ^ 15 / 2 ^ f.mb))

/-- R334: the conversions between FP32, integers and the 16-bit formats.
The model's choices of log entry 35 enter here. -/
def Obligations.FloatConversionResults : Prop :=
  ∀ (s : State) (d a b : Reg), FmtOnly s →
    let x := s.reg a
    let r := s.rctx
    let half := fun (fmt : Nat) => if fmt = 1 then fBF16 else fFP16
    let is16 := fun (fmt : Nat) => fmt = 1 ∨ fmt = 2
    let int := fun (i : Instr) (q : Int × Fx) => GivesFx s i d (BitVec.ofInt 32 q.1) q.2
    let float := fun (i : Instr) (q : Nat × Fx) => GivesFx s i d (BitVec.ofNat 32 q.1) q.2
    (fpIllegal false s = false →
      int (.fcvtWF d a) (roundInt (-2 ^ 31) (2 ^ 31 - 1) r 0 (fFP32.decode x.toNat)) ∧
      int (.fcvtWnF d a) (roundInt 0 (2 ^ 32 - 1) r 0 (fFP32.decode x.toNat)) ∧
      float (.fcvtFW d a) (fFP32.round r 0 (Val.ofInt x.toInt)) ∧
      float (.fcvtFWn d a) (fFP32.round r 0 (Val.ofInt x.toNat))) ∧
    (is16 s.fmtA →
      GivesLanes s (.fcvtH2F d a b) d true (fun l _ _ _ =>
        (half s.fmtA).round r l (fFP32.decode (s.reg (if l = 0 then a else b)).toNat)) ∧
      float (.fcvtFHl d a) (fFP32.round rneCtx 0 ((half s.fmtA).decode (x.toNat % 2 ^ 16))) ∧
      float (.fcvtFHh d a) (fFP32.round rneCtx 0 ((half s.fmtA).decode (x.toNat / 2 ^ 16))) ∧
      (is16 s.fmtB →
        GivesLanes s (.fcvtH2H2 d a) d true (fun l _ _ _ =>
          (half s.fmtA).round (if s.fmtA = s.fmtB then rneCtx else r) l
            ((half s.fmtB).decode (x.toNat / 2 ^ (16 * l) % 2 ^ 16)))))

/-- R262, R263: RNE picks a nearest value of the format: unless OV is raised, no finite value lies nearer to the exact one, and of
two that lie equally near the one with an even code is taken. -/
def Claim.RoundNearestEven : Prop :=
  ∀ f ∈ [fFP32, fBF16, fFP16], ∀ (r : RCtx) (lane : Nat) (v : Val), r.mode = 0 → v.Exact →
    let q := f.round r lane v
    bitOf q.2.fl 2 = false →
    let w := f.decode q.1
    w.Exact ∧
    ∀ z : Nat, z < 2 ^ f.w → (f.decode z).Exact →
      |w.toRat - v.toRat| ≤ |(f.decode z).toRat - v.toRat| ∧
      (|w.toRat - v.toRat| = |(f.decode z).toRat - v.toRat| → (f.decode z).toRat ≠ w.toRat → q.1 % 2 = 0)

/-- R331: sums and products of finite values are exact before the one rounding, and the decoder of each format gives the value
that R253 assigns to a code. -/
def Claim.FloatValuesExact : Prop :=
  (∀ (rdn : Bool) (v w : Val), v.Exact → w.Exact →
    (vAdd rdn v w).2 = false ∧ (vAdd rdn v w).1.Exact ∧ (vAdd rdn v w).1.toRat = v.toRat + w.toRat ∧
    (vMul v w).2 = false ∧ (vMul v w).1.Exact ∧ (vMul v w).1.toRat = v.toRat * w.toRat) ∧
  ∀ f ∈ [fFP32, fBF16, fFP16], ∀ x : Nat, x < 2 ^ f.w →
    let e := x / 2 ^ f.mb % 2 ^ (f.w - 1 - f.mb)
    let m := x % 2 ^ f.mb
    let sign : ℚ := if x / 2 ^ (f.w - 1) = 1 then -1 else 1
    let emax := 2 ^ (f.w - 1 - f.mb) - 1
    (e < emax → (f.decode x).Exact ∧ (f.decode x).toRat =
      if e = 0 then sign * m * (2 : ℚ) ^ (1 - f.bias - f.mb : Int)
      else sign * (2 ^ f.mb + m) * (2 : ℚ) ^ (e - f.bias - f.mb : Int)) ∧
    (e = emax → f.decode x = if m = 0 then .inf (decide (x / 2 ^ (f.w - 1) = 1)) else .nan)

/-! ### Control flow, operand-extension registers, prefixes -/

/-- R335, R301: every branch goes to pc + 2 × offset exactly when its condition holds, else on to the next instruction. -/
def Claim.BranchTargets : Prop :=
  (∀ (s : State) (a b : Reg) (n : BitVec 5) (o : BitVec 12), Clear s →
    let x := s.reg a
    let y := s.reg b
    let dest := fun (c : Prop) [Decidable c] => if c then s.me.pc + BitVec.ofInt 32 (2 * o.toInt) else s.npc
    GoesTo s (.beq a b o) (dest (x = y)) ∧
    GoesTo s (.bne a b o) (dest (x ≠ y)) ∧
    GoesTo s (.blt a b o) (dest (x.toInt < y.toInt)) ∧
    GoesTo s (.bge a b o) (dest (y.toInt ≤ x.toInt)) ∧
    GoesTo s (.bltn a b o) (dest (x.toNat < y.toNat)) ∧
    GoesTo s (.bgen a b o) (dest (y.toNat ≤ x.toNat)) ∧
    GoesTo s (.bbs a n o) (dest (x.getLsbD n.toNat = true)) ∧
    GoesTo s (.bbc a n o) (dest (x.getLsbD n.toNat = false))) ∧
  ∀ (s : State) (a : BitVec 3) (o : BitVec 8), Clear s →
    let x := s.reg (BitVec.ofNat 5 (8 + a.toNat))
    let dest := fun (c : Prop) [Decidable c] => if c then s.me.pc + BitVec.ofInt 32 (2 * o.toInt) else s.npc
    GoesTo s (.cBeqz a o) (dest (x = 0)) ∧
    GoesTo s (.cBnez a o) (dest (x ≠ 0))

/-- R336, R301: a jump writes the offset of the next instruction to g[d] and goes to its target, which JALR takes from the old
value of g[a]; C.J writes nothing. -/
def Claim.JumpTargets : Prop :=
  ∀ (s : State) (d a : Reg) (o : BitVec 20) (i : BitVec 15) (c : BitVec 11), Clear s →
    (∃ t, exec (.jal d o) s = .next t ∧ WroteTo s t [(d, s.npc)] (s.me.pc + BitVec.ofInt 32 (2 * o.toInt))) ∧
    (∃ t, exec (.jalr d a i) s = .next t ∧ WroteTo s t [(d, s.npc)] (s.reg a + i.signExtend 32)) ∧
    GoesTo s (.cJ c) (s.me.pc + BitVec.ofInt 32 (2 * c.toInt))

/-- R303: MOVX copies between a general and an operand-extension register and LOX shifts a byte in from the right; nothing else
changes. -/
def Obligations.OperandExtensionRegisters : Prop :=
  ∀ (s : State) (n : BitVec 2) (g : Reg) (b : BitVec 8), Clear s →
    let x := s.xreg n.toNat
    let sets := fun (i : Instr) (v : Word) =>
      ∃ t, exec i s = .next t ∧
        (∀ m, t.xreg m = if m = n.toNat then v else s.xreg m) ∧
        { t.me with x := s.me.x } = s.me.went s.npc ∧
        (∀ r, t.reg r = s.reg r) ∧
        (∀ k, k ≠ s.cur → t.slot k = s.slot k) ∧ { t with slots := s.slots } = s
    sets (.movxToX n g) (s.reg g) ∧
    sets (.lox n b) (BitVec.ofNat 32 (x.toNat * 2 ^ 8 + b.toNat)) ∧
    Gives s (.movxToG n g) g x

/-- R305, R306: a prefix of a kind that is not pending joins the pending state in its own fields, keeps the fields of the other
kinds, and changes nothing else but the pc; what follows it counts as issued by itself (R201). The first prefix of a chain is remembered as its start, but for prefixes that ERET or
DRET loaded (R307). -/
def Claim.PrefixesAccumulate : Prop :=
  ∀ (s : State) (r : BitVec 3) (a b : BitVec 4) (c : BitVec 2),
    let p := s.me.pend
    let any := bitOf p 15 || bitOf p 3 || bitOf p 2
    let loaded := s.me.pv && any
    let goes := fun (i : Instr) (own : Nat) (mask val : BitVec 16) =>
      bitOf p own = false → ¬ (bitOf p 2 = true ∧ fieldOf p 0 2 = 3) →
      ∃ t, exec i s = .next t ∧
        t.me = { s.me with
          pend := if any then (p &&& ~~~mask) ||| val else val, pv := loaded, pc := s.npc, run := .ready
          chain := if loaded then none else some (s.me.chain.getD s.me.pc), counted := false } ∧
        (∀ k, k ≠ s.cur → t.slot k = s.slot k) ∧ { t with slots := s.slots } = s
    goes (.fmt r a b) 15 0xFFF0 (BitVec.ofNat 16 (2 ^ 15 + 2 ^ 12 * r.toNat + 2 ^ 8 * b.toNat + 2 ^ 4 * a.toNat)) ∧
    goes .rel 3 0x0008 0x0008 ∧
    (c ≠ 0 → goes (.cls c) 2 0x0007 (BitVec.ofNat 16 (4 + (c.toNat - 1))))

/-! ### Vault accesses -/

/-- R211, R208, R178, R340, R341, R301: a load of the own vault that passes the checks of R231 sends a read of each word it touches to
that word's bank; its thread is BUSY and nothing else changes. The bank answers the word. When the last word has been read, the bytes it names, extended as its
kind says, are written to its registers and the thread goes on.
The model's choices of log entries 7 and 51 enter here. -/
def Obligations.VaultLoads : Prop :=
  (∀ (s : State) (r a : Reg) (g : BitVec 3) (i : BitVec 9), Clear s → s.me.relaxed = [] →
    let off := fun (n : Nat) => s.memOffset a (BitVec.ofInt 32 (i.toInt * n))
    let sends := fun (j : Instr) (n : Nat) (signed : Bool) =>
      OwnVaultAccess s g.toNat (off n) n aLoad →
      let key := ownKey s (segBase (s.seg g.toNat) + off n)
      ∃ t, exec j s = .next t ∧
        SentAccess s t .busy (some (.begun s (.load r signed) n (key % 4) ((n + 3) / 4) true))
          (ownRequests s (key / 4) ((n + 3) / 4) (fun _ => .read) (.access s.cur)) 0
    sends (.lb r a g i) 1 true ∧ sends (.lbn r a g i) 1 false ∧ sends (.lh r a g i) 2 true ∧ sends (.lhn r a g i) 2 false ∧
      sends (.lw r a g i) 4 false ∧ sends (.ld r a g i) 8 false ∧ sends (.lq r a g i) 16 false) ∧
  (∀ (s : State) (d a : BitVec 3) (f : Reg), Clear s → s.me.relaxed = [] →
    let off := s.memOffset (BitVec.ofNat 5 (8 + a.toNat)) (BitVec.ofNat 32 (4 * f.toNat))
    OwnVaultAccess s 1 off 4 aLoad →
    let key := ownKey s (segBase (s.seg 1) + off)
    ∃ t, exec (.cLw d a f) s = .next t ∧
      SentAccess s t .busy (some (.begun s (.load (BitVec.ofNat 5 (8 + d.toNat)) false) 4 (key % 4) 1 true))
        (ownRequests s (key / 4) 1 (fun _ => .read) (.access s.cur)) 0) ∧
  (∀ (s : State) (b k part : Nat) (r : BankReq) (a : VaultAccess), Serves s b r k part a → r.op = .read → vErr s r.word = 0 →
    a.use_ ≠ .store →
    ∃ t, exec (.bankGrant b) s = .next t ∧ BankServes s t b r k part a (vWord s r.word) ∧ t.vault = s.vault ∧ t.verr = s.verr) ∧
  ∀ (s : State) (k : Nat) (a : VaultAccess) (r : Reg) (signed : Bool), Performed s k a → a.use_ = .load r signed →
    let v := a.data.toNat / 256 ^ a.lane % 256 ^ a.size
    let part := fun (j : Nat) => BitVec.ofNat 32 (v / 2 ^ (32 * j))
    let gives := fun (ws : List (Reg × Word)) => ∃ t, exec (.replyArrival k accessId none) s = .next t ∧ Replied s t k a ws
    (a.size = 1 → gives [(r, if signed then (BitVec.ofNat 8 v).signExtend 32 else BitVec.ofNat 32 v)]) ∧
    (a.size = 2 → gives [(r, if signed then (BitVec.ofNat 16 v).signExtend 32 else BitVec.ofNat 32 v)]) ∧
    (a.size = 4 → gives [(r, part 0)]) ∧
    (a.size = 8 → gives [(r, part 0), (r + 1, part 1)]) ∧
    (a.size = 16 → gives [(r, part 0), (r + 1, part 1), (r + 2, part 2), (r + 3, part 3)])

/-- R211, R206, R340, R341, R301: a store to the own vault that passes the checks of R231 sends to the bank of each word it touches a
write of the bytes it names there, which hold the low bytes of its registers; its thread is BUSY and nothing else changes. When all
are written the thread goes on. The bank writes those bytes and no other.
The model's choices of log entries 7 and 51 enter here. -/
def Obligations.VaultStores : Prop :=
  (∀ (s : State) (r a : Reg) (g : BitVec 3) (i : BitVec 9), Clear s → s.me.relaxed = [] →
    let off := fun (n : Nat) => s.memOffset a (BitVec.ofInt 32 (i.toInt * n))
    let sends := fun (j : Instr) (n : Nat) =>
      OwnVaultAccess s g.toNat (off n) n aStore →
      let key := ownKey s (segBase (s.seg g.toNat) + off n)
      let mask : BitVec 4 := if n < 4 then BitVec.ofNat 4 ((2 ^ n - 1) * 2 ^ (key % 4)) else 0xF
      ∃ t, exec j s = .next t ∧
        SentAccess s t .busy (some (.begun s .store n (key % 4) ((n + 3) / 4) true))
          (ownRequests s (key / 4) ((n + 3) / 4)
            (fun w => .write mask (BitVec.ofNat 32 (registerBytes s r n * 256 ^ (key % 4) / 2 ^ (32 * w)))) (.access s.cur)) 0
    sends (.sb r a g i) 1 ∧ sends (.sh r a g i) 2 ∧ sends (.sw r a g i) 4 ∧ sends (.sd r a g i) 8 ∧ sends (.sq r a g i) 16) ∧
  (∀ (s : State) (d a : BitVec 3) (f : Reg), Clear s → s.me.relaxed = [] →
    let off := s.memOffset (BitVec.ofNat 5 (8 + a.toNat)) (BitVec.ofNat 32 (4 * f.toNat))
    OwnVaultAccess s 1 off 4 aStore →
    let key := ownKey s (segBase (s.seg 1) + off)
    ∃ t, exec (.cSw d a f) s = .next t ∧
      SentAccess s t .busy (some (.begun s .store 4 (key % 4) 1 true))
        (ownRequests s (key / 4) 1 (fun _ => .write 0xF (s.reg (BitVec.ofNat 5 (8 + d.toNat)))) (.access s.cur)) 0) ∧
  (∀ (s : State) (k : Nat) (a : VaultAccess), Performed s k a → a.use_ = .store →
    ∃ t, exec (.replyArrival k accessId none) s = .next t ∧ Replied s t k a []) ∧
  ∀ (s : State) (b k part : Nat) (r : BankReq) (a : VaultAccess) (mask : BitVec 4) (v : Word), Serves s b r k part a →
    r.op = .write mask v → (mask = 0xF ∨ vErr s r.word ≠ 2) → a.use_ = .store →
    ∃ t, exec (.bankGrant b) s = .next t ∧ BankServes s t b r k part a 0 ∧
      (∀ i < 4, smGet 0 t.vault (4 * r.word + i) =
        if mask.getLsbD i then BitVec.ofNat 8 (v.toNat / 256 ^ i) else smGet 0 s.vault (4 * r.word + i)) ∧
      ∀ w, vErr t w = if w = r.word then 0 else vErr s w

/-- R215, R216, R343: a full/empty operation on a word of the own vault goes to the word's bank, and its thread parks. -/
def Claim.FullEmptyRequests : Prop :=
  ∀ (s : State) (r a : Reg) (g : BitVec 3) (i : BitVec 9), Clear s → s.me.relaxed = [] →
    let off := s.memOffset a (BitVec.ofInt 32 (i.toInt * 4))
    let w := ownKey s (segBase (s.seg g.toNat) + off) / 4
    let sends := fun (j : Instr) (acc : Access) (code : Nat) (dst : Option Reg) =>
      OwnVaultAccess s g.toNat off 4 acc →
      ∃ t, exec j s = .next t ∧
        SentAccess s t (.parked (.fullEmpty dst)) s.me.access
          (ownRequests s w 1 (fun _ => .fe code (s.reg r)) fun _ => .thread s.cur) 1
    sends (.lwf r a g i) aLwf 0 (some r) ∧ sends (.lwt r a g i) aLwt 1 (some r) ∧ sends (.swp r a g i) aSwp 2 none ∧
      sends (.swf r a g i) aSwp 3 none ∧ sends (.ferd r a g i) aLwf 4 (some r) ∧ sends (.feset r a g i) aSwp 5 none

/-- R215, R216: the bank performs a full/empty operation whose condition holds: it leaves the word and its bit as the table says, lets
other waiters on the word be retried from the next work cycle when the bit changed, and sends the answer back; with it the thread
goes on. One whose condition fails changes neither word nor bit and joins the wait list of the bank, which holds eight. -/
def Claim.FullEmptyAtTheBank : Prop :=
  (∀ (s : State) (b k : Nat) (r : BankReq) (code : Nat) (v : Word) (dst : Option Reg), Grants s b r → r.op = .fe code v →
    r.asker = .thread k → r.requester ≠ 1024 → (s.slot k).run = .parked (.fullEmpty dst) → vErr s r.word = 0 →
    let old := vWord s r.word
    let full := vFullOf s r.word
    let at_ := nowAt s (coreOf k) + (vaultPath (coreOf k) b).2
    let does := fun (new : Word) (bit : Bool) (answer : Word) =>
      ∃ t, exec (.bankGrant b) s = .next t ∧
        t.slot k = { s.slot k with
          run := .parked .vault, access := some { use_ := .word dst, data := answer.setWidth 128, ready := at_ } } ∧
        (∀ j, j ≠ k → t.slot j = s.slot j) ∧ t.due = s.due ∧ vWord t r.word = new ∧
        (∀ a, a / 4 ≠ r.word → smGet 0 t.vault a = smGet 0 s.vault a) ∧
        (∀ w, vFullOf t w = if w = r.word then bit else vFullOf s w) ∧
        (∀ n, t.bank n = if n = b then
            { s.bank b with
              held := (s.bank b).held.erase r, last := r.requester
              retries := (s.bank b).retries ++
                if bit ≠ full ∧ (s.bank b).waiters.any (fun x => x.word = r.word) ∧ ¬ (s.bank b).retries.any (fun x => x.1 = r.word)
                then [(r.word, bankNow s b + 1)] else [] }
          else s.bank n) ∧
        { t with slots := s.slots, banks := s.banks, hot := s.hot, vault := s.vault, vfull := s.vfull } = s
    (code = 0 → full = true → does old true old) ∧ (code = 1 → full = true → does old false old) ∧
    (code = 2 → full = false → does v true 0) ∧ (code = 3 → does v true 0) ∧
    (code = 4 → does old full (if full then 1 else 0)) ∧ (code = 5 → does old (v.getLsbD 0) 0) ∧
    ((code < 2 ∧ full = false) ∨ (code = 2 ∧ full = true) → (s.bank b).waiters.length < 8 →
      ∃ t, exec (.bankGrant b) s = .next t ∧
        (∀ n, t.bank n = if n = b then
            { s.bank b with held := (s.bank b).held.erase r, last := r.requester, waiters := (s.bank b).waiters ++ [r] }
          else s.bank n) ∧
        { t with banks := s.banks } = s)) ∧
  ∀ (s : State) (k : Nat) (a : VaultAccess) (dst : Option Reg), Performed s k a → a.use_ = .word dst →
    ∃ t, exec (.replyArrival k accessId none) s = .next t ∧
      Replied s t k a (dst.toList.map fun d => (d, a.data.setWidth 32))

/-- R215, R72, R343: a full/empty operation on a word of main memory whose line is resident at its home is performed there: one whose
condition holds returns what the table says, leaves the word and its bit as it says, and lets waiters be retried when the bit
changed; one whose condition fails changes nothing in the line: its thread parks and joins the slice's wait list, which holds
sixteen. -/
def Claim.FullEmptyAtSlices : Prop :=
  ∀ (s : State) (r a : Reg) (g : BitVec 3) (i : BitVec 9) (sl pa : Nat), Clear s → s.me.relaxed = [] →
    let off := s.memOffset a (BitVec.ofInt 32 (i.toInt * 4))
    let line := sliceLine s sl (pa / 64)
    let old := BitVec.ofNat 32 (fieldOf line.data (8 * (pa % 64)) 32)
    let full := bitOf line.full (pa % 64 / 4)
    let does := fun (j : Instr) (acc : Access) (ws : List (Reg × Word)) (new : Word) (bit : Bool) =>
      ResidentAccess s g.toNat off 4 acc sl pa →
      ∃ t, exec j s = .next t ∧ HomeWent s t ws s.npc ∧
        LineWrote s t sl pa 4 new.toNat (putField line.full (pa % 64 / 4) 1 bit.toNat) ∧ t.due = s.due ++ wakes s sl pa bit
    let waits := fun (j : Instr) (acc : Access) (code : Nat) (dst : Option Reg) =>
      ResidentAccess s g.toNat off 4 acc sl pa → (s.slice sl).waiters.length < 16 →
      ∃ t, exec j s = .next t ∧ t.me = { s.me with run := .parked (.fullEmpty dst) } ∧ (∀ k, k ≠ s.cur → t.slot k = s.slot k) ∧
        SameLines s t ∧
        (t.slice sl).waiters = (s.slice sl).waiters ++ [{ word := pa / 4, op := .fe code (s.reg r), asker := .thread s.cur }] ∧
        t.due = s.due
    (full = true → does (.lwf r a g i) aLwf [(r, old)] old true ∧ does (.lwt r a g i) aLwt [(r, old)] old false ∧
      waits (.swp r a g i) aSwp 2 none) ∧
    (full = false → does (.swp r a g i) aSwp [] (s.reg r) true ∧
      waits (.lwf r a g i) aLwf 0 (some r) ∧ waits (.lwt r a g i) aLwt 1 (some r)) ∧
    does (.swf r a g i) aSwp [] (s.reg r) true ∧
    does (.ferd r a g i) aLwf [(r, if full then 1 else 0)] old full ∧
    does (.feset r a g i) aSwp [] old ((s.reg r).getLsbD 0)

/-- R213, R344, R210: a teller operation on a word of the own vault goes to the word's bank and its thread parks; the bank leaves in the
word what the table says, changes no full/empty bit, and answers the old value. On a word of a resident line of main memory its home
does so, and the old value is returned to g[d]. -/
def Claim.TellerOperations : Prop :=
  let new := fun (code : Nat) (old v v2 : Word) => match code with
    | 0 => old + v
    | 1 => old &&& v
    | 2 => old ||| v
    | 3 => old ^^^ v
    | 4 => if old.toInt < v.toInt then old else v
    | 5 => if old.toInt < v.toInt then v else old
    | 6 => if old.toNat < v.toNat then old else v
    | 7 => if old.toNat < v.toNat then v else old
    | 8 => v
    | 9 => if old = v then v2 else old
    | 10 => tellerFadd old v
    | _ => if v.toNat ≤ old.toNat then 0 else old + 1
  (∀ (s : State) (d a b : Reg) (g : BitVec 3), Clear s → s.me.relaxed = [] →
    let off := (s.reg a).toNat
    let v := s.reg b
    let w := ownKey s (segBase (s.seg g.toNat) + off) / 4
    ∀ p ∈ [(.tadd d a b g, 0), (.tand d a b g, 1), (.tor d a b g, 2), (.txor d a b g, 3), (.tmin d a b g, 4), (.tmax d a b g, 5),
        (.tminn d a b g, 6), (.tmaxn d a b g, 7), (.tswap d a b g, 8), (.tcas d a b g, 9), (.tfadd d a b g, 10), (.twinc d a b g, 11)],
      let v2 := if p.2 = 9 then s.reg (b + 1) else 0
      (OwnVaultAccess s g.toNat off 4 aTeller →
        ∃ t, exec p.1 s = .next t ∧
          SentAccess s t (.parked .vault) (some (.begun s (.word (some d)) 4 0 1 false))
            (ownRequests s w 1 (fun _ => .teller p.2 v v2) (.access s.cur)) 1) ∧
      ∀ sl pa, ResidentAccess s g.toNat off 4 aTeller sl pa →
        let line := sliceLine s sl (pa / 64)
        let old := BitVec.ofNat 32 (fieldOf line.data (8 * (pa % 64)) 32)
        ∃ t, exec p.1 s = .next t ∧ HomeWent s t [(d, old)] s.npc ∧
          LineWrote s t sl pa 4 (new p.2 old v v2).toNat line.full ∧ t.due = s.due) ∧
  ∀ (s : State) (b k part : Nat) (r : BankReq) (a : VaultAccess) (code : Nat) (v v2 : Word), Serves s b r k part a →
    r.op = .teller code v v2 → code < 12 → vErr s r.word = 0 → a.use_ ≠ .store →
    ∃ t, exec (.bankGrant b) s = .next t ∧ BankServes s t b r k part a (vWord s r.word) ∧ t.verr = s.verr ∧
      vWord t r.word = new code (vWord s r.word) v v2

/-- R214: the teller's FADD is the exact sum of its two FP32 operands rounded once to nearest even. -/
def Claim.TellerFaddRoundsOnce : Prop :=
  ∀ x y : Word,
    tellerFadd x y = BitVec.ofNat 32 (fFP32.round rneCtx 0 (vAdd false (fFP32.decode x.toNat) (fFP32.decode y.toNat)).1).1

/-! ### Main memory and order -/

/-- R341, R231, R237, R301: a load or store through a GLOBAL segment is performed at the home slice of its line: a load writes the bytes of
the resident line and leaves all memory as it is, a store puts its bytes there and leaves every other byte, every other line and
what is stored in memory as it is.
The model's choices of log entries 6, 10, 11 and 49 enter here. -/
def Obligations.ResidentMemoryAccesses : Prop :=
  (∀ (s : State) (r a : Reg) (g : BitVec 3) (i : BitVec 9) (sl pa : Nat), Clear s → s.me.relaxed = [] →
    let off := fun (n : Nat) => s.memOffset a (BitVec.ofInt 32 (i.toInt * n))
    let at_ := fun (n : Nat) (acc : Access) => ResidentAccess s g.toNat (off n) n acc sl pa
    let v := fun (n : Nat) => fieldOf (sliceLine s sl (pa / 64)).data (8 * (pa % 64)) (8 * n)
    let part := fun (n j : Nat) => BitVec.ofNat 32 (v n / 2 ^ (32 * j))
    let loads := fun (j : Instr) (n : Nat) (ws : List (Reg × Word)) =>
      at_ n aLoad → ∃ t, exec j s = .next t ∧ HomeWent s t ws s.npc ∧ SameLines s t ∧ t.due = s.due
    let stores := fun (j : Instr) (n : Nat) =>
      at_ n aStore → ∃ t, exec j s = .next t ∧ HomeWent s t [] s.npc ∧ t.due = s.due ∧
        LineWrote s t sl pa n (registerBytes s r n) (sliceLine s sl (pa / 64)).full
    loads (.lb r a g i) 1 [(r, (BitVec.ofNat 8 (v 1)).signExtend 32)] ∧
    loads (.lbn r a g i) 1 [(r, BitVec.ofNat 32 (v 1))] ∧
    loads (.lh r a g i) 2 [(r, (BitVec.ofNat 16 (v 2)).signExtend 32)] ∧
    loads (.lhn r a g i) 2 [(r, BitVec.ofNat 32 (v 2))] ∧
    loads (.lw r a g i) 4 [(r, BitVec.ofNat 32 (v 4))] ∧
    loads (.ld r a g i) 8 [(r, part 8 0), (r + 1, part 8 1)] ∧
    loads (.lq r a g i) 16 [(r, part 16 0), (r + 1, part 16 1), (r + 2, part 16 2), (r + 3, part 16 3)] ∧
    stores (.sb r a g i) 1 ∧ stores (.sh r a g i) 2 ∧ stores (.sw r a g i) 4 ∧ stores (.sd r a g i) 8 ∧ stores (.sq r a g i) 16) ∧
  ∀ (s : State) (d a : BitVec 3) (f : Reg) (sl pa : Nat), Clear s → s.me.relaxed = [] →
    let off := s.memOffset (BitVec.ofNat 5 (8 + a.toNat)) (BitVec.ofNat 32 (4 * f.toNat))
    let gd : Reg := BitVec.ofNat 5 (8 + d.toNat)
    (ResidentAccess s 1 off 4 aLoad sl pa →
      ∃ t, exec (.cLw d a f) s = .next t ∧ SameLines s t ∧ t.due = s.due ∧
        HomeWent s t [(gd, BitVec.ofNat 32 (fieldOf (sliceLine s sl (pa / 64)).data (8 * (pa % 64)) 32))] s.npc) ∧
    (ResidentAccess s 1 off 4 aStore sl pa →
      ∃ t, exec (.cSw d a f) s = .next t ∧ HomeWent s t [] s.npc ∧ t.due = s.due ∧
        LineWrote s t sl pa 4 (s.reg gd).toNat (sliceLine s sl (pa / 64)).full)

/-- R243, R186, R211: with REL pending, a load or store is sent and the thread goes on: the access is outstanding, a load's register is
marked and not yet written, and no byte has changed. The words of one to the own vault go to their banks; one to a page of main
memory or of I/O is performed when its reply is due. -/
def Claim.RelaxedAccessesOutstanding : Prop :=
  ∀ (s : State) (r a : Reg) (g : BitVec 3) (i : BitVec 9), Unmapped s → s.me.pend = 0x0008 → s.me.relaxed.length < 8 → r ≠ 0 →
    let off := s.memOffset a (BitVec.ofInt 32 (i.toInt * 4))
    let addr := segBase (s.seg g.toNat) + off
    let now := (s.cluster s.myUnit).cycle.toNat
    let sent := fun (j : Instr) (x : Relaxed) (op : WordOp) (marks : Word) (own : Bool) =>
      ∃ t, exec j s = .next t ∧ t.cur = s.cur ∧ (∀ q, t.reg q = s.reg q) ∧
        t.me.relaxed = s.me.relaxed ++ [x] ∧ t.me.marks = marks ∧ t.me.pc = s.npc ∧ t.me.pend = 0 ∧
        (∀ k, k ≠ s.cur → t.slot k = s.slot k) ∧
        (if own then Asks s t (ownRequests s (ownKey s addr / 4) 1 (fun _ => op) (.relaxed s.cur s.me.nextId)) ∧
            { t with slots := s.slots, banks := s.banks, hot := s.hot } = s
          else t.due = s.due ++ [.replyArrival s.cur s.me.nextId none] ∧ { t with slots := s.slots, cores := s.cores, due := s.due } = s)
    let vault : Relaxed :=
      { id := s.me.nextId, place := .vault s.myUnit (interleaved addr) false, dst := r, cls := segClass (s.seg g.toNat), left := 1
        ready := now, issued := some now }
    let far := fun (pl : Place) =>
      ({ id := s.me.nextId, place := pl, dst := r, cls := segClass (s.seg g.toNat), left := 1, ready := now } : Relaxed)
    let v := s.reg r
    let mark := BitVec.ofNat 32 (2 ^ r.toNat)
    (OwnVaultAccess s g.toNat off 4 aLoad → sent (.lw r a g i) vault .read mark true) ∧
    (OwnVaultAccess s g.toNat off 4 aStore →
      sent (.sw r a g i) { vault with store := true, data := v.setWidth 128 } (.write 0xF v) 0 true) ∧
    ∀ sl pa, let pl := Place.home sl pa
      (ResidentAccess s g.toNat off 4 aLoad sl pa → sent (.lw r a g i) (far pl) .read mark false) ∧
      (ResidentAccess s g.toNat off 4 aStore sl pa →
        sent (.sw r a g i) { far pl with store := true, data := v.setWidth 128 } .read 0 false)

/-- R244, R345: a fence with nothing to wait for goes on and changes nothing; IFENCE also empties the core's instruction cache.
With relaxed accesses outstanding in its scope, a fence parks the thread. -/
def Claim.Fences : Prop :=
  ∀ (s : State), Clear s →
    (s.me.relaxed.any (fun r => r.place.quick) = false → GoesTo s .fenceV s.npc) ∧
    (s.me.relaxed.any (fun r => !r.place.quick) = false → GoesTo s .fenceG s.npc) ∧
    (s.me.relaxed = [] → retiredAll s.cur s = true →
      (∀ c ∈ (s.bulkOf (groupOf s.myCore)).copies, c.slot = s.cur → c.orphan = true) →
      GoesTo s .fenceA s.npc ∧
      ∃ t, exec .ifence s = .next t ∧ t.cur = s.cur ∧ (∀ r, t.reg r = s.reg r) ∧ t.me = s.me.went s.npc ∧
        (∀ k, k ≠ s.cur → t.slot k = s.slot k) ∧ t.core s.myCore = { s.core s.myCore with icache := [] } ∧
        (∀ n, n ≠ s.myCore → t.core n = s.core n) ∧ { t with slots := s.slots, cores := s.cores } = s) ∧
    (s.me.relaxed.any (fun r => r.place.quick) = true → ∃ t, exec .fenceV s = .next t ∧ ParkedOn s t (.cond .relaxed)) ∧
    (s.me.relaxed.any (fun r => !r.place.quick) = true → ∃ t, exec .fenceG s = .next t ∧ ParkedOn s t (.cond .relaxed)) ∧
    (s.me.relaxed ≠ [] → ∃ t, exec .fenceA s = .next t ∧ ParkedOn s t (.cond .quiet)) ∧
    (s.me.relaxed ≠ [] → ∃ t, exec .ifence s = .next t ∧ ParkedOn s t (.cond .quiet))

/-! ### Traps -/

/-- R192, R390, R392, R190, R194, R6: SYSCALL, BREAK, an encoding outside the tables, and the three traps that are taken before an
instruction issues enter the handler: what is saved, what the status becomes, where the pc goes, and that nothing else changes. -/
def Claim.TrapsEnterTheHandler : Prop :=
  ∀ (s : State), Unmapped s → Handles s →
    (s.me.pend = 0 → Traps s .syscall 10 0) ∧
    (s.me.pend = 0 → (s.core s.myCore).brkhalt = false → Traps s .brk 9 0) ∧
    Traps s .illegalEncoding 1 s.me.ir ∧
    (∀ n, s.me.deadline = some n →
      ∃ t, exec .deadlineTrap s = .next t ∧ Trapped (s.modMe fun sl => { sl with deadline := none }) t 11 (n.setWidth 32)) ∧
    (∀ c more, s.me.deferred = some (c, more) →
      ∃ t, exec .deferredMemerr s = .next t ∧
        Trapped (s.modMe fun sl => { sl with deferred := none }) t 7
          (BitVec.ofNat 32 (c.toNat + 256 + if more then 512 else 0))) ∧
    (s.me.stepDue = true → (s.core s.myCore).brkhalt = false →
      ∃ t, exec .stepBreak s = .next t ∧ Trapped (s.modMe fun sl => { sl with stepDue := false }) t 9 1)

/-- R193: a trap under EXL, or with TVEC bit 0 clear, stops the thread. -/
def Claim.TrapsStopTheThread : Prop :=
  ∀ (s : State), Unmapped s → (bitOf s.me.status 0 = true ∨ bitOf (s.core s.myCore).tvec 0 = false) →
    (s.me.pend = 0 → ∃ t, exec .syscall s = .next t ∧ Stopped s t 10 0) ∧
    (s.me.pend = 0 → (s.core s.myCore).brkhalt = false → ∃ t, exec .brk s = .next t ∧ Stopped s t 9 0) ∧
    ∃ t, exec .illegalEncoding s = .next t ∧ Stopped s t 1 s.me.ir

/-- R391, R392: ERET returns to EPC with the prefixes of STATUS.PP, and clears PP and EXL; DRET does the same and sets DSTEP. Outside
a handler both are ILLEGAL. No register and no memory changes. -/
def Claim.ReturnsFromTraps : Prop :=
  ∀ (s : State), Clear s →
    (bitOf s.me.status 0 = true →
      let returned := fun (step : Word) =>
        { s.me with
          pc := s.me.epc, pend := BitVec.ofNat 16 (s.me.status.toNat / 2 ^ 16), pv := true, chain := none, run := .ready, faultVa := 0
          reissue := false, counted := false
          status := (s.me.status &&& 0x0000FFFE) ||| step }
      (∃ t, exec .eret s = .next t ∧ t.cur = s.cur ∧ t.me = returned 0 ∧ (∀ k, k ≠ s.cur → t.slot k = s.slot k) ∧
        { t with slots := s.slots } = s) ∧
      (∃ t, exec .dret s = .next t ∧ t.cur = s.cur ∧ t.me = returned 2 ∧ (∀ k, k ≠ s.cur → t.slot k = s.slot k) ∧
        { t with slots := s.slots } = s)) ∧
    (bitOf s.me.status 0 = false → bitOf (s.core s.myCore).tvec 0 = true →
      Traps s .eret 1 s.me.ir ∧ Traps s .dret 1 s.me.ir)

/-- R200: with BRKHALT the core halts where a BREAK or the end of a software step would trap, and shows the slot. BREAK completes;
nothing else changes. -/
def Claim.BreakHaltsTheCore : Prop :=
  ∀ (s : State), (s.core s.myCore).brkhalt = true →
    let halted := { s.core s.myCore with halt := true, brkhit := true, bslot := BitVec.ofNat 4 (s.cur % 16) }
    (Clear s → ∃ t, exec .brk s = .next t ∧ t.cur = s.cur ∧ t.me = s.me.went s.npc ∧ t.core s.myCore = halted ∧
      (∀ k, k ≠ s.cur → t.slot k = s.slot k) ∧ (∀ n, n ≠ s.myCore → t.core n = s.core n) ∧
      { t with slots := s.slots, cores := s.cores } = s) ∧
    (s.me.stepDue = true → ∃ t, exec .stepBreak s = .next t ∧ t.cur = s.cur ∧ t.me = { s.me with stepDue := false } ∧
      t.core s.myCore = halted ∧ (∀ k, k ≠ s.cur → t.slot k = s.slot k) ∧ (∀ n, n ≠ s.myCore → t.core n = s.core n) ∧
      { t with slots := s.slots, cores := s.cores } = s)

/-- R305, R192: an instruction that takes no prefix and finds one pending traps with ILLEGAL, EVAL its own bits; STATUS.PP holds the
prefix and nothing of the instruction is done. -/
def Claim.RefusedPrefixTraps : Prop :=
  ∀ (s : State) (d a b : Reg) (i : BitVec 15) (o : BitVec 12) (j : BitVec 20) (z : PackSize) (c : BitVec 12) (n : BitVec 3), Unmapped s →
    Handles s → (bitOf s.me.pend 15 = true ∨ bitOf s.me.pend 3 = true ∨ bitOf s.me.pend 2 = true) →
    ∀ x ∈ [.add d a b, .adds d a b, .lzc d a, .addi d a i, .lui d j, .mul d a b, .div d a b, .padd d a b z, .cmul d a b, .beq a b o,
      .jal d j, .jalr d a i, .cNop, .wid d n, .coreid d, .syscall, .brk, .eret, .dret, .wait d a, .yield, .halt, .segnull n,
      .csrr d c, .csrw a c, .fenceV, .fenceA],
      Traps s x 1 s.me.ir

/-- R231, R192: the checks on an offset of a segment stop a load and a store in the order MISALIGN, SEGLIMIT, SEGRIGHTS, MINTSTORE,
with EVAL the offset, and nothing of the access is done. -/
def Obligations.SegmentChecksTrap : Prop :=
  ∀ (s : State) (r a : Reg) (g : BitVec 3) (i : BitVec 9), Clear s → Handles s → isBursar s.myCore = false →
    let o := s.memOffset a (BitVec.ofInt 32 (i.toInt * 4))
    let d := s.seg g.toNat
    let addr := segBase d + o
    let aligned := addr % 4 = 0
    let type := segType d
    let beyond := segLimit d < o + 4 ∨ ((type = 3 ∨ type = 4) ∧ (0x8000000 ≤ addr + 3 ∨ (type = 3 ∧ segOwn d = false ∧ 0x4000000 ≤ addr + 3)))
    let readable := bitOf d 96 = true ∧ 1 ≤ type ∧ type ≤ 4
    let writable := bitOf d 97 = true ∧ (type = 2 ∨ type = 3)
    let trap := fun (x : Instr) (cause : Nat) => Traps s x cause (BitVec.ofNat 32 o)
    (¬ aligned → trap (.lw r a g i) 5 ∧ trap (.sw r a g i) 5) ∧
    (aligned → beyond → trap (.lw r a g i) 3 ∧ trap (.sw r a g i) 3) ∧
    (aligned → ¬ beyond → (¬ readable → trap (.lw r a g i) 4) ∧ (¬ writable → trap (.sw r a g i) 4)) ∧
    (aligned → ¬ beyond → writable → type = 3 → 0x4000000 < addr + 4 → trap (.sw r a g i) 6)

/-- R187, R200, R201: an instruction with a source mapped onto a queue takes the head entry, written 8 wc ago or earlier, and leaves the
register as it is; with a mapped destination its result becomes the tail entry, which can be taken 8 wc after the issue; when the queue
has no such head or no free entry the thread parks, nothing is taken, and the instruction has not issued: what its issue counted is
taken back, and the work cycle is a bubble. -/
def Claim.InterSlotQueues : Prop :=
  ∀ (s : State) (d a b : Reg) (j : Nat), s.me.pend = 0 → s.me.marks = 0 → s.me.taken = [] → qOwned s.cur (s.core s.myCore) = false →
    j < 4 → (∀ i < 4, bitOf s.me.qmap i = decide (i = j)) →
    let m : Reg := BitVec.ofNat 5 (28 + j)
    let queue := fun (u : State) (i : Nat) => smGet [] (u.core s.myCore).queues i
    d ≠ m → a ≠ m → b ≠ m →
    ∀ p ∈ [((fun d a b => .add d a b : Reg → Reg → Reg → Instr), (fun x y => x + y : Word → Word → Word)),
      ((fun d a b => .xor d a b), (fun x y => x ^^^ y)), ((fun d a b => .mul d a b), (fun x y => x * y))],
      (∀ v rest n, queue s j = { val := some v, ready := n } :: rest → n ≤ nowAt s s.myCore → (∀ e ∈ rest, e.owner ≠ s.cur + 1) →
        ∃ t, exec (p.1 d m b) s = .next t ∧ t.cur = s.cur ∧ smGet 0 t.me.g m.toNat = smGet 0 s.me.g m.toNat ∧
          (∀ r, r ≠ m → t.reg r = if r = 0 then 0 else if r = d then p.2 v (s.reg b) else s.reg r) ∧
          (∀ i < 4, queue t i = if i = j then rest else queue s i) ∧ t.me.pc = s.npc ∧
          { t with slots := s.slots, cores := s.cores } = s) ∧
      ((queue s j).length < 8 →
        ∃ t, exec (p.1 m a b) s = .next t ∧ t.cur = s.cur ∧ t.me = { s.me.went s.npc with taken := [] } ∧
          (∀ i < 4, queue t i = if i = j then queue s j ++ [{ val := some (p.2 (s.reg a) (s.reg b)), ready := s.me.busyUntil }]
            else queue s i) ∧
          { t with slots := s.slots, cores := s.cores } = s) ∧
      (s.me.undo = none →
        (queue s j = [] ∨ (∃ e rest, queue s j = e :: rest ∧ nowAt s s.myCore < e.ready) →
          ∃ t, exec (p.1 d m b) s = .next t ∧ ParkedOn s t (.cond (.queue (BitVec.ofNat 4 (2 ^ j)) 0))) ∧
        (8 ≤ (queue s j).length → ∃ t, exec (p.1 m a b) s = .next t ∧ ParkedOn s t (.cond (.queue 0 (BitVec.ofNat 4 (2 ^ j)))))) ∧
      ∀ u, s.me.undo = some u → queue s j = [] →
        ∃ t, exec (p.1 d m b) s = .next t ∧ t.cur = s.cur ∧
          t.me = { s.me with
            run := .parked (.cond (.queue (BitVec.ofNat 4 (2 ^ j)) 0)), busyUntil := u.busyUntil, counted := u.counted, undo := none } ∧
          (∀ k, k ≠ s.cur → t.slot k = s.slot k) ∧ (∀ n, n ≠ s.myCore → t.core n = s.core n) ∧
          { t.core s.myCore with counters := (s.core s.myCore).counters } = { s.core s.myCore with step := u.step } ∧
          (∀ i, smGet 0 (t.core s.myCore).counters i =
            if i = 7 then u.issued else if i = 9 then u.lent
            else bump (smGet 0 (s.core s.myCore).counters i) (if i = 5 ∨ (i = 8 ∧ (s.core s.myCore).halt = false) then 1 else 0)) ∧
          { t with slots := s.slots, cores := s.cores } = s

/-- R186, R188: an instruction that names a marked register parks until the mark clears, and one that uses a mapped register as the
base of a memory operand traps with QUEUEMAP, EVAL the register's number. -/
def Claim.MarksAndMappedBases : Prop :=
  (∀ (s : State) (d a b : Reg), s.me.pend = 0 → s.me.qmap = 0 → (bitOf s.me.marks d.toNat ∨ bitOf s.me.marks a.toNat ∨ bitOf s.me.marks b.toNat) →
    ∀ x ∈ [.add d a b, .sub d a b, .and d a b, .mul d a b, .slt d a b],
      ∃ t, exec x s = .next t ∧
        ParkedOn s t (.cond (.mark (BitVec.ofNat 32 (2 ^ a.toNat) ||| BitVec.ofNat 32 (2 ^ b.toNat) ||| BitVec.ofNat 32 (2 ^ d.toNat))))) ∧
  ∀ (s : State) (r a b : Reg) (g : BitVec 3) (i : BitVec 9), s.me.pend = 0 → s.me.taken = [] → qOwned s.cur (s.core s.myCore) = false →
    Handles s → 28 ≤ a.toNat → bitOf s.me.qmap (a.toNat - 28) = true →
    ∀ x ∈ [.lb r a g i, .lw r a g i, .sw r a g i, .lwf r a g i, .tadd r a b g],
      Traps s x 13 (BitVec.ofNat 32 a.toNat)

/-! ### Waits, ends, segment registers -/

/-- R393, R394, R302, R185: WAIT of a zero count writes 0 and goes on; of another count it parks until that many work cycles after
its own. YIELD and C.YIELD go on and give up the thread's cycles until its next own one. -/
def Claim.WaitsAndYields : Prop :=
  ∀ (s : State) (d a : Reg), Clear s →
    (s.reg a = 0 → Gives s (.wait d a) d 0) ∧
    (s.reg a ≠ 0 → ∃ t, exec (.wait d a) s = .next t ∧
      ParkedOn s t (.wait ((s.cluster s.myUnit).cycle.toNat + 8 + (s.reg a).toNat) d)) ∧
    ∀ x ∈ [Instr.yield, .cYield], ∃ t, exec x s = .next t ∧ OnlySlot s t { s.me.went s.npc with yielding := true }

/-- R395, R189, R168: HALT ends its thread: the slot is idle and looks for work, the timer it held is free, a thread that is no
handler counts in COUNT, a core without a thread answers its steal requests EMPTY, and a handler that still owes a reply sends NOREPLY. Under a task, or with inlined calls open, it traps
with TASK. -/
def Claim.HaltEndsTheThread : Prop :=
  ∀ (s : State), Clear s →
    let x := s.core s.myCore
    let held := bitOf s.me.dlstat 4
    let timer := fun (u : State) (i : Nat) => smGet {} (u.cluster s.myUnit).timers i
    let owes := s.me.handler && s.me.replyOwed && s.me.msg.reply
    let last := ∀ j < 16, 16 * s.myCore + j ≠ s.cur → (s.slot (16 * s.myCore + j)).run = .idle
    (s.me.tcb = none → s.me.icnt = 0 → retiredAll s.cur s = true →
      ∃ u t, exec .halt s = .next t ∧
        (if owes = true then Posted s u s.myCore (replyPacket s s.myCore s.me.msg s.me.msg.cls [] true) else u = s) ∧
        t.cur = s.cur ∧ t.me.run = .idle ∧ (∀ r, t.reg r = s.reg r) ∧ (∀ k, k ≠ s.cur → t.slot k = s.slot k) ∧
        (last → t.core s.myCore = { u.core s.myCore with count := x.count + if s.me.handler then 0 else 1, mailbox := [] }) ∧
        (¬ last → t.core s.myCore = { u.core s.myCore with count := x.count + if s.me.handler then 0 else 1 }) ∧
        (∀ n, n ≠ s.myCore → t.core n = s.core n) ∧
        (∀ i, timer t i = if held = true ∧ i = fieldOf s.me.dlstat 0 4 then {} else timer s i) ∧
        { t.cluster s.myUnit with timers := (s.cluster s.myUnit).timers } = s.cluster s.myUnit ∧
        (∀ c, c ≠ s.myUnit → t.cluster c = s.cluster c) ∧
        (∃ more, t.due = s.due ++ more ++ [.handlerStart s.cur, .idleSlotWorkSearch s.cur] ∧
          (last → more = x.mailbox.map fun m => .stealReply m.1) ∧ (¬ last → more = [])) ∧
        { t with slots := s.slots, cores := s.cores, clusters := s.clusters, due := s.due } = { u with cores := s.cores }) ∧
    (Handles s →
      (s.me.tcb ≠ none → Traps s .halt 16 10) ∧ (s.me.tcb = none → s.me.icnt ≠ 0 → Traps s .halt 16 11))

/-- R396, R232, R192, R211: SEGNULL clears a segment register, SEGRD reads one into four registers, and SEGLD sends a read of the four
words of the descriptor that its index names in the core's table in the own vault, when the index passes its tests; it loads the
descriptor when the words have come, or traps when it is not valid. s0 is no destination.
The model's choices of log entries 34 and 51 enter here. -/
def Obligations.SegmentRegisters : Prop :=
  ∀ (s : State) (d a : Reg) (n : BitVec 3), Clear s →
    let w := fun (i : Nat) => BitVec.ofNat 32 ((s.seg n.toNat).toNat / 2 ^ (32 * i))
    (n ≠ 0 → GivesSeg s (.segnull n) n.toNat 0) ∧
    (n = 0 → Handles s → Traps s (.segnull n) 1 s.me.ir ∧ Traps s (.segld n a) 1 s.me.ir) ∧
    (∃ t, exec (.segrd d n) s = .next t ∧ WroteTo s t [(d, w 0), (d + 1, w 1), (d + 2, w 2), (d + 3, w 3)] s.npc) ∧
    (n ≠ 0 → isBursar s.myCore = false → s.me.relaxed = [] →
      let i := (s.reg a).toNat
      let table := (s.core s.myCore).segtab.toNat
      let nent := table % 2 ^ 8
      let uent := table / 2 ^ 24 % 2 ^ 8
      let w := ownKey s (table / 2 ^ 8 % 2 ^ 13 * 4096 + 16 * i) / 4
      let traps := fun (cause v : Nat) => Handles s → Traps s (.segld n a) cause (BitVec.ofNat 32 v)
      (nent ≤ i → traps 3 i) ∧
      (i < nent → s.prv = 0 → uent ≤ i → traps 4 i) ∧
      (i < nent → (s.prv = 0 → i < uent) →
        ∃ t, exec (.segld n a) s = .next t ∧
          SentAccess s t .busy (some (.begun s (.segment n.toNat i) 16 0 4 true))
            (ownRequests s w 4 (fun _ => .read) (.access s.cur)) 0)) ∧
    ∀ (k i : Nat) (v : VaultAccess), Performed s k v → v.use_ = .segment n.toNat i → isBursar (coreOf k) = false →
      let nc := ((launchOf s (coreOf k)).map (·.nc)).getD 0
      (segValid false nc v.data = true → ∃ t u, exec (.replyArrival k accessId none) s = .next t ∧ Replied s u k v [] ∧
        (t.slot k = { u.slot k with sg := (t.slot k).sg } ∧
          ∀ m, smGet 0 (t.slot k).sg m = if m = n.toNat then v.data else smGet 0 (s.slot k).sg m) ∧
        (∀ j, j ≠ k → t.slot j = u.slot j) ∧ { t with slots := u.slots } = u) ∧
      (segValid false nc v.data = false → ¬ bitOf (s.slot k).status 0 → bitOf (s.core (coreOf k)).tvec 0 = true →
        ∃ t, exec (.replyArrival k accessId none) s = .next t ∧ (t.slot k).ecause = 4 ∧
          (t.slot k).eval = BitVec.ofNat 32 (256 + i) ∧ (t.slot k).epc = (s.slot k).pc ∧ (t.slot k).sg = (s.slot k).sg ∧
          (t.slot k).access = none ∧ ∀ j, j ≠ k → t.slot j = s.slot j)

/-- R397, R240: TLBINV sends its request to the second-level TLB of the cluster it names, over routes that take no detour, and parks;
there the entries of the named context that overlap the range are removed from that TLB and from the cores' own, all other entries
stay, and the thread goes on. -/
def Claim.TlbInvalidations : Prop :=
  (∀ (s : State) (a b : Reg), Clear s → s.prv ≠ 0 → s.me.relaxed = [] → (s.core s.myCore).sendReq.length < 8 → s.myCore < 16388 →
    let c := (s.reg a).toNat % 2 ^ 4
    s.partOf (dieOfCluster c) = s.partOf (dieOfCluster s.myUnit) →
    (coreRouter s.myCore = 64 * c ∨
      (routeOf s (coreRouter s.myCore) (64 * c) = .there [] ∧ routeOf s (64 * c) (coreRouter s.myCore) = .there [])) →
    ∃ t, exec (.tlbinv a b) s = .next t ∧
      ParkedOn { s with due := s.due ++ [.tlbInvalidation c s.cur] } t
        (.tlbinv ((s.reg b).getLsbD 31) ((s.reg b).toNat % 2 ^ 7) ((s.xreg 0).toNat + 2 ^ 32 * ((s.xreg 1).toNat % 2 ^ 24))
          (s.xreg 2).toNat)) ∧
  ∀ (s : State) (c k : Nat) (b : Bool) (vi va pages : Nat), (s.slot k).run = .parked (.tlbinv b vi va pages) → Unheld s k →
    let named := fun (e : TlbEntry) =>
      (∃ v, (s.cluster c).ctx = some (b, v) ∧ (b = true ∨ v = vi)) ∧
      (pages = 0 ∨ (e.va < va + 4096 * pages ∧ va < e.va + 4096 * 4 ^ e.size))
    ∃ t, exec (.tlbInvalidation c k) s = .next t ∧ Answered s t k [] ∧
      (∀ e, e ∈ (t.cluster c).tlb2 ↔ e ∈ (s.cluster c).tlb2 ∧ ¬ named e) ∧
      { t.cluster c with tlb2 := (s.cluster c).tlb2 } = s.cluster c ∧ (∀ m, m ≠ c → t.cluster m = s.cluster m) ∧
      (∀ n, unitOf n = c → (∀ e, e ∈ (t.core n).tlb ↔ e ∈ (s.core n).tlb ∧ ¬ named e) ∧
        { t.core n with tlb := (s.core n).tlb } = s.core n) ∧
      (∀ n, unitOf n ≠ c → t.core n = s.core n) ∧
      { t with slots := s.slots, cores := s.cores, clusters := s.clusters } = s

/-- R398, R220, R222, R111: MINTLD sends reads of the 384 words at s[n] + g[a] to their banks in the own vault and parks; with their
answers it fills the cluster's 128 descriptor words and 256 frequencies. MINTSV sends writes of them there, parks, and goes on when
all are performed. In U they and TLBINV trap with PRIVILEGE. -/
def Claim.MintBlocks : Prop :=
  ∀ (s : State) (a b : Reg) (n : BitVec 3), Clear s → isBursar s.myCore = false → s.me.relaxed = [] →
    let o := (s.reg a).toNat
    let d := s.seg n.toNat
    let ok := fun (acc : Access) =>
      segType d = 3 ∧ segOwn d = true ∧ o % 64 = 0 ∧ segTest false d o 1536 4 acc = none ∧ segBase d + o + 1536 ≤ 0x4000000
    let blockWord := fun (u : State) (c i : Nat) =>
      if i < 128 then smGet 0 (u.cluster c).mint i else smGet 0 (u.cluster c).freq (i - 128)
    let asks := fun (op : Nat → WordOp) => (List.range 384).flatMap fun i =>
      (ownRequests s (ownKey s (segBase d + o + 4 * i) / 4) 1 (fun _ => op i) fun _ => .access s.cur i)
    let sends := fun (x : Instr) (use_ : VaultUse) (op : Nat → WordOp) =>
      ∃ t, exec x s = .next t ∧ SentAccess s t (.parked .vault) (some (.begun s use_ 4 0 384 false)) (asks op) 1
    (s.prv ≠ 0 →
      (ok aLoad → sends (.mintld a n) .mint fun _ => .read) ∧
      (ok aStore → sends (.mintsv a n) .store fun i => .write 0xF (blockWord s s.myUnit i))) ∧
    (∀ (k : Nat) (v : VaultAccess), Performed s k v → v.use_ = .mint →
      ∃ u t, exec (.replyArrival k accessId none) s = .next t ∧ Replied s u k v [] ∧
        (∀ i < 384, blockWord t (unitOf (coreOf k)) i = if i < 4 then v.data.extractLsb' (32 * i) 32 else smGet 0 v.more i) ∧
        { t.cluster (unitOf (coreOf k)) with mint := (s.cluster (unitOf (coreOf k))).mint, freq := (s.cluster (unitOf (coreOf k))).freq } =
          s.cluster (unitOf (coreOf k)) ∧
        (∀ c, c ≠ unitOf (coreOf k) → t.cluster c = s.cluster c) ∧ { t with clusters := s.clusters } = u) ∧
    (s.prv = 0 → Handles s → ∀ x ∈ [.mintld a n, .mintsv a n, .tlbinv a b], Traps s x 2 0)

/-! ### Control and status registers -/

/-- R401 to R405, R268, R111, R195: what a read of each CSR gives; a read of CYCLE also latches its upper half. A number that the
map does not have is ILLEGAL, one at or above 0x100 needs S. -/
def Claim.CsrReads : Prop :=
  ∀ (s : State) (d : Reg), Clear s →
    let x := s.core s.myCore
    let u := s.cluster s.myUnit
    let e := s.engine (groupOf s.myCore)
    let num := fun (n : Nat) => BitVec.ofNat 12 n
    (∀ p ∈ [(0x000, s.me.status &&& 0xFFFF0307), (0x001, s.me.epc), (0x002, s.me.ecause &&& 0xFF), (0x003, s.me.eval),
        (0x004, x.tvec), (0x005, s.me.escratch), (0x011, s.me.widLo), (0x012, s.me.widHi), (0x013, x.widshape),
        (0x021, s.me.qmap), (0x030, x.segtab), (0x031, x.msgvec), (0x040, s.me.fmtdef), (0x041, x.srkeyLo), (0x042, x.srkeyHi),
        (0x050, timerCount s), (0x051, timerStatus s), (0x071, s.me.cyclehLatch)],
      Gives s (.csrr d (num p.1)) d p.2) ∧
    (∀ i < 16, Gives s (.csrr d (num (0x060 + i))) d (smGet 0 x.counters i)) ∧
    ((∀ c ∈ e.queue, c.slot ≠ s.cur) → (∀ c ∈ e.cmd, c.slot ≠ s.cur) → (∀ c ∈ e.retiring, c.1 ≠ s.cur) → Gives s (.csrr d 0x043) d s.me.fflags) ∧
    (∃ t, exec (.csrr d 0x070) s = .next t ∧ t.cur = s.cur ∧
      Registers s t [(d, BitVec.ofNat 32 (u.cycle.toNat + 7))] ∧
      { t.me with g := s.me.g } =
        { s.me.went s.npc with cyclehLatch := BitVec.ofNat 32 ((u.cycle.toNat + 7) / 2 ^ 32) } ∧
      (∀ k, k ≠ s.cur → t.slot k = s.slot k) ∧ { t with slots := s.slots } = s) ∧
    (isBursar s.myCore = false →
      Gives s (.csrr d 0x010) d (BitVec.ofNat 32 (s.cur % 16 + s.myCore % 1024 * 2 ^ 4 +
        ((launchOf s s.myCore).map (·.vc)).getD 0 * 2 ^ 14 + if s.prv = 0 then 0 else s.myUnit * 2 ^ 18)) ∧
      (s.prv ≠ 0 →
        Gives s (.csrr d 0x120) d (if ((u.rotNext.getLast?).map (·.2)).getD u.rotmode then 1 else 0) ∧ Gives s (.csrr d 0x122) d (clthr s s.myUnit) ∧
        (∀ i < 128, Gives s (.csrr d (num (0x180 + i))) d (smGet 0 u.mint i)) ∧
        ∀ i < 256, Gives s (.csrr d (num (0x200 + i))) d (smGet 0 u.freq i)) ∧
      (s.prv = 0 → Handles s → ∀ c ∈ [0x120, 0x122, 0x180, 0x1FF, 0x200, 0x2FF], Traps s (.csrr d (num c)) 2 (BitVec.ofNat 32 c))) ∧
    (Handles s → ∀ c ∈ [0x006, 0x014, 0x020, 0x044, 0x052, 0x072, 0x100, 0x121, 0x123, 0x300, 0xFFF],
      Traps s (.csrr d (num c)) 1 s.me.ir)

/-- R399, R402, R404, R165, R5: CSRW writes a CSR's writable fields, CSRX writes them and gives the old value, CSRM replaces the bits that
its mask names and writes nothing when there are none; a write to a read-only CSR changes nothing. A write of MSGVEC with EN = 0 clears
the slot-class map, one with EN = 1 parks until the core has read it from its own vault; one of ROTMODE waits for its rotation, one of
THROTTLE goes to CLTHR. -/
def Claim.CsrWrites : Prop :=
  ∀ (s : State) (d a b : Reg), Clear s →
    let x := s.core s.myCore
    let e := s.engine (groupOf s.myCore)
    let v := s.reg a
    let merged := fun (old : Word) => (old &&& ~~~s.reg b) ||| (v &&& s.reg b)
    let slot := fun (t : State) (ws : List (Reg × Word)) (sl : Slot) =>
      t.cur = s.cur ∧ Registers s t ws ∧ { t.me with g := s.me.g } = sl.went s.npc ∧
      (∀ k, k ≠ s.cur → t.slot k = s.slot k) ∧ { t with slots := s.slots } = s
    let core := fun (t : State) (ws : List (Reg × Word)) (y : Core) =>
      t.cur = s.cur ∧ Registers s t ws ∧ { t.me with g := s.me.g } = s.me.went s.npc ∧
      (∀ k, k ≠ s.cur → t.slot k = s.slot k) ∧ t.core s.myCore = y ∧ (∀ n, n ≠ s.myCore → t.core n = s.core n) ∧
      { t with slots := s.slots, cores := s.cores } = s
    let all := fun (c : BitVec 12) (old : Word) (wrote : State → List (Reg × Word) → Word → Prop) =>
      (∃ t, exec (.csrw a c) s = .next t ∧ wrote t [] v) ∧
      (∃ t, exec (.csrx d a c) s = .next t ∧ wrote t [(d, old)] v) ∧
      (s.reg b ≠ 0 → ∃ t, exec (.csrm a b c) s = .next t ∧ wrote t [] (merged old)) ∧
      (s.reg b = 0 → ∃ t, exec (.csrm a b c) s = .next t ∧ WroteTo s t [] s.npc)
    let keeps := fun (c : BitVec 12) (old : Word) => all c old fun t ws _ => WroteTo s t ws s.npc
    all 0x000 (s.me.status &&& 0xFFFF0307)
      (fun t ws v => slot t ws { s.me with status := (s.me.status &&& 0x0000FFFA) ||| (v &&& 0xFFFF0005) }) ∧
    all 0x001 s.me.epc (fun t ws v => slot t ws { s.me with epc := v }) ∧
    all 0x002 (s.me.ecause &&& 0xFF) (fun t ws v => slot t ws { s.me with ecause := v &&& 0xFF }) ∧
    all 0x003 s.me.eval (fun t ws v => slot t ws { s.me with eval := v }) ∧
    all 0x005 s.me.escratch (fun t ws v => slot t ws { s.me with escratch := v }) ∧
    all 0x021 0 (fun t ws v => slot t ws { s.me with qmap := v &&& 0xF }) ∧
    all 0x040 s.me.fmtdef (fun t ws v => slot t ws { s.me with fmtdef := v &&& 0x7FF }) ∧
    ((∀ c ∈ e.queue, c.slot ≠ s.cur) → (∀ c ∈ e.cmd, c.slot ≠ s.cur) → (∀ c ∈ e.retiring, c.1 ≠ s.cur) →
      all 0x043 s.me.fflags (fun t ws v => slot t ws { s.me with fflags := v &&& 0x3F })) ∧
    all 0x004 x.tvec (fun t ws v => core t ws { x with tvec := v }) ∧
    all 0x041 x.srkeyLo (fun t ws v => core t ws { x with srkeyLo := v }) ∧
    all 0x042 x.srkeyHi (fun t ws v => core t ws { x with srkeyHi := v }) ∧
    (s.prv ≠ 0 → all 0x030 x.segtab (fun t ws v => core t ws { x with segtab := v &&& 0xFF1FFFFF })) ∧
    (s.prv = 0 → keeps 0x030 x.segtab) ∧
    (∀ i < 16, all (BitVec.ofNat 12 (0x060 + i)) (smGet 0 x.counters i) fun t ws v =>
      core t ws { x with counters := (t.core s.myCore).counters } ∧
      ∀ j, smGet 0 (t.core s.myCore).counters j = if j = i then v else smGet 0 x.counters j) ∧
    (s.me.relaxed = [] → isBursar s.myCore = false →
      let loads := fun (i : Instr) (v : Word) (old : Option (Reg × Word)) =>
        v.getLsbD 0 = true → ∃ t, exec i s = .next t ∧
          SentAccess s t (.parked .vault) (some (.begun s (.classMap (v &&& 0x01FFF801) old) 4 0 1 false))
            (ownRequests s (ownKey s (v.toNat / 2 ^ 11 % 2 ^ 14 * 2048) / 4) 1 (fun _ => .read) (.access s.cur)) 1
      let clears := fun (i : Instr) (v : Word) (ws : List (Reg × Word)) =>
        v.getLsbD 0 = false → ∃ t, exec i s = .next t ∧
          ThreadWent (s.modCore s.myCore fun y => { y with msgvec := v &&& 0x01FFF801, classMap := 0 }) t ws s.npc 1 ∧
          { t with slots := s.slots, cores := s.cores } = s
      loads (.csrw a 0x031) v none ∧ loads (.csrx d a 0x031) v (some (d, x.msgvec)) ∧
      (s.reg b ≠ 0 → loads (.csrm a b 0x031) (merged x.msgvec) none) ∧
      clears (.csrw a 0x031) v [] ∧ clears (.csrx d a 0x031) v [(d, x.msgvec)] ∧
      (s.reg b ≠ 0 → clears (.csrm a b 0x031) (merged x.msgvec) [])) ∧
    (∀ (k : Nat) (v : VaultAccess) (w : Word) (old : Option (Reg × Word)), Performed s k v → v.use_ = .classMap w old →
      ∃ u t, exec (.replyArrival k accessId none) s = .next t ∧ Replied s u k v old.toList ∧
        t.core (coreOf k) = { u.core (coreOf k) with msgvec := w, classMap := v.data.setWidth 32 } ∧
        (∀ n, n ≠ coreOf k → t.core n = u.core n) ∧ { t with cores := u.cores } = u) ∧
    (isBursar s.myCore = false → s.prv ≠ 0 →
      let u := s.cluster s.myUnit
      all 0x120 (if ((u.rotNext.getLast?).map (·.2)).getD u.rotmode then 1 else 0) (fun t ws v =>
        t.cur = s.cur ∧ Registers s t ws ∧ { t.me with g := s.me.g } = s.me.went s.npc ∧ (∀ k, k ≠ s.cur → t.slot k = s.slot k) ∧
        t.cluster s.myUnit = { u with rotNext := u.rotNext ++ [(u.cycle.toNat + 7 + 32, v.getLsbD 0)] } ∧
        (∀ c, c ≠ s.myUnit → t.cluster c = s.cluster c) ∧ { t with slots := s.slots, clusters := s.clusters } = s) ∧
      all 0x122 (clthr s s.myUnit) fun t ws v =>
        WroteTo { s with due := s.due ++ [.clthrWrite s.myUnit none (some v)] } t ws s.npc) ∧
    keeps 0x011 s.me.widLo ∧ keeps 0x012 s.me.widHi ∧ keeps 0x013 x.widshape ∧ keeps 0x051 (timerStatus s) ∧
    keeps 0x071 s.me.cyclehLatch ∧
    (isBursar s.myCore = false → s.prv ≠ 0 → s.me.relaxed = [] → ∀ i < 128,
      ∃ t, exec (.csrw a (BitVec.ofNat 12 (0x180 + i))) s = .next t ∧ ThreadWent s t [] s.npc 1 ∧
        (∀ j, smGet 0 (t.cluster s.myUnit).mint j = if j = i then v else smGet 0 (s.cluster s.myUnit).mint j) ∧
        { t.cluster s.myUnit with mint := (s.cluster s.myUnit).mint } = s.cluster s.myUnit ∧
        (∀ c, c ≠ s.myUnit → t.cluster c = s.cluster c) ∧
        { t with slots := s.slots, cores := s.cores, clusters := s.clusters } = s)

/-! ### Work identifiers, timers, barriers -/

/-- R361, R135, R358, R142: WID gives a field of the thread's work identifier, cut as WIDSHAPE says; fields 6 and 7 are ILLEGAL.
COREID gives the flat number of the slot in its launch. -/
def Claim.WorkIdentifiers : Prop :=
  ∀ (s : State) (d : Reg), Clear s → isBursar s.myCore = false →
    let wid := s.me.widLo.toNat + 2 ^ 32 * s.me.widHi.toNat
    let width := fun (i : Nat) => (s.core s.myCore).widshape.toNat / 2 ^ (6 * i) % 2 ^ 6
    let first := fun (k : Nat) => ((List.range k).map width).sum
    (∀ k < 5, Gives s (.wid d (BitVec.ofNat 3 k)) d (BitVec.ofNat 32 (wid / 2 ^ first k % 2 ^ width k))) ∧
    Gives s (.wid d 5) d (BitVec.ofNat 32 (wid / 2 ^ first 5)) ∧
    (Handles s → ∀ k ∈ [6, 7], Traps s (.wid d k) 1 s.me.ir) ∧
    Gives s (.coreid d) d (BitVec.ofNat 32
      (s.cur % 16 + 16 * (s.myCore % 1024) + 16384 * ((launchOf s s.myCore).map (·.vc)).getD 0))

/-- R189, R362, R363: DLARM and DLARMM give the thread's own timer, or the lowest free one of its cluster, the count of g[a] and
write 1; the count begins 8 wc after the issue; with none free they write 0. DLDIS, and an arm with a count of 0, free the timer, withdraw a pending DEADLINE and give the
count that is left. All this in WB, where a timer that has reached 0 has expired first. -/
def Claim.BudgetTimers : Prop :=
  ∀ (s : State) (d a : Reg) (y : BitVec 8), Clear s →
    let own := s.me.dlstat.toNat % 2 ^ 4
    let holds := timerHeld s = true
    let timer := fun (i : Nat) => if timerGone s = true ∧ i = own then ({} : Timer) else smGet {} (s.cluster s.myUnit).timers i
    let frame := fun (t : State) =>
      (∀ k, k ≠ s.cur → t.slot k = s.slot k) ∧
      { t.cluster s.myUnit with timers := (s.cluster s.myUnit).timers } = s.cluster s.myUnit ∧
      (∀ c, c ≠ s.myUnit → t.cluster c = s.cluster c) ∧ { t with slots := s.slots, clusters := s.clusters } = s
    let armed := fun (x : Instr) (i : Nat) (tm : Timer) (stat : Nat) =>
      ∃ t, exec x s = .next t ∧ t.cur = s.cur ∧ Registers s t [(d, 1)] ∧
        { t.me with g := s.me.g } = { s.me.went s.npc with deadline := none, dlstat := BitVec.ofNat 32 stat } ∧
        (∀ j, smGet {} (t.cluster s.myUnit).timers j = if j = i then tm else timer j) ∧ frame t
    let freed := fun (x : Instr) =>
      ∃ t, exec x s = .next t ∧ t.cur = s.cur ∧ Registers s t [(d, timerCount s)] ∧
        { t.me with g := s.me.g } = { s.me.went s.npc with
          deadline := none, dlstat := if holds then s.me.dlstat &&& 0xFFFFFF6F else timerStatus s } ∧
        (∀ j, smGet {} (t.cluster s.myUnit).timers j = if holds ∧ j = own then {} else timer j) ∧ frame t
    (s.reg a ≠ 0 →
      (∀ i : Nat, (holds ∧ i = own) ∨ (¬ holds ∧ i < 16 ∧ (timer i).armed = false ∧ ∀ j < i, (timer j).armed = true) →
        armed (.dlarm d a) i { count := s.reg a, armed := true, owner := s.cur, start := nowAt s s.myCore + 8 } (16 + i) ∧
        (y ≠ 0 → armed (.dlarmm d a y) i
          { count := s.reg a, armed := true, msgwait := true, typ := y, owner := s.cur, start := nowAt s s.myCore + 8 } (144 + i))) ∧
      (¬ holds → (∀ i < 16, (timer i).armed = true) → Gives s (.dlarm d a) d 0 ∧ (y ≠ 0 → Gives s (.dlarmm d a y) d 0))) ∧
    (s.reg a = 0 → freed (.dlarm d a) ∧ (y ≠ 0 → freed (.dlarmm d a y))) ∧
    freed (.dldis d) ∧
    (Handles s → Traps s (.dlarmm d a 0) 1 s.me.ir)

/-- R171 to R173, R347: an arrival of a member joins generation GEN, or GEN + 1 when it has arrived for GEN, adds its value to that
generation's sum and gives the generation's number. The last arrival completes GEN: GEN advances, its sum becomes the last one, and
the early arrivals count for the next. A non-member and a third arrival trap with BARRIER. -/
def Claim.BarrierArrivalInstructions : Prop :=
  ∀ (s : State) (d a : Reg) (b : BitVec 5), Clear s → isBursar s.myCore = false → quietAll s.cur s = true →
    (s.core s.myCore).sendReq.length < 8 →
    let n := 16 * (s.myCore % 1024) + s.cur % 16
    let at_ := fun (u : State) (j : Nat) => smGet {} (u.cluster s.myUnit).barriers j
    let x := at_ s b.toNat
    let o := (s.reg a).toNat
    let member := bitOf x.cores (s.myCore % 1024) = true ∧ bitOf x.slots (s.cur % 16) = true
    let frame := fun (t : State) =>
      { t.cluster s.myUnit with barriers := (s.cluster s.myUnit).barriers } = s.cluster s.myUnit ∧
      (∀ c, c ≠ s.myUnit → t.cluster c = s.cluster c) ∧
      { t with slots := s.slots, cores := s.cores, clusters := s.clusters } = s
    let gives := fun (i : Instr) (g : Word) (y : State → Barrier) =>
      ∃ t, exec i s = .next t ∧ ThreadWent s t [(d, g)] s.npc 1 ∧
        (∀ j, at_ t j = if j = b.toNat then y t else at_ s j) ∧ frame t
    let counters := fun (t : State) => (List.range 16).map fun i => smGet 0 (t.core s.myCore).counters i
    let all := fun (g : Word) (y : Word → (State → List (Nat × List Word × Word)) → State → Barrier) =>
      gives (.bara d b) g (y 0 fun _ => []) ∧ gives (.barsum d a b) g (y (s.reg a) fun _ => []) ∧
      (o % 4 = 0 → o + 80 ≤ 0x4000000 → gives (.barstmt d a b) g (y 0 fun t => [(n, counters t, s.reg a)]))
    (member → n ∉ x.arr0 →
      (x.arr0.length + 1 < x.members →
        all x.gen fun v stm t => { x with arr0 := x.arr0 ++ [n], sum0 := x.sum0 + v, stm0 := x.stm0 ++ stm t }) ∧
      (x.members ≤ x.arr0.length + 1 → x.stm0 = [] → (∀ e ∈ s.slots, ∀ i g r, e.2.run ≠ .parked (.barw i g r)) →
        let next := fun (v : Word) => { x with
          gen := x.gen + 1, sumLast := x.sum0 + v, arr0 := x.arr1, sum0 := x.sum1, stm0 := x.stm1, arr1 := [], sum1 := 0, stm1 := [] }
        gives (.bara d b) x.gen (fun _ => next 0) ∧ gives (.barsum d a b) x.gen (fun _ => next (s.reg a)))) ∧
    (member → n ∈ x.arr0 → n ∉ x.arr1 →
      all (x.gen + 1) fun v stm t => { x with arr1 := x.arr1 ++ [n], sum1 := x.sum1 + v, stm1 := x.stm1 ++ stm t }) ∧
    (Handles s →
      (o % 4 ≠ 0 ∨ 0x4000000 < o + 80 → Traps s (.barstmt d a b) 15 3) ∧
      (¬ member → ∃ t, exec (.bara d b) s = .next t ∧ Trapped (count s.myCore 5 s) t 15 1) ∧
      (member → n ∈ x.arr0 → n ∈ x.arr1 → ∃ t, exec (.bara d b) s = .next t ∧ Trapped (count s.myCore 5 s) t 15 2))

/-- R172, R173, R347, R170: a completing BARSTMT writes the record of the generation, its last word full and 1; BARW of a completed
generation gives the last sum, of another parks, and is answered when the generation completes; BARCFG takes the members from 33
words of the own vault. -/
def Claim.BarrierRecordsWaitsAndMembers : Prop :=
  ∀ (s : State) (d a : Reg) (b : BitVec 5), Clear s → isBursar s.myCore = false → s.me.relaxed = [] →
    let at_ := fun (u : State) (j : Nat) => smGet {} (u.cluster s.myUnit).barriers j
    let x := at_ s b.toNat
    let n := 16 * (s.myCore % 1024) + s.cur % 16
    let o := (s.reg a).toNat
    let key := fun (i : Nat) => ownKey s (o + 4 * i)
    (bitOf x.cores (s.myCore % 1024) = true → bitOf x.slots (s.cur % 16) = true → n ∉ x.arr0 → x.members ≤ x.arr0.length + 1 →
      x.stm0 = [] → (∀ e ∈ s.slots, ∀ i g r, e.2.run ≠ .parked (.barw i g r)) → quietAll s.cur s = true →
      (s.core s.myCore).sendReq.length < 8 → o % 4 = 0 → o + 80 ≤ 0x4000000 →
      ∃ t, exec (.barstmt d a b) s = .next t ∧ ThreadWent s t [(d, x.gen)] s.npc 1 ∧
        vaultBytes t (key 0) 4 = x.gen.toNat ∧ vaultBytes t (key 1) 4 = 1 ∧
        (∀ i < 16, vaultBytes t (key (2 + i)) 4 = (smGet 0 (t.core s.myCore).counters i).toNat) ∧
        vaultBytes t (key 18) 4 = 0 ∧ vaultBytes t (key 19) 4 = 1 ∧ vFullOf t (key 19 / 4) = true ∧
        (∀ k, (∀ i < 20, k < key i ∨ key i + 4 ≤ k) → smGet 0 t.vault k = smGet 0 s.vault k) ∧
        (∀ w, w ≠ key 19 / 4 → vFullOf t w = vFullOf s w)) ∧
    ((x.gen - 1 - s.reg a).getLsbD 31 = false →
      ∃ t, exec (.barw d a b) s = .next t ∧ ThreadWent s t [(d, x.sumLast)] s.npc 1 ∧
        { t with slots := s.slots, cores := s.cores } = s) ∧
    ((x.gen - 1 - s.reg a).getLsbD 31 = true →
      ∃ t, exec (.barw d a b) s = .next t ∧ ParkedOn s t (.barw b (s.reg a) d)) ∧
    (let cores := BitVec.ofNat 1024 (((List.range 32).map fun i => vaultBytes s (key i) 4 * 2 ^ (32 * i)).sum)
      let slots := BitVec.ofNat 16 (vaultBytes s (key 32) 4)
      (o % 4 = 0 → o + 132 ≤ 0x4000000 → (∀ i < 33, vErr s (key i / 4) = 0) → x.arr0 = [] → x.arr1 = [] → cores ≠ 0 → slots ≠ 0 →
        cores >>> (16 * ((launchOf s s.myCore).map (·.ng)).getD 64) = 0 →
        ∃ t, exec (.barcfg a b) s = .next t ∧ ThreadWent s t [] s.npc 1 ∧
          (∀ j, at_ t j = if j = b.toNat then { x with cores := cores, slots := slots } else at_ s j) ∧
          { t.cluster s.myUnit with barriers := (s.cluster s.myUnit).barriers } = s.cluster s.myUnit ∧
          (∀ c, c ≠ s.myUnit → t.cluster c = s.cluster c) ∧
          { t with slots := s.slots, cores := s.cores, clusters := s.clusters } = s) ∧
      (Handles s → o % 4 ≠ 0 ∨ 0x4000000 < o + 132 → Traps s (.barcfg a b) 15 3))

/-! ### Messages -/

/-- R163, R349, R351, R66: MSEND puts its message's packet in the core's send queue, keeps the request, and goes on; MCALL also parks until
the reply; MREPLY answers the message that its handler was started with. A destination outside the launch traps with TASK.
The model's choices of log entry 48 enter here. -/
def Claim.MessageSends : Prop :=
  ∀ (s : State) (d a b : Reg) (c : BitVec 3), Clear s → isBursar s.myCore = false → s.me.relaxed = [] →
    let x := s.core s.myCore
    let n := c.toNat + 1
    let words := BitVec.ofNat 256 (((List.range n).map fun i => (s.reg (d + BitVec.ofNat 5 i)).toNat * 2 ^ (32 * i)).sum)
    let w := (s.reg b).toNat
    let msg := fun (k : Nat) (call : Bool) =>
      { corePacket s s.myCore k with
        opcode := 0x05, inline := words
        param := BitVec.ofNat 32 (w % 2 ^ 8 + w / 2 ^ 16 * 2 ^ 8 + n * 2 ^ 24 + if call then 2 ^ 31 else 0) }
    let kept := fun (p : Packet) => { s with requests := s.requests ++ [requestOf s s.cur p] }
    (∀ k : Nat, launchCore s s.myCore ((s.reg a).toNat % 2 ^ 14) = some k → x.sendReq.length < 8 →
      (∃ v u, exec (.msend d a b c) s = .next u ∧ Posted (kept (msg k false)) v s.myCore (msg k false) ∧ WroteTo v u [] s.npc) ∧
      (w % 2 ^ 8 ≠ 0 →
        ∃ v u, exec (.mcall d a b c) s = .next u ∧ Posted (kept (msg k true)) v s.myCore (msg k true) ∧
          ParkedOn v u (.mcall x.nextTag.toNat d b n)) ∧
      (w % 2 ^ 8 = 0 → Handles s → Traps s (.mcall d a b c) 16 9)) ∧
    (launchCore s s.myCore ((s.reg a).toNat % 2 ^ 14) = none → Handles s →
      Traps s (.msend d a b c) 16 8 ∧ Traps s (.mcall d a b c) 16 8) ∧
    (s.me.handler = true → s.me.replyOwed = true → x.sendRsp.length < 8 →
      ∃ v u, exec (.mreply d c) s = .next u ∧
        Posted (s.modMe fun sl => { sl with replyOwed := false }) v s.myCore
          { corePacket s s.myCore (s.me.msg.caller / 2 ^ 16) with
            opcode := 0x44, tag := BitVec.ofNat 16 s.me.msg.caller, vn := true, cls := s.me.msg.cls, inline := words
            param := BitVec.ofNat 32 (n * 2 ^ 24) } ∧
        WroteTo v u [] s.npc) ∧
    (s.me.handler = false ∨ s.me.replyOwed = false → Handles s → Traps s (.mreply d c) 16 7)

/-- R164, R350: a receive takes the oldest message of type 0 that has its sender and sequence from the receive buffer and writes its
words and their number. Without one MRECV and MRECVT park, MRECVT with its timeout, and MPOLL answers NOTRCVD. -/
def Claim.MessageReceives : Prop :=
  ∀ (s : State) (d a b : Reg) (c : BitVec 3), Clear s → isBursar s.myCore = false →
    let x := s.core s.myCore
    let sender := BitVec.ofNat 32 ((s.reg a).toNat % 2 ^ 14)
    let seq := BitVec.ofNat 16 ((s.reg b).toNat / 2 ^ 16)
    let hit := fun (m : Message) => m.typ = 0 ∧ m.sender = sender ∧ m.seq = seq
    let writes := fun (m : Message) =>
      ((List.range (c.toNat + 1)).map fun i => (d + BitVec.ofNat 5 i, m.words.getD i 0)) ++ [(b, BitVec.ofNat 32 m.words.length)]
    let waits := fun (i : Instr) (until_ : Option Nat) =>
      ∃ t, exec i s = .next t ∧
        ParkedOn (s.modCore s.myCore fun x => { x with parkedRecv := x.parkedRecv ++ [s.cur] }) t
          (.mrecv sender seq d b (c.toNat + 1) until_)
    (∀ (pre : List Message) (m : Message) (post : List Message), x.rxbuf = pre ++ m :: post → hit m → (∀ q ∈ pre, ¬ hit q) →
      ∀ i ∈ [.mrecv d a b c, .mrecvt d a b c, .mpoll d a b c],
        ∃ t, exec i s = .next t ∧ t.cur = s.cur ∧ Registers s t (writes m) ∧ { t.me with g := s.me.g } = s.me.went s.npc ∧
          (∀ k, k ≠ s.cur → t.slot k = s.slot k) ∧ t.core s.myCore = { x with rxbuf := pre ++ post } ∧
          (∀ k, k ≠ s.myCore → t.core k = s.core k) ∧ { t with slots := s.slots, cores := s.cores } = s) ∧
    ((∀ q ∈ x.rxbuf, ¬ hit q) →
      waits (.mrecv d a b c) none ∧
      waits (.mrecvt d a b c)
        (if s.xreg 0 = 0 then none else some ((s.cluster s.myUnit).cycle.toNat + 7 + (s.xreg 0).toNat)) ∧
      Gives s (.mpoll d a b c) b 0x80000000)

/-! ### Slice queues and streams -/

/-- R353, R74, R75: QPUT and QPUTT write an entry at the tail of an enabled queue with room, QTAKE and QTAKET take the one at its
head; the ring's lines are those of its descriptor. A QTAKE with a destination in the own vault sends the entry's lines there and goes
on when they are written. A full queue parks QPUT, which is to send again after 64 mc, and answers 1 to QPUTT; an empty one lets QTAKE
wait at the slice and answers 1 to QTAKET. The routes to the slice and back take no detour and hold nothing.
The model's choices of log entries 6, 21 and 51 enter here. -/
def Obligations.SliceQueueInstructions : Prop :=
  ∀ (s : State) (d a b : Reg) (c : BitVec 3), Clear s → s.me.relaxed = [] → (s.core s.myCore).sendReq.length < 8 → s.myCore < 16388 →
    let sl := (s.reg a).toNat / 8 % 2 ^ 10
    let q := (s.reg a).toNat % 8
    let part := s.partOf (dieOfCluster s.myUnit)
    let queue := fun (u : State) (i j : Nat) => smGet {} (u.slice i).queues j
    let x := queue s sl q
    s.partOf (sl / 256) = part → ringInside s part x = true →
    (coreRouter s.myCore = sl ∨
      ((∀ bulk, routeOf s (coreRouter s.myCore) sl bulk = .there []) ∧ routeOf s sl (coreRouter s.myCore) = .there [])) →
    let line := fun (n i : Nat) => x.base.toNat + n % 2 ^ x.log2n.toNat * (x.entlines.toNat + 1) + i
    let resident := fun (n : Nat) => ∀ i ≤ x.entlines.toNat, (sliceLine s sl (line n i)).valid = true
    let v := ((List.range (c.toNat + 1)).map fun i => (s.reg (d + BitVec.ofNat 5 i)).toNat * 2 ^ (32 * i)).sum
    let others := fun (t : State) (lines : Nat → Nat → Prop) =>
      ∀ sl' l, ¬ lines sl' l → { sliceLine t sl' l with used := (sliceLine s sl' l).used } = sliceLine s sl' l
    let queues := fun (t : State) (y : SQueue) => ∀ i j, queue t i j = if i = sl ∧ j = q then y else queue s i j
    let put := fun (i : Instr) (ws : List (Reg × Word)) =>
      ∃ t, exec i s = .next t ∧ ThreadWent s t ws s.npc 1 ∧
        (∀ i ≤ x.entlines.toNat, (sliceLine t sl (line x.tail.toNat i)).data = BitVec.ofNat 512 (v / 2 ^ (512 * i))) ∧
        others t (fun sl' l => sl' = sl ∧ ∃ i ≤ x.entlines.toNat, l = line x.tail.toNat i) ∧
        queues t { x with tail := x.tail + 1 } ∧ { t with slots := s.slots, cores := s.cores, slices := s.slices } = s
    let entry := fun (i : Nat) => (sliceLine s sl (line x.head.toNat i)).data
    let taken := (List.range (c.toNat + 1)).map fun i => (d + BitVec.ofNat 5 i, BitVec.ofNat 32 ((entry 0).toNat / 2 ^ (32 * i)))
    let took := fun (t : State) (ws : List (Reg × Word)) =>
      ThreadWent s t ws s.npc 1 ∧ others t (fun _ _ => False) ∧ queues t { x with head := x.head + 1 }
    let full := x.en = false ∨ (x.waiters = [] ∧ (x.tail - x.head).toNat = 2 ^ x.log2n.toNat)
    (x.en = true → x.waiters = [] → (x.tail - x.head).toNat ≠ 2 ^ x.log2n.toNat → resident x.tail.toNat →
      put (.qput d a c) [] ∧ put (.qputt d a b c) [(b, 0)]) ∧
    (full →
      (∃ t, exec (.qput d a c) s = .next t ∧ ParkedOn s t (.qput 0 sl q v 128 (mcAt s (coreRouter s.myCore) + 64))) ∧
      ∃ t, exec (.qputt d a b c) s = .next t ∧ ThreadWent s t [(b, 1)] s.npc 1 ∧ { t with slots := s.slots, cores := s.cores } = s) ∧
    (x.en = true → x.tail ≠ x.head → resident x.head.toNat →
      (∃ t, exec (.qtake d a b 0 c) s = .next t ∧ took t taken ∧
        { t with slots := s.slots, cores := s.cores, slices := s.slices } = s) ∧
      (∃ t, exec (.qtaket d a b c) s = .next t ∧ took t (taken ++ [(b, 0)]) ∧
        { t with slots := s.slots, cores := s.cores, slices := s.slices } = s) ∧
      ∀ g : BitVec 3, g ≠ 0 → isBursar s.myCore = false →
        let sg := s.seg g.toNat
        let o := (s.reg b).toNat
        let n := x.entlines.toNat + 1
        segType sg = 3 → segOwn sg = true → segTest false sg o 512 64 aStore = none → segBase sg + o + 512 ≤ 0x4000000 →
        ∃ t, exec (.qtake d a b g c) s = .next t ∧ t.cur = s.cur ∧ Registers s t taken ∧
          { t.me with g := s.me.g } =
            { s.me with run := .parked .vault, access := some { size := 64, left := 16 * n, ready := nowAt s s.myCore } } ∧
          (∀ k, k ≠ s.cur → t.slot k = s.slot k) ∧
          { t.core s.myCore with counters := (s.core s.myCore).counters } = s.core s.myCore ∧
          (∀ i, smGet 0 (t.core s.myCore).counters i = bump (smGet 0 (s.core s.myCore).counters i) (if i = 5 then 1 else 0)) ∧
          (∀ k, k ≠ s.myCore → t.core k = s.core k) ∧
          Asks s t ((List.range n).flatMap fun i => ownRequests s (ownKey s (segBase sg + o + 64 * i) / 4) 16
            (fun j => .write 0xF (BitVec.ofNat 32 ((entry i).toNat / 2 ^ (32 * j)))) (.access s.cur)) ∧
          others t (fun _ _ => False) ∧ queues t { x with head := x.head + 1 } ∧
          { t with slots := s.slots, cores := s.cores, slices := s.slices, banks := s.banks, hot := s.hot } = s) ∧
    (x.en = true → x.tail = x.head → x.waiters.length < 8 →
      ∃ t, exec (.qtake d a b 0 c) s = .next t ∧ t.cur = s.cur ∧
        t.me = { s.me with run := .parked (.qtake 0 d (c.toNat + 1) sl q [] none) } ∧ (∀ k, k ≠ s.cur → t.slot k = s.slot k) ∧
        queues t { x with waiters := x.waiters ++ [.thread s.cur] } ∧
        { t with slots := s.slots, cores := s.cores, slices := s.slices } = s) ∧
    (x.en = false ∨ x.tail = x.head →
      ∃ t, exec (.qtaket d a b c) s = .next t ∧ ThreadWent s t [(b, 1)] s.npc 1 ∧ { t with slots := s.slots, cores := s.cores } = s)

/-- R354, R355, R68: SOPEN binds a free send port to a core input of its launch, SPUT puts a word into a bound port with room and
opens the stream under a tag of its core, SCLOSE sends what is buffered and the close marker into the router and frees the port, SGET
takes the oldest word of an input, or its end marker, or parks.
The model's choices of log entries 11, 48 and 50 enter here. -/
def Obligations.Streams : Prop :=
  ∀ (s : State) (d a b : Reg) (p : BitVec 2), Clear s → isBursar s.myCore = false →
    let x := s.core s.myCore
    let port := fun (u : State) (j : Nat) => smGet {} (u.core s.myCore).ports j
    let input := fun (u : State) (j : Nat) => smGet {} (u.core s.myCore).inputs j
    let y := port s p.toNat
    let z := input s p.toNat
    let dest := fun (w : Word) => launchCore s s.myCore (w.toNat / 4 % 2 ^ 14)
    let went := fun (t : State) (ws : List (Reg × Word)) =>
      t.cur = s.cur ∧ Registers s t ws ∧ { t.me with g := s.me.g } = s.me.went s.npc ∧ (∀ k, k ≠ s.cur → t.slot k = s.slot k) ∧
      (∀ n, n ≠ s.myCore → t.core n = s.core n)
    let r := coreRouter s.myCore
    let ports := fun (i : Instr) (v : SendPort) =>
      ∃ t, exec i s = .next t ∧ went t [] ∧ (∀ j, port t j = if j = p.toNat then v else port s j) ∧
        { t.core s.myCore with ports := x.ports } = x ∧ { t with slots := s.slots, cores := s.cores } = s
    let gets := fun (ws : List (Reg × Word)) (v : StreamIn) =>
      ∃ t, exec (.sget d b p) s = .next t ∧ went t ws ∧ (∀ j, input t j = if j = p.toNat then v else input s j) ∧
        { t.core s.myCore with inputs := x.inputs } = x ∧ { t with slots := s.slots, cores := s.cores } = s
    (y.bound = false → y.state = 0 → (∃ k, dest (s.reg a) = some k) → ports (.sopen a p) { y with bound := true, dst := s.reg a }) ∧
    (Handles s →
      (y.bound = true ∨ y.state ≠ 0 → Traps s (.sopen a p) 14 0x80000001) ∧
      (y.bound = false → y.state = 0 → dest (s.reg a) = none → Traps s (.sopen a p) 14 0x80000003) ∧
      (y.state ≠ 2 → y.bound = false → Traps s (.sput a p) 14 0x80000002)) ∧
    (y.bound = true → y.state ≠ 2 → y.words.length < 16 →
      ∃ t, exec (.sput a p) s = .next t ∧ went t [] ∧
        (∀ j, port t j = if j = p.toNat then
            { y with
              state := if y.state = 0 then 1 else y.state, tag := if y.state = 0 then x.nextTag else y.tag
              words := y.words ++ [s.reg a], idle := 0 }
          else port s j) ∧
        { t.core s.myCore with ports := x.ports } = { x with nextTag := x.nextTag + if y.state = 0 then 1 else 0 } ∧
        (∀ n, n ∈ t.busy ↔ n ∈ s.busy ∨ n = r) ∧
        t.due = s.due ++ (if y.state = 0 ∨ y.words.length = 15 then [.streamFlush s.myCore p.toNat] else []) ∧
        { t with slots := s.slots, cores := s.cores, busy := s.busy, due := s.due } = s) ∧
    (let k := inKey (portInput s.myCore p.toNat) 0
     y.state = 1 → (inBuf s r k).drop = false →
      ∃ t, exec (.sclose p) s = .next t ∧ went t [] ∧ (∀ j, port t j = if j = p.toNat then {} else port s j) ∧
        { t.core s.myCore with ports := x.ports } = x ∧
        (inBuf t r k).flits.map (·.1) = (inBuf s r k).flits.map (·.1) ++ streamFlits s s.myCore p.toNat y.words ++
          [streamMark s s.myCore p.toNat 2] ∧
        (∀ j, j ≠ k → inBuf t r j = inBuf s r j) ∧
        { t.router r with ins := (s.router r).ins, localFree := (s.router r).localFree } = s.router r ∧
        (∀ n, n ≠ r → t.router n = s.router n) ∧ (∀ n, n ∈ t.busy ↔ n ∈ s.busy ∨ n = r) ∧
        { t with slots := s.slots, cores := s.cores, routers := s.routers, busy := s.busy } = s) ∧
    (y.state ≠ 1 → ports (.sclose p) {}) ∧
    (∀ w ws, z.words = w :: ws → gets [(d, w), (b, 0)] { z with words := ws }) ∧
    (z.words = [] → z.fin ≠ 0 → gets [(d, 0), (b, z.fin.setWidth 32)] { z with fin := 0, active := false, sender := 0 }) ∧
    (z.words = [] → z.fin = 0 →
      ∃ t, exec (.sget d b p) s = .next t ∧ t.cur = s.cur ∧ t.me = { s.me with run := .parked (.sget p.toNat d b) } ∧
        (∀ k, k ≠ s.cur → t.slot k = s.slot k) ∧
        (∀ j, input t j = if j = p.toNat then { z with waiters := z.waiters ++ [s.cur] } else input s j))

/-! ### Fork, join and tasks -/

/-- R151, R152, R154, R357, R210: on a join word in the own vault SPAWN, SPRET and JOIN send their operation to the word's bank and park.
On one of a resident line of main memory the word is changed there: SPAWN adds 1 and goes to the child with the continuation in the
core's deque, SPRET takes 1 off and returns from an inlined call, JOIN goes on when the count is 0 and waits at the slice otherwise. -/
def Claim.SpawnsAndJoins : Prop :=
  ∀ (s : State) (a b : Reg) (g : BitVec 3), Clear s → isBursar s.myCore = false → s.me.relaxed = [] →
    let o := (s.reg a).toNat
    let x := s.core s.myCore
    let e : DequeEntry := { pc := s.npc, g2 := s.reg 2, g3 := s.reg 3, slot := BitVec.ofNat 4 (s.cur % 16), icnt := s.me.icnt }
    let w := ownKey s (segBase (s.seg g.toNat) + o) / 4
    (OwnVaultAccess s g.toNat o 4 aJoin →
      let sends := fun (i : Instr) (run : Wait) (v : Option VaultAccess) (op : WordOp) (asker : Nat → Asker) =>
        ∃ t, exec i s = .next t ∧ SentAccess s t (.parked run) v (ownRequests s w 1 (fun _ => op) asker) 1
      (¬ (32 ≤ x.deque.length ∧ s.me.icnt = 63) →
        sends (.spawn a b g) .vault (some (.begun s (.join (some (s.reg b))) 4 0 1 false)) (.join true) (.access s.cur)) ∧
      (32 ≤ x.deque.length → s.me.icnt = 63 → Handles s → Traps s (.spawn a b g) 16 1) ∧
      (quietAll s.cur s = true → sends (.spret a g) .vault (some (.begun s (.join none) 4 0 1 false)) (.join false) (.access s.cur)) ∧
      sends (.join a g) (.fullEmpty none) s.me.access (.fe 0 0) fun _ => .thread s.cur) ∧
    ∀ sl pa, ResidentAccess s g.toNat o 4 aJoin sl pa →
      let line := sliceLine s sl (pa / 64)
      let old := BitVec.ofNat 32 (fieldOf line.data (8 * (pa % 64)) 32)
      let full := fun (b : Bool) => putField line.full (pa % 64 / 4) 1 b.toNat
      (x.mailbox = [] → x.deque.length < 32 → old ≠ 0xFFFFFFFF →
        ∃ u t, exec (.spawn a b g) s = .next t ∧ HomeWent s u [] (s.reg b) ∧
          LineWrote s u sl pa 4 (old + 1).toNat (full false) ∧ u.due = s.due ++ wakes s sl pa false ∧
          t.core s.myCore = { u.core s.myCore with deque := x.deque ++ [e] } ∧ (∀ n, n ≠ s.myCore → t.core n = u.core n) ∧
          { t with cores := u.cores } = u) ∧
      (quietAll s.cur s = true → old ≠ 0 → s.me.icnt ≠ 0 →
        (∀ f ∈ x.deque, ¬ (f.slot.toNat = s.cur % 16 ∧ f.icnt = s.me.icnt)) →
        ∃ u t, exec (.spret a g) s = .next t ∧ HomeWent s u [] (s.reg 1) ∧
          LineWrote s u sl pa 4 (old - 1).toNat (full (decide (old = 1))) ∧ u.due = s.due ++ wakes s sl pa (decide (old = 1)) ∧
          t.me = { u.me with icnt := s.me.icnt - 1 } ∧ (∀ k, k ≠ s.cur → t.slot k = u.slot k) ∧ { t with slots := u.slots } = u) ∧
      (bitOf line.full (pa % 64 / 4) = true →
        ∃ t, exec (.join a g) s = .next t ∧ HomeWent s t [] s.npc ∧ SameLines s t ∧ t.due = s.due) ∧
      (bitOf line.full (pa % 64 / 4) = false → (s.slice sl).waiters.length < 16 →
        ∃ t, exec (.join a g) s = .next t ∧ t.me = { s.me with run := .parked (.fullEmpty none) } ∧
          (∀ k, k ≠ s.cur → t.slot k = s.slot k) ∧ SameLines s t ∧ t.due = s.due ∧
          (t.slice sl).waiters = (s.slice sl).waiters ++ [{ word := pa / 4, op := .fe 0 0, asker := .thread s.cur }])

/-- R149, R151 to R153: the bank adds 1 to a join word or takes 1 off, and the bit is full exactly when the count is 0; a count at the end
of its range stays. With the old count the thread goes on: a SPAWN's at its child, the continuation in its core's deque, inlined when
the deque is full, or with the oldest waiting thief; a SPRET's with its own newest continuation, or back from an inlined call, or it
ends. A count at the end of its range traps with TASK. -/
def Claim.JoinAnswers : Prop :=
  (∀ (s : State) (b k part : Nat) (r : BankReq) (v : VaultAccess) (up : Bool), Serves s b r k part v → r.op = .join up →
    vErr s r.word = 0 → v.use_ ≠ .store → (s.bank b).waiters = [] →
    let old := vWord s r.word
    let stays := if up = true then old = 0xFFFFFFFF else old = 0
    ∃ t, exec (.bankGrant b) s = .next t ∧ BankGranted s t b r ∧
      AccessIs s t k (v.stepped part old (if r.requester = 1024 then nowAt s (coreOf k) else
        nowAt s (coreOf k) + (vaultPath (coreOf k) b).2)) ∧
      (stays → t.vault = s.vault ∧ t.vfull = s.vfull) ∧
      (¬ stays → vWord t r.word = (if up then old + 1 else old - 1) ∧
        (∀ w, vFullOf t w = if w = r.word then decide (vWord t r.word = 0) else vFullOf s w)) ∧
      (∀ y, y / 4 ≠ r.word → smGet 0 t.vault y = smGet 0 s.vault y) ∧
      { t with slots := s.slots, banks := s.banks, vault := s.vault, vfull := s.vfull, due := s.due } = s) ∧
  ∀ (s : State) (k : Nat) (v : VaultAccess), Performed s k v → v.issued = none →
    let c := coreOf k
    let x := s.core c
    let sl := s.slot k
    let old := v.data.setWidth 32
    let next := sl.pc + word sl.irLen
    let e : DequeEntry := { pc := next, g2 := regAt k 2 s, g3 := regAt k 3 s, slot := BitVec.ofNat 4 (k % 16), icnt := sl.icnt }
    let answers := fun (ws : List (Reg × Word)) (f : Slot → Slot) (g : Core → Core) =>
      ∃ u t, exec (.replyArrival k accessId none) s = .next t ∧ Replied s u k v ws ∧ t.slot k = f (u.slot k) ∧
        (∀ j, j ≠ k → t.slot j = u.slot j) ∧ t.core c = g (u.core c) ∧ (∀ n, n ≠ c → t.core n = u.core n) ∧
        { t with slots := u.slots, cores := u.cores } = u
    let traps := fun (n : Word) => HandlesAt s k → ∃ t, exec (.replyArrival k accessId none) s = .next t ∧
      TrappedAt (s.modSlot k fun sl => { sl with access := none, busyUntil := v.ready }) t k 16 n
    (∀ child, v.use_ = .join (some child) →
      (old = 0xFFFFFFFF → traps 2) ∧
      (old ≠ 0xFFFFFFFF → x.mailbox = [] →
        (x.deque.length < 32 →
          answers [] (fun t => { t with pc := child }) fun y => { y with deque := y.deque ++ [e] }) ∧
        (32 ≤ x.deque.length → sl.icnt ≠ 63 →
          answers [(1, next)] (fun t => { t with pc := child, icnt := sl.icnt + 1 }) id)) ∧
      (∀ thief waited ms, old ≠ 0xFFFFFFFF → x.mailbox = (thief, waited) :: ms → coreOf thief ≠ c → sl.icnt = 0 →
        (∀ f ∈ x.deque, f.icnt ≠ 0) →
        ∃ u t, exec (.replyArrival k accessId none) s = .next t ∧ Replied s u k v [] ∧ t.slot k = { u.slot k with pc := child } ∧
          (∀ j, j ≠ k → t.slot j = u.slot j) ∧ t.core c = { u.core c with mailbox := ms } ∧
          t.core (coreOf thief) = { s.core (coreOf thief) with heldSteal := some e } ∧
          (∀ n, n ≠ c → n ≠ coreOf thief → t.core n = s.core n) ∧ t.due = s.due ++ [.stealReply thief] ∧
          { t with slots := u.slots, cores := u.cores, due := u.due } = u)) ∧
    (v.use_ = .join none →
      let mine := fun (f : DequeEntry) => f.slot.toNat = k % 16 ∧ f.icnt = sl.icnt
      (old = 0 → traps 3) ∧
      (∀ pre f post l, old ≠ 0 → launchOf s c = some l → x.deque = pre ++ f :: post → mine f → (∀ h ∈ post, ¬ mine h) →
        ∃ t, exec (.replyArrival k accessId none) s = .next t ∧
          (∀ r < 32, smGet 0 (t.slot k).g r = if r = 2 then f.g2 else if r = 3 then f.g3 else 0) ∧
          t.slot k =
            { pc := f.pc, g := (t.slot k).g, x := sl.x, sg := l.segs, status := if l.bursar then 0x100 else 0, fmtdef := l.fmtdef
              widLo := sl.widLo, widHi := sl.widHi, run := .ready, busyUntil := v.ready, nextId := sl.nextId, detIdx := sl.detIdx
              tcb := sl.tcb, handler := sl.handler, replyOwed := sl.replyOwed, msg := sl.msg, deferred := sl.deferred
              deadline := sl.deadline, stepDue := sl.stepDue || bitOf sl.status 1, ir := sl.ir, irLen := sl.irLen } ∧
          (∀ j, j ≠ k → t.slot j = s.slot j) ∧ t.core c = { x with deque := pre ++ post } ∧ (∀ n, n ≠ c → t.core n = s.core n) ∧
          (∀ i, smGet {} (t.cluster (unitOf c)).timers i =
            if bitOf sl.dlstat 4 = true ∧ i = fieldOf sl.dlstat 0 4 then {} else smGet {} (s.cluster (unitOf c)).timers i) ∧
          { t with slots := s.slots, cores := s.cores, clusters := s.clusters } = s) ∧
      (old ≠ 0 → (∀ h ∈ x.deque, ¬ mine h) → sl.icnt ≠ 0 →
        answers [] (fun t => { t with pc := regAt k 1 s, icnt := sl.icnt - 1 }) id) ∧
      (old ≠ 0 → (∀ h ∈ x.deque, ¬ mine h) → sl.icnt = 0 → x.mailbox = [] →
        ∃ t, exec (.replyArrival k accessId none) s = .next t ∧ (t.slot k).run = .idle ∧ (∀ r : Reg, regAt k r t = regAt k r s) ∧
          (∀ j, j ≠ k → t.slot j = s.slot j) ∧ t.core c = x ∧ t.due = s.due ++ [.handlerStart k, .idleSlotWorkSearch k] ∧
          { t with slots := s.slots, cores := s.cores, clusters := s.clusters, due := s.due } = s))

/-- R358, R156, R136: RSPAWN sends its request and parks until the answer, 1 for success; the core it names starts a thread at the given
pc in its lowest idle slot of class 0 with the four arguments in g4 to g7 and answers so, or answers failure when it has none. -/
def Claim.RemoteSpawns : Prop :=
  (∀ (s : State) (d a b : Reg), Clear s → isBursar s.myCore = false → s.me.relaxed = [] → (s.core s.myCore).sendReq.length < 8 →
    let dest := launchCore s s.myCore ((s.reg a).toNat % 2 ^ 14)
    let words := (s.reg b).toNat + ((List.range 4).map fun i => (s.reg (4 + BitVec.ofNat 5 i)).toNat * 2 ^ (32 * (i + 1))).sum
    (∀ c : Nat, dest = some c →
      let p := { corePacket s s.myCore c with opcode := 0x06, inline := BitVec.ofNat 256 words }
      ∃ v t, exec (.rspawn d a b) s = .next t ∧ Posted { s with requests := s.requests ++ [requestOf s s.cur p] } v s.myCore p ∧
        ParkedOn v t (.rspawn d p.tag.toNat)) ∧
    (dest = none → Handles s → Traps s (.rspawn d a b) 16 8)) ∧
  (∀ (s : State) (k : Nat) (d : Reg) (p : Packet), (s.slot k).run = .parked (.rspawn d p.tag.toNat) → Unheld s k → p.opcode = 0x41 →
    ∃ t, exec (.replyArrival k 0 (some p)) s = .next t ∧ Answered s t k [(d, if p.param = 0 then 1 else 0)] ∧
      { t with slots := s.slots } = s) ∧
  ∀ (s : State) (c : Nat) (pc : Word) (args : List Word) (req : Packet) (l : Launch), launchOf s c = some l → l.place = 0 →
    c % 1024 / 16 < l.ng → (s.core c).halt = false → (s.cluster (unitOf c)).owState = 1 → (s.core c).heldSteal = none →
    args.length = 4 →
    let free := fun (k : Nat) => (s.slot k).run = .idle ∧ (s.core c).classMap.toNat / 2 ^ (2 * (k % 16)) % 4 = 0
    (∀ i : Nat, i < 16 → free (16 * c + i) → (∀ j < i, ¬ free (16 * c + j)) → FreshStart s (16 * c + i) →
      ∃ u t, exec (.remoteSpawn c pc args req) s = .next t ∧
        StartsThread s u l (16 * c + i) pc (ownWid l (16 * c + i)) (fun r =>
          if r = 2 then ownStackTop l (16 * c + i) else if 4 ≤ r ∧ r < 8 then args.getD (r - 4) 0 else 0) ∧
        { u with slots := s.slots } = s ∧ PacketIn u t (replyTo req 0x41 0 0 0 none)) ∧
    ((∀ i < 16, ¬ free (16 * c + i)) →
      ∃ t, exec (.remoteSpawn c pc args req) s = .next t ∧ PacketIn s t (replyTo req 0x41 1 0 0 none))

/-- R157 to R160, R359, R360: TSUBMIT makes a NEW task WAITING, and releases it, READY, when it has no dependence left; TDONE makes the
thread's task DONE, takes 1 from the dependences of each successor, makes a release due for one that reaches 0, and ends the
thread.
The model's choices of log entries 31 and 51 enter here. -/
def Obligations.TaskSubmissionAndCompletion : Prop :=
  ∀ (s : State) (a : Reg), Clear s → isBursar s.myCore = false → quietAll s.cur s = true →
    let u := s.myUnit
    let at_ := fun (t : State) (off i : Nat) => vaultBytes t (vKey u (off + 4 * i)) 4
    let status := fun (t : State) (off : Nat) => at_ t off 7 / 2 ^ 4 % 2 ^ 3
    let o := (s.reg a).toNat
    (o % 64 = 0 → o + 64 ≤ 0x2000000 → vErr s (vKey u o / 4 + 5) = 0 → vErr s (vKey u o / 4 + 7) = 0 → status s o = 0 →
      (at_ s o 5 ≠ 0 → ∃ t, exec (.tsubmit a) s = .next t ∧ ThreadWent s t [] s.npc 1 ∧ status t o = 1 ∧
        (∀ i < 16, i ≠ 7 → at_ t o i = at_ s o i) ∧ (∀ c, t.cluster c = s.cluster c)) ∧
      (at_ s o 5 = 0 →
        ∃ t, exec (.tsubmit a) s = .next t ∧ ThreadWent s t [] s.npc 1 ∧ status t o = 2 ∧
        (∀ i < 16, i ≠ 7 → at_ t o i = at_ s o i) ∧
        (t.cluster u).qlen = (s.cluster u).qlen + 1 ∧ (t.cluster u).released = (s.cluster u).released ++ [o] ∧
        (t.cluster u).heads = (s.cluster u).heads ∧ (t.cluster u).tails = (s.cluster u).tails ∧ ∀ c, c ≠ u → t.cluster c = s.cluster c)) ∧
    (Handles s → o % 64 ≠ 0 ∨ 0x2000000 < o + 64 → Traps s (.tsubmit a) 16 4) ∧
    (Handles s → s.me.tcb = none → Traps s .tdone 16 6) ∧
    (∀ (off : Nat) (l : List Nat), s.me.tcb = some off → off % 64 = 0 → off + 64 ≤ 0x2000000 → (∀ w, vErr s w = 0) → status s off ≠ 7 →
      successors s u off = some l → l.Nodup → off ∉ l → (∀ x ∈ l, status s x ≠ 7) →
      let last := ∀ j < 16, 16 * s.myCore + j ≠ s.cur → (s.slot (16 * s.myCore + j)).run = .idle
      ∃ t more, exec .tdone s = .next t ∧ t.me.run = .idle ∧ t.me.tcb = none ∧ (∀ k, k ≠ s.cur → t.slot k = s.slot k) ∧ status t off = 4 ∧
        (∀ i < 16, i ≠ 7 → at_ t off i = at_ s off i) ∧
        (∀ x ∈ l, at_ s x 5 ≠ 0 → at_ t x 5 = at_ s x 5 - 1 ∧ (∀ i < 16, i ≠ 5 → at_ t x i = at_ s x i)) ∧
        (last → more = (s.core s.myCore).mailbox.map fun m => .stealReply m.1) ∧ (¬ last → more = []) ∧
        t.due = s.due ++ (l.filter fun x => at_ s x 5 = 1).map (Instr.taskReleaseRequest u) ++ more ++
          [.handlerStart s.cur, .idleSlotWorkSearch s.cur])

/-! ### Matrix engine -/

/-- R272, R274, R283, R366: the tests of a matrix instruction at issue; a command that passes them is captured and enters its engine's
queue of 16 behind the others, its thread parked on it, and with the queue full the thread waits for room. -/
def Claim.MatrixCommands : Prop :=
  ∀ (s : State) (i : Instr) (c : MCmd), Commands s i c →
    let e := s.myEngine
    let behind := e.cmd ≠ none ∨ e.queue ≠ []
    (∀ k v, issueTest s c = some (k, v) → Handles s → Traps s i k v) ∧
    (issueTest s c = none → behind → e.queue.length < 16 → ∃ t, exec i s = .next t ∧
      ParkedOn { s with engines := t.engines } t .matrix ∧
      t.engine s.myGroup = { e with queue := e.queue ++ [c] } ∧ ∀ n, n ≠ s.myGroup → t.engine n = s.engine n) ∧
    (issueTest s c = none → behind → e.queue.length = 16 → ∃ t, exec i s = .next t ∧ ParkedOn s t (.cond .engine))

/-- R205, R207, R217, R274, R366, R367: a row operand in the own vault. The engine asks for the words that it does not hold, through the
line ports when the operand lies in the group-local view of its own banks and over the mesh otherwise, while the thread stays parked
and nothing has been written; when it holds them, its read gives their bytes, rows ascending, and an uncorrectable one ends the
command in MEMERR. An operand whose reads end in a trap ends its command. -/
def Claim.MatrixOperands : Prop :=
  ∀ (s : State) (c : MCmd), c.slot = s.cur → c.cls = none → Unmapped s → isBursar s.myCore = false → NoPuts s →
    let k := c.x0.toNat % 2 ^ 7
    let shape : Option (BitVec 128 × Nat × Nat × Nat) := match c.op with
      | .ldb => some (c.seg, if c.fb = 15 then k / 32 else k, c.x1.toNat, if c.fb = 15 then 512 else 2 * elemBits c.fb)
      | .lds _ => some (c.seg, 1, 0, 32)
      | .wra _ => some (c.seg, 16, c.x1.toNat, 2 * elemBits c.fa)
      | .mma .. => some (c.seg, 16, c.x1.toNat, k * elemBits c.fa / 8)
      | .epiBias .. => some (ownSeg, 1, 0, 64)
      | _ => none
    ∀ d rows pitch len, shape = some (d, rows, pitch, len) → (∀ b t, c.op = .mma b t →
        (if s.myEngine.act then s.myEngine.l1 else s.myEngine.l0).tag = some (c.fb, k)) →
      let o := c.off.toNat
      let lines := usesLines s d o rows pitch len
      let covered := covers s d o rows pitch len
      (OwnRange d o rows pitch len → lines = true ∨ PortsOpen s (segClass d = 0) →
        (∃ a, covered a ∧ s.myEngine.io.got.lookup (a / 4) = none) →
        AsksToRead s c (!lines) covered) ∧
      (∀ f, OwnRange d o rows pitch len → HoldsWords s f covered →
        readOperand d o rows pitch len (s.taking c) = .ok (operandBits s f d o rows pitch len) (s.taking c)) ∧
      (OwnRange d o rows pitch len → (∀ a, covered a → s.myEngine.io.got.lookup (a / 4) ≠ none) →
        (∃ a, covered a ∧ s.myEngine.io.got.lookup (a / 4) = some none) →
        readOperand d o rows pitch len (s.taking c) = .error (.trap 7 1) (s.taking c)) ∧
      ∀ cause eval u, readOperand d o rows pitch len (s.taking c) = .error (.trap cause eval) u →
        (∀ m, readOperand d o rows pitch len ((s.taking c).escrowed m) = .error (.trap cause eval) (u.escrowed m)) →
        u.cur = s.cur → Unmapped u → NoPuts u → HandlesAt u s.cur → Runs s c fun t parks => EngineTraps u t cause eval parks

/-- R368 to R372, R278 to R281, R376: the commands that move and clear tiles, those that fill tiles, latches and scales from an operand,
the arrival of MRING, and the step number of MRSN. `v` is what the reads of the operand give.
The model's choices of log entries 23 and 26 enter here. -/
def Claim.MatrixLoads : Prop :=
  ∀ (s : State) (c : MCmd), c.slot = s.cur → Unmapped s → NoPuts s →
    let x := s.taking c
    let e := x.myEngine
    let o := c.off.toNat
    let p := c.x1.toNat
    let k := c.x0.toNat % 2 ^ 7
    let q := s.myGroup / 16
    let active := fun (e : Engine) (f : Latch → Latch) => if e.act then { e with l1 := f e.l1 } else { e with l0 := f e.l0 }
    let did := fun (u : State) (f : Engine) => Runs s c fun t parks => EngineDid u t [] f 0 parks
    (∀ td, c.op = .zero td → GivesTiles s x c td.toNat 1 (fun _ _ => 0) (· = 0)) ∧
    (∀ td ta, c.op = .movt td ta → GivesTiles s x c td.toNat 1 (fun _ n => e.tileAt ta.toNat n) (· = 0)) ∧
    (∀ td ta, c.op = .tran td ta → GivesTiles s x c td.toNat 1 (fun _ n => e.tileAt ta.toNat (16 * (n % 16) + n / 16)) (· = 0)) ∧
    (∀ d, c.op = .rsn d → Runs s c fun t parks => EngineDid x t [(d, e.rsn)] e 0 parks) ∧
    (c.op = .ring → Runs s c fun t parks => ThreadWent x t [] x.npc parks ∧
      t.engine s.myGroup = { e.answered with arrivals := e.arrivals + 1, retiring := e.retiring ++ [(s.cur, 0xFFFFFFFF)] } ∧
      (∀ n, n ≠ s.myGroup → t.engine n = s.engine n) ∧
      t.due = s.due ++ (if (List.range 16).all fun i => (t.engine (16 * q + i)).arrivals ≠ (t.engine (16 * q + i)).rsn then
          [Instr.ringStep q] else []) ++ queueNext x ∧
      { t with slots := s.slots, cores := s.cores, engines := s.engines, due := s.due } = s) ∧
    (∀ b v u, c.op = .lds b → Reads (readOperand c.seg o 1 0 32) x v u →
      let w := BitVec.ofNat 256 v
      did u (if b then active u.myEngine fun l => { l with scales := w } else { u.myEngine with scaleA := w })) ∧
    (∀ v u, c.op = .ldb → Reads (readOperand c.seg o (if c.fb = 15 then k / 32 else k) p (if c.fb = 15 then 512 else 2 * elemBits c.fb)) x v u →
      did u (active u.myEngine fun l => { l with elems := BitVec.ofNat 8192 v, tag := some (c.fb, k) })) ∧
    ∀ td v u, c.op = .wra td → c.fa ≤ 2 →
      let bits := elemBits c.fa
      Reads (readOperand c.seg o 16 p (2 * bits)) x v u →
      let code := fun (n : Nat) => v / 2 ^ (8 * (2 * bits) * (n / 16) + bits * (n % 16)) % 2 ^ bits
      let wide := fun (n : Nat) => if c.fa = 0 then (BitVec.ofNat 32 (code n), {}) else toFp32 rneCtx 0 (elemVal c.fa (code n))
      GivesTiles s u c td.toNat 1 (fun _ n => (wide n).1) (· = packFx (fxAll ((List.range 256).map fun n => (wide n).2)))

/-- Matrix instructions at issue, their operands, and the commands that fill tiles, latches and scales (Claim.MatrixCommands,
Claim.MatrixOperands, Claim.MatrixLoads).
The model's choices of log entries 23 and 26 enter here. -/
def Obligations.MatrixLoadsAndMoves : Prop := Claim.MatrixCommands ∧ Claim.MatrixOperands ∧ Claim.MatrixLoads

/-- R269 to R271, R373, R276, R282, R283: the word of the result tile that MMA, MMAS and MMAZ compute from the bytes `v` of their
operand and the active latch. A floating element is carried through the k-groups of 16, each group's exact sum of products rounded to
FP32 and added with one rounding; integers add modulo 2^32; a complex result goes to a pair of tiles. The old tiles are in escrow.
A latch of another format or K ends the command.
The model's choices of log entry 23 enter here. -/
def Obligations.MatrixMultiplyAccumulate : Prop :=
  ∀ (s : State) (c : MCmd) (kind : Nat) (td : Tile), c.slot = s.cur → Unmapped s → NoPuts s → c.op = .mma kind td → kind < 3 →
    let x := s.taking c
    let e := s.myEngine
    let k := c.x0.toNat % 2 ^ 7
    let fa := c.fa
    let fb := c.fb
    let len := k * elemBits fa / 8
    let latch := if e.act then e.l1 else e.l0
    let rowB := 2 * elemBits fb
    let byte := fun (w : BitVec 256) (n : Nat) => w.toNat / 2 ^ (8 * n) % 256
    let odd := (fa = 9 ∨ fa = 12 ∨ fb = 9 ∨ fb = 12) ∧ k % 2 = 1
    let cx := fa = 13 ∨ fa = 14
    let rnd := fun (v : Val) => BitVec.ofNat 32 (fFP32.round rneCtx 0 v).1
    let groups := fun (terms : Nat → List (Val × Val)) (neg : Bool) (scale : Nat → Val → Val) (c : Word) =>
      (List.range ((k + 15) / 16)).foldl (fun c gr =>
        let sum := (List.range 16).foldl (fun acc n =>
          if 16 * gr + n < k then (terms (16 * gr + n)).foldl (fun acc t =>
            let x := (vMul t.1 t.2).1
            (vAdd false acc (if neg then x.neg else x)).1) acc
          else acc) (Val.zero true)
        rnd (vAdd false (ofFp32 c) (ofFp32 (rnd (scale gr sum)))).1) c
    let ints := fun (term : Nat → Int) => ((List.range k).map term).sum
    let half := fun (x i : Nat) => sInt 16 (x / 2 ^ (16 * i) % 2 ^ 16)
    let halfVal := fun (x i : Nat) => fFP16.decode (x / 2 ^ (16 * i) % 2 ^ 16)
    let result := fun (data : Nat) (zero neg : Bool) (part el : Nat) =>
      -- the codes of elements (i, n) of A and (n, j) of B
      let codeA := fun (i n : Nat) => data / 2 ^ (8 * len * i + elemBits fa * n) % 2 ^ elemBits fa
      let codeB := fun (n j : Nat) => latch.elems.toNat / 2 ^ (8 * rowB * n + elemBits fb * j) % 2 ^ elemBits fb
      let valA := fun (i n : Nat) =>
        if fa = 15 then (cf8Decode (data / 2 ^ (8 * len * i + 256 * (n / 32)) % 2 ^ 256)).1.getD (n % 32) .nan else elemVal fa (codeA i n)
      let valB := fun (n j : Nat) =>
        if fb = 15 then (cf8Decode (latch.elems.toNat / 2 ^ (8 * (512 * (n / 32) + 32 * j)) % 2 ^ 256)).1.getD (n % 32) .nan
        else elemVal fb (codeB n j)
      let i := el / 16
      let j := el % 16
      let c : Word := if zero then 0 else e.tileAt (td.toNat + part) el
      let whole := fun (x : Int) => c + BitVec.ofInt 32 (if neg then -x else x)
      if fa = 11 ∨ fa = 12 then whole (ints fun n => sInt (elemBits fa) (codeA i n) * sInt (elemBits fb) (codeB n j))
      else if fa = 13 then
        whole (ints fun n =>
          let x := half (codeA i n)
          let y := half (codeB n j)
          if part = 0 then x 0 * y 0 - x 1 * y 1 else x 0 * y 1 + x 1 * y 0)
      else if fa = 14 then
        groups (fun n =>
          let x := halfVal (codeA i n)
          let y := halfVal (codeB n j)
          if part = 0 then [(x 0, y 0), ((x 1).neg, y 1)] else [(x 0, y 1), (x 1, y 0)]) neg (fun _ v => v) c
      else
        groups (fun n => [(valA i n, valB n j)]) neg (fun gr v =>
          let v := if isMx fa then scaled (byte e.scaleA (2 * i + gr / 2)) v else v
          if isMx fb then scaled (byte latch.scales (2 * j + gr / 2)) v else v) c
    let tiles := if fa = 13 ∨ fa = 14 then 2 else 1
    (pairOk fa fb = true → kBad fa k = false → kBad fb k = false → ¬ odd → (cx → td.toNat % 2 = 0) → latch.tag = some (fb, k) →
      ∀ v u, (∀ m, Reads (readOperand c.seg c.off.toNat 16 c.x1.toNat len) (x.escrowed m) v (u.escrowed m)) →
        (∀ n, u.myEngine.tileAt n = x.myEngine.tileAt n) →
        Runs s c fun t parks => ∃ w, TilesAre u t td.toNat tiles (result v (kind = 2) (kind = 1)) ∧
          EngineDid u t [] { u.myEngine with
            tiles := (t.engine s.myGroup).tiles, escrow := (t.engine s.myGroup).escrow } w parks ∧
          ∀ h < tiles, ∀ n < 256, smGet 0 (t.engine s.myGroup).escrow (256 * h + n) = e.tileAt (td.toNat + h) n) ∧
    (latch.tag ≠ some (fb, k) → HandlesAt s s.cur → Runs s c fun t parks => EngineTraps x t 12 4 parks)

/-- R284, R285, R374: each word of a MEPI result is computed from the words of its operands as they stood: a sum, a product, the larger
by the MAX rule, the product with g[a], the sum with a bias by row or column, or a unary function. `v` is what the reads of the bias give. -/
def Claim.MatrixEpilogue : Prop :=
  ∀ (s : State) (c : MCmd), c.slot = s.cur → Unmapped s → NoPuts s →
    let x := s.taking c
    let rnd := fun (w : Val × Bool) =>
      let r := fFP32.round rneCtx 0 w.1
      (BitVec.ofNat 32 r.1, { r.2 with fl := r.2.fl ||| if w.2 then fNV else 0 })
    let at_ := fun (t : Tile) (n : Nat) => s.myEngine.tileAt t.toNat n
    let gives := fun (u : State) (td : Tile) (f : Nat → Word × Fx) =>
      GivesTiles s u c td.toNat 1 (fun _ n => (f n).1) (· = packFx (fxAll ((List.range 256).map fun n => (f n).2)))
    let add := fun (p q : Word) => rnd (vAdd false (ofFp32 p) (ofFp32 q))
    let mul := fun (p q : Word) => rnd (vMul (ofFp32 p) (ofFp32 q))
    let max := fun (p q : Word) =>
      let b := ofFp32 p
      let c := ofFp32 q
      if b.isNan || c.isNan then (0x7FC00000, { fl := 16, nan := true })
      else (if valLt b c || (valEq b c && b.sign && !c.sign) then q else p, ({} : Fx))
    let unary := fun (fn : Nat) (w : Word) => (BitVec.ofNat 32 (epiUnary fn (ofFp32 w)).1, (epiUnary fn (ofFp32 w)).2)
    (∀ fn td ta tb, c.op = .epi2 fn td ta tb →
      gives x td fun n => if fn = 0 then add (at_ ta n) (at_ tb n) else if fn = 1 then mul (at_ ta n) (at_ tb n)
        else max (at_ ta n) (at_ tb n)) ∧
    (∀ td ta, c.op = .epiScale td ta → gives x td fun n => mul (at_ ta n) c.off) ∧
    (∀ col td ta v u, c.op = .epiBias col td ta → Reads (readOwn c.off.toNat 64) x v u →
      (∀ n, u.myEngine.tileAt n = x.myEngine.tileAt n) →
      gives u td fun n => add (at_ ta n) (BitVec.ofNat 32 (v / 2 ^ (32 * (if col then n / 16 else n % 16))))) ∧
    (∀ f, OwnRange ownSeg c.off.toNat 1 0 64 → HoldsWords s f (covers s ownSeg c.off.toNat 1 0 64) →
      readOwn c.off.toNat 64 x = .ok (bytesOf s f c.off.toNat 64) x) ∧
    ∀ fn td ta, c.op = .epi1 fn td ta → gives x td fun n => unary fn (at_ ta n)

/-- R375, R376, R207, R366, R367: MSTT stores a tile's elements, converted to the format of the command, as 16 rows of its operand,
MSTT.F with every word full, and MRED 16 row or column reductions to the own vault: through the line ports or over the mesh, and at its
home an operand of main memory, where the command retires at once. -/
def Claim.MatrixStoresAndReductions : Prop :=
  ∀ (s : State) (c : MCmd), c.slot = s.cur → c.cls = none → Unmapped s → NoPuts s → isBursar s.myCore = false →
    let x := s.taking c
    let o := c.off.toNat
    let p := c.x1.toNat
    let at_ := fun (t : Tile) (h n : Nat) => s.myEngine.tileAt (t.toNat + h) n
    (∀ full ta, c.op = .stt full ta → sttOk c.fa = true →
      let f := c.fa
      let bits := elemBits f
      let len := 2 * bits
      let r : RCtx := { mode := c.rnd, key := c.key, widLo := c.widLo }
      let int := fun (w : Nat) (v : Word) =>
        let c := clampTo (-2 ^ (w - 1)) (2 ^ (w - 1) - 1) v.toInt
        ((c % 2 ^ w).toNat, ({ fl := ovFlag (decide (c ≠ v.toInt)) } : Fx))
      let pair := fun (r i : Nat × Fx) => (r.1 + 2 ^ 16 * i.1, r.2.or i.2)
      let elem := fun (n : Nat) =>
        if f = 0 then ((at_ ta 0 n).toNat, {})
        else if f = 11 then int 8 (at_ ta 0 n) else if f = 12 then int 4 (at_ ta 0 n)
        else if f = 13 then pair (int 16 (at_ ta 0 n)) (int 16 (at_ ta 1 n))
        else if f = 14 then
          pair (fFP16.round r (2 * n % 256) (ofFp32 (at_ ta 0 n))) (fFP16.round r ((2 * n + 1) % 256) (ofFp32 (at_ ta 1 n)))
        else ((fmtOf f).getD fFP32).round r n (ofFp32 (at_ ta 0 n))
      let fx := fxAll ((List.range 256).map fun n => (elem n).2)
      let row := fun (i : Nat) => ((List.range 16).map fun j => (elem (16 * i + j)).1 * 2 ^ (bits * j)).sum
      let lines := usesLines s c.seg o 16 p len
      (OwnRange c.seg o 16 p len → lines = true ∨ (PortsOpen s (segClass c.seg = 0) ∧ len ≤ p) →
        Stores s x c (!lines) full (putOf (rowBytes s c.seg o 16 p len row)) [] (fun _ => s.myEngine.tiles) fx) ∧
      ∀ ps y u, partPlaces c.seg (if full then aEngF else aEngW) (rowParts c.seg o 16 p len) x = .ok ps y →
        y.myEngine.tiles = s.myEngine.tiles → writeOperand full ps ((List.range 16).map fun i => row i * 2 ^ (8 * len * i)).sum y = .ok () u →
        u.cur = s.cur → Unmapped u → NoPuts u → Runs s c fun t parks => EngineRetires u t fx parks) ∧
    ∀ kind neg ta, c.op = .red kind neg ta → kind < 4 →
      let reduce := fun (sum : Bool) (l : Nat → Word) => ((List.range 15).map fun n => l (n + 1)).foldl (fun (p : Word × Fx) y =>
        let r := if sum then flAdd p.1 y else maxWord p.1 y
        (r.1, p.2.or r.2)) (l 0, {})
      let out := fun (w : Word) => if !neg then w else if (ofFp32 w).isNan then 0x7FC00000 else w ^^^ 0x80000000
      -- row reductions are 0 and 1, column reductions 2 and 3; sums are the odd ones
      let line := fun (n : Nat) => reduce (kind % 2 = 1) fun m => if kind < 2 then at_ ta 0 (16 * n + m) else at_ ta 0 (16 * m + n)
      let lines := usesLines s ownSeg o 1 0 64
      o % 4 = 0 → o + 64 ≤ 0x4000000 → lines = true ∨ PortsOpen s true →
        Stores s x c (!lines) false (putOf (rowBytes s ownSeg o 16 4 4 fun n => (out (line n).1).toNat)) [] (fun _ => s.myEngine.tiles)
          (fxAll ((List.range 16).map fun n => (line n).2))

/-- R286 to R289, R377, R378: the solver commands on real tiles. MPOTRF leaves the columns of the factor that it finished, each word by
the operations of R287 in their order, and names the first pivot that is not positive; MTRSM leaves unknowns that satisfy R289; MGETRF
writes its pivots; each has its status word empty at its start and writes it last and full. -/
def Claim.MatrixFactorsAndSolves : Prop :=
  ∀ (s : State) (c : MCmd), c.slot = s.cur → c.cls = none → Unmapped s → NoPuts s → isBursar s.myCore = false → c.fa = 0 →
    let v := c.off.toNat
    let w := ownKey s v / 4
    let m := vSetFull w false (s.taking c)
    let at_ := fun (e : Engine) (t : Tile) (i j : Nat) => e.tileAt t.toNat (16 * i + j)
    let lines := fun (n : Nat) => usesLines s ownSeg v 1 0 n
    let stands := fun (n : Nat) => v % 4 = 0 ∧ v + n ≤ 0x4000000 ∧ (lines n = true ∨ PortsOpen s true)
    -- only the status word is stored
    let ends := fun (td : Tile) (q : Engine → Nat → Prop) =>
      Runs s c fun t parks => ∃ status fx,
        EngineAsks m t { m.myEngine with tiles := (t.engine s.myGroup).tiles } { s.myEngine.io with writing := true, fx := packFx fx } (!lines 4) true true
          (fun n => if n = w then (15, BitVec.ofNat 32 status) else (0, 0)) parks ∧
        (∀ u k, u ≠ td.toNat → k < 256 → (t.engine s.myGroup).tileAt u k = s.myEngine.tileAt u k) ∧ q (t.engine s.myGroup) status
    (∀ td, c.op = .potrf td → stands 4 → ends td fun e status =>
      let x := at_ s.myEngine td
      let l := at_ e td
      let pivot := fun (j : Nat) => (List.range j).foldl (fun d k => (flSub d (flMul (l j k) (l j k)).1).1) (x j j)
      let elem := fun (i j : Nat) => (List.range j).foldl (fun d k => (flSub d (flMul (l i k) (l j k)).1).1) (x i j)
      ∃ n ≤ 16,
        (∀ j < n, valLt (.zero false) (ofFp32 (pivot j)) = true ∧ l j j = (flSqrt (pivot j)).1 ∧
          (∀ i < j, l i j = x i j) ∧ ∀ i, j < i → i < 16 → l i j = (flDiv (elem i j) (l j j)).1) ∧
        (∀ j, n ≤ j → j < 16 → ∀ i < 16, l i j = x i j) ∧
        if n = 16 then status = 0 else valLt (.zero false) (ofFp32 (pivot n)) = false ∧ status = 1 + 256 * n) ∧
    (∀ right upper unit o td ta, c.op = .trsm right upper unit o td ta → o < 3 → stands 4 → ends td fun e status =>
      let x := at_ s.myEngine td
      let y := at_ e td
      let m := fun (r c : Nat) => if o = 0 then at_ s.myEngine ta r c else at_ s.myEngine ta c r
      let lower := upper = decide (o ≠ 0)
      -- LEFT solves rows in ascending order for a lower triangle, RIGHT columns in ascending order for an upper one
      let ascending := if right then ¬ lower else lower
      let before := fun (u : Nat) => if ascending then List.range u else (List.range (15 - u)).map (15 - ·)
      let diagonal := fun (u : Nat) => isZeroWord (m u u)
      (∀ u < 16, ∀ c < 16,
        let rhs := (before u).foldl (fun d k =>
          (flSub d (if right then flMul (y c k) (m k u) else flMul (m u k) (y k c)).1).1) (if right then x c u else x u c)
        let q := if unit then rhs else (flDiv rhs (m u u)).1
        if right then y c u = q else y u c = q) ∧
      ((unit = true ∨ ∀ u < 16, diagonal u = false) → status = 0) ∧
      (unit = false → ∀ u < 16, diagonal u = true → (∀ k ∈ before u, diagonal k = false) → status = 3 + 256 * u)) ∧
    ∀ td, c.op = .getrf td → stands 20 → Runs s c fun t parks =>
      let x := at_ s.myEngine td
      let e := t.engine s.myGroup
      ∃ (piv : Nat → Nat) (status : Nat) (fx : Fx),
        EngineAsks m t { m.myEngine with tiles := e.tiles }
          { s.myEngine.io with
            puts := [{ word := w, data := BitVec.ofNat 32 status, setFull := true, late := true, far := !lines 20 }]
            writing := true, fx := packFx fx } (!lines 20) true false (putOf (rowBytes s ownSeg (v + 4) 16 1 1 piv)) parks ∧
        (∀ u k, u ≠ td.toNat → k < 256 → e.tileAt u k = s.myEngine.tileAt u k) ∧ (∀ j < 16, j ≤ piv j ∧ piv j < 16) ∧
        -- the first column: the pivot row's element is nowhere exceeded, and the multipliers are the quotients by it
        ((∀ i < 16, (ofFp32 (x i 0)).isNan = false) →
          (∀ i < 16, valLt (ofFp32 (x (piv 0) 0 &&& 0x7FFFFFFF)) (ofFp32 (x i 0 &&& 0x7FFFFFFF)) = false) ∧
          (∀ c < 16, at_ e td 0 c = x (piv 0) c) ∧ (isZeroWord (x (piv 0) 0) = true → status = 2))

/-- R290, R291: MDELTA writes the elements of a full list with the matrix's tag and empties the list, and writes only its status when
the list is empty, the tags differ or an index is outside; MSHIFT moves a tagged vector of H rows by one row, and clears a vector whose
tag is not the expected one; a header out of range ends the command. `f` are the words of the own vault that the engine has read. -/
def Claim.MatrixDeltasAndShifts : Prop :=
  ∀ (s : State) (c : MCmd) (f : Nat → Word), c.slot = s.cur → c.cls = none → Unmapped s → NoPuts s → isBursar s.myCore = false →
    let v := c.off.toNat
    let l := c.x0.toNat
    let m := c.x1.toNat
    let x := s.taking c
    let word_ := fun (o : Nat) => (f (ownKey s o / 4)).toNat
    let isFull := fun (o : Nat) => vFullOf s (ownKey s o / 4)
    let at_ := fun (o : Nat) => ownKey s o / 4
    let range := fun (o n : Nat) => o % 4 = 0 ∧ o + n ≤ 0x4000000
    let holds := fun (o n : Nat) => HoldsWords s f (covers s ownSeg o 1 0 n)
    let needs := fun (o n : Nat) => (∃ k, covers s ownSeg o 1 0 n k ∧ s.myEngine.io.got.lookup (k / 4) = none) →
      usesLines s ownSeg o 1 0 n = true ∨ PortsOpen s true →
      AsksToRead s c (!usesLines s ownSeg o 1 0 n) (covers s ownSeg o 1 0 n)
    let lines := fun (o n : Nat) => usesLines s ownSeg o 1 0 n
    let stands := lines v 4 = true ∨ PortsOpen s true
    let emptied := vSetFull (at_ v) false x
    -- the status word is all that is written
    let only := fun (u : State) (status : Nat) =>
      Stores s u c (!lines v 4) true (fun n => if n = at_ v then (15, BitVec.ofNat 32 status) else (0, 0)) [] (fun _ => s.myEngine.tiles) {}
    -- it follows the other words
    let after := fun (u : State) (status : Nat) (far : Bool) (put : Nat → BitVec 4 × Word) =>
      Stores s u c far false put [{ word := at_ v, data := BitVec.ofNat 32 status, setFull := true, late := true, far := !lines v 4 }]
        (fun _ => s.myEngine.tiles) {}
    let stops := HandlesAt s s.cur → Runs s c fun t parks => EngineTraps x t 12 7 parks
    (c.op = .delta → range v 4 → range l 8 → range m 16 → stands →
      needs l 8 ∧ (holds l 8 → needs m 16) ∧
      (holds l 8 → holds m 16 →
        let n := word_ (l + 4)
        let rows := word_ (m + 4) % 2 ^ 16
        let cols := word_ (m + 4) / 2 ^ 16
        let pitch := word_ (m + 8)
        let size := 4 * (4 + (rows - 1) * pitch + cols)
        let row := fun (i : Nat) => word_ (l + 8 + 8 * i) / 2 ^ 16
        let col := fun (i : Nat) => word_ (l + 8 + 8 * i) % 2 ^ 16
        let place := fun (i : Nat) => m + 4 * (4 + row i * pitch + col i)
        let sizes := n ≤ 4096 ∧ cols ≤ pitch ∧ l + 8 + 8 * n ≤ 0x4000000 ∧ (rows = 0 ∨ cols = 0 ∨ m + size ≤ 0x4000000)
        (¬ sizes → stops) ∧
        (sizes → (0 < n → needs (l + 8) (8 * n)) ∧ (holds (l + 8) (8 * n) → at_ v ≠ at_ l →
          (isFull l = false → only emptied 7) ∧
          (isFull l = true → word_ l ≠ word_ m → only emptied 4) ∧
          (isFull l = true → word_ l = word_ m → ∀ i < n, (rows ≤ row i ∨ cols ≤ col i) → (∀ j < i, row j < rows ∧ col j < cols) →
            only emptied (6 + 256 * (i % 16))) ∧
          (isFull l = true → word_ l = word_ m → (∀ i < n, row i < rows ∧ col i < cols) →
            let done := vSetFull (at_ l) false emptied
            (n = 0 → only done 0) ∧
            (0 < n → lines m size = true ∨ (PortsOpen s true ∧ ∀ i < n, ∀ j < n, place i = place j → i = j) →
              after done (2 ^ 16 * n) (!lines m size) fun w =>
              ((List.range n).reverse.find? fun i => at_ (place i) = w).elim (0, 0) fun i =>
                (15, f (at_ (l + 8 + 8 * i + 4))))))))) ∧
    (∀ zero, c.op = .shift zero → range v 4 → range l 8 → stands →
      needs l 8 ∧
      (holds l 8 →
        let h := word_ (l + 4) % 2 ^ 16
        let n := word_ (l + 4) / 2 ^ 16
        let sizes := 0 < h ∧ 0 < n ∧ h * n ≤ 65536 ∧ l + 8 + 4 * h * n ≤ 0x4000000
        let far := !lines l (8 + 4 * h * n)
        let elems := fun (g : Nat → Nat → Nat) => rowBytes s ownSeg (l + 8) (h * n) 4 4 fun k => g (k / n) (k % n)
        let old := fun (r c : Nat) => word_ (l + 8 + 4 * (r * n + c))
        (¬ sizes → stops) ∧
        (sizes → needs (l + 8) (4 * h * n) ∧ (holds (l + 8) (4 * h * n) → far = false ∨ PortsOpen s true →
          (word_ l = m → after emptied 0 far (putOf (elems fun r c => if r + 1 < h then old (r + 1) c else if zero then 0 else old r c))) ∧
          (word_ l ≠ m → after emptied 5 far (putOf fun k =>
            (elems (fun _ _ => 0) k).or (rowBytes s ownSeg l 1 4 4 (fun _ => m) k)))))))

/-! ### Block conversions and bulk copies -/

/-- R258 to R261, R367, R385 to R387: the conversions between wide elements and blocks, with all operands in the own vault and the source
apart from the destination: tiles to blocks and back, and the memory forms. `f` are the words of the source that the engine has read.
The model's choices of log entry 24 enter here. -/
def Obligations.BlockConversions : Prop :=
  ∀ (s : State) (c : MCmd) (f : Nat → Word), c.slot = s.cur → c.cls = none → Unmapped s → NoPuts s → isBursar s.myCore = false →
    let x := s.taking c
    let o := c.off.toNat
    let p := c.x1.toNat
    let fa := c.fa
    let fb := c.fb
    let r : RCtx := { mode := c.rnd, key := c.key, widLo := c.widLo }
    let bits := elemBits fa
    let len := 4 * bits
    let so := o + c.x2.toNat
    let bytes := bytesOf s f
    let asks := fun (far : Bool) (covered : Nat → Prop) => (∃ k, covered k ∧ s.myEngine.io.got.lookup (k / 4) = none) →
      AsksToRead s c far covered
    let both := fun (a b : Nat → Option Byte) (k : Nat) => (b k).or (a k)
    let one := fun (d : BitVec 128) (o n : Nat) (v : Nat) => rowBytes s d o 1 0 n fun _ => v
    (∀ u, c.op = .qnt u → isBlocked fa = true → u.toNat % 2 = 0 →
      let w := fun (i k : Nat) => s.myEngine.tileAt (u.toNat + k / 16) (16 * i + k % 16)
      let block := fun (i : Nat) => encodeBlock fa r (32 * i % 256) ((List.range 32).map fun k => ofFp32 (w i k))
      let lines := usesLines s c.seg o 16 p len
      let scales := rowBytes s c.seg so 16 1 1 fun i => (block i).2.1
      OwnRange c.seg o 16 p len → (isMx fa = true → OwnRange c.seg so 1 0 16 ∧ usesLines s c.seg so 1 0 16 = lines) →
        lines = true ∨ (PortsOpen s (segClass c.seg = 0) ∧ len ≤ p ∧ isMx fa = false) →
        Stores s x c (!lines) false (putOf (both (rowBytes s c.seg o 16 p len fun i => (block i).1) (if isMx fa then scales else fun _ => none)))
          [] (fun _ => s.myEngine.tiles) (fxAll ((List.range 16).map fun i => (block i).2.2))) ∧
    (∀ t, c.op = .dqnt t → isBlocked fa = true → OwnRange c.seg o 16 p len → (isMx fa = true → OwnRange c.seg so 1 0 16) →
      usesLines s c.seg o 16 p len = true ∨ PortsOpen s (segClass c.seg = 0) → asks (!usesLines s c.seg o 16 p len) (covers s c.seg o 16 p len)) ∧
    (∀ t, c.op = .dqnt t → isBlocked fa = true → t.toNat % 2 = 0 → OwnRange c.seg o 16 p len → HoldsWords s f (covers s c.seg o 16 p len) →
      (isMx fa = true → OwnRange c.seg so 1 0 16 ∧ HoldsWords s f (covers s c.seg so 1 0 16)) →
      let back := fun (i : Nat) => decodeBlock fa (bytes (segBase c.seg + o + i * p) len) (if isMx fa then bytes (segBase c.seg + so + i) 1 else 0)
      GivesTiles s x c t.toNat 2 (fun h n => (toFp32 rneCtx 0 ((back (n / 16)).1.getD (16 * h + n % 16) .nan)).1) (fun _ => True)) ∧
    let sg := c.seg
    let dg := c.seg2
    let do_ := c.off2.toNat
    let m := c.x0.toNat
    let size := fun (f n : Nat) => n * elemBits f / 8
    let src := fun (a n : Nat) => bytes (segBase sg + o + a) n
    let apart := fun (a n b k : Nat) => a + n ≤ b ∨ b + k ≤ a
    let scale := segBase sg + c.gb.toNat
    let out := segBase dg + c.gb.toNat
    let lines := fun (n : Nat) => usesLines s dg do_ 1 0 n
    let stands := fun (ns nd : Nat) => OwnRange sg o 1 0 ns ∧ HoldsWords s f (covers s sg o 1 0 ns) ∧ OwnRange dg do_ 1 0 nd ∧
      apart (segBase sg + o) ns (segBase dg + do_) nd ∧ lines nd = true
    (∀ fn < 3, c.op = .cvt fn → 0 < m →
      let mx := fn = 1 ∧ isMx fb = true
      let n := if fn = 2 then m else 32 * m
      OwnRange sg o 1 0 (size fb n) → (mx → OwnRange sg c.gb.toNat 1 0 m) → OwnRange dg do_ 1 0 (size fa n) →
      (fn = 0 → isMx fa = true → OwnRange dg c.gb.toNat 1 0 m) →
      usesLines s sg o 1 0 (size fb n) = true → (mx → usesLines s sg c.gb.toNat 1 0 m = true) →
      asks false fun k => covers s sg o 1 0 (size fb n) k ∨ (mx ∧ covers s sg c.gb.toNat 1 0 m k)) ∧
    let pack := fun (f : Nat) (l : List Nat) => (l.mapIdx fun k v => v * 2 ^ (elemBits f * k)).sum
    (c.op = .cvt 2 → isVec fb = true → isVec fa = true → 0 < m → m ≤ 1024 → ¬ (m % 2 = 1 ∧ (fa = 12 ∨ fb = 12)) →
      stands (size fb m) (size fa m) →
      let elem := fun (k : Nat) => cvtElem fa fb r (k % 256) (src 0 (size fb m) / 2 ^ (elemBits fb * k) % 2 ^ elemBits fb)
      Stores s x c false false (putOf (one dg do_ (size fa m) (pack fa ((List.range m).map fun k => (elem k).1)))) []
        (fun _ => s.myEngine.tiles) (fxAll ((List.range m).map fun k => (elem k).2))) ∧
    (c.op = .cvt 0 → isWide fb = true → isBlocked fa = true → 0 < m → m ≤ 32 → stands (size fb (32 * m)) (size fa (32 * m)) →
      (isMx fa = true → OwnRange dg c.gb.toNat 1 0 m ∧ apart out m (segBase dg + do_) (size fa (32 * m)) ∧
        apart out m (segBase sg + o) (size fb (32 * m)) ∧ usesLines s dg c.gb.toNat 1 0 m = true) →
      let row := fun (i : Nat) => src (size fb (32 * i)) (size fb 32)
      let block := fun (i : Nat) => encodeBlock fa r (32 * i % 256)
        ((List.range 32).map fun k => elemVal fb (row i / 2 ^ (elemBits fb * k) % 2 ^ elemBits fb))
      let scales := rowBytes s dg c.gb.toNat m 1 1 fun i => (block i).2.1
      Stores s x c false false (putOf (both (rowBytes s dg do_ m (size fa 32) (size fa 32) fun i => (block i).1)
        (if isMx fa then scales else fun _ => none))) [] (fun _ => s.myEngine.tiles) (fxAll ((List.range m).map fun i => (block i).2.2))) ∧
    (c.op = .cvt 1 → isBlocked fb = true → isWide fa = true → 0 < m → m ≤ 32 → stands (size fb (32 * m)) (size fa (32 * m)) →
      (isMx fb = true → OwnRange sg c.gb.toNat 1 0 m ∧ HoldsWords s f (covers s sg c.gb.toNat 1 0 m) ∧
        apart scale m (segBase dg + do_) (size fa (32 * m))) →
      let block := fun (i : Nat) => decodeBlock fb (src (size fb (32 * i)) (size fb 32)) (if isMx fb then bytes (scale + i) 1 else 0)
      let elem := fun (i k : Nat) => ((fmtOf fa).getD fFP32).round r ((32 * i + k) % 256) ((block i).1.getD k .nan)
      ∃ fx, Stores s x c false false (putOf (rowBytes s dg do_ m (size fa 32) (size fa 32) fun i =>
        pack fa ((List.range 32).map fun k => (elem i k).1))) [] (fun _ => s.myEngine.tiles) fx)

/-- R379 to R383: a copy whose tests pass is accepted at once by an engine with fewer than four: its completion word is set empty, its
thread goes on and the copy is due to go on; else it enters the engine's queue, where its acceptance is due, unless 16 copies that have not
started fill it. A test that fails traps. BCANCEL stops the
thread's copies that have not begun their final write, and waits for them.
The model's choices of log entries 1 and 25 enter here. -/
def Obligations.BulkCopies : Prop :=
  ∀ (s : State) (d a b : Reg) (g e : BitVec 3) (f : Bool), Clear s → isBursar s.myCore = false →
    let n := groupOf s.myCore
    let x := s.bulkOf n
    -- at most four accepted copies run, the others wait
    let waiting := x.copies.length - Nat.min 4 (x.copies.filter (·.accepted)).length
    let v := (s.reg b).toNat
    let key := ownKey s v
    let copy := fun (fn : Nat) =>
      ({ id := x.nextId, fn := fn, setFull := f, src := s.seg (if fn = 2 then 0 else g.toNat), dst := s.seg e.toNat, so := s.reg a, do_ := s.reg d
         pattern := s.reg a, x0 := s.xreg 0, x1 := s.xreg 1, x2 := s.xreg 2, x3 := s.xreg 3
         comp := if b = 0 then none else some v, slot := s.cur } : Copy)
    let mine := fun (c : Copy) => c.slot = s.cur ∧ c.orphan = false ∧ (b = 0 ∨ c.comp = some v)
    (∀ m ∈ [(Instr.bcopy d a b g e f, 0), (.bcopy2 d a b g e f, 1), (.bfill d a b e f, 2), (.bgath d a b g e f, 3), (.bscat d a b g e f, 4)],
      (∀ k y, firstTest (copyTests (copy m.2) b (s.reg b)) = some (k, y) → Handles s → Traps s m.1 k y) ∧
      (firstTest (copyTests (copy m.2) b (s.reg b)) = none → (∀ c ∈ x.copies, c.id ≠ x.nextId) →
        (x.copies.length < 4 → (∀ c ∈ x.copies, c.accepted = true) →
          let m0 := if b = 0 then s else vSetFull (key / 4) false s
          ∃ t, exec m.1 s = .next t ∧ ThreadWent m0 t [] m0.npc 1 ∧
            t.bulkOf n = { x with copies := x.copies ++ [{ copy m.2 with accepted := true }], nextId := x.nextId + 1 } ∧
            (∀ k, k ≠ n → t.bulkOf k = s.bulkOf k) ∧ t.due = s.due ++ [.copyComplete n x.nextId] ∧
            { t with slots := s.slots, cores := s.cores, bulk := s.bulk, due := s.due } = m0) ∧
        (4 ≤ x.copies.length ∨ (∃ c ∈ x.copies, c.accepted = false) → waiting < 16 →
          ∃ t, exec m.1 s = .next t ∧
            ParkedOn { s with
              bulk := smMod {} s.bulk n fun y => { y with copies := y.copies ++ [copy m.2], nextId := y.nextId + 1 }
              due := s.due ++ [.copyAccept n] } t .copy) ∧
        (16 ≤ waiting → ∃ t, exec m.1 s = .next t ∧ ParkedOn s t (.cond .bulk)))) ∧
    Gives s (.bstat d) d (BitVec.ofNat 32 (x.copies.countP fun c => c.slot = s.cur && !c.orphan)) ∧
    ((∀ c ∈ x.copies, ¬ mine c) → Gives s (.bcancel d b) d 0) ∧
    ∀ c ∈ x.copies, mine c → (x.copies.map (·.id)).Nodup →
      ∃ (t : State) (ids stopped : List Nat), exec (.bcancel d b) s = .next t ∧ t.me = { s.me with run := .parked (.cancel ids stopped.length d) } ∧
        (∀ i, i ∈ ids ↔ ∃ c ∈ x.copies, c.id = i ∧ mine c) ∧ stopped.Nodup ∧
        (∀ i, i ∈ stopped ↔ ∃ c ∈ x.copies, c.id = i ∧ mine c ∧ c.ending = none) ∧
        (t.bulkOf n).copies = x.copies.map (fun c => if c.id ∈ stopped then { c with stopCode := some 0x12 } else c) ∧
        t.due = s.due ++ stopped.map (Instr.copyComplete n)

/-! ### Events of the memory controllers -/

/-- R24, R30, R32 to R36, R40, R66: the oldest request of a controller whose lanes are all its own. One with another generation's stamp
goes back to its slice, in DRAIN also one that was not accepted before; a fenced channel refuses it; a served one activates its row, and
a read's fill or its error goes back on its route. -/
def Claim.ControllerRequests : Prop :=
  ∀ (s : State) (st : Nat) (r : McReq) (more : List McReq),
    (s.ctl st).queue = r :: more → (s.ctl st).pairs = [] → stackOf r.line = st →
    let c := s.ctl st
    let done := { c with queue := more }
    let ev := Instr.mcRequest st
    let row := (coords c.retired r.line).2.2.2
    let bank := (coords c.retired r.line).2.2.1
    let key := ((coords c.retired r.line).1 * 2 + (coords c.retired r.line).2.1) * 64 + bank
    let t := smGet {} c.trackers key
    let accepted := c.state ≠ 2 ∨ r.accepted = true
    let serves := r.stamp = c.gen ∧ accepted ∧ bitOf c.fenced (channel0 r.line) = false
    let fill := fun b => Instr.sliceFill r.slice r.line (memLine s r.line) (memFullOf s r.line) b c.parity
    let back := (mcRoutes s r.slice r.line).2
    (r.stamp ≠ c.gen → CtlBecomes s ev st done [.remap r.slice st c.gen r]) ∧
    (r.stamp = c.gen → ¬ accepted → CtlBecomes s ev st done [.remap r.slice st (c.gen + 1) r]) ∧
    (r.stamp = c.gen → accepted → bitOf c.fenced (channel0 r.line) = true →
      ∃ u, OnlyCtlAt s u st done [] ∧ exec ev s = .next (missError r.slice r.line 5 u)) ∧
    -- an open row
    (serves → t.open_ = some row → r.write = true →
      ∃ u, exec ev s = .next u ∧ u.ctl st = done ∧ (∀ n, n ≠ st → u.ctl n = s.ctl n) ∧
        memLine u r.line = r.data ∧ (∀ a, a / 64 ≠ r.line → smGet 0 u.mem a = smGet 0 s.mem a) ∧
        (∀ l, memFullOf u l = if l = r.line then r.full else memFullOf s l) ∧
        (∀ l, smGet [] u.flips l = if l = r.line then [] else smGet [] s.flips l) ∧
        { u with ctls := s.ctls, mem := s.mem, memFull := s.memFull, flips := s.flips } = s) ∧
    (serves → t.open_ = some row → r.write = false → smGet [] s.flips r.line = [] →
      (back = .there [] → CtlBecomes s ev st done [fill (t.capture.contains row)]) ∧
      ∀ w, back = .lost w → ∃ u, OnlyCtlAt s u st done [] ∧ exec ev s = .next (missError r.slice r.line 4 (routeMarks back u))) ∧
    (serves → t.open_ = some row → r.write = false → smGet [] s.flips r.line ≠ [] → decodePattern (smGet [] s.flips r.line) = none →
      ∃ u, OnlyCtlAt s u st
          (let d := { done with ue := BitVec.ofNat 16 (upTo 0xFFFF c.ue.toNat) }
            if c.ueValid then { d with ueMore := true } else { d with ueValid := true, ueLine := r.line, ueSource := 0 }) [] ∧
        exec ev s = .next (missError r.slice r.line 1 (ctlRecord st 0x01 (64 * r.line) 0 u))) ∧
    -- a row to activate: it is counted; at or above the threshold it is captured while its list has room, else it falls back once in
    -- the window
    (serves → t.open_ ≠ some row → t.paced = false → r.write = false → smGet [] s.flips r.line = [] → back = .there [] →
      let es := trackRow row t.entries
      let hot := c.thresh.toNat ≤ ((es.find? fun e => e.1 = row).getD (0, 0)).2 ∧ row ∉ t.capture ∧ row ∉ t.fell
      let opened := { t with open_ := some row, entries := es, acts := t.acts % 256 }
      let tracks := fun (u : State) (t' : Tracker) => ∀ k, smGet {} (u.ctl st).trackers k = if k = key then t' else smGet {} c.trackers k
      (¬ hot → ∃ u, exec ev s = .next u ∧
        OnlyCtlAt s u st { done with trackers := (u.ctl st).trackers } [fill (t.capture.contains row)] ∧ tracks u opened) ∧
      (hot → t.capture.length < 4 → ∃ u, exec ev s = .next u ∧
        OnlyCtlAt s u st { done with trackers := (u.ctl st).trackers } [fill true] ∧
        tracks u { opened with capture := t.capture ++ [row] }) ∧
      (hot → 4 ≤ t.capture.length → ∃ u,
        OnlyCtlAt s u st { done with
          trackers := (u.ctl st).trackers, rfms := c.rfms + 1, fallback := BitVec.ofNat 8 (upTo 0xFF c.fallback.toNat) } [] ∧
        tracks u { opened with fell := t.fell ++ [row], paced := true, acts := 0 } ∧
        exec ev s = .next ((ctlRecord st 0x02 0 (bank + row * 2 ^ 32) u).push (fill false)))) ∧
    -- of a paced bank every 256th activation issues a further RFM
    (serves → t.open_ ≠ some row → t.paced = true → row ∈ t.capture → r.write = false → smGet [] s.flips r.line = [] →
      back = .there [] → ∃ u, exec ev s = .next u ∧
        OnlyCtlAt s u st { done with
          trackers := (u.ctl st).trackers, rfms := c.rfms + if t.acts + 1 = 256 then 1 else 0 } [fill true] ∧
        ∀ k, smGet {} (u.ctl st).trackers k =
          if k = key then { t with open_ := some row, entries := trackRow row t.entries, acts := (t.acts + 1) % 256 }
          else smGet {} c.trackers k)

/-- R26, R34 to R36, R40, R42: the end of a window, RELEASE, DECLINE, and the patrol scrub of one line, whose read activates its row. -/
def Claim.WindowsAndScrub : Prop :=
  (∀ (s : State) (st : Nat),
    let c := s.ctl st
    ∃ t, exec (.refreshWindowEnd st) s = .next t ∧
      OnlyCtlAt s t st { c with trackers := (t.ctl st).trackers, parity := !c.parity, fallback := 0 }
        ((s.slicesOf st).map fun sl => .release sl st) ∧
      ∀ k, smGet {} (t.ctl st).trackers k =
        { ({} : Tracker) with open_ := (smGet {} c.trackers k).open_, entries := (smGet {} c.trackers k).entries.map fun e => (e.1, 0) }) ∧
  (∀ (s : State) (sl st : Nat),
    let x := s.slice sl
    ∃ t, exec (.release sl st) s = .next t ∧
      OnlySliceAt s t sl { x with lines := (t.slice sl).lines, maps := (t.slice sl).maps } [] ∧
      (∀ l, sliceLine t sl l = if stackOf l = st then { sliceLine s sl l with captured := false } else sliceLine s sl l) ∧
      ∀ n, smGet {} (t.slice sl).maps n = if n = st then { smGet {} x.maps n with parity := !(smGet {} x.maps n).parity }
        else smGet {} x.maps n) ∧
  (∀ (s : State) (st line : Nat) (parity : Bool),
    let c := s.ctl st
    let row := (coords c.retired line).2.2.2
    let bank := (coords c.retired line).2.2.1
    let key := ((coords c.retired line).1 * 2 + (coords c.retired line).2.1) * 64 + bank
    (parity ≠ c.parity → NoEffect s (.decline st line parity)) ∧
    (parity = c.parity → ∃ u,
      OnlyCtlAt s u st { c with trackers := (u.ctl st).trackers, rfms := c.rfms + 1,
                                fallback := BitVec.ofNat 8 (upTo 0xFF c.fallback.toNat) } [] ∧
      (∀ k, smGet {} (u.ctl st).trackers k =
        if k = key then { smGet {} c.trackers k with paced := true, acts := 0 } else smGet {} c.trackers k) ∧
      exec (.decline st line parity) s = .next (ctlRecord st 0x02 0 (bank + row * 2 ^ 32) u))) ∧
  ∀ (s : State) (st line : Nat),
    let reserve := 2 ^ 33 ≤ line
    -- the line read, and its place: a reserve line in use holds a mapped line
    let held := reserveHolds (s.ctl st).retired st line
    let l := if reserve then held.getD line else line
    let place := if reserve ∧ held = none then reserveCoords line else coords (s.ctl st).retired l
    let u := (activateAt st l place (lendTouch st place.1 s)).1
    let c := u.ctl st
    let e := smGet [] s.flips l
    let ev := Instr.patrolScrub st line
    (chanServed s st place.1 = false → exec ev s = .next ((lendTouch st place.1 s).defer ev)) ∧
    (chanServed s st place.1 = true →
      (e = [] → exec ev s = .next u) ∧
      (∀ e', e ≠ [] → decodePattern e = some e' → e' ≠ e →
        let dirty := s.slices.any fun sl => (smGet {} sl.2.lines l).dirty
        let mapped := ¬ (reserve ∧ held = none)
        let good := applyPattern e' (memLine s l) (memFullOf s l)
        ∃ t, exec ev s = .next t ∧ t.ctl st = { c with ce := BitVec.ofNat 16 (upTo 0xFFFF c.ce.toNat) } ∧
          memLine t l = (if dirty ∨ ¬ mapped then memLine s l else good.1) ∧
          memFullOf t l = (if dirty ∨ ¬ mapped then memFullOf s l else good.2) ∧
          smGet [] t.flips l = (if dirty then e else []) ∧
          (∀ a, a / 64 ≠ l → smGet 0 t.mem a = smGet 0 s.mem a) ∧ (∀ n, n ≠ st → t.ctl n = u.ctl n) ∧
          (∀ k, k ≠ l → memFullOf t k = memFullOf s k ∧ smGet [] t.flips k = smGet [] s.flips k) ∧
          { t with ctls := u.ctls, mem := u.mem, memFull := u.memFull, flips := u.flips } = u) ∧
      (e ≠ [] → decodePattern e = none → ∃ v,
        OnlyCtlAt u v st
          (let d := { c with ue := BitVec.ofNat 16 (upTo 0xFFFF c.ue.toNat) }
            if c.ueValid then { d with ueMore := true } else { d with ueValid := true, ueLine := l, ueSource := 2 }) [] ∧
        exec ev s = .next (ctlRecord st 0x01 (64 * l) 2 v)))

/-- R25 to R28, R30: the states of a lending pair, one by one. A pair that is NORMAL again may let a map change of its stack go on; the
third failed training in a row disables it. -/
def Claim.LaneLending : Prop :=
  ∀ (s : State) (st j : Nat),
    let c := s.ctl st
    let p := pairOf s st j
    let usable := fun ch => c.retired ≠ some ch ∧ bitOf c.fenced ch = false
    let waiting := fun ch => (c.queue.countP fun r => (coords c.retired r.line).1 = ch)
    let wake := c.queue.map fun _ => Instr.mcRequest st
    -- a retirement or a fence that waits for every pair to be NORMAL
    let goesOn := fun (t : State) =>
      if c.state = 1 ∧ ∀ q ∈ (t.ctl st).pairs, q.2.st = .normal then
        (if c.fence then (s.slicesOf st).map fun sl => Instr.sliceFlush sl st true (some c.chan) else []) ++ [Instr.mapDrainStart st]
      else []
    let pairs := fun (t : State) (p : Pair) => ∀ k, pairOf t st k = if k = j then p else pairOf s st k
    let becomes := fun (e : Instr) (p : Pair) (more : State → List Instr) =>
      ∃ t, exec e s = .next t ∧ OnlyCtlAt s t st { c with pairs := (t.ctl st).pairs } (more t) ∧ pairs t p
    let disabled := fun (u : State) (p : Pair) =>
      OnlyCtlAt s u st { c with pairs := (u.ctl st).pairs, pairEn := putField c.pairEn j 1 0 } [] ∧ pairs u p
    (bitOf c.pairEn j = true → usable (2 * j) → usable (2 * j + 1) → c.retire = false → p.st = .normal →
      (16 ≤ waiting (2 * j) → waiting (2 * j + 1) = 0 →
        PairBecomes s (.lendStart st j) st j { p with st := .request, odd := false, lenderWaits := false } []) ∧
      (16 ≤ waiting (2 * j + 1) → waiting (2 * j) = 0 →
        PairBecomes s (.lendStart st j) st j { p with st := .request, odd := true, lenderWaits := false } [])) ∧
    (bitOf c.pairEn j = false ∨ ¬ usable (2 * j) ∨ ¬ usable (2 * j + 1) ∨ c.retire = true ∨ p.st ≠ .normal →
      NoEffect s (.lendStart st j)) ∧
    (p.st = .request → PairBecomes s (.lendAck st j) st j { p with st := .drain } []) ∧
    (p.st = .request ∨ p.st = .drain → becomes (.lendAbort st j) { p with st := .normal } fun t => wake ++ goesOn t) ∧
    (p.st = .drain → PairBecomes s (.lendDrainDone st j) st j { p with st := .quiesce } []) ∧
    (p.st = .quiesce → PairBecomes s (.lendQuiesceDone st j) st j { p with st := .retrain } []) ∧
    (p.st = .retrain →
      PairBecomes s (.lendRetrainDone st j true) st j { p with st := .lent, fails := 0, lenderWaits := false }
        (wake ++ if p.lenderWaits ∨ c.state = 1 then [.lendReclaimStart st j] else []) ∧
      (p.fails < 2 → PairBecomes s (.lendRetrainDone st j false) st j { p with st := .reclaim, fails := p.fails + 1 } []) ∧
      (2 ≤ p.fails → ∃ u, disabled u { p with st := .reclaim, fails := 0 } ∧
        exec (.lendRetrainDone st j false) s = .next (ctlRecord st 0x03 0 j u))) ∧
    (p.st = .lent → PairBecomes s (.lendReclaimStart st j) st j { p with st := .reclaim } []) ∧
    (p.st = .reclaim →
      becomes (.lendReclaimDone st j true) { p with st := .normal, lenderWaits := false } (fun t => wake ++ goesOn t) ∧
      (p.fails < 2 → becomes (.lendReclaimDone st j false)
        { p with st := .normal, lenderWaits := false, fails := p.fails + 1 } fun t => wake ++ goesOn t) ∧
      (2 ≤ p.fails → ∃ u, disabled u { p with st := .normal, lenderWaits := false, fails := 0 } ∧
        exec (.lendReclaimDone st j false) s = .next ((ctlRecord st 0x03 0 j u).pushAll (wake ++ goesOn u))))

/-- R27, R29 to R34, R46: a retirement or a fence, from its start to the slices' new map. -/
def Claim.MapChanges : Prop :=
  ∀ (s : State) (st : Nat),
    let c := s.ctl st
    let n := c.target.toNat
    let reclaims := (c.pairs.filter fun p => p.2.st = .lent).map fun p => Instr.lendReclaimStart st p.1
    let usable := c.retired ≠ some n ∧ bitOf c.fenced n = false ∧ c.state = 0
    let normal := ∀ p ∈ c.pairs, p.2.st = .normal
    let flushes := fun (n : Nat) => (s.slicesOf st).map fun sl => Instr.sliceFlush sl st true (some n)
    (usable → c.resvUsed = false → CtlBecomes s (.mcmapRetire st) st
      { c with retire := true, state := 1, copyNext := 0, chan := n } reclaims) ∧
    (¬ usable ∨ c.resvUsed = true → CtlBecomes s (.mcmapRetire st) st { c with refused := true } []) ∧
    (usable → c.retire = false → CtlBecomes s (.mcmapFence st) st { c with fence := true, state := 1, chan := n }
      (reclaims ++ if normal then flushes n ++ [.mapDrainStart st] else [])) ∧
    (¬ usable → CtlBecomes s (.mcmapFence st) st { c with refused := true } []) ∧
    (c.retire = true → c.state = 1 → normal → c.copyNext < 8388608 →
      (∀ l < 4, smGet [] s.flips (granuleLine st c.chan c.copyNext l) = []) →
      let line := granuleLine st c.chan c.copyNext 0
      let u := (activateAt st line (coords (some c.chan) line) (activateAt st line (coords none line) s).1).1
      ∃ t, exec (.copyGranule st) s = .next t ∧ t.ctl st = { u.ctl st with copyNext := c.copyNext + 1 } ∧
        (∀ k, k ≠ st → t.ctl k = u.ctl k) ∧
        (∀ l < 4, smGet [] t.flips (granuleReserve st c.chan c.copyNext l) = []) ∧
        (∀ k, (∀ l < 4, k ≠ granuleReserve st c.chan c.copyNext l) → smGet [] t.flips k = smGet [] s.flips k) ∧
        t.due = u.due ++ (if c.copyNext + 1 = 8388608 then [.mapDrainStart st] else []) ∧
        { t with ctls := u.ctls, flips := u.flips, due := u.due } = u) ∧
    (c.state = 1 → normal →
      let done := if c.retire then c.copyNext = 8388608 else channelHeld s st c.chan = false
      (done → CtlBecomes s (.mapDrainStart st) st
        { c with state := 2, queue := c.queue.map fun r => { r with accepted := true } } [.mapActivate st]) ∧
      (¬ done → c.fence = true →
        exec (.mapDrainStart st) s = .next { s with later := s.later ++ flushes c.chan ++ [.mapDrainStart st] })) ∧
    (c.state = 2 → (∃ r ∈ c.queue, r.accepted = true) → exec (.mapActivate st) s = .next (s.defer (.mapActivate st))) ∧
    (c.state = 2 → (∀ r ∈ c.queue, r.accepted = false) →
      (c.retire = true → ∀ f ∈ s.flips, stackOf f.1 ≠ st ∨ channel0 f.1 ≠ c.chan) → ∃ u,
      OnlyCtlAt s u st
        (let d := { c with gen := c.gen + 1, state := 3, retire := false, fence := false }
          if c.retire then { d with retired := some c.chan, resvUsed := true } else { d with fenced := c.fenced ||| (1 <<< c.chan) })
        [] ∧
      exec (.mapActivate st) s =
        .next ((ctlRecord st 0x04 0 ((c.gen + 1).toNat + c.chan * 2 ^ 32) u).pushAll ((s.slicesOf st).map fun sl => .mapReceive sl st))) ∧
    ∀ sl : Nat,
      let x := s.slice sl
      let now := { smGet {} x.maps st with gen := c.gen, retired := c.retired, fenced := c.fenced }
      let last := c.state = 3 ∧ ∀ k ∈ s.slicesOf st, k ≠ sl → (smGet {} (s.slice k).maps st).gen = c.gen
      ((∀ b ∈ x.bounced, stackOf b.line ≠ st) → ∃ t, exec (.mapReceive sl st) s = .next t ∧
        t.slice sl = { x with maps := (t.slice sl).maps } ∧ (∀ k, k ≠ sl → t.slice k = s.slice k) ∧
        (∀ k, smGet {} (t.slice sl).maps k = if k = st then now else smGet {} x.maps k) ∧
        t.ctl st = (if last then { c with state := 0 } else c) ∧ (∀ k, k ≠ st → t.ctl k = s.ctl k) ∧
        { t with slices := s.slices, ctls := s.ctls } = s) ∧
      ∀ r : McReq, stackOf r.line = st → r.slice = sl →
        (x.bounced = [r] → c.state ≠ 3 → ∃ t, exec (.mapReceive sl st) s = .next t ∧
          t.ctl st = { c with queue := c.queue ++ [{ r with stamp := c.gen }] } ∧ t.due = s.due ++ [.mcRequest st] ∧
          t.slice sl = { x with maps := (t.slice sl).maps, bounced := [] } ∧
          ∀ k, smGet {} (t.slice sl).maps k = if k = st then now else smGet {} x.maps k) ∧
        ∀ gen : BitVec 4,
          (r.bounces = 3 → exec (.remap sl st gen r) s = .next (missError sl r.line 5 s)) ∧
          (r.bounces ≠ 3 → (smGet {} x.maps st).gen = gen → (∀ b ∈ x.bounced, stackOf b.line ≠ st) →
            CtlBecomes s (.remap sl st gen r) st
              { c with queue := c.queue ++ [{ r with bounces := r.bounces + 1, stamp := gen }] } [.mcRequest st]) ∧
          ((r.bounces ≠ 3 → (smGet {} x.maps st).gen = gen → (∃ b ∈ x.bounced, stackOf b.line = st) →
            SliceBecomes s (.remap sl st gen r) sl { x with bounced := x.bounced ++ [{ r with bounces := r.bounces + 1 }] } [])) ∧
          (r.bounces ≠ 3 → (smGet {} x.maps st).gen ≠ gen →
            SliceBecomes s (.remap sl st gen r) sl { x with bounced := x.bounced ++ [{ r with bounces := r.bounces + 1 }] } [])

/-! ### Events of the mesh -/

/-- R57 to R60, R63, R78: in a mesh cycle an output sends at most one flit: an acknowledgement that is owed, a flit to be replayed, or
the flit that stands ready in the class of R57's rule, with the link's sequence number and CRC, kept for replay. -/
def Claim.FlitsSent : Prop :=
  ∀ (s : State) (r port : Nat),
    let x := s.router r
    let l := linkOf s r port
    let now := mcAt s r
    let e := Instr.flitTransmit r port
    let owed := port ≠ 4 ∧ (l.owed ≠ none ∨ ∃ t, l.ackBy = some t ∧ t ≤ now)
    let open_ := (port = 4 ∨ l.st = .up) ∧ smGet 0 x.sent port ≠ now + 1 ∧ ¬ (l.half = true ∧ now % 2 = 1)
    let full := port ≠ 4 ∧ (if 5 ≤ port then 512 else 64) ≤ l.replay.length
    let ready := fun (c : Nat) (k : Nat) => ¬ full ∧ ∃ vn, readyOf s r port c = some (vn, k)
    let some_ := fun (c : Nat) => ∃ k, ready c k
    let slot := bitOf (smGet 0 x.tslot port) (now % 64) = true
    let timed := some_ 2 ∧ slot
    let urgent := some_ 1 ∨ (some_ 2 ∧ smGet 0 x.tslot port = 0)
    let u := smGet 0 x.ucount port
    let out := fun (g : Flit) => (neighbour r port).toList.map fun n => Instr.linkFlitReceive n (oppPort port) g
    let counts := fun (t : State) (v : Nat) => ∀ p, smGet 0 (t.router r).ucount p = if p = port then v else smGet 0 x.ucount p
    let marked := fun (t : State) => ∀ p, smGet 0 (t.router r).sent p = if p = port then now + 1 else smGet 0 x.sent p
    (¬ open_ → NoEffect s e) ∧
    (open_ → owed → l.resend ≠ [] ∨ ¬ timed → ∃ t, exec e s = .next t ∧ marked t ∧
      OnlyRouterAt s t r { x with sent := (t.router r).sent } [.ackSend r port]) ∧
    (∀ f fs, open_ → port ≠ 4 → ¬ owed → l.resend = f :: fs →
      let g := { f with ack := if 5 ≤ port then some (l.expect - 1) else none }
      ∃ t, exec e s = .next t ∧ marked t ∧
        OnlyRouterAt s t r { x with sent := (t.router r).sent, links := (t.router r).links, replayed := true } (out g) ∧
        ∀ p, linkOf t r p = if p = port then
          { l with resend := fs, replays := BitVec.ofNat 16 (Nat.min 0xFFFF (l.replays.toNat + 1)) } else linkOf s r p) ∧
    (open_ → l.resend = [] → ¬ owed → ¬ timed → ¬ urgent → ¬ some_ 0 → ∃ t, exec e s = .next t ∧ counts t 0 ∧
      OnlyRouterAt s t r { x with ucount := (t.router r).ucount } []) ∧
    -- the flit that R57 chooses: class, input, next ucount
    ∀ (c k v : Nat) (f : Flit) (a : Nat) (fs : List (Flit × Nat)),
      open_ → l.resend = [] → ¬ owed ∨ timed → ready c k → (inBuf s r k).flits = (f, a) :: fs →
      (c = 2 ∧ slot ∧ v = u) ∨
        (¬ timed ∧ c = 0 ∧ (¬ urgent ∨ u = 32) ∧ v = 0) ∨
        (¬ timed ∧ (¬ some_ 0 ∨ u ≠ 32) ∧ (c = 1 ∨ (c = 2 ∧ ¬ some_ 1 ∧ smGet 0 x.tslot port = 0)) ∧ v = Nat.min (u + 1) 32) →
      let h := { f with seq := l.seq.setWidth 8, ext := l.seq, ack := if 5 ≤ port then some (l.expect - 1) else none }
      let g := { h with crc := flitCrc h }
      (port ≠ 4 → ∃ t, exec e s = .next t ∧ FrontLeft s t r port k f ∧ counts t v ∧ t.due = s.due ++ out g ∧
        (∀ p, linkOf t r p = if p = port then
          { l with
            seq := l.seq + 1, replay := l.replay ++ [g], ackBy := if 5 ≤ port then none else l.ackBy
            tails := if f.last = true ∧ f.abort = false then l.tails ++ [(l.seq, (inBuf s r k).pkt)] else l.tails }
          else linkOf s r p) ∧ { t with routers := s.routers, due := s.due } = s) ∧
      (port = 4 → ∃ t, FrontLeft s t r 4 k f ∧ counts t v ∧ (t.router r).links = x.links ∧ { t with routers := s.routers } = s ∧
        exec e s = .next (sinkFlit r f t))

/-- R49, R57, R60, R62, R163: which inputs have a flit ready for an output: two mesh cycles after its arrival, of the packet that is
open there or of a new one for it, while the receiver does not hold the class; between two inputs the one after the last winner
goes first, between the networks they take turns, and timed flits go as they arrived. -/
def Claim.FlitsReady : Prop :=
  ∀ (s : State) (r port c : Nat), c < 3 →
    let x := s.router r
    let now := mcAt s r
    let pair := fun (vn : Bool) => 3 * vn.toNat + c
    let held := fun (vn : Bool) => c < 2 ∧ port ≠ 4 ∧ stopped s r port vn c = true
    let stands := fun (b : InBuf) (a : Nat) => b.out = some port ∧ ∃ f fs, b.flits = (f, a) :: fs ∧ a + 2 ≤ now ∧
      (port = 4 → endpointTakes s r b.pkt f = true)
    let place := fun (k : Nat) => if k / 6 < 4 then k / 6 + 1 else if 5 ≤ k / 6 ∧ k / 6 < 8 then k / 6 else 0
    let after := fun (vn : Bool) (k : Nat) => (place k + 8 - (smGet 0 x.lastWin (8 * port + pair vn) + 1)) % 8
    (x.ins = [] → readyOf s r port c = none) ∧
    (∀ k b a vn, x.ins = [(k, b)] → k % 6 = pair vn → stands b a →
      let own := smGet 0 x.owner (6 * port + pair vn)
      (own = k / 6 + 1 ∨ (own = 0 ∧ b.started = false) → ¬ held vn → readyOf s r port c = some (vn, k)) ∧
      (held vn ∨ (own ≠ 0 ∧ own ≠ k / 6 + 1) ∨ (own = 0 ∧ b.started = true) → readyOf s r port c = none)) ∧
    (∀ k b a f fs, x.ins = [(k, b)] → b.flits = (f, a) :: fs → now < a + 2 → readyOf s r port c = none) ∧
    ∀ i j b d a a' vn vn', x.ins = [(i, b), (j, d)] → i ≠ j → i % 6 = pair vn → j % 6 = pair vn' → stands b a → stands d a' →
      b.started = false → d.started = false →
      smGet 0 x.owner (6 * port + pair vn) = 0 → smGet 0 x.owner (6 * port + pair vn') = 0 → ¬ held vn → ¬ held vn' →
      (vn = vn' → c < 2 →
        (after vn i < after vn j ∨ (after vn i = after vn j ∧ a ≤ a') → readyOf s r port c = some (vn, i)) ∧
        (after vn j < after vn i ∨ (after vn i = after vn j ∧ a' < a) → readyOf s r port c = some (vn, j))) ∧
      (vn ≠ vn' → c < 2 → readyOf s r port c =
        if smGet true x.lastVn (4 * port + c) then some (false, if vn then j else i) else some (true, if vn then i else j)) ∧
      (c = 2 → (a < a' → readyOf s r port c = some (vn, i)) ∧ (a' < a → readyOf s r port c = some (vn', j)))

/-- R51, R52, R58, R61, R63, R78: a flit is checked, owed an acknowledgement and buffered; acknowledgements free and resend. -/
def Claim.FlitsReceived : Prop :=
  (∀ (s : State) (r port : Nat) (f : Flit),
    let l := linkOf s r port
    let e := Instr.linkFlitReceive r port f
    let far := 5 ≤ port
    let acks := fun (nak : Bool) => match f.ack with
      | some a => if far then [Instr.linkAck r port a nak l.stop] else []
      | none => []
    let becomes := fun (l' : Link) (more : List Instr) => ∃ t, exec e s = .next t ∧ LinkIs s t r port l' more
    (l.st ≠ .up → becomes l []) ∧
    (l.st = .up → f.crc ≠ flitCrc f → (f.ctl = true → becomes l []) ∧ (f.ctl = false → becomes { l with owed := some true } [])) ∧
    (l.st = .up → f.crc = flitCrc f → f.ctl = true →
      becomes l (if far ∧ f.ack ≠ none then acks (bitOf f.data 8) else
        [.linkAck r port (BitVec.ofNat 16 (fieldOf f.data 0 8)) (bitOf f.data 8) l.stop])) ∧
    (l.st = .up → f.crc = flitCrc f → f.ctl = false →
      let follows := f.seq = l.expect.setWidth 8 ∧ (far → f.ext = l.expect)
      (¬ follows → becomes { l with owed := some true } (acks false)) ∧
      (follows → ∃ t, LinkIs s t r port { l with expect := l.expect + 1, ackBy := some (l.ackBy.getD (mcAt s r + 31)) } (acks false) ∧
        exec e s = .next (acceptFlit r port f t)))) ∧
  (∀ (s : State) (r port : Nat) (f : Flit),
    let k := inKey port (3 * f.vn.toNat + f.cls.toNat)
    let b := inBuf s r k
    let at_ := mcAt s r + 1 + if crossing r port then 4 else 0
    let p := flitHeader f
    let n := b.part.map fun q => q.2 + 1
    let count := (b.part.map fun q => q.1.count.toNat).getD 0
    let stream := b.part.any fun q => q.1.opcode = 0x09
    let regular := f.cls ≠ 3 ∧ (b.drop = false ∨ f.first = true) ∧ f.first = b.part.isNone
    let timedFull := f.cls = 2 ∧ f.abort = false ∧ 8 ≤ b.flits.length
    let counted := f.abort = true ∨
      if f.first then p.opcode = 0x09 ∨ (f.last = true ↔ p.count = 0)
      else stream = true ∨ (if f.last then n = some count else ∃ m, n = some m ∧ m < count)
    -- what a broken packet leaves of its buffer
    let whole := b.flits = [] ∨ ∃ g, b.flits.getLast? = some g ∧ g.1.last = true
    let cut := fun (u : State) =>
      (b.part = none → whole → BufferIs s u r k { b with drop := !f.last }) ∧
      (b.part ≠ none → b.flits = [] →
        BufferIs s u r k { b with flits := [({ abort := true, last := true, vn := f.vn, cls := f.cls }, at_)], part := none, drop := !f.last }) ∧
      (b.part ≠ none → (∀ g ∈ b.flits, g.1.last = false) → (∃ g ∈ b.flits, g.1.first = true) →
        BufferIs s u r k { b with flits := [], part := none, drop := !f.last, out := none, pkt := {}, started := false })
    (f.cls = 3 → acceptFlit r port f s = setProto r s) ∧
    (f.cls ≠ 3 → b.drop = true → f.first = false → BufferIs s (acceptFlit r port f s) r k { b with drop := !f.last }) ∧
    (regular → ¬ timedFull → counted → BufferIs s (acceptFlit r port f s) r k
      { b with
        flits := b.flits ++ [(f, at_)], drop := false
        part := if f.last then none else if f.first then some (p, 0) else b.part.map fun q => (q.1, q.2 + 1) }) ∧
    (f.cls ≠ 3 → (b.drop = false ∨ f.first = true) → (f.first = b.part.isSome ∨ (¬ timedFull ∧ ¬ counted)) →
      ∃ u, cut u ∧ acceptFlit r port f s = setProto r u) ∧
    (regular → timedFull →
      let q := if f.first then p else (b.part.map (·.1)).getD {}
      ∃ u v out, cut u ∧ (v.router r).tmdrop = BitVec.ofNat 8 (Nat.min 0xFF ((u.router r).tmdrop.toNat + 1)) ∧
        OnlyRouterAt u v r { u.router r with tmdrop := (v.router r).tmdrop } [] ∧
        (∀ o detoured, chooseOutput s r q = .go o detoured → out = o) ∧
        acceptFlit r port f s = lossNotice r q 3 (logRecord (dieOfRouter r) 0x11 0 (routerPos r) 0 out v))) ∧
  ∀ (s : State) (r port : Nat),
    let l := linkOf s r port
    let far := 5 ≤ port
    (l.st = .up → l.owed ≠ none ∨ l.ackBy ≠ none →
      let g : Flit := { ctl := true, data := BitVec.ofNat 512 ((l.expect - 1).toNat % 256 + if l.owed = some true then 256 else 0)
                        ack := if far then some (l.expect - 1) else none }
      ∃ t, exec (.ackSend r port) s = .next t ∧ LinkIs s t r port { l with owed := none, ackBy := none }
        ((neighbour r port).toList.map fun n => .linkFlitReceive n (oppPort port) { g with crc := flitCrc g }) false) ∧
    (l.st ≠ .up ∨ (l.owed = none ∧ l.ackBy = none) → NoEffect s (.ackSend r port)) ∧
    -- an acknowledgement of the first `n` flits, or of none of them
    ∀ (seq : BitVec 16) (nak : Bool) (stop : BitVec 4) (first : Flit) (n : Nat), l.replay.headD {} = first →
      let m := (seq - first.ext + 1).toNat % if far then 65536 else 256
      n = (if m ≤ l.replay.length then m else 0) →
      let left := fun (q : BitVec 16) => n ≤ (q - first.ext).toNat
      let naks := if n ≠ 0 then 0 else if nak then l.naks + 1 else l.naks
      ∃ t, exec (.linkAck r port seq nak stop) s = .next t ∧ LinkIs s t r port
        { l with
          replay := l.replay.drop n, naks := naks, stop := if far then stop else l.stop
          tails := l.tails.filter fun q => decide (left q.1)
          resend := if nak then l.replay.drop n else l.resend.filter fun f => decide (left f.ext) }
        (if naks = 16 then [.linkTrainingStart r port] else [])

/-- R64, R65, R78, R81: training, its end, loss and restart of a link, at both its ends; what a change logs is as R126 says. -/
def Claim.LinkStates : Prop :=
  ∀ (s : State) (r port : Nat),
    let l := linkOf s r port
    let again := fun (l : Link) => BitVec.ofNat 8 (Nat.min 0xFF (l.retrains.toNat + 1))
    let goes := fun (e : Instr) (f : Link → Link) (more : List Instr) (woken logged : Bool) =>
      ∃ t, exec e s = .next t ∧ EndsBecome s t r port f more woken logged
    (l.st = .down ∨ l.st = .up ∨ (l.st = .lost ∧ l.restart = true ∧ 5 ≤ port) →
      goes (.linkTrainingStart r port) (fun l => { l with st := .training, naks := 0, retrains := again l }) [] false true) ∧
    (l.st = .lost → (l.restart = false ∨ port < 5) → NoEffect s (.linkTrainingStart r port)) ∧
    (l.st = .training → NoEffect s (.linkTrainingStart r port) ∧
      (∀ half, goes (.linkTrainingEnd r port true half) (fun l =>
        { l with st := .up, fails := 0, restart := false, half := half && decide (5 ≤ port), resend := l.replay }) [] true true) ∧
      ∀ half,
        (l.fails ≠ 2 → goes (.linkTrainingEnd r port false half) (fun l => { l with fails := l.fails + 1, retrains := again l }) []
          false false) ∧
        (l.fails = 2 → goes (.linkTrainingEnd r port false half) (fun l => { l with fails := 0, restart := false }) [.linkLost r port]
          false false)) ∧
    (∀ good half, l.st ≠ .training → NoEffect s (.linkTrainingEnd r port good half)) ∧
    (l.st = .lost → (∀ n, neighbour r port = some n → (linkOf s n (oppPort port)).st = .lost) → NoEffect s (.linkLost r port)) ∧
    -- one end of a lost link, its other end being lost or outside the device
    (l.st ≠ .lost → (∀ n, neighbour r port = some n → (linkOf s n (oppPort port)).st = .lost) →
      let x := s.router r
      let gone := fun (u : State) =>
        (∀ k, linkOf u r k = if k = port then
          { l with st := .lost, replay := [], resend := [], tails := [], naks := 0, owed := none, ackBy := none } else linkOf s r k) ∧
        (u.router r).lost = (if port < 4 then x.lost ||| (1 <<< port) else x.lost) ∧
        { u.router r with links := x.links, lost := x.lost, ins := x.ins, owner := x.owner } = x ∧
        (∀ n, n ≠ r → u.router n = s.router n) ∧ (∀ n, n ∈ u.busy ↔ n ∈ s.busy ∨ n = r) ∧
        u.dies = (logLink r port { u with dies := s.dies }).dies ∧ { u with routers := s.routers, busy := s.busy, dies := s.dies } = s
      let quiet := fun (k : Nat) (b : InBuf) => k / 6 ≠ port ∨ (b.part = none ∧ b.drop = false)
      let same := fun (u : State) => (u.router r).owner = x.owner
      (x.ins = [] → (l.tails = [] → ∃ u, gone u ∧ same u ∧ (∀ j, inBuf u r j = inBuf s r j) ∧ exec (.linkLost r port) s = .next u) ∧
        ∀ q p, l.tails = [(q, p)] → ∃ u, gone u ∧ same u ∧ (∀ j, inBuf u r j = inBuf s r j) ∧
          exec (.linkLost r port) s = .next (lossNotice r p 4 u)) ∧
      ∀ k b, x.ins = [(k, b)] → l.tails = [] →
        (quiet k b → b.out = some port → b.started = true → ∃ u, gone u ∧
          (∀ j, inBuf u r j = if j = k then b.dropFront else inBuf s r j) ∧
          (∀ j, smGet 0 (u.router r).owner j = if j = 6 * port + k % 6 then 0 else smGet 0 x.owner j) ∧
          exec (.linkLost r port) s = .next (lossNotice r b.pkt 3 u)) ∧
        (quiet k b → b.out = some port → b.started = false → ∃ u, gone u ∧ same u ∧
          (∀ j, inBuf u r j = if j = k then { b with out := none } else inBuf s r j) ∧ exec (.linkLost r port) s = .next u) ∧
        (k / 6 = port → b.out ≠ some port → b.part ≠ none → b.drop = false → ∃ u, gone u ∧ same u ∧
          (∀ j, inBuf u r j = if j = k then
            { b with
              flits := b.flits ++ [({ abort := true, last := true, vn := decide (3 ≤ k % 6), cls := BitVec.ofNat 2 (k % 3) }, mcAt s r)]
              part := none, drop := false } else inBuf s r j) ∧ exec (.linkLost r port) s = .next u)) ∧
    ∀ d t, r = trizenRouter d t → port = 5 + t →
      (l.st = .lost → ∃ u, LinkIs s u r port { l with restart := true } [.linkTrainingStart r port] false ∧
        exec (.lnkstatRestart d t) s = .next u) ∧
      (l.st ≠ .lost → ∃ u, LinkIs s u r port { l with restart := false } [] false ∧ exec (.lnkstatRestart d t) s = .next u)

/-- R49, R53, R67, R76, R77, R79, R80: a router gives the packet at the front of an input its output: its own endpoints for what is
addressed to it, else by dimension order, the detour of a lost link or the Trizen port of its device; it waits for a link that
is down, answers with an error what it refuses, and lets a read join an older one. -/
def Claim.Routing : Prop :=
  ∀ (s : State) (r inp k : Nat) (b : InBuf) (f : Flit) (a : Nat) (fs : List (Flit × Nat)),
    let x := s.router r
    let d := dieOfRouter r
    let p := flitHeader f
    let e := Instr.packetRoute r inp
    let known := (1 ≤ p.opcode.toNat ∧ p.opcode.toNat ≤ 11) ∨ (0x40 ≤ p.opcode.toNat ∧ p.opcode.toNat ≤ 0x45)
    let own := p.dstDev = s.sr.devnum
    let dst := routerAt p.dstCol.toNat p.dstRow.toNat
    let admitted := inp < 5 ∨ 8 ≤ inp ∨ ¬ own ∨ trizenAdmits s d (inp - 5) (linkOf s r inp) p = true
    -- dimension order: along the row first, but along the column for another die that DIEYX selects
    let toward := fun (q : Nat) =>
      let xo := if groupCol r < groupCol q then 1 else 3
      let yo := if groupRow r < groupRow q then 2 else 0
      if groupCol r = groupCol q ∧ groupRow r = groupRow q then 4
      else if dieOfRouter q ≠ d ∧ bitOf x.routecfg (16 + dieOfRouter q) = true then (if groupRow r ≠ groupRow q then yo else xo)
      else (if groupCol r ≠ groupCol q then xo else yo)
    let foreign := fun (o : Nat) => ∃ n, neighbour r o = some n ∧ s.partOf (dieOfRouter n) ≠ s.partOf d
    -- the packet has its output, with the header it goes on with; or has left its input
    let takes := fun (o : Nat) (q : Packet) => ∃ t, exec e s = .next t ∧
      BufferIs s t r k { b with out := some o, pkt := q, flits := ({ f with data := packHeader q }, a) :: fs }
    let gone := fun (u : State) => BufferIs s u r k b.dropFront
    let error := fun (u : State) (code : BitVec 5) => if p.vn then u else inject r (replyTo p 0x42 0 code 0 none) u
    let source := p.srcCol.toNat + 32 * p.srcRow.toNat + 1024 * p.srcEp.toNat
    let flags := fun (u w : State) (y : Router) => OnlyRouterAt u w r y []
    let firewalled := ∃ u w, gone u ∧ flags u w { u.router r with firewall := true } ∧
      exec e s = .next (error (refusalRecord r 0 p w) 2)
    let lost := ∃ u w, gone u ∧ flags u w { u.router r with unroute := true } ∧ exec e s = .next (lossNotice r p 3 w)
    x.ins = [(k, b)] → k / 6 = inp → inp ≠ 271 → b.out = none → b.flits = (f, a) :: fs →
    (¬ known → ∃ u, gone u ∧ exec e s = .next (error (setProto r u) 6)) ∧
    (known → ¬ admitted → ∃ u w, gone u ∧ flags u w { u.router r with firewall := true } ∧
      exec e s = .next (error (logRecord d 0x10 (0xB0 + (inp - 5)) (routerPos r) p.pa.toNat (p.opcode.toNat + source * 2 ^ 32) w) 2)) ∧
    (known → admitted → own → dst = r → takes 4 p) ∧
    -- toward a router of this device: the destination's, or that of the Trizen port of another device
    (∀ q, known → admitted → (own ∧ dst ≠ r ∧ q = dst) ∨ (¬ own ∧ (smGet 0 (s.die d).devroute p.dstDev.toNat).toNat < 3 ∧
        q = trizenRouter d (smGet 0 (s.die d).devroute p.dstDev.toNat).toNat ∧ q ≠ r) →
      let o := toward q
      let alt := fieldOf x.routecfg (4 * o) 4
      o < 4 →
      (foreign o → firewalled) ∧
      (¬ foreign o →
        ((linkOf s r o).st = .up ∨ (linkOf s r o).st = .training → takes o p) ∧
        ((linkOf s r o).st = .down → NoEffect s e) ∧
        ((linkOf s r o).st = .lost →
          (alt = 0 ∨ 4 < alt → lost) ∧
          (1 ≤ alt → alt ≤ 4 →
            (foreign (alt - 1) → firewalled) ∧
            (¬ foreign (alt - 1) →
              (neighbour r (alt - 1) = none ∨ p.detour = 15 ∨ (linkOf s r (alt - 1)).st = .lost → lost) ∧
              (neighbour r (alt - 1) ≠ none → p.detour ≠ 15 →
                ((linkOf s r (alt - 1)).st = .down → NoEffect s e) ∧
                ((linkOf s r (alt - 1)).st = .up ∨ (linkOf s r (alt - 1)).st = .training → ∃ t w, exec e s = .next t ∧
                  OnlyRouterAt s w r { x with detours := BitVec.ofNat 8 (Nat.min 0xFF (x.detours.toNat + 1)) } [] ∧
                  BufferIs w t r k { b with
                    out := some (alt - 1), pkt := { p with detour := p.detour + 1 }
                    flits := ({ f with data := packHeader { p with detour := p.detour + 1 } }, a) :: fs }))))))) ∧
    -- another device
    (known → ¬ own →
      let n := (smGet 0 (s.die d).devroute p.dstDev.toNat).toNat
      (3 ≤ n → ∃ u, gone u ∧ exec e s = .next (error u 7)) ∧
      (n < 3 → trizenRouter d n = r →
        ((linkOf s r (5 + n)).st = .up ∨ (linkOf s r (5 + n)).st = .training → takes (5 + n) p) ∧
        ((linkOf s r (5 + n)).st = .down → NoEffect s e) ∧
        ((linkOf s r (5 + n)).st = .lost → lost)))

/-- R76, R52: a read that takes an output where an older one of the same bytes waits joins it, as a further record of the older packet. -/
def Claim.ReadsMerge : Prop :=
  ∀ (s : State) (r k j : Nat) (b d : InBuf) (f g : Flit) (a a' : Nat) (fs : List (Flit × Nat)),
    let x := s.router r
    let p := flitHeader f
    let o := b.pkt
    x.ins = [(j, b), (k, d)] → k % 6 < 3 → j % 6 = k % 6 → j < k → k / 6 < 5 → (s.die (dieOfRouter r)).mergeen = true →
    b.out = some 4 → b.started = false → b.flits = (g, a') :: fs →
    d.out = none → d.flits = [(f, a)] → f.last = true → f.vn = false → f.cls = o.cls → o.cls.toNat = k % 6 →
    p.opcode = 0x01 → p.dstDev = s.sr.devnum → routerAt p.dstCol.toNat p.dstRow.toNat = r → p.more = 0 →
    o = { p with tag := o.tag, srcCol := o.srcCol, srcRow := o.srcRow, srcEp := o.srcEp, more := o.more, inline := o.inline } →
    o.more ≠ 3 →
      let q := { o with
        more := o.more + 1
        inline := putField o.inline (40 * o.more.toNat) 40
          (p.srcCol.toNat + 32 * p.srcRow.toNat + 1024 * p.srcEp.toNat + p.tag.toNat * 2 ^ 24) }
      ∃ t u, exec (.packetRoute r (k / 6)) s = .next t ∧
        BufferIs s u r j { b with pkt := q, flits := ({ g with data := packHeader q, cls := q.cls }, a') :: fs } ∧
        BufferIs u t r k { d with flits := [], out := none, started := false, pkt := {} }

/-- R48, R51 to R53, R68, R74, R80, R105, R107, R217: the flits of a packet gather at its endpoint, which takes it whole; a stream's are
taken one by one; a reserved endpoint is a protocol error, and a request that an endpoint has no operation for is malformed. -/
def Claim.Deliveries : Prop :=
  (∀ (s : State) (r : Nat) (f : Flit),
    let pair := 3 * f.vn.toNat + f.cls.toNat
    let fs := smGet [] (s.router r).sink pair
    let p := flitHeader (fs.headD f)
    let sinks := fun (u : State) (v : List Flit) => OnlyRouterAt s u r { s.router r with sink := (u.router r).sink } [] ∧
      ∀ j, smGet [] (u.router r).sink j = if j = pair then v else smGet [] (s.router r).sink j
    let stream := p.opcode = 0x09 ∧ p.dstEp.toNat < 16
    let c := 16 * r + p.dstEp.toNat
    let i := fieldOf p.inline 32 2
    let sender := 4 * (16 * routerAt p.srcCol.toNat p.srcRow.toNat + p.srcEp.toNat) + fieldOf p.inline 34 2
    (¬ stream →
      (f.abort = true → sinks (sinkFlit r f s) []) ∧
      (f.abort = false → f.last = false → sinks (sinkFlit r f s) (fs ++ [f])) ∧
      (f.abort = false → f.last = true →
        ∃ u, sinks u [] ∧ sinkFlit r f s = deliver r { p with payload := ((fs ++ [f]).drop 1).map (·.data) } u)) ∧
    (stream → ∃ ws fin suspend u,
      sinks u (if f.last then [] else (fs ++ [f]).take 1) ∧
      sinkFlit r f s = { u with due := s.due ++ [.streamDataArrive c i sender ws fin suspend] } ∧
      (f.abort = true → ws = [] ∧ fin = some 3 ∧ suspend = false) ∧
      (f.abort = false → f.first = true → ws = [BitVec.ofNat 32 (fieldOf p.inline 0 32)] ∧ fin = none ∧ suspend = false) ∧
      (f.abort = false → f.first = false → f.mark = true →
        let q := flitHeader f
        ws = [] ∧ suspend = bitOf q.param 2 ∧
          fin = if bitOf q.param 2 then none else some (if fieldOf q.param 0 2 = 3 then 2 else 1)) ∧
      (f.abort = false → f.first = false → f.mark = false →
        ws = (List.range f.valid.toNat).map (fun j => BitVec.ofNat 32 (fieldOf f.data (32 * j) 32)) ∧ fin = none ∧ suspend = false))) ∧
  ∀ (s : State) (r : Nat) (p : Packet),
    let d := dieOfRouter r
    let ep := p.dstEp.toNat
    let lets := fun (e : Instr) => deliver r p s = { s with due := s.due ++ [e] }
    let corner := r = cornerRouter d
    let listed := ep < 0x10 ∨ ep = 0x10 ∨ ep = 0x20 ∨ ep = 0x30 ∨ ep = 0x40 ∨ (0x50 ≤ ep ∧ ep < 0x55 ∧ r % 64 = 0) ∨
      (0x80 ≤ ep ∧ ep < 0x82 ∧ r ∈ ctlRouters (2 * d + ep % 2)) ∨ ((ep = 0x90 ∨ ep = 0xA0) ∧ corner) ∨
      (0xB0 ≤ ep ∧ ep < 0xB3 ∧ r = trizenRouter d (ep - 0xB0)) ∨ ((ep = 0xC0 ∨ ep = 0xC1) ∧ corner) ∨ (ep = 0xD0 ∧ corner ∧ d = 0)
    (¬ listed → deliver r p s = setProto r s) ∧
    (listed → p.vn = false →
      (ep = 0x10 →
        (p.opcode = 1 → lets (.sliceRd r p)) ∧ (p.opcode = 2 → lets (.sliceWr r p)) ∧ (p.opcode = 3 → lets (.sliceTel r p)) ∧
        (p.opcode = 4 → lets (.sliceFe r p)) ∧ (p.opcode = 7 → lets (.sliceQput r p)) ∧ (p.opcode = 8 → lets (.sliceQtake r p))) ∧
      (ep = 0x20 → 1 ≤ p.opcode.toNat → p.opcode.toNat ≤ 4 → lets (.remoteVaultAccess (r / 64) p)) ∧
      (∀ n, (ep < 16 ∧ n = 16 * r + ep) ∨ (ep = 0xC0 ∧ n = 16384 + d) →
        (p.opcode = 5 → ∃ m : Message, m.typ = p.param.setWidth 8 ∧ m.seq = (p.param >>> 8).setWidth 16 ∧ m.cls = p.cls ∧
            m.reply = bitOf p.param 31 ∧
            (∀ i v, m.words[i]? = some v → v = BitVec.ofNat 32 (fieldOf p.inline (32 * i) 32)) ∧
            deliver r p s = replyAck p 0 { s with due := s.due ++ [.messageArrive n m] })) ∧
      (ep < 16 → p.opcode = 6 → lets (.remoteSpawn (16 * r + ep) (BitVec.ofNat 32 (fieldOf p.inline 0 32))
        ((List.range 4).map fun i => BitVec.ofNat 32 (fieldOf p.inline (32 * (i + 1)) 32)) p)) ∧
      (ep = 0x80 ∨ ep = 0x81 → p.opcode = 0x0A →
        let st := 2 * d + ep % 2
        let q : McReq := { slice := routerAt p.srcCol.toNat p.srcRow.toNat, line := p.pa.toNat / 64, stamp := p.gen
                           write := bitOf p.param 0, data := p.payload.headD 0
                           full := BitVec.ofNat 16 (fieldOf p.inline 0 16), cls := p.cls }
        ∃ u, OnlyCtlAt s u st { s.ctl st with queue := (s.ctl st).queue ++ [q] } [.mcRequest st] ∧ deliver r p s = u) ∧
      (p.opcode = 0x0B →
        let st := fieldOf p.inline 0 3
        let action := fieldOf p.param 0 4
        (action = 1 → ep / 16 = 1 → lets (.release r st)) ∧
        (action = 2 → ep / 16 = 8 → lets (.decline (2 * d + ep % 16) (p.pa.toNat / 64) (bitOf p.inline 3))) ∧
        (action = 3 → ep / 16 = 1 → lets (.mapReceive r st)) ∧
        (action = 4 → ep / 16 = 1 → lets (.sliceFlush r st (bitOf p.inline 3)
          (if bitOf p.inline 4 then some (fieldOf p.inline 5 5) else none)))) ∧
      -- the management port takes its partition's bursars and the strongroom
      (ep = 0xC1 → p.opcode = 1 ∨ p.opcode = 2 →
        let pd := dieOfRouter (routerAt p.srcCol.toNat p.srcRow.toNat)
        let source := p.srcCol.toNat + 32 * p.srcRow.toNat + 1024 * p.srcEp.toNat
        let ok := p.srcDev = s.sr.devnum ∧ (p.srcEp = 0xD0 ∨ (p.srcEp = 0xC0 ∧ s.partOf pd = s.partOf d))
        (¬ ok → deliver r p s = inject r (replyTo p 0x42 0 2 0 none) (refusalRecord r 0xC1 p s)) ∧
        (ok → p.opcode = 2 → deliver r p s = replyAck p 0
          { s with due := s.due ++ [.registerWrite p.pa.toNat (BitVec.ofNat 32 (fieldOf p.inline 0 32)) source] }) ∧
        (ok → p.opcode = 1 → ∀ v u, mgmtRead p.pa.toNat s = .ok v u → deliver r p s = replyData p v.toNat u)) ∧
      -- the host port takes the outbound pages of its apertures
      (let x := p.pa.toNat % 0x40000000
       let ap := x / 0x800000
       let off := 0x80000 + x % 0x800000
       let n := 4 * 2 ^ (p.param.toNat % 8)
       (ep = 0x90 → p.opcode = 1 →
         (outboundOk s d ap off n = false → deliver r p s = inject r (replyTo p 0x42 0 2 0 none) s) ∧
         (outboundOk s d ap off n = true → n < 64 → deliver r p s = replyData p (rdBytes (s.port d).store (apKey ap off) n) s)) ∧
       ∀ l, ep = 0x90 → p.opcode = 2 → p.payload = [l] →
         (outboundOk s d ap off 64 = false → deliver r p s = inject r (replyTo p 0x42 0 2 0 none) s) ∧
         (outboundOk s d ap off 64 = true →
           deliver r p s = replyAck p 0 { s with due := s.due ++ [.outboundWrite d ap off (natBytes l.toNat 64)] })) ∧
      (ep = 0x30 ∨ ep = 0x40 ∨ (0x50 ≤ ep ∧ ep < 0x55) ∨ ep = 0xA0 ∨ (0xB0 ≤ ep ∧ ep < 0xB3) ∨ ep = 0xD0 → p.opcode ≠ 0x0B →
        deliver r p s = replyErr p 6 s))

/-- R54, R66, R68, R69, R72: what a port does with a reply, and with a request whose reply is late or lost, or says RETRY. -/
def Claim.RequestsOfPorts : Prop :=
  (∀ (s : State) (q : Request) (r ep : Nat) (code : BitVec 5), s.requests = [q] → q.origin = 256 * r + ep → ep < 16 →
    let n := 16 * r + ep
    let read := q.pkt.opcode = 0x01 ∨ (q.pkt.opcode = 0x0A ∧ bitOf q.pkt.param 0 = false)
    let again := (code = 3 ∨ read) ∧ q.losses < 3
    let now := (s.die (dieOfRouter r)).mc.toNat
    let tag := (s.core n).nextTag
    Lets s (.replyTimeout q.origin q.tag) [.lostHandling q.origin q.tag 4] ∧
    -- it is sent again, under a tag of its own
    (again → (∀ m d b c, (s.slot q.slot).run ≠ .parked (.mcall m d b c)) → (∀ d m, (s.slot q.slot).run ≠ .parked (.rspawn d m)) →
      let q' := { q with tag := tag, losses := q.losses + 1, since := now, again := none, pkt := { q.pkt with tag := tag } }
      ∃ u, exec (.lostHandling q.origin q.tag code) s = .next (sendPacket q'.pkt u) ∧ u.requests = [q'] ∧
        (∀ m, u.core m = if m = n then { s.core n with nextTag := tag + 1 } else s.core m) ∧ (∀ k, u.slot k = s.slot k) ∧
        { u with cores := s.cores, slots := s.slots, requests := s.requests } = s) ∧
    (again → ∀ d b c, (s.slot q.slot).run = .parked (.mcall q.tag.toNat d b c) → ∃ u,
      exec (.lostHandling q.origin q.tag code) s = .next (sendPacket { q.pkt with tag := tag } u) ∧
        u.slot q.slot = { s.slot q.slot with run := .parked (.mcall tag.toNat d b c) }) ∧
    (again → ∀ d, (s.slot q.slot).run = .parked (.rspawn d q.tag.toNat) → ∃ u,
      exec (.lostHandling q.origin q.tag code) s = .next (sendPacket { q.pkt with tag := tag } u) ∧
        u.slot q.slot = { s.slot q.slot with run := .parked (.rspawn d tag.toNat) }) ∧
    -- it is reported: a write of a slice to its controller in the log, another to its requester
    (¬ again → q.pkt.opcode ≠ 0x0A → exec (.lostHandling q.origin q.tag code) s = .next { s with
      requests := []
      due := s.due ++ [.replyArrival q.slot 0 (some { q.pkt with opcode := 0x42, err := code, vn := true })] }) ∧
    (¬ again → q.pkt.opcode = 0x0A → exec (.lostHandling q.origin q.tag code) s =
      .next (logRecord (dieOfRouter r) 0x05 ep (routerPos r) q.pkt.pa.toNat 0 { s with requests := [] })) ∧
    exec (.requestResend q.origin q.tag) s = .next (sendPacket q.pkt { s with requests := [{ q with again := none, since := now }] }) ∧
    -- replies
    ∀ p : Packet, p.vn = true → p.dstEp.toNat = ep → p.tag = q.tag → (∀ e ∈ (s.core n).ports, e.2.state ≠ 1) →
      (p.opcode = 0x42 → p.err = 3 ∨ p.err = 4 →
        deliverReply r p s = { s with due := s.due ++ [.lostHandling q.origin q.tag p.err] }) ∧
      (p.opcode = 0x41 → p.param = 2 →
        let iv := if q.interval = 0 then 64 else Nat.min 4096 (2 * q.interval)
        deliverReply r p s = { s with requests := [{ q with interval := iv, again := some (now + iv) }] }) ∧
      (p.opcode = 0x41 ∧ p.param ≠ 2 ∨ p.opcode = 0x40 ∨ (p.opcode = 0x42 ∧ p.err ≠ 3 ∧ p.err ≠ 4) →
        deliverReply r p s = { s with requests := [], due := s.due ++ [.replyArrival q.slot 0 (some p)] })) ∧
  (∀ (s : State) (r ep k : Nat) (p : Packet) (d b : Reg) (c : Nat), ep < 16 → p.dstEp.toNat = ep → p.vn = true → p.opcode = 0x44 →
    k / 16 = 16 * r + ep → (s.slot k).run = .parked (.mcall p.tag.toNat d b c) →
    (∀ j d' b' c', j ≠ k → j / 16 = 16 * r + ep → (s.slot j).run ≠ .parked (.mcall p.tag.toNat d' b' c')) →
    deliverReply r p s = { s with due := s.due ++ [.replyArrival k 0 (some p)] }) ∧
  (∀ (s : State) (o : Nat) (tag : BitVec 16) (code : BitVec 5), (∀ q ∈ s.requests, ¬ (q.origin = o ∧ q.tag = tag)) →
    NoEffect s (.replyTimeout o tag) ∧ NoEffect s (.lostHandling o tag code) ∧ NoEffect s (.requestResend o tag)) ∧
  ∀ (s : State) (r ep i : Nat) (p : Packet) (x : SendPort), ep < 16 → p.dstEp.toNat = ep → p.vn = true →
    (p.opcode = 0x45 ∨ p.opcode = 0x42) → (s.core (16 * r + ep)).ports = [(i, x)] → x.state = 1 → x.tag = p.tag →
    deliverReply r p s = { s with due := s.due ++ [.streamForcedClose (16 * r + ep) i] }

/-! ### Events of the cache slices -/

/-- R56, R66, R70 to R72, R213, R215: a request that reaches a slice hits a resident line, joins a miss, or starts a fill, and waits
while the slice tracks 32 other lines; a write of a full line needs no fill. -/
def Claim.SliceRequests : Prop :=
  ∀ (s : State) (sl : Nat) (p : Packet),
    let x := s.slice sl
    let pa := p.pa.toNat
    let line := pa / 64
    let st := stackOf line
    let e := sliceLine s sl line
    let v := BitVec.ofNat 32 (p.inline.toNat % 2 ^ 32)
    let v2 := BitVec.ofNat 32 (p.inline.toNat / 2 ^ 32 % 2 ^ 32)
    let old := BitVec.ofNat 32 (fieldOf e.data (8 * (pa % 64)) 32)
    let events := [Instr.sliceRd sl p, .sliceWr sl p, .sliceTel sl p, .sliceFe sl p]
    ((∀ m ∈ x.misses, m.1 ≠ line) → e.valid = true →
      (p.opcode = 1 → p.more = 0 → p.param.toNat % 8 < 4 →
        let n := 4 * 2 ^ (p.param.toNat % 8)
        ∃ u, Served s u sl line e [] ∧
          exec (.sliceRd sl p) s = .next (replyData p (fieldOf e.data (8 * (pa % 64)) (8 * n)) u)) ∧
      (p.opcode = 1 → p.more = 0 → p.param.toNat % 8 = 4 → pa % 64 = 0 →
        ∃ u, Served s u sl line e [] ∧ exec (.sliceRd sl p) s = .next (sendPacket (replyTo p 0x40 0 0 0 (some e.data)) u)) ∧
      (∀ l, p.opcode = 2 → p.payload = [l] →
        ∃ u, Served s u sl line { e with data := l, dirty := true } [] ∧ exec (.sliceWr sl p) s = .next (replyAck p 0 u)) ∧
      (∀ w, p.opcode = 3 → tellerNew (p.param.toNat % 16) old v v2 = some w →
        ∃ u, Served s u sl line { e with data := putField e.data (8 * (pa % 64)) 32 w.toNat, dirty := true } [] ∧
          exec (.sliceTel sl p) s = .next (replyData p old.toNat u)) ∧
      (p.opcode = 4 → p.param.toNat % 8 < 6 →
        let code := p.param.toNat % 8
        let j := pa % 64 / 4
        (feStep code v old (bitOf e.full j) = none →
          (x.waiters.length < 16 → ∃ u, exec (.sliceFe sl p) s = .next u ∧
            Served { s with slices := smMod {} s.slices sl fun c =>
              { c with waiters := c.waiters ++ [{ word := pa / 4, op := .fe code v, asker := .packet p }] } } u sl line e []) ∧
          (16 ≤ x.waiters.length → ∃ u, Served s u sl line e [] ∧ exec (.sliceFe sl p) s = .next (replyAck p 2 u))) ∧
        ∀ w b r, feStep code v old (bitOf e.full j) = some (w, b, r) →
          let changed := bitOf e.full j ≠ b
          ∃ u, Served s u sl line
              { e with
                data := putField e.data (8 * (pa % 64)) 32 w.toNat, full := putField e.full j 1 b.toNat
                dirty := e.dirty || decide (w ≠ old) || decide changed }
              (if changed ∧ x.waiters.any (fun y => y.word = pa / 4) then [.sliceWaiterRetry sl (pa / 4)] else []) ∧
            exec (.sliceFe sl p) s =
              .next (if code = 0 ∨ code = 1 ∨ code = 4 then replyData p r.toNat u else replyAck p 0 u))) ∧
    -- a line that is being fetched, and one that is not there
    (∀ i ∈ events, (∃ m ∈ x.misses, m.1 = line) →
      SliceBecomes s i sl { x with misses := x.misses.map fun m => if m.1 = line then (line, m.2 ++ [p]) else m } []) ∧
    (∀ i ∈ events, (∀ m ∈ x.misses, m.1 ≠ line) → e.valid = false → 32 ≤ x.misses.length → Defers s i) ∧
    (∀ i ∈ events, (∀ m ∈ x.misses, m.1 ≠ line) → e.valid = false → x.misses.length < 32 → p.payload = [] →
      let y := { x with misses := x.misses ++ [(line, [p])] }
      let cls := if p.cls = 0 then 0 else 1
      let route := (mcRoutes s sl line).1
      (route = .held ∨ route = .there [] →
        ((∀ b ∈ x.bounced, stackOf b.line ≠ st) → ∃ t, exec i s = .next t ∧ t.slice sl = y ∧
          t.ctl st = { s.ctl st with
            queue := (s.ctl st).queue ++ [{ slice := sl, line := line, cls := cls, stamp := (smGet {} x.maps st).gen }] } ∧
          (∀ n, n ≠ sl → t.slice n = s.slice n) ∧ (∀ n, n ≠ st → t.ctl n = s.ctl n) ∧ t.due = s.due ++ [.mcRequest st] ∧
          { t with slices := s.slices, ctls := s.ctls, due := s.due } = s) ∧
        ((∃ b ∈ x.bounced, stackOf b.line = st) →
          SliceBecomes s i sl { y with bounced := x.bounced ++ [{ slice := sl, line := line, cls := cls }] } [])) ∧
      ∀ r, route = .lost r → ∃ u, OnlySliceAt s u sl y [] ∧ exec i s = .next (missError sl line 3 (routeMarks route u))) ∧
    ∀ l, p.opcode = 2 → p.payload = [l] → (∀ m ∈ x.misses, m.1 ≠ line) → e.valid = false → x.misses.length < 32 →
      lineQueued s sl line = false → mcFenced s line = false →
      (x.lines.countP fun f => (f.1 % 256 ^^^ f.1 / 256 % 256) = (line % 256 ^^^ line / 256 % 256) && f.2.valid) < 16 →
      ∃ u, Served s u sl line { valid := true, data := l, full := memFullOf s line, dirty := true } [] ∧
        exec (.sliceWr sl p) s = .next (replyAck p 0 u)

/-- R70, R35, R72, R73: a fill installs its line, honours a capture of the current window while the set has room for it, and serves
the requests that joined; a waiter is tried again; a flush writes back and lets go. -/
def Claim.SliceFillsAndFlushes : Prop :=
  (∀ (s : State) (sl line : Nat) (data : Line) (full : BitVec 16) (cap parity : Bool),
    let x := s.slice sl
    let st := stackOf line
    let set := fun l : Nat => l % 256 ^^^ l / 256 % 256
    let inSet := fun (p : SliceLine → Bool) => x.lines.countP fun e => set e.1 = set line && p e.2
    let take := cap && decide ((smGet {} x.maps st).parity = parity) && decide (inSet (·.captured) < 2)
    let joined := (x.misses.filter fun m => m.1 = line).flatMap (·.2)
    (sliceLine s sl line).valid = false → inSet (·.valid) < 16 →
    ∃ u, exec (.sliceFill sl line data full cap parity) s = .next (joined.foldl (fun a p => slicePerform sl p a) u) ∧
      Served { s with slices := smMod {} s.slices sl fun c => { c with misses := c.misses.filter fun m => m.1 ≠ line } } u sl line
        { valid := true, data := data, full := full, captured := take }
        (if cap ∧ take = false then [.decline st line parity] else [])) ∧
  (∀ (s : State) (sl w : Nat) (x : SliceWaiter) (more : List SliceWaiter) (code : Nat) (v : Word),
    (s.slice sl).waiters = x :: more → x.word = w → x.op = .fe code v → code < 6 →
    let line := w / 16
    let e := sliceLine s sl line
    let old := BitVec.ofNat 32 (fieldOf e.data (32 * (w % 16)) 32)
    let full := bitOf e.full (w % 16)
    (e.valid = false → lineBlocked s sl line = true → Defers s (.sliceWaiterRetry sl w)) ∧
    (e.valid = true →
    (feStep code v old full = none → ∃ u, exec (.sliceWaiterRetry sl w) s = .next u ∧ Served s u sl line e []) ∧
    ∀ z b r, feStep code v old full = some (z, b, r) →
      ∃ u, exec (.sliceWaiterRetry sl w) s =
          .next ((answer x.asker (decide (code = 0 ∨ code = 1 ∨ code = 4)) (.ok r) 0 u).push (.sliceWaiterRetry sl w)) ∧
        Served { s with slices := smMod {} s.slices sl fun c => { c with waiters := more } } u sl line
          { e with
            data := putField e.data (32 * (w % 16)) 32 z.toNat, full := putField e.full (w % 16) 1 b.toNat
            dirty := e.dirty || decide (z ≠ old) || decide (full ≠ b) }
          (if full ≠ b then [.sliceWaiterRetry sl w] else []))) ∧
  (∀ (s : State) (sl w : Nat), (∀ x ∈ (s.slice sl).waiters, x.word ≠ w) → NoEffect s (.sliceWaiterRetry sl w)) ∧
  ∀ (s : State) (sl st : Nat) (inval : Bool) (chan : Option Nat),
    let x := s.slice sl
    let ev := Instr.sliceFlush sl st inval chan
    let mine := fun (l : Nat) => stackOf l = st ∧ ∀ c, chan = some c → channel0 l = c
    let after := fun (l : Nat) (e e' : SliceLine) =>
      (¬ mine l ∨ e.valid = false → e' = e) ∧
      (mine l → e.valid = true → inval = true ∧ (chan ≠ none ∨ e.captured = false) → e' = {}) ∧
      (mine l → e.valid = true → ¬ (inval = true ∧ (chan ≠ none ∨ e.captured = false)) → e' = { e with dirty := false })
    ((∀ l ∈ x.lines, mine l.1 → l.2.dirty = false) → ∃ t, exec ev s = .next t ∧
      OnlySliceAt s t sl { x with lines := (t.slice sl).lines } [] ∧ ∀ l, after l (sliceLine s sl l) (sliceLine t sl l)) ∧
    ∀ l e, x.lines = [(l, e)] → mine l → e.valid = true → e.dirty = true →
      let port := mcPort st (sliceChannel s sl l)
      -- the controller takes it now, or it waits in its queue
      (mcBusy s sl l = false → routeBlocked s sl port true = false → (mcRoutes s sl l).1 = .there [] →
        bitOf (s.ctl st).fenced (channel0 l) = false →
        ∃ t, exec ev s = .next t ∧ memLine t l = e.data ∧ memFullOf t l = e.full ∧ smGet [] t.flips l = [] ∧
          (∀ a, a / 64 ≠ l → smGet 0 t.mem a = smGet 0 s.mem a) ∧ after l e (sliceLine t sl l)) ∧
      (mcBusy s sl l = true ∨ routeBlocked s sl port true = true → (∀ b ∈ x.bounced, stackOf b.line ≠ st) →
        ∃ t, exec ev s = .next t ∧ t.mem = s.mem ∧ after l e (sliceLine t sl l) ∧ t.due = s.due ++ [.mcRequest st] ∧
          t.ctl st = { s.ctl st with
            queue := (s.ctl st).queue ++
              [{ slice := sl, line := l, write := true, data := e.data, full := e.full, stamp := (smGet {} x.maps st).gen }] })

/-- R74, R75: QPUT and QTAKE packets at a slice whose ring is inside the partition of their source. -/
def Claim.SliceQueuePackets : Prop :=
  ∀ (s : State) (sl : Nat) (p : Packet),
    let q := p.param.toNat % 8
    let x := smGet {} (s.slice sl).queues q
    let part := s.partOf (routerAt p.srcCol.toNat p.srcRow.toNat / 256)
    let addr := fun (n : Nat) => x.base.toNat + n % 2 ^ x.log2n.toNat
    let queue := fun (u : State) (y : SQueue) => (∀ n, n ≠ sl → u.slice n = s.slice n) ∧
      ∀ k, smGet {} (u.slice sl).queues k = if k = q then y else smGet {} (s.slice sl).queues k
    s.partOf (sl / 256) = part → ringInside s part x = true →
    (x.en = false → exec (.sliceQput sl p) s = .next (replyAck p 1 s) ∧ exec (.sliceQtake sl p) s = .next (replyAck p 1 s)) ∧
    (x.en = true →
      (x.waiters = [] → (x.tail - x.head).toNat = 2 ^ x.log2n.toNat → exec (.sliceQput sl p) s = .next (replyAck p 1 s)) ∧
      (x.waiters = [] → (x.tail - x.head).toNat ≠ 2 ^ x.log2n.toNat → x.entlines = 0 →
        (sliceLine s sl (addr x.tail.toNat)).valid = true →
        ∃ u, exec (.sliceQput sl p) s = .next (replyAck p 0 u) ∧ queue u { x with tail := x.tail + 1 } ∧
          (sliceLine u sl (addr x.tail.toNat)).data = BitVec.ofNat 512 (packetEntry p) ∧
          (∀ l, l ≠ addr x.tail.toNat → { sliceLine u sl l with used := 0 } = { sliceLine s sl l with used := 0 }) ∧
          { u with slices := s.slices } = s) ∧
      (∀ w ws, x.waiters = w :: ws → ∃ u, queue u { x with waiters := ws } ∧ { u with slices := s.slices } = s ∧
        exec (.sliceQput sl p) s = .next (replyAck p 0 (answerTaker w (packetEntry p) (x.entlines.toNat + 1) u))) ∧
      (x.tail = x.head → x.waiters.length < 8 → ∃ u, exec (.sliceQtake sl p) s = .next u ∧
        queue u { x with waiters := x.waiters ++ [.packet p] } ∧ { u with slices := s.slices } = s) ∧
      (x.tail = x.head → 8 ≤ x.waiters.length → exec (.sliceQtake sl p) s = .next (replyAck p 2 s)) ∧
      (x.tail ≠ x.head → x.entlines = 0 → (sliceLine s sl (addr x.head.toNat)).valid = true →
        let data := (sliceLine s sl (addr x.head.toNat)).data
        ∃ u, queue u { x with head := x.head + 1 } ∧ { u with slices := s.slices } = s ∧
          (∀ l, { sliceLine u sl l with used := 0 } = { sliceLine s sl l with used := 0 }) ∧
          exec (.sliceQtake sl p) s = .next (sendPacket { replyTo p 0x40 0 0 0 none with payload := [data], count := 1 } u)) ∧
      -- the line of the entry is away
      (x.tail ≠ x.head → x.entlines = 0 → (sliceLine s sl (addr x.head.toNat)).valid = false →
        lineBlocked s sl (addr x.head.toNat) = true → Defers s (.sliceQtake sl p)))

/-- R68, R69, R145, R354: a port's words leave it in flits of its route, behind a header that opens or resumes it; words and end markers
reach an input, which serves a parked thread; and a route is closed by force. -/
def Claim.StreamEvents : Prop :=
  (∀ (s : State) (c p k : Nat),
    let y := smGet {} (s.core c).ports p
    let i := y.dst.toNat % 4
    let r := coreRouter c
    let key := 6 * (272 + 4 * (c % 16) + p)
    let b := inBuf s r key
    let becomes := fun (t : State) (z : SendPort) => (∀ n, n ≠ c → t.core n = s.core n) ∧
      { t.core c with ports := (s.core c).ports } = s.core c ∧
      ∀ j, smGet {} (t.core c).ports j = if j = p then z else smGet {} (s.core c).ports j
    -- the port's cores are as they become, and the flits `fs` enter its local input
    let sends := fun (t : State) (z : SendPort) (fs : List Flit) => becomes t z ∧ FlitsIn { s with cores := t.cores } t r key fs
    let header := fun (param w : Word) => packHeader { corePacket s c k with
      opcode := 0x09, tag := y.tag, param := param, inline := BitVec.ofNat 256 (w.toNat + i * 2 ^ 32 + p * 2 ^ 34) }
    let close : Flit := { data := header 3 0, mark := true, last := true }
    launchCore s c (y.dst.toNat / 4 % 2 ^ 14) = some k →
    (y.state ≠ 1 ∨ y.words = [] ∨ b.flits ≠ [] → NoEffect s (.streamFlush c p)) ∧
    (∀ w ws, y.state = 1 → y.words = w :: ws → b.flits = [] →
      (y.route = false ∨ y.resume = true → ∃ t, exec (.streamFlush c p) s = .next t ∧
        sends t { y with words := ws, route := true, resume := false }
          [{ data := header (if y.resume then 4 else 0) w, first := true }]) ∧
      (y.route = true → y.resume = false → b.drop = false → ∃ t, exec (.streamFlush c p) s = .next t ∧ ∃ f : Flit,
        sends t { y with words := [] } [f] ∧ f = { data := f.data, valid := BitVec.ofNat 5 y.words.length } ∧
        ∀ j < 16, BitVec.ofNat 32 (fieldOf f.data (32 * j) 32) = (y.words[j]?).getD 0)) ∧
    (y.route = false ∨ b.flits ≠ [] → NoEffect s (.streamIdleExpire c p)) ∧
    (y.route = true → b.flits = [] → b.drop = false → ∃ u, sends u { y with route := false } [close] ∧
      exec (.streamIdleExpire c p) s =
        .next (inject r { corePacket s c c with opcode := 0x45, tag := y.tag, vn := true, cls := 1 } u)) ∧
    (y.state = 1 →
      let z := { y with state := 2, bound := false, lost := y.words.length, words := [], route := false, resume := false }
      (y.route = true → b.drop = false → ∃ t, exec (.streamForcedClose c p) s = .next t ∧ sends t z [close]) ∧
      (y.route = false → ∃ t, exec (.streamForcedClose c p) s = .next t ∧ becomes t z ∧ { t with cores := s.cores } = s)) ∧
    (y.state ≠ 1 → NoEffect s (.streamForcedClose c p))) ∧
  ∀ (s : State) (c i sender : Nat) (ws : List Word) (fin : Option (BitVec 2)) (suspend : Bool),
    let z := smGet {} (s.core c).inputs i
    let got := { z with words := z.words ++ ws, fin := fin.getD z.fin, suspended := suspend, sender := sender, active := true }
    let ev := Instr.streamDataArrive c i sender ws fin suspend
    let inputs := fun (t : State) (z' : StreamIn) =>
      ∀ j, smGet {} (t.core c).inputs j = if j = i then z' else smGet {} (s.core c).inputs j
    (z.waiters = [] → ∃ t, exec ev s = .next t ∧ OnlyCoreAt s t c { s.core c with inputs := (t.core c).inputs } [] ∧ inputs t got) ∧
    -- one parked thread
    ∀ k n d b, z.waiters = [k] → coreOf k = c → (s.slot k).run = .parked (.sget n d b) → Unheld s k →
      (∀ w rest, z.words ++ ws = w :: rest → ∃ t, exec ev s = .next t ∧ Answered s t k [(d, w), (b, 0)] ∧
        inputs t { got with words := rest, waiters := [] }) ∧
      (z.words ++ ws = [] → got.fin ≠ 0 → ∃ t, exec ev s = .next t ∧ Answered s t k [(d, 0), (b, got.fin.setWidth 32)] ∧
        inputs t { got with waiters := [], fin := 0, active := false, sender := 0 }) ∧
      (z.words ++ ws = [] → got.fin = 0 → ∃ t, exec ev s = .next t ∧ inputs t got)

/-! ### Events of the vaults -/

/-- R207, R209, R213, R215, R216, R218, R72: the word port of a bank grants the oldest request of the next requester after LAST, performs
it and answers; an uncorrectable word answers an error to all but a write of the whole word; a full/empty operation whose condition
fails joins the wait list of eight, and is to be sent again when that is full. -/
def Claim.BankGrants : Prop :=
  (∀ (s : State) (b : Nat) (r : BankReq), Grants s b r →
    let x := s.bank b
    let w := r.word
    let old := vWord s w
    let full := vFullOf s w
    let fixes := if vErr s w = 1 ∧ w ∉ x.rewrites then x.rewrites ++ [w] else x.rewrites
    let retries := fun (bit : Bool) =>
      if bit ≠ full ∧ x.waiters.any (fun q => q.word = w) ∧ ¬ x.retries.any (fun q => q.1 = w) then
        x.retries ++ [(w, bankNow s b + 1)] else x.retries
    let granted := { x with held := x.held.erase r, last := r.requester }
    let becomes := fun (u : State) (x' : Bank) => ∀ n, u.bank n = if n = b then x' else s.bank n
    let gives := fun (v : Word) (u : State) => exec (.bankGrant b) s = .next (answer r.asker r.op.isRead (.ok v) (answerAt s r) u)
    let sameErr := fun (u : State) => ∀ n, vErr u n = vErr s n
    (vErr s w ≠ 2 →
      (r.op = .read → ∃ u, WordIs s u w old full [] ∧ becomes u { granted with rewrites := fixes } ∧ sameErr u ∧ gives old u) ∧
      (∀ code v v2 z, r.op = .teller code v v2 → tellerNew code old v v2 = some z → ∃ u,
        WordIs s u w z full [] ∧ becomes u { granted with rewrites := fixes } ∧ sameErr u ∧ gives old u) ∧
      (∀ up z, r.op = .join up → (if up then old ≠ 0xFFFFFFFF ∧ z = old + 1 else old ≠ 0 ∧ z = old - 1) → ∃ u,
        WordIs s u w z (decide (z = 0)) [] ∧ becomes u { granted with rewrites := fixes, retries := retries (decide (z = 0)) } ∧
        sameErr u ∧ gives old u) ∧
      ∀ code v, r.op = .fe code v → code < 6 →
        (∀ z bit a, feStep code v old full = some (z, bit, a) → ∃ u, WordIs s u w z bit [] ∧
          becomes u { granted with rewrites := fixes, retries := retries bit } ∧ sameErr u ∧ gives a u) ∧
        (feStep code v old full = none → ∃ u, { u with banks := s.banks } = s ∧
          (x.waiters.length < 8 → becomes u { granted with waiters := x.waiters ++ [r] } ∧ exec (.bankGrant b) s = .next u) ∧
          (8 ≤ x.waiters.length → becomes u granted ∧ exec (.bankGrant b) s = .next (listFull r u)))) ∧
    (∀ mask data, r.op = .write mask data → (vErr s w ≠ 2 ∨ mask = 0xF) → ∃ u v, WordIs s u w v full [] ∧ becomes u granted ∧
      (∀ n, vErr u n = if n = w then 0 else vErr s n) ∧
      (∀ i < 4, fieldOf v (8 * i) 8 = if bitOf mask i then fieldOf data (8 * i) 8 else fieldOf old (8 * i) 8) ∧ gives 0 u) ∧
    (vErr s w = 2 → (∀ data, r.op ≠ .write 0xF data) → ∃ u, { u with banks := s.banks } = s ∧ becomes u granted ∧
      exec (.bankGrant b) s = .next (answer r.asker r.op.isRead (.error 1) (answerAt s r) u))) ∧
  (∀ (s : State) (b : Nat), (∀ r ∈ (s.bank b).held, bankNow s b < r.arrive) → NoEffect s (.bankGrant b)) ∧
  -- the wait list is full
  (∀ (s : State) (r : BankReq) (k code : Nat) (v : Word) (dst : Option Reg), r.asker = .thread k → r.op = .fe code v →
    (s.slot k).run = .parked (.fullEmpty dst) →
    let u := r.word / 2 ^ 23
    let off := 4 * (r.word % 2 ^ 23)
    let sends := fun (far : Bool) (top now : Nat) => OnlySlotAt s (listFull r s) k
      { s.slot k with run := .parked (.resend (.vault u off far) code v dst (Nat.min (2 * r.interval) top) (now + r.interval)) } []
    (r.requester ≠ 1024 → sends false 1024 (answerAt s r)) ∧
    (r.requester = 1024 → sends true 4096 (mcAt s (coreRouter (coreOf k))))) ∧
  ∀ (s : State) (r : BankReq) (id part : Nat) (j : RemoteJob), r.asker = .remote id part → s.remotes = [(id, j)] →
    listFull r s = replyAck j.pkt 2 { s with remotes := [] }

/-- R72, R216, R218: from the work cycle after a change the bank tries the waiters on the word again, one a work cycle; it rewrites a
corrected word; and a request that found its wait list full is sent again at doubling intervals. -/
def Claim.WaitersAndResends : Prop :=
  (∀ (s : State) (w : Nat),
    let b := bankOf w
    let x := s.bank b
    let now := bankNow s b
    let others := x.retries.filter fun q => q.1 ≠ w
    let becomes := fun (u : State) (x' : Bank) => ∀ n, u.bank n = if n = b then x' else s.bank n
    let idle := ∃ t, exec (.waitlistRetry w) s = .next t ∧ becomes t { x with retries := others } ∧ { t with banks := s.banks } = s
    ((∀ r ∈ x.waiters, r.word ≠ w) → idle) ∧
    ∀ (r : BankReq) (more : List BankReq) (code : Nat) (v : Word), x.waiters = r :: more → r.word = w → r.op = .fe code v → code < 6 →
      vErr s w = 0 →
      (feStep code v (vWord s w) (vFullOf s w) = none → idle) ∧
      ∀ z bit a, feStep code v (vWord s w) (vFullOf s w) = some (z, bit, a) → ∃ u, WordIs s u w z bit [] ∧
        becomes u { x with
          waiters := more
          retries := others ++ if bit ≠ vFullOf s w ∨ more.any (fun q => q.word = w) then [(w, now + 1)] else [] } ∧
        exec (.waitlistRetry w) s = .next (answer r.asker (decide (code = 0 ∨ code = 1 ∨ code = 4)) (.ok a) (answerAt s r) u)) ∧
  (∀ (s : State) (w : Nat), ∃ t, exec (.vaultCorrectRewrite w) s = .next t ∧
    (∀ k, vErr t k = if k = w ∧ vErr s w = 1 then 0 else vErr s k) ∧
    (∀ n, t.bank n = if n = bankOf w then { s.bank n with rewrites := (s.bank n).rewrites.filter (· ≠ w) } else s.bank n) ∧
    { t with verr := s.verr, banks := s.banks } = s) ∧
  (∀ (s : State) (k unit off code iv t0 : Nat) (far : Bool) (v : Word) (dst : Option Reg),
    (s.slot k).run = .parked (.resend (.vault unit off far) code v dst iv t0) →
    let n := coreOf k
    let w := (unit * 2 ^ 25 + off) / 4
    ∃ t, exec (.feResend k) s = .next t ∧ t.slot k = { s.slot k with run := .parked (.fullEmpty dst) } ∧
      (∀ j, j ≠ k → t.slot j = s.slot j) ∧
      Asks s t [{ requester := if far then 1024 else n % 1024, word := w, op := .fe code v, asker := .thread k, interval := iv
                  arrive := if far then bankNow s (bankOf w) else nowAt s n + (vaultPath n (bankOf w)).1 - 1 }] ∧
      { t with slots := s.slots, banks := s.banks, hot := s.hot } = s) ∧
  ∀ (s : State) (k sl pa code iv t0 : Nat) (v : Word) (dst : Option Reg),
    let x := s.slot k
    let line := pa / 64
    let e := sliceLine s sl line
    let old := BitVec.ofNat 32 (fieldOf e.data (8 * (pa % 64)) 32)
    let j := pa % 64 / 4
    x.run = .parked (.resend (.home sl pa) code v dst iv t0) → code < 6 → pa % 4 = 0 →
    (e.valid = true → feStep code v old (bitOf e.full j) = none →
      ((s.slice sl).waiters.length < 16 → ∃ t, exec (.feResend k) s = .next t ∧
        t.slot k = { x with run := .parked (.fullEmpty dst) } ∧
        (t.slice sl).waiters = (s.slice sl).waiters ++ [{ word := pa / 4, op := .fe code v, asker := .thread k }]) ∧
      (16 ≤ (s.slice sl).waiters.length → ∃ t, exec (.feResend k) s = .next t ∧ (t.slice sl).waiters = (s.slice sl).waiters ∧
        t.slot k = { x with
          run := .parked (.resend (.home sl pa) code v dst (Nat.min (2 * iv) 4096) (mcAt s (coreRouter (coreOf k)) + iv)) })) ∧
    (∀ z bit a, e.valid = true → feStep code v old (bitOf e.full j) = some (z, bit, a) → ∃ t, exec (.feResend k) s = .next t ∧
      t.slot k = { x with run := .parked .vault, access := some { use_ := .word dst, data := a.setWidth 128 } } ∧
      LineWrote s t sl pa 4 z.toNat (putField e.full j 1 bit.toNat) ∧
      t.due = s.due ++ wakes s sl pa bit ++ [.replyArrival k accessId none]) ∧
    (e.valid = false → lineBlocked s sl line = true → NoEffect s (.feResend k))

/-- R207, R212, R218: the line port performs one of the accesses that have arrived, round-robin among the engines: it writes the bytes of
its mask, and sets their words full when asked, or reads their words; with the last of its accesses the engine goes on. -/
def Claim.LinePorts : Prop :=
  ∀ (s : State) (b : Nat) (r : LineReq) (older newer : List LineReq),
    let x := s.bank b
    let u := unitOfBank b
    let now := bankNow s b
    let key := fun i : Nat => lineKey b r.row i
    let word := fun l : Nat => key (4 * l) / 4
    let mask := fun l : Nat => BitVec.ofNat 4 (fieldOf r.mask (4 * l) 4)
    let after := fun q : LineReq => (q.engine + 127 - x.lineLast) % 128
    let io := ioOf s u r.engine r.job
    let exists_ := r.engine < 64 ∨ ∃ c ∈ (s.bulkOf (64 * u + r.engine - 64)).copies, c.id = r.job
    let next := if io.want - 1 = 0 then [if r.engine < 64 then Instr.matrixCommandTaken (64 * u + r.engine)
      else .copyComplete (64 * u + r.engine - 64) r.job] else []
    x.lineHeld = older ++ r :: newer → r.arrive ≤ now → (∀ q ∈ older, q.arrive ≤ now → after r < after q) →
    (∀ q ∈ newer, q.arrive ≤ now → after r ≤ after q) → b < 32768 → r.row < 4096 →
    (∀ l < 4, vErr s (word l) = 0) → exists_ →
    ∃ t, exec (.linePortAccess b) s = .next t ∧ (∀ n, n ≠ b → t.bank n = s.bank n) ∧ t.due = s.due ++ next ∧
      { t.bank b with retries := x.retries } = { x with lineHeld := x.lineHeld.erase r, lineLast := r.engine } ∧
      (r.write = true →
        (∀ i < 16, bitOf r.mask i = true → smGet 0 t.vault (key i) = BitVec.ofNat 8 (fieldOf r.data (8 * i) 8)) ∧
        (∀ a, (∀ i < 16, bitOf r.mask i = true → a ≠ key i) → smGet 0 t.vault a = smGet 0 s.vault a) ∧
        (∀ w, vFullOf t w = (vFullOf s w || (r.setFull && (List.range 4).any fun l => decide (mask l ≠ 0 ∧ w = word l)))) ∧
        (∀ l < 4, r.setFull = true → mask l ≠ 0 → vFullOf s (word l) = false → x.waiters.any (fun q => q.word = word l) →
          ∃ q ∈ (t.bank b).retries, q.1 = word l) ∧
        ioOf t u r.engine r.job = { io with want := io.want - 1 }) ∧
      (r.write = false →
        t.vault = s.vault ∧ t.vfull = s.vfull ∧ (t.bank b).retries = x.retries ∧
        ioOf t u r.engine r.job = { io with
          want := io.want - 1
          got := io.got ++ ((List.range 4).filter fun l => decide (mask l ≠ 0)).map fun l => (word l, some (vWord s (word l))) })

/-- R211, R217: the remote port of a group takes a packet's access: a request for each of its words, as requester 1,024 of the word's
bank; with the last of them it answers the packet. -/
def Claim.RemoteVaultAccesses : Prop :=
  (∀ (s : State) (c : Nat) (p : Packet),
    let v := p.pa.toNat % 2 ^ 26
    let key := fun i : Nat => vKey c (interleaved (v + i))
    let id := (s.remotes.getLast?.map (·.1)).getD 0 + 1
    let asks := fun (ws : List (Nat × WordOp)) => ∃ t, exec (.remoteVaultAccess c p) s = .next t ∧
      t.remotes = s.remotes ++ [(id, { pkt := p, left := ws.length })] ∧
      Asks s t (ws.zipIdx.map fun x =>
        { requester := 1024, word := x.1.1, op := x.1.2, asker := .remote id x.2, arrive := bankNow s (bankOf x.1.1) }) ∧
      { t with remotes := s.remotes, banks := s.banks, hot := s.hot } = s
    let n := p.param.toNat % 8
    let a := BitVec.ofNat 32 (fieldOf p.inline 0 32)
    (p.opcode = 1 → n < 5 → asks ((List.range (2 ^ n)).map fun i => (key (4 * i) / 4, .read))) ∧
    (p.opcode = 1 → 5 ≤ n → exec (.remoteVaultAccess c p) s = .next (replyErr p 6 s)) ∧
    (p.opcode = 2 → p.payload = [] → p.param = 0 → exec (.remoteVaultAccess c p) s = .next (replyAck p 0 s)) ∧
    -- a write: the words that its bytes lie in, each once, with a mask of those bytes
    (∀ (named : Nat → Bool) (byte : Nat → Byte), p.opcode = 2 → (∃ i, named i = true) → (∀ i, named i = true → v % 64 + i < 64) →
      ((p.payload = [] ∧ (∀ i, named i = (decide (i < 32) && bitOf p.param i)) ∧
          ∀ i, byte i = BitVec.ofNat 8 (fieldOf p.inline (8 * i) 8)) ∨
        ∃ l rest, p.payload = l :: rest ∧ (∀ i, named i = decide (i < 64)) ∧ ∀ i, byte i = BitVec.ofNat 8 (fieldOf l (8 * i) 8)) →
      ∃ ws : List (Nat × BitVec 4 × Word), asks (ws.map fun e => (e.1, .write e.2.1 e.2.2)) ∧ (ws.map (·.1)).Nodup ∧
        (∀ i, named i = true → ∃ e ∈ ws, e.1 = key i / 4 ∧ bitOf e.2.1 (key i % 4) = true ∧
          BitVec.ofNat 8 (fieldOf e.2.2 (8 * (key i % 4)) 8) = byte i) ∧
        ∀ e ∈ ws, ∀ j < 4, bitOf e.2.1 j = true → ∃ i, named i = true ∧ key i = 4 * e.1 + j) ∧
    (p.opcode = 3 → asks [(key 0 / 4, .teller (p.param.toNat % 16) a (BitVec.ofNat 32 (fieldOf p.inline 32 32)))]) ∧
    (p.opcode = 4 → asks [(key 0 / 4, .fe n a)])) ∧
  ∀ (s : State) (id part at_ : Nat) (rd : Bool) (v : Word) (code : BitVec 5) (j : RemoteJob), s.remotes.lookup id = some j →
    let data := putField j.data (32 * part) 32 v.toNat
    let done := { s with remotes := smDel s.remotes id }
    let p := j.pkt
    let n := p.param.toNat % 8
    (1 < j.left → ∃ t, answer (.remote id part) rd (.ok v) at_ s = t ∧ { t with remotes := s.remotes } = s ∧
      ∀ i, t.remotes.lookup i = if i = id then some { j with left := j.left - 1, data := data } else s.remotes.lookup i) ∧
    (j.left = 1 → j.err = none →
      (p.opcode = 1 → n = 4 → answer (.remote id part) rd (.ok v) at_ s = sendPacket (replyTo p 0x40 0 0 0 (some data)) done) ∧
      (p.opcode = 1 ∧ n ≠ 4 ∨ p.opcode = 3 ∨ (p.opcode = 4 ∧ (n = 0 ∨ n = 1 ∨ n = 4)) →
        answer (.remote id part) rd (.ok v) at_ s = replyData p data.toNat done) ∧
      (p.opcode = 2 ∨ (p.opcode = 4 ∧ (n = 2 ∨ n = 3 ∨ 5 ≤ n)) → answer (.remote id part) rd (.ok v) at_ s = replyAck p 0 done)) ∧
    (∀ e, j.left = 1 → j.err = some e → answer (.remote id part) rd (.ok v) at_ s = replyErr p e done) ∧
    (j.left = 1 → j.err = none → answer (.remote id part) rd (.error code) at_ s = replyErr p code done)

/-! ### Events of the host ports -/

/-- R82 to R86, R93, R110: the commands of a memory device at the host port: rows open and close, mode registers are written and read
but for the fields of absent options (the model's log entry 45), a burst reads the open row, and a burst written is a notification,
ring bytes, an outbound page or inbound data by where it falls. -/
def Claim.HostBursts : Prop :=
  ∀ (s : State) (d ch bank row col : Nat),
    let h := (s.die d).host
    let n := 16 * ch + bank
    let w := row % 65536 * 65536 + bank % 16 * 4096 + ch % 2 * 2048 + col % 2048
    let a := w / 0x1000000
    let off := w % 0x1000000
    let x := smGet {} h.aps a
    let top := 0x80000 + x.outsize.toNat * 65536
    let rows := fun (v : Option Nat) (p : HostPort) => ∀ k, smGet none p.rows k = if k = n then v else smGet none h.rows k
    PortBecomes s (.hostActivate d ch bank row) d (fun p => { h with rows := p.rows }) [] (rows (some row)) ∧
    PortBecomes s (.hostPrecharge d ch bank) d (fun p => { h with rows := p.rows }) [] (rows none) ∧
    NoEffect s (.hostRefresh d .refresh) ∧
    (∀ r v, PortBecomes s (.hostRefresh d (.modeWrite r v)) d (fun p => { h with modes := p.modes }) [] fun p =>
      ∀ k, smGet 0 p.modes k = if k = r then v &&& ~~~modeAbsent r else smGet 0 h.modes k) ∧
    (∀ r, DieBecomes s (.hostRefresh d (.modeRead r)) d { s.die d with host := { h with readOut := [smGet 0 h.modes r] } } []) ∧
    (smGet none h.rows n = none → (∀ len, NoEffect s (.hostRead d ch bank col len)) ∧ ∀ bs, NoEffect s (.hostWrite d ch bank col bs)) ∧
    (smGet none h.rows n = some row →
      (∀ len,
        (h.open_ = false → DieBecomes s (.hostRead d ch bank col len) d
          { s.die d with host := { h with readOut := List.replicate len 0 } } []) ∧
        (h.open_ = true → a < 128 → x.en = true → 0x80000 ≤ off → off + len ≤ top → off + len ≤ 0x800000 →
          DieBecomes s (.hostRead d ch bank col len) d
            { s.die d with host := { h with readOut := (List.range len).map fun i => smGet 0 h.store (a * 0x1000000 + off + i) } } []) ∧
        (h.open_ = true → a < 128 → x.en = true → 0 < len →
          (0x21000 ≤ off ∧ off + len ≤ 0x80000) ∨ (top ≤ off ∧ off + len ≤ 0x1000000) ∨ (0x800000 ≤ off ∧ off + len ≤ 0x1000000) →
          ApBecomes s (.hostRead d ch bank col len) d a { h with readOut := List.replicate len 0 }
            (fun _ => { x with hole := true }) [] fun _ => True)) ∧
      (h.open_ = false → ∀ bs, NoEffect s (.hostWrite d ch bank col bs)) ∧
      (h.open_ = true → a < 128 → x.en = true →
        (∀ bs, 0x800000 ≤ off → Lets s (.hostWrite d ch bank col bs) [.inboundWrite d a off bs]) ∧
        ∀ b0 b1 b2 b3 : Byte, w % 4 = 0 →
          let burst := [some b0, some b1, some b2, some b3]
          let stores := fun (m : SMap Byte) => ∀ k, smGet 0 m k =
            if a * 0x1000000 + off ≤ k ∧ k < a * 0x1000000 + off + 4 then [b0, b1, b2, b3].getD (k - (a * 0x1000000 + off)) 0
            else smGet 0 h.store k
          (off < 0x10000 → off % 4096 = 0 →
            Lets s (.hostWrite d ch bank col burst) [.notification d a (off / 4096) (b3 ++ b2 ++ b1 ++ b0)]) ∧
          ((off < 0x10000 ∧ 64 ≤ off % 4096) ∨ (0x80000 ≤ off ∧ off < top ∧ off < 0x800000) →
            PortBecomes s (.hostWrite d ch bank col burst) d (fun p => { h with store := p.store }) [] fun p => stores p.store) ∧
          (0x21000 ≤ off → off < 0x80000 →
            ApBecomes s (.hostWrite d ch bank col burst) d a h (fun _ => { x with hole := true }) [] fun _ => True)))

/-- R87 to R90, R92, R94, R108: inbound data in its buffer, notifications in their order behind it, completion records in their
rings, outbound pages, and the binding of an aperture. -/
def Claim.HostQueues : Prop :=
  ∀ (s : State) (d a : Nat),
    let h := (s.die d).host
    let x := smGet {} h.aps a
    let p := s.partOf d
    (∀ off bs, x.en = true →
      (h.inbuf.length < 4096 → DieBecomes s (.inboundWrite d a off bs) d
        { s.die d with host := { h with inbuf := h.inbuf ++ [{ ap := a, off := off, bytes := bs }] } } [.inboundForward d]) ∧
      (4096 ≤ h.inbuf.length → ApBecomes s (.inboundWrite d a off bs) d a h (fun _ => { x with ovf := true }) [] fun _ => True)) ∧
    (∀ off bs, x.en = false → NoEffect s (.inboundWrite d a off bs)) ∧
    (∀ e rest, h.inbuf = e :: rest → e.sent = false → e.ap = a → 0x800000 ≤ e.off →
      let pa := x.inbase.toNat * 0x800000 + (e.off - 0x800000)
      let sent := { s.die d with host := { h with inbuf := { e with sent := true } :: rest } }
      (2 ^ 39 ≤ pa ∨ s.partOf (pa / 2 ^ 37) ≠ p → DieBecomes s (.inboundForward d) d sent [.inboundAck d (some 2)]) ∧
      ∀ sl, pa < 2 ^ 39 → s.partOf (pa / 2 ^ 37) = p → hashHome (s.part p).place 63 pa = some sl →
        let c := cornerRouter d
        let near := c = sl ∨ (routeOf s c sl = .there [] ∧ routeOf s sl c = .there [])
        let l := sliceLine s sl (pa / 64)
        let room := ((s.slice sl).lines.countP fun f => (f.1 % 256 ^^^ f.1 / 256 % 256) = (pa / 64 % 256 ^^^ pa / 64 / 256 % 256) && f.2.valid) < 16
        -- the bytes reach the resident line as one write; a full line needs no fill
        (∀ bs : List Byte, near → e.bytes = bs.map some → bs ≠ [] → pa % 64 + bs.length ≤ 64 →
          (l.valid = true → ∃ t, exec (.inboundForward d) s = .next t ∧ t.die d = sent ∧ (∀ k, k ≠ d → t.die k = s.die k) ∧
            Served { s with dies := t.dies } t sl (pa / 64)
              { l with data := putField l.data (8 * (pa % 64)) (8 * bs.length) (bytesNat bs), dirty := true } [.inboundAck d none]) ∧
          (l.valid = false → bs.length = 64 → lineQueued s sl (pa / 64) = false → mcFenced s (pa / 64) = false → room →
            ∃ t, exec (.inboundForward d) s = .next t ∧ t.die d = sent ∧ (∀ k, k ≠ d → t.die k = s.die k) ∧
              Served { s with dies := t.dies } t sl (pa / 64)
                { valid := true, data := BitVec.ofNat 512 (bytesNat bs), full := memFullOf s (pa / 64), dirty := true }
                [.inboundAck d none])) ∧
        -- a write whose request no route takes is lost
        (∀ r, c ≠ sl → routeOf s c sl = .lost r → ∃ t, exec (.inboundForward d) s = .next t ∧ t.die d = sent ∧
          t.slices = s.slices ∧ t.due = s.due ++ [.inboundAck d (some 3)]) ∧
        (c ≠ sl → routeOf s c sl = .held → Defers s (.inboundForward d))) ∧
    (∀ e rest err, h.inbuf = e :: rest → e.sent = true → e.ap = a →
      let notes := h.notes.map fun n => if n.1 = a then (n.1, n.2.1, n.2.2.1, n.2.2.2 - 1) else n
      let more := fun (l : List (Nat × Nat × Nat × Nat)) => if l = [] then [] else [Instr.notifyForward d]
      DieBecomes s (.inboundAck d none) d { s.die d with host := { h with inbuf := rest, notes := notes } } (more notes) ∧
      -- an error: what was accepted behind the write is never passed on
      (let passed := h.notes.filter fun n => decide (n.1 ≠ a ∨ n.2.2.2 = 0)
       ApBecomes s (.inboundAck d (some err)) d a { h with inbuf := rest, notes := passed } (fun _ => { x with werr := true })
         (more passed) fun _ => True)) ∧
    (∀ q value,
      let t := smGet 0 x.tail q
      let v := value.toNat
      let good := v ≤ 62 ∧ (v + 63 - t) % 63 ≤ (smGet 0 x.head q + 125 - t) % 63 ∧ x.ovf = false ∧ x.werr = false
      (good → v ≠ t →
        ApBecomes s (.notification d a q value) d a { h with notes := h.notes ++ [(a, q, v, h.inbuf.countP fun e => e.ap = a)] }
          (fun y => { x with tail := y.tail }) [.notifyForward d]
          fun y => ∀ k, smGet 0 y.tail k = if k = q then v else smGet 0 x.tail k) ∧
      (good → v = t → NoEffect s (.notification d a q value)) ∧
      (¬ good → ApBecomes s (.notification d a q value) d a h (fun _ => { x with qerr := true }) [] fun _ => True)) ∧
    (∀ q v n, h.notes = [(a, q, v, n)] →
      (n = 0 → ApBecomes s (.notifyForward d) d a { h with notes := [] } (fun y => { x with known := y.known }) [.launchDispatch p]
        fun y => ∀ k, smGet 0 y.known k = if k = q then v else smGet 0 x.known k) ∧
      (n ≠ 0 → DieBecomes s (.notifyForward d) d (s.die d) [])) ∧
    (∀ q,
      let t := smGet 0 x.ctail q
      (smGet [] x.held q = [] ∨ (t + 1) % 128 = (smGet 0 x.chead q).toNat → NoEffect s (.completionRecordWrite d a q)) ∧
      ∀ r rest, smGet [] x.held q = r :: rest → r.length = 8 → (t + 1) % 128 ≠ (smGet 0 x.chead q).toNat →
        let phase := !smGet false x.cwrap q
        let v := ((List.range 8).map fun i => (r.getD i 0).toNat * 2 ^ (32 * i)).sum + phase.toNat * 2 ^ 31
        let key := a * 0x1000000 + 0x10000 + 4096 * q + 32 * t
        ∃ u, exec (.completionRecordWrite d a q) s = .next u ∧
          OnlyDieAt s u d { s.die d with host := { h with aps := (u.die d).host.aps, store := (u.die d).host.store } }
            ((if rest = [] then [] else [.completionRecordWrite d a q]) ++ [.launchDispatch p]) ∧
          (∀ k, smGet 0 (u.die d).host.store k =
            if key ≤ k ∧ k < key + 32 then BitVec.ofNat 8 (v / 256 ^ (k - key)) else smGet 0 h.store k) ∧
          (∀ k, k ≠ a → smGet {} (u.die d).host.aps k = smGet {} h.aps k) ∧
          let y := smGet {} (u.die d).host.aps a
          { y with ctail := x.ctail, cwrap := x.cwrap, held := x.held } =
            { x with irqpend := if bitOf x.irqen q then x.irqpend ||| (1 <<< q) else x.irqpend } ∧
          (∀ k, smGet 0 y.ctail k = if k = q then (t + 1) % 128 else smGet 0 x.ctail k) ∧
          (∀ k, smGet [] y.held k = if k = q then rest else smGet [] x.held k) ∧
          ∀ k, smGet false y.cwrap k = if k = q ∧ t = 127 then phase else smGet false x.cwrap k) ∧
    (∀ off (bytes : List Byte),
      let inside := x.en = true ∧ 0x80000 ≤ off ∧ off + bytes.length ≤ 0x80000 + x.outsize.toNat * 65536 ∧
        off + bytes.length ≤ 0x800000
      let key := a * 0x1000000 + off
      (inside → PortBecomes s (.outboundWrite d a off bytes) d (fun p => { h with store := p.store }) [] fun p =>
        ∀ k, smGet 0 p.store k = if key ≤ k ∧ k < key + bytes.length then bytes.getD (k - key) 0 else smGet 0 h.store k) ∧
      (¬ inside → NoEffect s (.outboundWrite d a off bytes))) ∧
    ∀ wd value src,
      let img := putField (vibind x) (32 * wd) 32 value.toNat
      let en := bitOf img 31
      let out := if x.en && en then x.outsize.toNat else fieldOf img 64 7
      let cfg := fun i => ((s.sr.pcfg.getD []).getD i 0).toNat
      let used := (h.aps.map fun y => if y.2.en ∧ y.1 ≠ a then y.2.outsize.toNat else 0).sum
      let allowed := cfg (8 + 2 * p) ≤ a ∧ a < cfg (8 + 2 * p) + cfg (9 + 2 * p) ∧
        (∀ e < 4, e ≠ d → (smGet {} (s.die e).host.aps a).en = false) ∧ used + out ≤ 248
      (en = true → allowed → ApBecomes s (.vibindWrite d a wd value src) d a h
        (fun _ => { x with
          en := true, vcnm1 := BitVec.ofNat 4 (fieldOf img 0 4), outsize := BitVec.ofNat 7 out
          inbase := if x.en then x.inbase else BitVec.ofNat 25 (fieldOf img 32 25) }) [] fun _ => True) ∧
      (en = true → ¬ allowed →
        exec (.vibindWrite d a wd value src) s = .next
          (logRecord d 0x10 0x90 (cornerPos d) (0xFF00701000 + 0x4000000 * d + 16 * a + 4 * wd) (2 + src * 2 ^ 32) s)) ∧
      (en = false → x.en = true →
        ApBecomes s (.vibindWrite d a wd value src) d a { h with notes := h.notes.filter fun n => n.1 ≠ a }
          (fun _ => { x with
            en := false, vcnm1 := BitVec.ofNat 4 (fieldOf img 0 4), known := x.head, tail := x.head, held := [], running := []
            binding := x.binding + 1 })
          [] fun _ => True) ∧
      (en = false → x.en = false → ApBecomes s (.vibindWrite d a wd value src) d a h
        (fun _ => { x with
          vcnm1 := BitVec.ofNat 4 (fieldOf img 0 4), outsize := BitVec.ofNat 7 (fieldOf img 64 7)
          inbase := BitVec.ofNat 25 (fieldOf img 32 25) }) [] fun _ => True)

/-- R110, R119: the mailbox between the host and the bursar, and an attestation from its command to its report. -/
def Claim.MailboxAndAttestation : Prop :=
  ∀ (s : State) (d : Nat),
    let h := (s.die d).host
    let p := s.partOf d
    let down := (s.part p).resetting || (s.part p).requested || !s.sr.booted
    let port := fun (e : Instr) (h' : HostPort) (more : List Instr) => DieBecomes s e d { s.die d with host := h' } more
    Lets s (.mbdoor d) (noticeOf d 0x90 h.mbtype []) ∧
    port (.mbset d) { h with mbirq := true } [] ∧
    (h.attcmd = 1 → NoEffect s (.attcmd d)) ∧
    (h.attcmd ≠ 1 → down = true → port (.attcmd d) { h with attcmd := 3 } []) ∧
    (h.attcmd ≠ 1 → down = false → port (.attcmd d) { h with attcmd := 1 } [.attestReport d]) ∧
    (h.attcmd ≠ 1 → NoEffect s (.attestReport d)) ∧
    (h.attcmd = 1 → down = true → port (.attestReport d) { h with attcmd := 3 } []) ∧
    (h.attcmd = 1 → down = false →
      let number := fun (n v : Nat) => (List.range n).map fun i => BitVec.ofNat 8 (v / 256 ^ i)
      let body : List Byte := [1, BitVec.ofNat 8 p, BitVec.ofNat 8 s.sr.devnum.toNat, 0] ++ number 4 (s.part p).svn.toNat ++
        (List.range 32).map (fun i => h.attNonce.getD i 0) ++ (number 48 s.sr.ms.toNat).reverse ++
        (number 48 (s.part p).mp.toNat).reverse ++ s.sr.pcfg.getD (List.replicate 16 0) ++ number 8 Config.serial.toNat
      PortBecomes s (.attestReport d) d (fun q => { h with attcmd := 2, attRep := q.attRep }) [] fun q =>
        ∀ i, smGet 0 q.attRep i = (body ++ Config.ecdsaSign (s.sr.aliasKey.getD 0) body).getD i 0)

/-! ### Events of the Ethernet ports -/

/-- R95 to R99: a frame is counted and dropped, or classified and put into its slice queue; what the tests of a frame find, in
their order. -/
def Claim.FramesReceived : Prop :=
  ∀ (s : State) (d : Nat) (frame : List Byte) (fcs : Bool), d < 4 →
    let e := (s.die d).eth
    let n := frame.length
    let body := frame.take (n - 4)
    let i := decidingRule e body
    let rule := ethRule e i
    let sl := fieldOf rule 10 10
    let q := fieldOf rule 20 3
    let x := smGet {} (s.slice sl).queues q
    let part := s.partOf d
    let good := 64 ≤ n ∧ n ≤ 9216
    let counts := fun i => EthBecomes s (.ethFrameReceive d frame fcs) d (fun _ => e) i []
    (e.en = false ∨ e.up = false → NoEffect s (.ethFrameReceive d frame fcs)) ∧
    (e.en = true → e.up = true →
      (¬ good → counts 2) ∧
      (good → fcs = false → counts 1) ∧
      (good → fcs = true → 2 ^ 21 < e.rxBytes + n → counts 3) ∧
      (good → fcs = true → e.rxBytes + n ≤ 2 ^ 21 → bitOf rule 23 = true → counts 5) ∧
      -- a rule that names a slice of another partition: the refusal is logged
      (good → fcs = true → e.rxBytes + n ≤ 2 ^ 21 → bitOf rule 23 = false → s.partOf (sl / 256) ≠ part →
        let u := logRecord d 0x10 0xA0 (cornerPos d) 0 (7 + (cornerCol d + 32 * cornerRow d + 1024 * 0xA0) * 2 ^ 32) s
        ∃ t, exec (.ethFrameReceive d frame fcs) s = .next t ∧
          OnlyDieAt u t d { u.die d with eth := { e with counters := (t.die d).eth.counters } } [] ∧
          ∀ k, smGet 0 (t.die d).eth.counters k = if k = 5 then bump (smGet 0 e.counters 5) 1 else smGet 0 e.counters k) ∧
      -- one segment for an idle port below XOFF: an entry of the queue, a refusal of a full one, or a frame that waits in the buffer
      (good → fcs = true → e.rxBytes + n ≤ 2 ^ 21 → bitOf rule 23 = false → s.partOf (sl / 256) = part →
        e.rx = [] → e.pausing = none → e.rxBytes + n < e.xoff.toNat * 8192 → ringInside s part x = true →
        body.length ≤ entBytes x - 16 →
        let cls := if fieldOf rule 24 2 = 3 then 0 else fieldOf rule 24 2
        let lost := smGet false e.lostseg (8 * sl + q)
        let entry := body.length + 2 ^ 24 + i * 2 ^ 32 + lost.toNat * 2 ^ 40 + (s.die d).mc.toNat * 2 ^ 64 +
          bytesNat body * 2 ^ 128
        let line := fun k : Nat => x.base.toNat + x.tail.toNat % 2 ^ x.log2n.toNat * (x.entlines.toNat + 1) + k
        let c := cornerRouter d
        (c = sl ∨ (routeOf s c sl (decide (cls = 0)) = .there [] ∧ routeOf s sl c = .there [])) →
        (x.en = true → x.waiters = [] → (x.tail - x.head).toNat ≠ 2 ^ x.log2n.toNat →
          (∀ k ≤ x.entlines.toNat, (sliceLine s sl (line k)).valid = true) →
          ∃ t, exec (.ethFrameReceive d frame fcs) s = .next t ∧ t.due = s.due ∧
            { (t.die d).eth with counters := e.counters, lostseg := e.lostseg } = e ∧
            (∀ k, smGet 0 (t.die d).eth.counters k = if k = 0 then bump (smGet 0 e.counters 0) 1 else smGet 0 e.counters k) ∧
            (∀ k, smGet false (t.die d).eth.lostseg k = if k = 8 * sl + q then false else smGet false e.lostseg k) ∧
            (∀ k, smGet {} (t.slice sl).queues k = if k = q then { x with tail := x.tail + 1 } else smGet {} (s.slice sl).queues k) ∧
            (∀ k ≤ x.entlines.toNat, (sliceLine t sl (line k)).data = BitVec.ofNat 512 (entry / 2 ^ (512 * k))) ∧
            { t with dies := s.dies, slices := s.slices } = s) ∧
        (x.en = false ∨ (x.waiters = [] ∧ (x.tail - x.head).toNat = 2 ^ x.log2n.toNat) →
          ∃ t, exec (.ethFrameReceive d frame fcs) s = .next t ∧ t.due = .ethSegmentRefused d sl q :: s.due ∧
            (∀ k, t.die k = s.die k) ∧ { t with dies := s.dies, due := s.due } = s) ∧
        (x.en = true → x.waiters = [] → (x.tail - x.head).toNat ≠ 2 ^ x.log2n.toNat → (sliceLine s sl (line 0)).valid = false →
          mcFenced s (line 0) = false → lineQueued s sl (line 0) = true →
          DieBecomes s (.ethFrameReceive d frame fcs) d { s.die d with eth := { e with
            rxBytes := e.rxBytes + n
            rx := [{ slice := sl, queue := q, cls := cls, rule := i, arrival := (s.die d).mc.toNat, bytes := body, lost := lost }] } } [])) ∧
      -- at XOFF pause becomes due
      (good → fcs = true → e.rxBytes + n ≤ 2 ^ 21 → bitOf rule 23 = false → s.partOf (sl / 256) = part → e.pausing = none →
        e.pfcen ≠ 0 ∨ e.pauseen = true → e.xoff.toNat * 8192 ≤ e.rxBytes + n →
        ∃ t, exec (.ethFrameReceive d frame fcs) s = .next t ∧ .ethPause d ∈ t.due)) ∧
    ∀ sl q, ∃ t, exec (.ethSegmentRefused d sl q) s = .next t ∧
      OnlyDieAt s t d { s.die d with eth := { e with counters := (t.die d).eth.counters, lostseg := (t.die d).eth.lostseg } } [] ∧
      (∀ k, smGet 0 (t.die d).eth.counters k = if k = 4 then bump (smGet 0 e.counters 4) 1 else smGet 0 e.counters k) ∧
      ∀ k, smGet false (t.die d).eth.lostseg k = if k = 8 * sl + q then true else smGet false e.lostseg k

/-- R95, R99 to R101: pause both ways, the transmit queues, and the link. -/
def Claim.FramesSent : Prop :=
  ∀ (s : State) (d : Nat),
    let e := (s.die d).eth
    let port := fun (i : Instr) (e' : Eth) (more : List Instr) => DieBecomes s i d { s.die d with eth := e' } more
    let queues := fun (i : Instr) (q : Nat) (l : List (List Byte)) (e' : Eth) (more : List Instr) => ∃ t, exec i s = .next t ∧
      OnlyDieAt s t d { s.die d with eth := { e' with tx := (t.die d).eth.tx, counters := (t.die d).eth.counters } } more ∧
      ∀ k, smGet [] (t.die d).eth.tx k = if k = q then l else smGet [] e.tx k
    let xoff := e.xoff.toNat * 8192
    let xon := (if e.xoff ≤ e.xon then e.xoff.toNat - 1 else e.xon.toNat) * 8192
    (xoff ≤ e.rxBytes → port (.ethPause d)
      { e with pausing := if e.pfcen ≠ 0 then some (some e.pfcen) else if e.pauseen then some none else none } []) ∧
    (e.rxBytes < xoff → e.rxBytes ≤ xon → port (.ethPause d) { e with pausing := none } []) ∧
    (e.rxBytes < xoff → xon < e.rxBytes → port (.ethPause d) e []) ∧
    -- 802.3 pause stops all transmission where PAUSEEN is set, PFC the enabled priorities that it names
    port (.ethPauseReceive d none true) { e with pausedAll := e.pauseen || e.pausedAll } [] ∧
    port (.ethPauseReceive d none false) { e with pausedAll := false } [.ethTransmit d] ∧
    (∀ prio : Byte,
      port (.ethPauseReceive d (some prio) true) { e with paused := e.paused ||| (prio &&& e.pfcen) } [] ∧
      port (.ethPauseReceive d (some prio) false) { e with paused := e.paused &&& ~~~prio } [.ethTransmit d]) ∧
    (∀ q (bytes : List Byte),
      let room := ((smGet [] e.tx q).map (·.length)).sum + Nat.max bytes.length 60 ≤ 131072
      let sends := bytes ≠ [] ∧ bytes.length ≤ 9212 ∧ room
      (sends → queues (.ethTxQueueWrite d q bytes) q (smGet [] e.tx q ++ [bytes ++ List.replicate (60 - bytes.length) 0]) 
        { e with counters := e.counters } [.ethTransmit d]) ∧
      (¬ sends → NoEffect s (.ethTxQueueWrite d q bytes))) ∧
    (e.en = false ∨ e.up = false ∨ e.pausedAll = true → NoEffect s (.ethTransmit d)) ∧
    ((∀ q < 8, smGet [] e.tx q = [] ∨ bitOf e.paused q = true) → NoEffect s (.ethTransmit d)) ∧
    (∀ q f fs, e.en = true → e.up = true → e.pausedAll = false → q < 8 → smGet [] e.tx q = f :: fs → bitOf e.paused q = false →
      (∀ k, q < k → k < 8 → smGet [] e.tx k = [] ∨ bitOf e.paused k = true) → ∃ t, exec (.ethTransmit d) s = .next t ∧
        OnlyDieAt s t d
          { s.die d with eth := { e with
            tx := (t.die d).eth.tx, counters := (t.die d).eth.counters, wire := [f ++ frameFcs f] } } [.ethTransmit d] ∧
        (∀ k, smGet [] (t.die d).eth.tx k = if k = q then fs else smGet [] e.tx k) ∧
        ∀ k, smGet 0 (t.die d).eth.counters k = if k = 6 then bump (smGet 0 e.counters 6) 1 else smGet 0 e.counters k) ∧
    port (.ethLinkDown d) { e with up := false } [] ∧
    (e.en = true → port (.ethLinkUp d) { e with up := true } [.ethTransmit d]) ∧
    (e.en = false → NoEffect s (.ethLinkUp d))

/-! ### Events of the management blocks -/

/-- R5, R46, R74, R81, R101, R107, R110, R122, R125, R129, R203: a word store that the management port admits changes the register it
names, or lets the event that it asks for be due; a store elsewhere changes nothing. -/
def Claim.RegisterWrites : Prop :=
  ∀ (s : State) (d src : Nat) (v : Word), d < 4 →
    let D := s.die d
    let at_ := fun off : Nat => Instr.registerWrite (0xFF00000000 + 0x4000000 * d + off) v src
    let f := fun lo n : Nat => v.toNat / 2 ^ lo % 2 ^ n
    NoEffect s (at_ 0) ∧ NoEffect s (at_ 0x200002) ∧
    DieBecomes s (at_ 0x200000) d { D with
      sidle := BitVec.ofNat 12 (Nat.max 4 (f 12 12)), rto := BitVec.ofNat 4 (f 8 4), mergeen := decide (f 0 1 = 1) } [] ∧
    (∀ j < 2,
      let c := s.ctl (2 * d + j)
      let off := fun y : Nat => 0x100000 + 0x10000 * j + y
      CtlBecomes s (at_ (off 0)) (2 * d + j) { c with target := BitVec.ofNat 5 (f 8 5), refused := c.refused && decide (f 2 1 = 0) }
        ((if f 0 1 = 1 then [.mcmapRetire (2 * d + j)] else []) ++ if f 1 1 = 1 then [.mcmapFence (2 * d + j)] else []) ∧
      CtlBecomes s (at_ (off 0x10)) (2 * d + j)
        { c with thresh := BitVec.ofNat 12 (Nat.max 64 (f 16 12)), pace := BitVec.ofNat 8 (Nat.max 1 (f 8 8)) } [] ∧
      CtlBecomes s (at_ (off 0x20)) (2 * d + j)
        { c with ueMore := c.ueMore && decide (f 1 1 = 0), ueValid := c.ueValid && decide (f 0 1 = 0) } []) ∧
    (∀ n < 256,
      let r := routerAt (16 * (d % 2) + n % 16) (16 * (d / 2) + n / 16)
      let x := s.router r
      RouterBecomes s (at_ (0x210000 + 0x100 * n)) r
        { x with
          unroute := x.unroute && decide (f 7 1 = 0), firewall := x.firewall && decide (f 6 1 = 0)
          proto := x.proto && decide (f 5 1 = 0), replayed := x.replayed && decide (f 4 1 = 0) } [] ∧
      RouterBecomes s (at_ (0x210000 + 0x100 * n + 4)) r { x with routecfg := BitVec.ofNat 20 v.toNat } []) ∧
    (∀ n < 2048,
      let sl := 256 * d + n / 8
      let x := s.slice sl
      let q := smGet {} x.queues (n % 8)
      let descriptor := fun (w : Nat) (y : SQueue) => ∃ t, exec (at_ (0x300000 + 16 * n + 4 * w)) s = .next t ∧
        OnlySliceAt s t sl { x with queues := (t.slice sl).queues } [] ∧
        ∀ k, smGet {} (t.slice sl).queues k = if k = n % 8 then y else smGet {} x.queues k
      descriptor 0 { q with entlines := BitVec.ofNat 3 (f 8 3), log2n := BitVec.ofNat 4 (Nat.max 4 (f 4 4)) } ∧
      descriptor 1 { q with
        en := decide (f 0 1 = 1), base := BitVec.ofNat 42 (q.base.toNat / 2 ^ 16 * 2 ^ 16 + f 16 16)
        head := if f 0 1 = 1 then 0 else q.head, tail := if f 0 1 = 1 then 0 else q.tail } ∧
      descriptor 2 { q with base := BitVec.ofNat 42 (f 0 26 * 2 ^ 16 + q.base.toNat % 2 ^ 16) }) ∧
    DieBecomes s (at_ 0x400000) d { D with eth := { D.eth with
      en := decide (f 31 1 = 1), pauseen := decide (f 30 1 = 1), pfcen := BitVec.ofNat 8 (f 16 8), xoff := BitVec.ofNat 8 (f 8 8)
      xon := BitVec.ofNat 8 (f 0 8) } } (if f 31 1 = 1 then [] else [.ethLinkDown d]) ∧
    DieBecomes s (at_ 0x500100) d { D with therm := { D.therm with
      en := decide (f 31 1 = 1), msgtype := BitVec.ofNat 8 (f 16 8), high := BitVec.ofNat 8 (f 8 8)
      low := BitVec.ofNat 8 (f 0 8) } } [] ∧
    Lets s (at_ 0x500104) [.talstatClear d v] ∧
    (∀ j < 4, Lets s (at_ (0x500200 + 4 * j)) [.clthrWrite (4 * d + j) (some v) none]) ∧
    (D.log.en = false → DieBecomes s (at_ 0x600000) d { D with log := { D.log with base := v } } []) ∧
    (D.log.en = true → NoEffect s (at_ 0x600000)) ∧
    Lets s (at_ 0x600004) [.elctlWrite d v] ∧
    DieBecomes s (at_ 0x60000C) d { D with log := { D.log with tail := BitVec.ofNat 16 v.toNat } } [] ∧
    Lets s (at_ 0x60005C) [.elpost d v] ∧
    DieBecomes s (at_ 0x700000) d { D with host := { D.host with mbtype := BitVec.ofNat 8 v.toNat } }
      (if f 8 1 = 1 then [.mbset d] else []) ∧
    -- the mailbox's outgoing words, which the host reads in the control page
    (∀ j < 16, ∃ t, exec (at_ (0x700200 + 4 * j)) s = .next t ∧
      OnlyDieAt s t d { D with host := { D.host with store := (t.die d).host.store } } [] ∧
      ∀ a, smGet 0 (t.die d).host.store a =
        if apKey 255 (0x200 + 4 * j) ≤ a ∧ a < apKey 255 (0x200 + 4 * j) + 4 then
          BitVec.ofNat 8 (f (8 * (a - apKey 255 (0x200 + 4 * j))) 8) else smGet 0 D.host.store a) ∧
    (∀ a < 128, ∀ w < 4, Lets s (at_ (0x701000 + 16 * a + 4 * w)) [.vibindWrite d a w v src]) ∧
    -- the I3C block: GO asks for a transfer, REL for the role to be handed back; GO wins
    (let x := D.i3c
     let y := { x with ctl := v &&& 0x3FFFE00F }
     (x.busy = true ∨ f 30 2 = 0 → DieBecomes s (at_ 0xA00000) d { D with i3c := y } []) ∧
     (x.busy = false → f 31 1 = 1 → DieBecomes s (at_ 0xA00000) d { D with i3c := y } [.i3cGo d]) ∧
     (x.busy = false → f 30 2 = 1 → DieBecomes s (at_ 0xA00000) d { D with i3c := { y with rel := true, busy := true } } []) ∧
     DieBecomes s (at_ 0xA00004) d { D with i3c := { x with
       done := x.done && decide (f 29 1 = 0), nackS := x.nackS && decide (f 28 1 = 0), err := x.err && decide (f 27 1 = 0)
       msgtype := BitVec.ofNat 8 v.toNat } } []) ∧
    ∀ j < 4,
      let c := 4 * d + j
      let x := s.cluster c
      let off := fun y : Nat => 0x900000 + 0x10000 * j + y
      (∀ n < 1024,
        let k := s.core (1024 * c + n)
        CoreBecomes s (at_ (off (16 * n))) (1024 * c + n)
          { k with brkhalt := decide (f 29 1 = 1), sslot := BitVec.ofNat 4 (f 0 4), step := k.step && decide (f 30 1 = 1) }
          ((if decide (f 31 1 = 1) = k.halt then [] else if f 31 1 = 1 then [.coreHalt (1024 * c + n)] else [.coreResume (1024 * c + n)]) ++
            if f 30 2 = 3 then [.coreStep (1024 * c + n)] else [])) ∧
      Lets s (at_ (off 0x600C)) [.fbtailWrite c v] ∧
      (f 30 2 = 0 → Lets s (at_ (off 0x6010)) [.fbwakeRetry c (16384 * c + f 0 14)]) ∧
      (f 30 2 = 1 → Lets s (at_ (off 0x6010)) [.fbwakeKill c (16384 * c + f 0 14) (BitVec.ofNat 8 (f 22 8))]) ∧
      (2 ≤ f 30 2 → ClusterBecomes s (at_ (off 0x6010)) c { x with badwake := true } []) ∧
      Lets s (at_ (off 0x8000)) [.lownerWrite c v] ∧
      ClusterBecomes s (at_ (off 0x8010)) c { x with lsave := BitVec.ofNat 22 v.toNat } [] ∧
      ClusterBecomes s (at_ (off 0x8024)) c { x with lbrecHi := BitVec.ofNat 16 v.toNat } [.bursarLaunch c] ∧
      (f 31 1 = 1 → Lets s (at_ (off 0x8030)) [.clrst c]) ∧
      ClusterBecomes s (at_ (off 0x8104)) c { x with stall := x.stall && decide (f 31 1 = 0) } []

/-- R13, R15, R16, R20, R121 to R124: throttle, power alert and temperatures. -/
def Claim.ThrottleAndThermal : Prop :=
  (∀ (s : State) (c : Nat) (v w : Word),
    let x := s.cluster c
    let now := x.cycle.toNat
    let stored := fun (v : Word) (wait : Nat) =>
      let k := BitVec.ofNat 4 (Nat.min 8 (v.toNat % 16))
      { x with
        k := k
        applies := if s.sr.pwralertn then x.applies.filter (fun a => a.1 < now + wait) ++ [(now + wait, k)] else x.applies }
    ClusterBecomes s (.clthrWrite c (some v) (some w)) c (stored v 32) [] ∧
    ClusterBecomes s (.clthrWrite c none (some w)) c (stored w 39) [] ∧
    -- a rotation begins with the youngest value whose time has come
    ((∀ a ∈ x.applies, now < a.1) → ClusterBecomes s (.throttleApply c) c x []) ∧
    ∀ older a newer, x.applies = older ++ a :: newer → a.1 ≤ now → (∀ b ∈ newer, now < b.1) →
      ClusterBecomes s (.throttleApply c) c { x with applied := a.2, applies := x.applies.filter fun b => now < b.1 } []) ∧
  (∀ (s : State) (level : Bool) (cause : BitVec 3),
    let cool : Word := if level = false ∧ Config.module = true then s.sr.kzmcool ||| cause.setWidth 32 <<< 29 else s.sr.kzmcool
    let held := level = true ∧ Config.module = true ∧ s.sr.kzmcool.toNat / 2 ^ 29 ≠ 0
    (s.sr.pwralertn = level ∨ held →
      exec (.pwralertnEdge level cause) s = .next { s with sr := { s.sr with kzmcool := cool } }) ∧
    (s.sr.pwralertn ≠ level → ¬ held → ∃ u,
      (∀ c, let x := s.cluster c
        let now := x.cycle.toNat
        u.cluster c = if c < 16 then
          { x with applies := x.applies.filter (fun a => a.1 < now + 32) ++ [(now + 32, if level then x.k else 8)] } else x) ∧
      { u with clusters := s.clusters } = { s with sr := { s.sr with kzmcool := cool, pwralertn := level } } ∧
      exec (.pwralertnEdge level cause) s = .next ((List.range 4).foldl
        (fun a d => logRecord d 0x21 0xC1 (cornerPos d) 0 (if level then 0 else 1) a) u))) ∧
  (∀ (s : State) (d : Nat), ∃ t, ∃ lost : List Instr, exec (.dieThermalTrip d) s = .next t ∧
    t.die d = { s.die d with stopped := true, trip := true } ∧ (∀ k, k ≠ d → t.die k = s.die k) ∧ t.due = s.due ++ lost ∧
    (∀ e, e ∈ lost ↔ ∃ r p n, r / 256 = d ∧ p < 4 ∧ neighbour r p = some n ∧ dieOfRouter n ≠ d ∧ e = .linkLost n (oppPort p)) ∧
    { t with dies := s.dies, due := s.due } = { s with sr := { s.sr with thermtrip := true } }) ∧
  (∀ (s : State) (d : Nat) (temps : List (BitVec 16)),
    let T := (s.die d).therm
    let temp := fun i : Nat => temps.getD i 0
    ∃ t hot cool, exec (.thermalSample d temps) s = .next t ∧
      let U := (t.die d).therm
      (∀ i, smGet 0 U.sens i = if i < 64 then temp i else 0) ∧ U.maxtemp = temp U.maxidx.toNat ∧
      (∀ i < 64, (temp i).toInt ≤ U.maxtemp.toInt ∧ (i < U.maxidx.toNat → (temp i).toInt < U.maxtemp.toInt)) ∧
      let low : Int := if T.high ≤ T.low then (T.high.toNat : Int) - 1 else T.low.toNat
      hot = (T.hot || (T.en && decide ((8 * T.high.toNat : Int) ≤ U.maxtemp.toInt))) ∧
      cool = (T.cool || (T.en && decide (U.maxtemp.toInt < 8 * low))) ∧
      OnlyDieAt s t d
        { s.die d with therm := { T with
          sens := U.sens, valid := true, maxidx := U.maxidx, maxtemp := U.maxtemp, hot := hot, cool := cool } }
        ((if hot ≠ T.hot ∨ cool ≠ T.cool then noticeOf d 0xC1 T.msgtype [BitVec.ofNat 32
            (hot.toNat * 2 ^ 31 + cool.toNat * 2 ^ 30 + U.maxidx.toNat * 2 ^ 16 + U.maxtemp.toNat)] else []) ++
          if 8 * 115 ≤ U.maxtemp.toInt then [.dieThermalTrip d] else [])) ∧
  (∀ (s : State) (d : Nat) (v : Word),
    let T := (s.die d).therm
    let low : Int := if T.high ≤ T.low then (T.high.toNat : Int) - 1 else T.low.toNat
    let stillHot := T.valid = true ∧ (8 * T.high.toNat : Int) ≤ T.maxtemp.toInt
    let stillCool := T.valid = true ∧ T.maxtemp.toInt < 8 * low
    DieBecomes s (.talstatClear d v) d
      { s.die d with therm := { T with
        hot := T.hot && !(bitOf v 31 && decide ¬ stillHot), cool := T.cool && !(bitOf v 30 && decide ¬ stillCool) } } []) ∧
  ∀ (s : State) (d i : Nat) (temp : Byte), i < 2 →
    CtlBecomes s (.stackTempUpdate d i temp) (2 * d + i) { s.ctl (2 * d + i) with stkTemp := temp, stkHot := decide (85 < temp.toNat) } []

/-- R125 to R127: what the log unit writes for a record `(w0, rest)` that has reached it: 32 bytes at the head of its ring, with PHASE
and DROPPED, and a message when the ring was empty; a full ring drops it. A ring outside the partition's memory drops it too, which is
the model's choice (log entry 13). -/
def Claim.LogRing : Prop :=
  ∀ (s : State) (d w0 rest : Nat),
    let D := s.die d
    let l := D.log
    let size := 2 ^ l.log2n.toNat
    let ix := l.head.toNat % size
    let pa := l.base.toNat * 4096 + l.basehi.toNat * 2 ^ 44 + 32 * ix
    let full := (l.head - l.tail).toNat = size
    let ours := pa < 2 ^ 39 ∧ s.partOf (pa / 2 ^ 37) = s.partOf d
    (l.en = false → logPut d (w0, rest) s = some s) ∧
    (l.en = true → full ∨ ¬ ours → ∃ t, logPut d (w0, rest) s = some t ∧
      OnlyDieAt s t d { D with log := { l with drop := bump l.drop 1, dropped := true } } []) ∧
    ∀ sl, l.en = true → ¬ full → ours → hashHome (s.part (s.partOf d)).place 63 pa = some sl → (sliceLine s sl (pa / 64)).valid = true →
      (cornerRouter d = sl ∨ (routeOf s (cornerRouter d) sl false = .there [] ∧ routeOf s sl (cornerRouter d) = .there [])) →
      ∃ t, logPut d (w0, rest) s = some t ∧
        LineWrote s t sl pa 32
          ((w0 + (if l.dropped then 2 ^ 30 else 0) + (if l.wrap then 0 else 2 ^ 31) + rest % 2 ^ 224 * 2 ^ 32) % 2 ^ 256)
          (sliceLine s sl (pa / 64)).full ∧
        t.die d = { D with log := { l with
          head := l.head + 1, dropped := false, wrap := if ix + 1 = size then !l.wrap else l.wrap } } ∧
        (∀ k, k ≠ d → t.die k = s.die k) ∧
        t.due = s.due ++ (if l.head = l.tail then noticeOf d 0xC1 l.msgtype [] else []) ∧
        { t with dies := s.dies, slices := s.slices, due := s.due } = s

/-- R20, R125 to R129: the error log's registers and the I3C blocks. -/
def Claim.LogAndI3c : Prop :=
  (∀ (s : State) (d : Nat) (v : Word),
    let D := s.die d
    let l := D.log
    (l.en = true → DieBecomes s (.elctlWrite d v) d { D with log := { l with en := bitOf v 31 } } []) ∧
    (l.en = false → DieBecomes s (.elctlWrite d v) d
      { D with log := { l with
        en := bitOf v 31, basehi := BitVec.ofNat 4 (v.toNat / 2 ^ 24), log2n := BitVec.ofNat 4 (Nat.max 7 (v.toNat / 2 ^ 20 % 16))
        msgtype := BitVec.ofNat 8 v.toNat, wrap := if bitOf v 31 then false else l.wrap } } []) ∧
    -- a post reaches the log unit when its code is one that firmware may post
    let w := fun i : Nat => if i = 7 then v else smGet 0 l.post i
    let code := (w 0).toNat / 2 ^ 16 % 256
    let rest := ((List.range 7).map fun i => (w (i + 1)).toNat * 2 ^ (32 * i)).sum
    ∃ t, exec (.elpost d v) s = .next t ∧ (∀ k, smGet 0 (t.die d).log.post k = w k) ∧
      OnlyDieAt s t d { D with log := { l with
        post := (t.die d).log.post
        pend := if l.en = true ∧ (code = 0x30 ∨ 0x80 ≤ code) then l.pend ++ [((w 0).toNat % 2 ^ 30, rest)] else l.pend } } []) ∧
  (∀ (s : State) (d : Nat),
    let D := s.die d
    let x := D.i3c
    let i3c := fun (e : Instr) (y : I3c) (more : List Instr) => DieBecomes s e d { D with i3c := y } more
    let ended := fun (y : I3c) (nack err : Bool) =>
      { y with go := false, busy := false, done := true, nackS := y.nackS || nack, err := y.err || err }
    let ends := fun (e : Instr) (y : I3c) (nack err : Bool) => i3c e (ended y nack err) (noticeOf d 0xC1 x.msgtype [])
    let used := fun p : Nat => (s.sr.pcfg.getD []) ≠ [] ∧ pcfgDies (s.sr.pcfg.getD []) p ≠ []
    (x.busy = false → i3c (.i3cGo d) { x with go := true, busy := true } []) ∧
    (x.busy = true → NoEffect s (.i3cGo d)) ∧
    (x.rel = true → i3c (.i3cRel d) { x with rel := false, role := false, busy := false } []) ∧
    (x.rel = false → NoEffect s (.i3cRel d)) ∧
    (x.go = true → i3c (.i3cRoleGrant d) { x with role := true } []) ∧
    (x.go = true → x.role = false → ends (.i3cRoleTimeout d) x false true) ∧
    (∀ nack err data cool, x.go = true → x.role = true → fieldOf x.ctl 23 7 ≠ 0x52 →
      (bitOf x.ctl 22 = false ∨ nack = true ∨ err = true → ends (.i3cTransferDone d nack err data cool) x nack err) ∧
      (bitOf x.ctl 22 = true → x.ctl.toNat % 16 = 8 → ∀ b : Nat → Byte, data = (List.range 8).map b →
        ends (.i3cTransferDone d false false data cool)
          { x with data0 := b 3 ++ b 2 ++ b 1 ++ b 0, data1 := b 7 ++ b 6 ++ b 5 ++ b 4 } false false)) ∧
    -- the carrier's KZMCOOL at 0x52: nothing answers on a KZ-4P; a read shows it, a write clears what no longer holds
    (x.go = true → x.role = true → fieldOf x.ctl 23 7 = 0x52 → ∀ err data cool,
      (Config.module = false → ends (.i3cTransferDone d false err data cool) x true err) ∧
      (Config.module = true → ∀ w1c : Word,
        let k := (s.sr.kzmcool &&& ~~~w1c ||| cool) &&& 0xE0000000 ||| cool &&& 0xFFFFFF
        let alert : List Instr := if k.toNat / 2 ^ 29 ≠ 0 ∧ s.sr.pwralertn = true then [.pwralertnEdge false 0] else []
        let answers := fun (y : I3c) => ∃ t, exec (.i3cTransferDone d false false data cool) s = .next t ∧
          OnlyDieAt { s with sr := { s.sr with kzmcool := k } } t d { D with i3c := ended y false false }
            (alert ++ noticeOf d 0xC1 x.msgtype [])
        (bitOf x.ctl 22 = true → bitOf x.ctl 21 = true → fieldOf x.ctl 13 8 = 0x10 → x.ctl.toNat % 16 = 4 → w1c = 0 →
          answers { x with data0 := k }) ∧
        (bitOf x.ctl 22 = false → bitOf x.ctl 21 = false → x.ctl.toNat % 16 = 5 → fieldOf x.data0 0 8 = 0x10 →
          w1c.toNat = fieldOf x.data0 8 24 + fieldOf x.data1 0 8 * 2 ^ 24 → answers x))) ∧
    (∀ a, i3c (.i3cDynamicAddress d a) { x with dyn := some a } []) ∧
    (∀ (addr : BitVec 7) (index : Byte) value,
      let mine := addr.toNat = 0x30 + d ∨ x.dyn = some addr
      let listed := index = 0 ∨ index = 4 ∨ index = 8 ∨ index = 12 ∨ index = 16
      (¬ mine → NoEffect s (.i3cPrivateWrite d index value addr)) ∧
      (mine → ¬ listed → i3c (.i3cPrivateWrite d index value addr) { x with nack := true } []) ∧
      (mine → listed → i3c (.i3cPrivateWrite d index value addr) { x with index := index, nack := false }
        (if index = 16 then value.toList.map fun v => .preset d v else []))) ∧
    (∀ v : Word,
      let p := v.toNat % 4
      let allowed := v.toNat / 2 ^ 8 % 256 = 0xA5 ∧ bitOf ((s.sr.pcfg.getD []).getD 3 0) 0 = true
      (used p → allowed → (s.part p).requested = false →
        PartBecomes s (.preset d v) p { s.part p with requested := true } [.partitionReset p]) ∧
      (used p → allowed → (s.part p).requested = true → NoEffect s (.preset d v)) ∧
      (used p → ¬ allowed → exec (.preset d v) s = .next (logRecord (s.primaryDie p) 0x10 0xC1 (cornerPos d) 0 0 s)) ∧
      (¬ used p → NoEffect s (.preset d v))) ∧
    ∀ p,
      (used p → (s.part p).requested = false →
        PartBecomes s (.mprstReq p) p { s.part p with requested := true } [.partitionReset p]) ∧
      (used p → (s.part p).requested = true → NoEffect s (.mprstReq p)) ∧
      (¬ used p → NoEffect s (.mprstReq p)))

/-! ### Events of the package -/

/-- R11, R13, R17 to R19, R41, R86, R102, R103, R106, R116 to R118, R425: power, boot, partition reset and the start of a bursar. -/
def Claim.BootAndReset : Prop :=
  (∀ (s : State) (cycled : Bool),
    (s.sr.powered = false → cycled = false → NoEffect s (.porstnAssert cycled)) ∧
    (s.sr.powered = true ∨ cycled = true → ∃ t, exec (.porstnAssert cycled) s = .next t ∧
      (∀ c, t.cluster c = if c < 16 then { applied := if s.sr.pwralertn then 0 else 8 } else {}) ∧
      { t with clusters := [] } =
        { sr := { porstn := false, pwralertn := s.sr.pwralertn, flash := s.sr.flash, stacksTrained := s.sr.stacksTrained
                  selfTested := s.sr.selfTested, releaseFails := s.sr.releaseFails, fuses := s.sr.fuses, kzmcool := s.sr.kzmcool }
          fresh := s.fresh })) ∧
  (∀ s : State, (s.sr.porstn = true → exec .railFault s = .next
      { s with sr := { s.sr with powered := false, thermtrip := true }, due := [], later := [], mcDue := 0 }) ∧
    (s.sr.porstn = false → NoEffect s .railFault)) ∧
  (∀ s : State, s.sr.powered = true → s.sr.stage = 0 →
    let b := flashBytes s.sr 0x1000 16
    let old := smGet 0 s.sr.fuses
    let fails := fun (code : BitVec 4) (ms : BitVec 384) (fuses : Nat → BitVec 64) => ∃ t, exec .boot s = .next t ∧
      (∀ k, smGet 0 t.sr.fuses k = fuses k) ∧
      t = { s with sr := { s.sr with porstn := true, ms := ms, stage := 0xF, fail := code, fuses := t.sr.fuses } }
    if s.sr.selfTested = false then fails 1 s.sr.ms old
    else match verifyContainer s.sr 1 0x10000 with
      | none => fails 2 s.sr.ms old
      | some fw =>
        let burnt := fun k => old k ||| if k = 1 ∨ k = 2 then Config.svnRequest fw.body k else 0
        match pcfgOk b, verifyContainer s.sr 3 0x4000 with
        | true, some id => ∃ t, exec .boot s = .next t ∧ (∀ k, smGet 0 t.sr.fuses k = burnt k) ∧
            t.sr.flash = s.sr.flash ∧ t.sr.pcfg = some b ∧ t.sr.idcert = id.bytes ∧
            t.sr.ms = extend (extend 0 fw.digest) (sha384 b) ∧ t.sr.devnum = BitVec.ofNat 6 (b.getD 2 0).toNat ∧
            t.sr.aliasKey = some (deriveAlias Config.deviceSecret t.sr.ms) ∧
            (s.sr.stacksTrained = false → t.sr.stage = 0xF ∧ t.sr.fail = 4 ∧ t.sr.booted = s.sr.booted) ∧
            (s.sr.stacksTrained = true → t.sr.stage = 8 ∧ t.sr.booted = true ∧ ∀ d < 4,
              let im := verifyContainer t.sr 2 (0x100000 + (b.getD (4 + pcfgPart b d) 0).toNat * 0x800000)
              let released := im.isSome && !bitOf s.sr.releaseFails (pcfgPart b d)
              (released = true → Instr.bursarStart d ∈ t.due ∧ Instr.bursarInit d ∈ t.due) ∧
              bitOf t.sr.dieup d = (bitOf s.sr.dieup d || released))
        | _, _ => fails 3 (extend 0 fw.digest) burnt) ∧
  (∀ s : State, s.sr.powered = false ∨ s.sr.stage ≠ 0 → NoEffect s .boot) ∧
  (∀ (s : State) (p : Nat) (b : List Byte), s.sr.booted = true → s.sr.pcfg = some b → pcfgDies b p ≠ [] →
    let mine := fun d => d < 4 ∧ pcfgPart b d = p
    let im := verifyContainer s.sr 2 (0x100000 + (b.getD (4 + p) 0).toNat * 0x800000)
    ∃ t, exec (.partitionReset p) s = .next t ∧
      (∀ c, mine (dieOfCluster c) → t.cluster c = { applied := if s.sr.pwralertn = false ∧ c < 16 then 8 else 0 }) ∧
      (∀ c, ¬ mine (dieOfCluster c) → t.cluster c = s.cluster c) ∧
      (∀ n, mine (dieOfCluster (unitOf n)) → t.core n = {}) ∧ (∀ n, ¬ mine (dieOfCluster (unitOf n)) → t.core n = s.core n) ∧
      (∀ k, mine (dieOfCluster (unitOf (coreOf k))) → t.slot k = {}) ∧
      (∀ k, ¬ mine (dieOfCluster (unitOf (coreOf k))) → t.slot k = s.slot k) ∧
      (∀ n, mine (n / 2) → t.ctl n = {}) ∧ (∀ n, ¬ mine (n / 2) → t.ctl n = s.ctl n) ∧
      (∀ g, mine (g / 256) → t.engine g = {} ∧ t.bulkOf g = {} ∧ t.slice g = {}) ∧
      (∀ g, ¬ mine (g / 256) → t.engine g = s.engine g ∧ t.bulkOf g = s.bulkOf g ∧ t.slice g = s.slice g) ∧
      (t.part p).requested = false ∧ (∀ q, q ≠ p → t.part q = s.part q) ∧
      -- where step 5 or 6 fails the dies stay in reset
      let down := (t.part p).resetting = true ∧ bitOf t.sr.failp p = decide (p < 3) ∧ ∀ d, mine d → bitOf t.sr.dieup d = false
      match im with
      | none => down
      | some i => (t.part p).mp = extend 0 i.digest ∧ (t.part p).svn = BitVec.ofNat 32 i.svn ∧
          (bitOf s.sr.releaseFails p = true → down) ∧
          (bitOf s.sr.releaseFails p = false → (t.part p).resetting = false ∧ bitOf t.sr.failp p = false ∧
            ∀ d, mine d → bitOf t.sr.dieup d = true ∧ Instr.bursarStart d ∈ t.due ∧ Instr.bursarInit d ∈ t.due)) ∧
  (∀ (s : State) (d : Nat),
    let n := 16384 + d
    let sram := fun o : Nat => vWord s (((16 + d) * 2 ^ 25 + o) / 4)
    ∃ t, exec (.bursarStart d) s = .next t ∧ t.core n = {} ∧ t.cluster (16 + d) = {} ∧
      t.slot (16 * n) = { pc := sram 0x10, status := 0x100, run := .ready, sg := (t.slot (16 * n)).sg } ∧
      (∀ k, smGet 0 (t.slot (16 * n)).sg k = if k = 0 then codeSegment 0x1000 (sram 0xC).toNat else 0) ∧
      (∀ k, coreOf k = n → k ≠ 16 * n → t.slot k = {}) ∧ (∀ k, coreOf k ≠ n → t.slot k = s.slot k) ∧
      (∀ m, m ≠ n → t.core m = s.core m) ∧ (∀ c, c ≠ 16 + d → t.cluster c = s.cluster c) ∧
      { t with cores := s.cores, clusters := s.clusters, slots := s.slots } = s) ∧
  ∀ (s : State) (d : Nat),
    let mine := fun line : Nat => line / 2 ^ 30 % 8 / 2 = d
    ∃ t, exec (.bursarInit d) s = .next t ∧ (∀ a, smGet 0 t.mem a = if mine (a / 64) then 0 else smGet 0 s.mem a) ∧
      (∀ l, memFullOf t l = if mine l then 0xFFFF else memFullOf s l) ∧
      (∀ l, smGet [] t.flips l = if mine l then [] else smGet [] s.flips l) ∧
      (∀ n, t.slice n = if n / 256 = d then {} else s.slice n) ∧
      t.die d = { s.die d with host := { (s.die d).host with open_ := true, store := [] } } ∧ (∀ k, k ≠ d → t.die k = s.die k) ∧
      { t with mem := s.mem, memFull := s.memFull, flips := s.flips, slices := s.slices, dies := s.dies } = s

/-! ### Events of launches -/

/-- R90, R130 to R133, R136, R147: the launch units take the next record whose pair has one: a record or header that fails a check
completes with STATUS 3 and its number; else the launch starts on the IDLE clusters that hold its virtual clusters. The bursar's
launch is read where LBREC points. A read that a held line or route stops is tried again in the next work cycle. -/
def Claim.LaunchDispatch : Prop :=
  (∀ (s : State) (p d v q : Nat), v < 128 → ((s.part p).lastVq + 1) % 2048 = 128 * q + v → q < 16 →
    let x := s.ap d v
    let slot := smGet 0 x.head q
    let r := rdBytes (s.die d).host.store (v * 0x1000000 + 4096 * q + 64 * (1 + slot)) 64
    let inb := x.inbase.toNat * 2 ^ 23
    let rq := rqUnit (cornerRouter d) 0x90 false s
    d < 4 → s.partOf d = p → x.en = true → (∀ e < d, s.partOf e = p → (s.ap e v).en = false) →
    slot ≠ smGet 0 x.known q → r.testBit 59 = false →
    let held := fun o : Obst => ∃ u, u = o.touch s ∧ exec (.launchDispatch p) s = .next { u with later := u.later ++ [.launchDispatch p] }
    let refuses := fun (u : State) (code : Nat) => ∃ t, exec (.launchDispatch p) s = .next t ∧
      t.due = u.due ++ [.completionRecordWrite d v q, .launchDispatch p] ∧
      (∀ k, smGet 0 (t.ap d v).head k = if k = q then (slot + 1) % 63 else smGet 0 (u.ap d v).head k) ∧
      (∀ k, smGet [] (t.ap d v).held k = if k = q then smGet [] (u.ap d v).held q ++
          [[BitVec.ofNat 32 (slot * 2 ^ 16 + 3), BitVec.ofNat 32 (r % 2 ^ 32), 0, 0, BitVec.ofNat 32 code, 0, 0, 0]]
        else smGet [] (u.ap d v).held k) ∧ (∀ e, e ≠ d → t.die e = u.die e) ∧ { t with dies := u.dies, due := u.due } = u
    match readImage rq (inb + recHdr r) 256 s with
    | .error (.wait o) _ => held o
    | .error _ u => refuses u 9
    | .ok h u =>
      let mp := h / 256 ^ 0x40 % 2 ^ 64
      let n := launchCheck (x.vcnm1.toNat + 1) (decide (recHdr r + 256 ≤ 0x800000) && decide (mp + 1536 ≤ 0x800000)) r h
      if n ≠ 0 then refuses u n
      else ∀ ks, residents u p v (h / 256 % 256) = some ks →
        -- the mint lines that MINTEN names
        match readMint rq (inb + mp) (BitVec.ofNat 16 (h / 256 ^ 0x48)) u with
        | .error (.wait o) _ => held o
        | .error _ w => refuses w 9
        | .ok m w => ∃ t, exec (.launchDispatch p) s = .next t ∧ (t.part p).lastVq = 128 * q + v ∧
            (∀ k, smGet 0 (t.ap d v).head k = if k = q then (slot + 1) % 63 else smGet 0 (w.ap d v).head k) ∧
            (∀ k, smGet [] (t.ap d v).running k =
              if k = q then smGet [] (w.ap d v).running q ++ [slot] else smGet [] (w.ap d v).running k) ∧
            t.due = w.due ++ ks.map Instr.launchSetup ++ [.launchDispatch p] ∧
            (∀ k, k ∉ ks → t.cluster k = w.cluster k) ∧
            ∀ i k, ks[i]? = some k → (t.cluster k).owState = 1 ∧ (t.cluster k).lnum = (w.cluster k).lnum + 1 ∧
              (t.cluster k).launch = some { makeLaunch (w.cluster (ks.headD 0)) ks r h m with
                vi := v, die := d, queue := q, slotNo := slot, binding := x.binding, vc := i
                stealWait := (w.cluster k).stealWait.toNat }) ∧
  ∀ (s : State) (c : Nat),
    let x := s.cluster c
    let p := s.partOf (dieOfCluster c)
    let rq := rqUnit (64 * c) 0x52 false s
    let held := fun o : Obst => ∃ u, u = o.touch s ∧ exec (.bursarLaunch c) s = .next { u with later := u.later ++ [.bursarLaunch c] }
    let refuses := fun (u : State) (tag : Word) (code : Nat) =>
      match bursarCompletion c [3, tag, 0, 0, BitVec.ofNat 32 code, 0, 0, 0] u with
      | .ok t => exec (.bursarLaunch c) s = .next t
      | .error o => held o
    match readImage rq (x.lbrecLo.toNat + x.lbrecHi.toNat * 2 ^ 32) 64 s with
    | .error (.wait o) _ => held o
    | .error _ u => refuses u 0 9
    | .ok r u =>
      let tag := BitVec.ofNat 32 (r % 2 ^ 32)
      match readImage rq (recHdr r) 256 u with
      | .error (.wait o) _ => held o
      | .error _ w => refuses w tag 9
      | .ok h w =>
        let mp := h / 256 ^ 0x40 % 2 ^ 64
        let n := launchCheck 16 (insidePartition w p (recHdr r) 256 && insidePartition w p mp 1536) r h
        if n ≠ 0 then refuses w tag n
        else
          let count := h / 256 % 256
          let ks := ((List.range 16).filter fun k =>
            w.partOf (dieOfCluster k) = p && (w.cluster k).owEn && (w.cluster k).owBursar).take count
          if ks.length < count ∨ ∃ k ∈ ks, (w.cluster k).owState ≠ 0 then
            ∃ t, exec (.bursarLaunch c) s = .next t ∧ OnlyClusterAt w t c { w.cluster c with prIgn := true } []
          else match readMint rq mp (BitVec.ofNat 16 (h / 256 ^ 0x48)) w with
            | .error (.wait o) _ => held o
            | .error _ y => refuses y tag 9
            | .ok m y => ∃ t, exec (.bursarLaunch c) s = .next t ∧ t.due = y.due ++ ks.map Instr.launchSetup ∧
                (∀ k, k ∉ ks → t.cluster k = y.cluster k) ∧
                ∀ i k, ks[i]? = some k → (t.cluster k).owState = 1 ∧ (t.cluster k).launch = some
                  { makeLaunch (y.cluster (ks.headD 0)) ks r h m with
                    bursar := true, die := dieOfCluster c, queue := c, vc := i, stealWait := (y.cluster k).stealWait.toNat }

/-- R147, R90: the completion record of a bursar's launch is written at LBCOMP, and its message goes to the bursar. Its PHASE and SLOT
are free values. -/
def Claim.BursarCompletions : Prop :=
  ∀ (s : State) (c sl : Nat) (ws : List Word),
    let x := s.cluster c
    let d := dieOfCluster c
    let pa := x.lbcompLo.toNat + x.lbcompHi.toNat * 2 ^ 32
    ws.length = 8 → ws.headD 0 &&& 0x80FF0000 = 0 → pa < 2 ^ 39 → s.partOf (pa / 2 ^ 37) = s.partOf d →
    hashHome (s.part (s.partOf d)).place 63 pa = some sl → (sliceLine s sl (pa / 64)).valid = true → pa % 32 = 0 →
    (64 * c = sl ∨ (routeOf s (64 * c) sl false = .there [] ∧ routeOf s sl (64 * c) = .there [])) →
    s.partOf (dieOfRouter (64 * c)) = s.partOf d →
    ∃ t v, bursarCompletion c ws s = .ok t ∧ LineWrote s t sl pa 32 v (sliceLine s sl (pa / 64)).full ∧
      (∀ i < 8, BitVec.ofNat 32 (v / 2 ^ (32 * i)) &&& (if i = 0 then 0x7F00FFFF else 0xFFFFFFFF) =
        ws.getD i 0 &&& (if i = 0 then 0x7F00FFFF else 0xFFFFFFFF)) ∧
      t.due = s.due ++ (if x.lbmsg = 0 then [] else [.messageArrive (16384 + d)
        { typ := x.lbmsg, sender := BitVec.ofNat 32 (2 ^ 31 + position (groupCol (64 * c)) (groupRow (64 * c)) 0x52), words := []
          cls := 1, device := true }]) ∧
      t.fresh = s.fresh + 1 ∧ { t with slices := s.slices, due := s.due, fresh := s.fresh } = s

/-- R136, R138, R166, R170, R426: what the set-up of a launch leaves in a cluster and in its used cores and launch slots. -/
def Claim.LaunchSetup : Prop :=
  ∀ (s : State) (c : Nat) (l : Launch), (s.cluster c).launch = some l → l.ng ≤ 64 →
    let vi := (s.cluster c).owVi.toNat
    ∃ t, exec (.launchSetup c) s = .next t ∧
      (if (s.cluster c).prevVi = some vi then t.vault = s.vault
        else (∀ a, a / 2 ^ 25 = c → smGet 0 t.vault a = 0) ∧ (∀ w, w / 2 ^ 23 = c → vFullOf t w = true) ∧
          ∀ g, g / 64 = c → (t.engine g).tiles = [] ∧ (t.engine g).escrow = []) ∧
      (t.cluster c).prevVi = some vi ∧ (t.cluster c).mint = l.mint ∧ (t.cluster c).freq = l.freq ∧ (t.cluster c).timers = [] ∧
      (t.cluster c).qlen = 0 ∧ (t.cluster c).rotmode = l.rotmode ∧
      (t.cluster c).ctx = some (l.bursar, if l.bursar then 0 else l.vi) ∧
      (∀ b < 32, smGet {} (t.cluster c).barriers b = { cores := BitVec.ofNat 1024 (2 ^ (16 * l.ng) - 1), slots := l.slotmask }) ∧
      (∀ g < l.ng, (t.engine (64 * c + g)).l0.tag = none ∧ (t.engine (64 * c + g)).l1.tag = none ∧
        (t.engine (64 * c + g)).queue = [] ∧ (t.engine (64 * c + g)).rsn = 0) ∧
      ∀ i < 16 * l.ng,
        let y := t.core (1024 * c + i)
        y.tvec = l.tvec ∧ y.srkeyLo = l.srkeyLo ∧ y.srkeyHi = l.srkeyHi ∧ y.segtab = l.segtab ∧ y.msgvec = l.msgvec ∧
        y.widshape = l.widshape ∧ y.deque = [] ∧ y.queues = [] ∧ y.rxbuf = [] ∧ y.ports = [] ∧ y.inputs = [] ∧ y.counters = [] ∧
        y.errbits = 0 ∧ y.count = 0 ∧
        ∀ j < 16, bitOf l.slotmask j = true → l.place ≠ 1 →
          let k := 16 * (1024 * c + i) + j
          let rank := ((List.range j).countP fun m => bitOf l.slotmask m)
          let ranks := ((List.range 16).countP fun m => bitOf l.slotmask m)
          let wid := l.widbase + BitVec.ofNat 64 ((l.vc * l.ng * 16 + i) * ranks + rank)
          let sl := t.slot k
          sl.run = .ready ∧ sl.pc = l.entry ∧ sl.sg = l.segs ∧ sl.fmtdef = l.fmtdef ∧ sl.widLo = wid.setWidth 32 ∧
          sl.widHi = (wid >>> 32).setWidth 32 ∧ sl.status = (if l.bursar then 0x100 else 0) ∧ sl.cyclehLatch = 0 ∧
          ∀ r, smGet 0 sl.g r = if r = 2 then BitVec.ofNat 32 (l.stkbase.toNat + (i * ranks + rank + 1) * l.stksize.toNat)
            else if 4 ≤ r ∧ r < 12 then smGet 0 l.args (r - 4) else 0

/-- R140, R141: the drain of a launch: reports, confirmation, CLOSE. -/
def Claim.LaunchDrain : Prop :=
  ∀ (s : State) (c : Nat) (l : Launch), (s.cluster c).launch = some l →
    let x := s.cluster c
    let root := l.clusters.headD c
    -- no thread, no deque or mailbox entry, and no unacknowledged typed message, remote spawn or steal reply of a core
    let quiet := fun (n : Nat) => (s.core n).heldSteal = none ∧ (∀ m ∈ (s.core n).rxbuf, m.typ = 0) ∧
      ∀ q ∈ s.requests, q.origin = 256 * coreRouter n + coreEndpoint n → q.answer = none →
        q.pkt.opcode ≠ 0x06 ∧ ¬ (q.pkt.opcode = 0x05 ∧ fieldOf q.pkt.param 0 8 ≠ 0)
    let drained := (∀ e ∈ s.slots, unitOf (coreOf e.1) = c → e.2.run = .idle) ∧
      (∀ e ∈ s.cores, unitOf e.1 = c → e.2.deque = [] ∧ e.2.mailbox = [] ∧ quiet e.1) ∧
      x.qlen = 0 ∧ copiesOf s c = [] ∧ entriesLeft s l c = false
    (x.owState = 1 → x.drainedSent = false → drained →
      ClusterBecomes s (.clusterDrained c) c { x with drainedSent := true } [.drained root c x.epoch]) ∧
    (¬ drained → NoEffect s (.clusterDrained c)) ∧
    (∀ k epoch, k ∈ l.clusters →
      let reports := fun (j : Nat) => if j = k then epoch + 1 else smGet 0 x.reports j
      let complete := x.confirming = false ∧ x.closeSent = false ∧ ∀ j ∈ l.clusters, reports j ≠ 0
      ∃ t, exec (.drained c k epoch) s = .next t ∧ (∀ j, smGet 0 (t.cluster c).reports j = reports j) ∧
        OnlyClusterAt s t c
          (let y := { x with reports := (t.cluster c).reports }
            if complete then { y with confirming := true, answers := [] } else y)
          (if complete then l.clusters.map Instr.confirm else [])) ∧
    ((drained → ∃ t, exec (.confirm c) s = .next t ∧
        OnlyClusterAt s t root { s.cluster root with answers := (t.cluster root).answers } [.confirmAnswer root] ∧
        ∀ j, smGet 0 (t.cluster root).answers j =
          if j = c then 2 * x.epoch + x.drainedSent.toNat + 1 else smGet 0 (s.cluster root).answers j) ∧
      (¬ drained → ∃ t, exec (.confirm c) s = .next t ∧
        OnlyClusterAt s t root { s.cluster root with answers := (t.cluster root).answers } [.confirmAnswer root] ∧
        ∀ j, smGet 0 (t.cluster root).answers j = if j = c then 2 * x.epoch + 1 else smGet 0 (s.cluster root).answers j)) ∧
    (x.confirming = true → (∀ k ∈ l.clusters, smGet 0 x.answers k ≠ 0) →
      let good := fun k => smGet 0 x.answers k = 2 * (smGet 0 x.reports k - 1) + 2
      ((∀ k ∈ l.clusters, good k) → ClusterBecomes s (.confirmAnswer c) c { x with confirming := false, closeSent := true }
        (l.clusters.map Instr.close)) ∧
      ((∃ k ∈ l.clusters, ¬ good k) → ∃ t, exec (.confirmAnswer c) s = .next t ∧
        OnlyClusterAt s t c { x with confirming := false, answers := [], reports := (t.cluster c).reports } [] ∧
        ∀ k, smGet 0 (t.cluster c).reports k = if good k then smGet 0 x.reports k else 0)) ∧
    (x.ending = none → l.ng ≤ 64 → ∃ t, exec (.close c) s = .next t ∧
      t.due = s.due ++ ((List.range (16 * l.ng)).map fun i => .coreDone (1024 * c + i)) ∧
      (∀ i < 16 * l.ng, t.core (1024 * c + i) =
        { s.core (1024 * c + i) with closing := true, done := false, got := [], rxbuf := [] }) ∧
      (∀ n, (∀ i < 16 * l.ng, n ≠ 1024 * c + i) → t.core n = s.core n) ∧ { t with cores := s.cores, due := s.due } = s)

/-- R90, R108, R142, R175: the done tree, the completion of a launch, and STALL-ALL. -/
def Claim.LaunchCompletion : Prop :=
  (∀ (s : State) (n : Nat),
    let x := s.core n
    let g := n / 16
    let finished := (∀ i < 16, (s.slot (16 * n + i)).relaxed = []) ∧ (∀ y ∈ (s.bulkOf g).copies, coreOf y.slot ≠ n) ∧
      (∀ y ∈ (s.engine g).queue, coreOf y.slot ≠ n) ∧ (∀ y, (s.engine g).cmd = some y → coreOf y.slot ≠ n) ∧
      ∀ y ∈ (s.engine g).retiring, coreOf y.1 ≠ n
    (x.closing = true → x.done = false → finished → CoreBecomes s (.coreDone n) n { x with done := true } [.doneMessage n]) ∧
    (x.closing = false ∨ x.done = true ∨ ¬ finished → NoEffect s (.coreDone n))) ∧
  (∀ (s : State) (n : Nat) (l : Launch), n < 16384 → (s.cluster (n / 1024)).launch = some l → l.ng ≤ 64 →
    let x := s.core n
    let c := n / 1024
    let i := n % 1024
    let own : DoneMsg := (x.count, x.errbits, x.first.map fun f => (flatCore s n, f.1, 16 * flatCore s n + f.2))
    let m := combineDone (own :: x.got)
    -- the children in use: the cores of the group, then the groups of the quadrant, then the quadrants
    let children := (if i % 16 = 0 then 15 else 0) + (if i % 256 = 0 then Nat.min 16 (l.ng - i / 16) - 1 else 0) +
      if i = 0 then (l.ng + 15) / 16 - 1 else 0
    let parent := if i % 16 ≠ 0 then i / 16 * 16 else if i % 256 ≠ 0 then i / 256 * 256 else 0
    x.closing = true → x.done = true →
    (x.got.length < children → NoEffect s (.doneMessage n)) ∧
    (children ≤ x.got.length → i ≠ 0 → ∃ t, exec (.doneMessage n) s = .next t ∧
      t.core n = { x with closing := false } ∧
      t.core (1024 * c + parent) = { s.core (1024 * c + parent) with got := (s.core (1024 * c + parent)).got ++ [m] } ∧
      (∀ k, k ≠ n → k ≠ 1024 * c + parent → t.core k = s.core k) ∧ t.due = s.due ++ [.doneMessage (1024 * c + parent)] ∧
      { t with cores := s.cores, due := s.due } = s) ∧
    let root := l.clusters.headD c
    let r := s.cluster root
    (children ≤ x.got.length → i = 0 → r.rootGot.length + 1 < l.nc → ∃ t, exec (.doneMessage n) s = .next t ∧
      t.cluster root = { r with rootGot := r.rootGot ++ [m] } ∧ (∀ k, k ≠ root → t.cluster k = s.cluster k) ∧ t.due = s.due) ∧
    (children ≤ x.got.length → i = 0 → l.nc ≤ r.rootGot.length + 1 → r.launch = some l → r.ending = none → l.bursar = false →
      let all := combineDone (r.rootGot ++ [m])
      let err := all.2.1 ||| l.errbits
      let words := [BitVec.ofNat 32 (l.slotNo * 2 ^ 16 + if err &&& 3 = 0 then 0 else 1), l.tag, all.1.setWidth 32,
        (all.1 >>> 32).setWidth 32, err,
        BitVec.ofNat 32 (((all.2.2.map fun f => f.2.1.toNat).getD 0) * 2 ^ 24 + (all.2.2.map fun f => f.2.2).getD 0), 0, 0]
      let mine := (s.ap l.die l.vi).binding = l.binding ∧ l.slotNo ∈ smGet [] (s.ap l.die l.vi).running l.queue
      let released : List Instr := l.clusters.map fun k => .launchDispatch (s.partOf (dieOfCluster k))
      (mine → ∃ t, exec (.doneMessage n) s = .next t ∧
        (∀ q, smGet [] (t.ap l.die l.vi).held q =
          smGet [] (s.ap l.die l.vi).held q ++ if q = l.queue then [words] else []) ∧
        (∀ q, smGet [] (t.ap l.die l.vi).running q = if q = l.queue then (smGet [] (s.ap l.die l.vi).running q).erase l.slotNo
          else smGet [] (s.ap l.die l.vi).running q) ∧
        (∀ k ∈ l.clusters, (t.cluster k).owState = 0 ∧ (t.cluster k).launch = none) ∧
        t.due = s.due ++ [.completionRecordWrite l.die l.vi l.queue] ++ released) ∧
      -- the record of a launch whose aperture has been unbound since is discarded
      (¬ mine → ∃ t, exec (.doneMessage n) s = .next t ∧ t.dies = s.dies ∧ t.due = s.due ++ released ∧
        ∀ k ∈ l.clusters, (t.cluster k).owState = 0 ∧ (t.cluster k).launch = none))) ∧
  ∀ (s : State) (root : Nat) (l : Launch), (s.cluster root).launch = some l →
    let x := s.cluster root
    (l.stalled = true ∨ launchQuiescent s l.clusters = false → NoEffect s (.stallAll root)) ∧
    (l.stalled = false → launchQuiescent s l.clusters = true → ∃ u,
      OnlyClusterAt s u root
        { x with stall := true, launch := some { l with stalled := true, errbits := l.errbits ||| 0x40 } } [] ∧
      exec (.stallAll root) s = .next (if l.stallEn then
        clusterMessage root 0 l.stallMsg
          [clusterRead s root 0x8000, BitVec.ofNat 32 ((l.clusters.map fun k => (threadsOf s k).length).sum)] u else u))

/-- R145, R177: what a save's records keep of a slot and of a core, shown by what a restore of them gives. -/
def Claim.SaveRecords : Prop :=
  (∀ (l : Launch) (sl : Slot) (hid note : Nat → Word), bitOf (note 1) 31 = false →
    let r := restoreSlot l (recordWord sl) hid note
    r.pc = sl.reportPc ∧ (∀ i, 1 ≤ i → i < 32 → smGet 0 r.g i = smGet 0 sl.g i) ∧ (∀ i < 4, smGet 0 r.x i = smGet 0 sl.x i) ∧
    (∀ i, 1 ≤ i → i < 8 → smGet 0 r.sg i = smGet 0 sl.sg i) ∧ smGet 0 r.sg 0 = smGet 0 l.segs 0 ∧
    r.status = sl.status &&& 0xFFFF0307 ∧ r.epc = sl.epc ∧ r.eval = sl.eval ∧ r.escratch = sl.escratch ∧ r.widLo = sl.widLo ∧
    r.widHi = sl.widHi ∧ r.ecause = sl.ecause &&& 0xFF ∧ r.icnt = sl.icnt ∧ r.qmap = sl.qmap &&& 0xF ∧
    r.dlstat = sl.dlstat &&& 0xFF ∧ r.fmtdef = sl.fmtdef &&& 0xFFFF ∧ r.fflags = sl.fflags &&& 0xFFFF ∧
    (sl.run = .idle → r.run = .idle) ∧ (sl.run = .stopped → r.run = .stopped) ∧
    (sl.run = .ready → r.run = .ready ∧ r.reissue = sl.reissue) ∧
    (sl.run = .faulted ∨ (∃ w, sl.run = .parked w) → r.run = .ready ∧ r.reissue = true)) ∧
  ∀ (s : State) (n c : Nat) (ks : List Nat) (now : Core) (note : Nat → Word),
    let x := s.core n
    let r := restoreCore ks c now (fun i => (coreRecord s n).getD i 0) note
    r.tvec = x.tvec ∧ r.srkeyLo = x.srkeyLo ∧ r.srkeyHi = x.srkeyHi ∧ r.segtab = x.segtab ∧ r.msgvec = x.msgvec ∧
    r.widshape = x.widshape ∧ r.classMap = x.classMap ∧ (∀ i < 16, smGet 0 r.counters i = smGet 0 x.counters i) ∧
    (x.deque.length ≤ 32 → r.deque = x.deque) ∧
    ∀ i < 4, (writtenEntries (smGet [] x.queues i)).length ≤ 8 →
      smGet [] r.queues i = (writtenEntries (smGet [] x.queues i)).map fun w => { val := some w }

/-- R143 to R147: pre-emption, the save, the restore, cancellation, and the registers that own a cluster.
The model's choices of log entries 14 to 16 enter here. -/
def Obligations.PreemptionEvents : Prop :=
  Claim.SaveRecords ∧
  (∀ (s : State) (c : Nat),
    let x := s.cluster c
    (x.owState ≠ 1 → ClusterBecomes s (.preempt c) c { x with prIgn := true } []) ∧
    ∀ l : Launch, x.launch = some l → x.owState = 1 →
      let closed := (s.cluster (l.clusters.headD c)).closeSent
      (closed = true → ClusterBecomes s (.preempt c) c { x with prIgn := true } []) ∧
      (closed = false → l.clusters ≠ [] → ∃ t, exec (.preempt c) s = .next t ∧
        (∀ k ∈ l.clusters, (t.cluster k).owState = 2 ∧ .preemptSave k ∈ t.due ∧ (k = c → (t.cluster k).prGo = true)) ∧
        ∀ j, (s.slot j).run = .ready → t.slot j = s.slot j)) ∧
  (∀ (s : State) (c : Nat),
    let x := s.cluster c
    (x.owState ≠ 2 ∨ x.ending ≠ none → NoEffect s (.preemptSave c)) ∧
    -- it waits until everything of the launch has come to rest
    (x.owState = 2 → x.ending = none → copiesOf s c = [] → (∃ k ∈ launchClusters s c, settled s k = false) →
      Defers s (.preemptSave c)) ∧
    (x.owState = 2 → x.ending = none → copiesOf s c = [] → (∀ k ∈ launchClusters s c, settled s k = true) →
      ∃ t, exec (.preemptSave c) s = .next t ∧
        match saveCluster c s with
        | .error (.wait o) _ => t = { o.touch s with later := (o.touch s).later ++ [.preemptSave c] }
        | .error _ u => t = faultLaunch c u
        | .ok _ u => (t.cluster c).owState = 3 ∧ (t.cluster c).prGo = false ∧
            (∀ k, unitOf (coreOf k) = c → t.slot k = {}) ∧ (∀ k, unitOf (coreOf k) ≠ c → t.slot k = u.slot k) ∧
            t.mem = u.mem ∧ t.slices = u.slices)) ∧
  (∀ (s : State) (c : Nat),
    let x := s.cluster c
    let base := x.lsave.toNat * 2 ^ 26
    let rq := rqUnit (64 * c) 0x52 false s
    let held := fun o : Obst => exec (.restore c) s = .next { o.touch s with later := (o.touch s).later ++ [.restore c] }
    let bad := fun u : State => ∃ t, exec (.restore c) s = .next t ∧ OnlyClusterAt u t c { u.cluster c with prErr := true } []
    -- a memory error ends the saved launch with FAULT and ECAUSE 0x07
    let fails := fun (l : Launch) (u : State) =>
      match endSaved l (2, 7) (u.modCluster c fun z => { z with prErr := true }) with
      | .ok t => exec (.restore c) s = .next t
      | .error o => held o
    (x.owState ≠ 0 → bad s) ∧
    (x.owState = 0 → match readWords rq (base + 0x880000) 37888 s with
      | .error (.wait o) _ => held o
      | .error _ u => bad u
      | .ok b u =>
        let owner := b.getD 0 0
        if bitOf (b.getD 1 0) 31 = false ∨ bitOf owner 30 ≠ x.owBursar ∨ fieldOf owner 16 7 ≠ x.owVi.toNat ∨
            fieldOf owner 0 4 ≠ x.owVc.toNat then bad u
        else
          let l := wordsLaunch fun i => b.getD (16 + i) 0
          match readSave rq base b u with
          | .error (.wait o) _ => held o
          | .error _ w => fails l w
          | .ok m w =>
            if ∃ r ∈ m.slots, 3 < fieldOf (r.getD 70 0) 26 3 then bad w
            else match vaultBack c base rq (bitOf (b.getD 1 0) 30) w with
              | .error (.wait o) _ => held o
              | .error _ y => fails l y
              | .ok _ _ => ∃ t, exec (.restore c) s = .next t ∧ (t.cluster c).launch.isSome = true ∧
                  ∀ i r, m.slots[i]? = some r → fieldOf (r.getD 70 0) 26 3 ≠ 2 →
                    let sl := t.slot (16384 * c + i)
                    sl.pc = r.getD 0 0 ∧ (∀ j, 1 ≤ j → j < 32 → smGet 0 sl.g j = r.getD j 0) ∧ sl.epc = r.getD 65 0 ∧
                    sl.run = if fieldOf (r.getD 70 0) 26 3 = 0 then .idle
                      else if fieldOf (r.getD 70 0) 26 3 = 1 then .ready else .stopped)) ∧
  (∀ (s : State) (c : Nat),
    let x := s.cluster c
    let e : Nat × Byte := if x.lcause = 0 then (4, 0) else (2, x.lcause)
    (x.launch = none → ClusterBecomes s (.cancel c) c { x with lcancel := false } []) ∧
    ∀ l, x.launch = some l →
      (x.owState = 3 ∨ x.prRestore = true → match endSaved l e s with
        | .ok t => exec (.cancel c) s = .next t
        | .error o => exec (.cancel c) s = .next { o.touch s with later := (o.touch s).later ++ [.cancel c] }) ∧
      (x.owState ≠ 3 → x.prRestore = false →
        ((s.cluster (l.clusters.headD c)).closeSent = true → NoEffect s (.cancel c)) ∧
        ((s.cluster (l.clusters.headD c)).closeSent = false → (∀ k ∈ l.clusters, copiesOf s k = []) →
          ∃ t, exec (.cancel c) s = .next t ∧
          (∀ k ∈ l.clusters, (t.cluster k).ending = some e ∧ .close k ∈ t.due ∧
            ∀ j, unitOf (coreOf j) = k → (t.slot j).run = .idle) ∧
          (t.cluster (l.clusters.headD c)).closeSent = true))) ∧
  ∀ (s : State) (c : Nat) (v : Word),
    let x := s.cluster c
    let busy := x.owState = 1 ∨ x.owState = 2
    let rebased := x.applies.map fun a => (a.1 - x.cycle.toNat, a.2)
    (busy → NoEffect s (.lownerWrite c v) ∧ ClusterBecomes s (.clrst c) c { x with prIgn := true } []) ∧
    (¬ busy →
      ClusterBecomes s (.lownerWrite c v) c
        { x with
          owEn := bitOf v 31, owBursar := bitOf v 30, owVi := BitVec.ofNat 7 (v.toNat / 2 ^ 16), owVc := BitVec.ofNat 4 v.toNat
          owState := 0, launch := none } [.launchDispatch (s.partOf (dieOfCluster c))] ∧
      ClusterBecomes s (.clrst c) c { k := x.k, applied := x.applied, applies := rebased, clrst := true }
        [.clusterResetDone c]) ∧
    (x.clrst = true → c < 16 → ∃ t, exec (.clusterResetDone c) s = .next t ∧
      (∀ k, t.cluster k =
        if k = c then { x with clrst := false, cycle := 0, applies := rebased, rpos := 0, idleDue := false } else s.cluster k) ∧
      (∀ n, t.core n = if unitOf n = c then {} else s.core n) ∧
      (∀ k, t.slot k = if unitOf (coreOf k) = c then {} else s.slot k) ∧
      (∀ g, t.engine g = if g / 64 = c then {} else s.engine g) ∧
      (∀ g, t.bulkOf g = if g / 64 = c then {} else s.bulkOf g) ∧
      (∀ b, t.bank b = if b / 2048 = c then {} else s.bank b) ∧
      (∀ a, smGet 0 t.vault a = if a / 2 ^ 25 = c then 0 else smGet 0 s.vault a) ∧
      ∀ w, vFullOf t w = if w / 2 ^ 23 = c then true else vFullOf s w) ∧
    (x.clrst = false → NoEffect s (.clusterResetDone c))

/-! ### Events of threads, tasks, messages and barriers -/

/-- R138, R148, R150, R153, R155: an idle slot looks for work: the next entry of its deterministic list; then, in a class-0 slot, a
held continuation, the oldest stealable entry of its core's deque, the ready queue, one steal attempt. -/
def Claim.IdleSearch : Prop :=
  ∀ (s : State) (k : Nat) (l : Launch),
    let c := coreOf k
    let u := unitOf c
    let e := Instr.idleSlotWorkSearch k
    isBursar c = false → (s.cluster u).launch = some l → l.ng ≤ 64 → c % 1024 / 16 < l.ng → (s.core c).halt = false → (s.core c).closing = false →
    (s.cluster u).owState = 1 → (s.slot k).run = .idle → FreshStart s k →
    let det := l.place = 1 ∧ bitOf l.slotmask (slotIn k) = true
    let i := (s.slot k).detIdx * rankOf l 16 + rankOf l (slotIn k)
    let p := l.nc * l.ng * 16
    let num := l.vc * l.ng * 16 + c % 1024
    let task := match l.dmode with
      | 0 => if i < (l.ntask + p - 1) / p then num * ((l.ntask + p - 1) / p) + i else l.ntask
      | 1 => num + i * p
      | _ => (i / l.bsize * p + num) * l.bsize + i % l.bsize
    let general := slotClass s k = 0 ∧ ¬ (det ∧ task < l.ntask)
    (det → task < l.ntask → ∃ t, exec e s = .next t ∧
      StartsThread s t l k l.entry (l.widbase + BitVec.ofNat 64 task)
        (fun r => if r = 2 then ownStackTop l k else if 4 ≤ r ∧ r < 12 then smGet 0 l.args (r - 4) else 0) ∧
      (t.slot k).detIdx = (s.slot k).detIdx + 1 ∧ (t.slot k).tcb = none ∧ (t.slot k).handler = false ∧
      { t with slots := s.slots } = s) ∧
    (slotClass s k ≠ 0 → ¬ (det ∧ task < l.ntask) → NoEffect s e) ∧
    (general → ∀ h, (s.core c).heldSteal = some h →
      if (s.core c).stealing then NoEffect s e
      else ∃ t, exec e s = .next t ∧ Resumes s t l k h ∧
        { t.core c with counters := (s.core c).counters } = { s.core c with heldSteal := none } ∧
        (∀ j, smGet 0 (t.core c).counters j = bump (smGet 0 (s.core c).counters j) (if j = 11 then 1 else 0)) ∧
        (∀ n, n ≠ c → t.core n = s.core n) ∧ { t with slots := s.slots, cores := s.cores, fresh := s.fresh } = s) ∧
    (general → (s.core c).heldSteal = none → ∀ pre h post, (s.core c).deque = pre ++ h :: post → h.icnt = 0 →
      (∀ y ∈ pre, y.icnt ≠ 0) → ∃ t, exec e s = .next t ∧ Resumes s t l k h ∧
        (∀ n, t.core n = if n = c then { s.core c with deque := pre ++ post } else s.core n) ∧
        { t with slots := s.slots, cores := s.cores, fresh := s.fresh } = s) ∧
    (general → (s.core c).heldSteal = none → (∀ y ∈ (s.core c).deque, y.icnt ≠ 0) →
      (det → NoEffect s e) ∧
      (¬ det → ((∀ q < 4, smGet 0 (s.cluster u).heads q = 0) → ∃ t, exec e s = .next t ∧ TriesToSteal s t l k) ∧
        ((∃ q < 4, smGet 0 (s.cluster u).heads q ≠ 0) → ∃ ks, Lets s e [.readyQueueTake u ks] ∧ k ∈ ks ∧
          ∀ j ∈ ks, (s.slot j).run = .idle ∧ slotClass s j = 0 ∧ unitOf (coreOf j) = u)))

/-- R158, R160: the task unit gives the head of the highest non-empty priority to the slot that asks: the TCB is RUNNING, its thread
starts with g4 to g7 the arguments and g8 the TCB; a slot that draws EMPTY goes on to a steal. -/
def Claim.ReadyQueue : Prop :=
  ∀ (s : State) (c k : Nat) (l : Launch), (s.cluster c).launch = some l → unitOf (coreOf k) = c → (s.slot k).run = .idle →
    slotClass s k = 0 → ¬ (l.place = 1 ∧ bitOf l.slotmask (slotIn k) = true) → FreshStart s k →
    let x := s.cluster c
    let e := Instr.readyQueueTake c [k]
    let w := fun off i => vWord s ((c * 2 ^ 25 + off) / 4 + i)
    ((∀ q < 4, smGet 0 x.heads q = 0) → ∃ t, exec e s = .next t ∧ TriesToSteal s t l k) ∧
    ∀ p off, p < 4 → smGet 0 x.heads p = off + 1 → (∀ q, p < q → q < 4 → smGet 0 x.heads q = 0) → off % 64 = 0 →
      let last := smGet 0 x.tails p = off + 1
      let stat := c * 2 ^ 25 + off + 28
      ∃ t, exec e s = .next t ∧
        StartsThread s t l k (w off 0) (ownWid l k)
          (fun r => if r = 2 then ownStackTop l k else if 4 ≤ r ∧ r < 8 then w off (r - 3)
            else if r = 8 then BitVec.ofNat 32 off else 0) ∧
        (t.slot k).tcb = some off ∧ (t.slot k).detIdx = (s.slot k).detIdx ∧ (t.slot k).handler = false ∧
        (∀ a, smGet 0 t.vault a = if a = stat then putField (smGet 0 s.vault stat) 4 3 3 else smGet 0 s.vault a) ∧
        (∀ q, smGet 0 (t.cluster c).heads q =
          if q = p then (if last then 0 else (w off 9).toNat + 1) else smGet 0 x.heads q) ∧
        (∀ q, smGet 0 (t.cluster c).tails q = if q = p ∧ last then 0 else smGet 0 x.tails q) ∧
        { t.cluster c with heads := x.heads, tails := x.tails } = { x with qlen := x.qlen - 1 } ∧
        (∀ n, vErr t n = if n = stat / 4 then 0 else vErr s n) ∧ (∀ n, n ≠ c → t.cluster n = s.cluster n) ∧
        { t with slots := s.slots, clusters := s.clusters, vault := s.vault, verr := s.verr } = s

/-- R158, R159, R160: a task whose dependences reach 0 while it is WAITING becomes READY; in any other STATUS nothing happens. At the end of
the work cycle it becomes the last of its priority's list; of two released together, the one whose DEPS lies in the lower bank, or
else of the lower TCB index, goes first. -/
def Claim.TaskReleases : Prop :=
  ∀ (s : State) (c off : Nat), off % 64 = 0 → (s.cluster c).drainedSent = false →
    let x := s.cluster c
    let e := Instr.taskReleaseRequest c off
    let w := fun o i => (c * 2 ^ 25 + o) / 4 + i
    let prio := fun o => fieldOf (vWord s (w o 7)) 0 2
    let linked := fun (t : State) (heads tails : Nat → Nat) => (∀ q, smGet 0 (t.cluster c).tails q = tails q) ∧
      (∀ q, smGet 0 (t.cluster c).heads q = heads q) ∧
      { t.cluster c with heads := x.heads, tails := x.tails } = { x with released := [] } ∧
      (∀ n, n ≠ c → t.cluster n = s.cluster n) ∧ { t with clusters := s.clusters, vault := s.vault, verr := s.verr } = s
    (fieldOf (vWord s (w off 7)) 4 3 ≠ 1 → NoEffect s e) ∧
    (fieldOf (vWord s (w off 7)) 4 3 = 1 → ∃ t, exec e s = .next t ∧
      (∀ n, vWord t n = if n = w off 7 then putField (vWord s n) 4 3 2 else vWord s n) ∧
      OnlyClusterAt { s with vault := t.vault, verr := t.verr } t c { x with released := x.released ++ [off], qlen := x.qlen + 1 } []) ∧
    (x.released = [off] → (∀ o, smGet 0 x.tails (prio off) = o + 1 → o % 64 = 0 ∧ o ≠ off) →
      let p := prio off
      let tail := smGet 0 x.tails p
      linked (linkReleased c s) (fun q => if q = p ∧ tail = 0 then off + 1 else smGet 0 x.heads q)
          (fun q => if q = p then off + 1 else smGet 0 x.tails q) ∧
        ∀ n, vWord (linkReleased c s) n = if n = w off 9 then 0 else if tail ≠ 0 ∧ n = w (tail - 1) 9 then BitVec.ofNat 32 off
          else vWord s n) ∧
    ∀ a b, x.released = [a, b] ∨ x.released = [b, a] → a % 64 = 0 → b % 64 = 0 → a ≠ b → prio a = prio b → smGet 0 x.tails (prio a) = 0 →
      ((a + 20) / 4 % 2048 < (b + 20) / 4 % 2048 ∨ ((a + 20) / 4 % 2048 = (b + 20) / 4 % 2048 ∧ a / 64 < b / 64)) →
      linked (linkReleased c s) (fun q => if q = prio a then a + 1 else smGet 0 x.heads q)
          (fun q => if q = prio a then b + 1 else smGet 0 x.tails q) ∧
        ∀ n, vWord (linkReleased c s) n = if n = w a 9 then BitVec.ofNat 32 b else if n = w b 9 then 0 else vWord s n

/-- R155: a steal request waits in the victim's mailbox, or is answered EMPTY when the mailbox is full, the core holds no thread, or
placement is deterministic; each is answered when it has waited STEALWAIT; a reply resumes the held entry. -/
def Claim.Steals : Prop :=
  (∀ (s : State) (v thief : Nat),
    let x := s.core v
    let e := Instr.stealRequest v thief
    let empty := (∀ l, (s.cluster (unitOf v)).launch = some l → l.place = 1) ∨ 4 ≤ x.mailbox.length ∨
      ∀ j < 16, (s.slot (16 * v + j)).run = .idle
    (empty → Lets s e [.stealReply thief]) ∧
    (¬ empty → CoreBecomes s e v { x with mailbox := x.mailbox ++ [(thief, 0)] } [])) ∧
  (∀ (s : State) (v : Nat),
    let x := s.core v
    let limit := Nat.max 1 (((s.cluster (unitOf v)).launch.map (·.stealWait)).getD 256)
    CoreBecomes s (.stealTimeout v) v { x with mailbox := x.mailbox.filter fun m => m.2 < limit }
      ((x.mailbox.filter fun m => limit ≤ m.2).map fun m => .stealReply m.1)) ∧
  ∀ (s : State) (thief k : Nat) (l : Launch),
    let c := coreOf thief
    let x := s.core c
    let e := Instr.stealReply thief
    (s.cluster (unitOf c)).launch = some l →
    (x.heldSteal = none ∨ (∀ j < 16, ¬ ((s.slot (16 * c + j)).run = .idle ∧ fieldOf x.classMap (2 * j) 2 = 0)) →
      CoreBecomes s e c { x with stealing := false } []) ∧
    ∀ h, x.heldSteal = some h → coreOf k = c → (s.slot k).run = .idle → fieldOf x.classMap (2 * slotIn k) 2 = 0 →
      (∀ j < slotIn k, ¬ ((s.slot (16 * c + j)).run = .idle ∧ fieldOf x.classMap (2 * j) 2 = 0)) → FreshStart s k →
      ∃ t, exec e s = .next t ∧ Resumes s t l k h ∧
        { t.core c with counters := x.counters } = { x with heldSteal := none, stealing := false } ∧
        (∀ j, smGet 0 (t.core c).counters j = bump (smGet 0 x.counters j) (if j = 11 then 1 else 0)) ∧
        (∀ n, n ≠ c → t.core n = s.core n) ∧ { t with slots := s.slots, cores := s.cores, fresh := s.fresh } = s

/-- R163 to R167: a message that reaches its core: while the receive buffer is full it waits at the core's port; a type-0 message completes
the receive that names it or waits; a typed one waits for a slot of its class with its vector entry's pc and control word, or is
dropped, counted, and a call answered NOREPLY, when MSGVEC or its entry is not enabled. -/
def Claim.MessageArrivals : Prop :=
  ∀ (s : State) (c : Nat) (m : Message),
    let e := Instr.messageArrive c m
    let x := s.core c
    (64 ≤ x.rxbuf.length → Defers s e) ∧
    (x.rxbuf.length < 64 →
      (m.typ = 0 →
        ((∀ k ∈ x.parkedRecv, ∀ d b n o, (s.slot k).run ≠ .parked (.mrecv m.sender m.seq d b n o)) →
          CoreBecomes s e c { x with rxbuf := x.rxbuf ++ [m] } []) ∧
        ∀ k d b n o, x.parkedRecv = [k] → coreOf k = c → (s.slot k).run = .parked (.mrecv m.sender m.seq d b n o) → Unheld s k →
          ∃ t, exec e s = .next t ∧
            Answered s t k ((List.range n).map (fun i => (d + BitVec.ofNat 5 i, m.words.getD i 0)) ++
              [(b, BitVec.ofNat 32 m.words.length)]) ∧
            (∀ j, t.core j = if j = c then { x with parkedRecv := [] } else s.core j) ∧
            { t with slots := s.slots, cores := s.cores } = s) ∧
      (m.typ ≠ 0 → isBursar c = false → (s.cluster (unitOf c)).timers = [] → (s.cluster (unitOf c)).drainedSent = false →
        let entry := fieldOf x.msgvec 11 14 * 2048 + 8 * m.typ.toNat
        let pc := vWord s (ownKeyOf c entry / 4)
        let ctl := vWord s (ownKeyOf c (entry + 4) / 4)
        let enabled := bitOf x.msgvec 0 = true ∧ bitOf ctl 31 = true
        (enabled → ∃ t, exec e s = .next t ∧ (∀ n, t.cluster n = s.cluster n) ∧
          OnlyCoreAt { s with clusters := t.clusters } t c { x with rxbuf := x.rxbuf ++ [{ m with pc := pc, ctl := ctl }] }
            (((List.range 16).filter fun j => decide ((s.slot (16 * c + j)).run = .idle) &&
              decide (fieldOf x.classMap (2 * j) 2 = fieldOf ctl 4 2)).map fun j => .handlerStart (16 * c + j))) ∧
        (¬ enabled → ∃ u, OnlyCoreAt s u c { x with counters := (u.core c).counters } [] ∧
          (∀ j, smGet 0 (u.core c).counters j = bump (smGet 0 x.counters j) (if j = 12 then 1 else 0)) ∧
          (m.reply = false → exec e s = .next u) ∧
          (m.reply = true → ∃ t, exec e s = .next t ∧
            Posted u t c { corePacket s c (m.caller / 2 ^ 16) with
              opcode := 0x44, tag := BitVec.ofNat 16 m.caller, vn := true, cls := m.cls, inline := 0, param := 0x80000000 }))))

/-- R148, R165, R167, R199: an idle slot of a running core takes, of the waiting typed messages of its class, the oldest of the
highest PRIO: its handler starts at the vector entry's pc with type and sequence in g1, the sender in g3 and the words from g4. -/
def Claim.HandlerStarts : Prop :=
  ∀ (s : State) (k : Nat) (l : Launch),
    let c := coreOf k
    let x := s.core c
    let e := Instr.handlerStart k
    let mine := fun (m : Message) => m.typ ≠ 0 ∧ fieldOf m.ctl 4 2 = slotClass s k
    let prio := fun (m : Message) => fieldOf m.ctl 0 2
    isBursar c = false →
    ((s.slot k).run ≠ .idle ∨ x.halt = true ∨ (s.cluster (unitOf c)).owState ≠ 1 ∨ (∀ m ∈ x.rxbuf, ¬ mine m) → NoEffect s e) ∧
    ((s.slot k).run = .idle → x.halt = false → (s.cluster (unitOf c)).owState = 1 → (s.cluster (unitOf c)).launch = some l →
      FreshStart s k →
      ∀ pre m post, x.rxbuf = pre ++ m :: post → mine m → m ∉ pre → (∀ y ∈ pre, mine y → prio y < prio m) →
        (∀ y ∈ post, mine y → prio y ≤ prio m) → ∃ t, exec e s = .next t ∧
          StartsThread s t l k m.pc (ownWid l k)
            (fun r => if r = 1 then m.seq.setWidth 32 <<< 16 ||| m.typ.setWidth 32 else if r = 2 then ownStackTop l k
              else if r = 3 then m.sender else if 4 ≤ r ∧ r < 12 then m.words.getD (r - 4) 0 else 0) ∧
          (t.slot k).handler = true ∧ (t.slot k).replyOwed = m.reply ∧ (t.slot k).msg = m ∧ (t.slot k).tcb = none ∧
          (t.slot k).detIdx = (s.slot k).detIdx ∧
          (∀ n, t.core n = if n = c then { x with rxbuf := pre ++ post } else s.core n) ∧
          { t with slots := s.slots, cores := s.cores } = s)

/-- R54, R156, R168, R186, R194, R243, R349, R358: a REPLY completes the MCALL it answers and no other, an answer to an RSPAWN says whether
the thread started, and an error of either is MEMERR there; a relaxed access is performed by the time its reply arrives: a load
writes its register and clears its mark, an error is deferred, and a vault's datum that came past its slack is counted. -/
def Claim.Replies : Prop :=
  (∀ (s : State) (k j cnt : Nat) (d b : Reg) (p : Packet), Unheld s k →
    let e := Instr.replyArrival k j (some p)
    let code := p.err.setWidth 32
    let fails := HandlesAt s k → ∃ t, exec e s = .next t ∧ TrappedAt s t k 7 code
    ((s.slot k).run = .parked (.mcall p.tag.toNat d b cnt) →
      (p.opcode = 0x44 →
        let n := fieldOf p.param 24 4
        ∃ t, exec e s = .next t ∧
          Answered s t k ((List.range cnt).map (fun i =>
              (d + BitVec.ofNat 5 i, if i < n then BitVec.ofNat 32 (p.inline.toNat / 2 ^ (32 * i)) else 0)) ++
            [(b, BitVec.ofNat 32 ((if bitOf p.param 31 then 2 ^ 30 else 0) + n))]) ∧ { t with slots := s.slots } = s) ∧
      (p.opcode = 0x42 → fails)) ∧
    (∀ id, id ≠ p.tag.toNat → (s.slot k).run = .parked (.mcall id d b cnt) → p.opcode = 0x44 → NoEffect s e) ∧
    ((s.slot k).run = .parked (.rspawn d p.tag.toNat) →
      (p.opcode = 0x41 → ∃ t, exec e s = .next t ∧ Answered s t k [(d, if p.param = 0 then 1 else 0)] ∧ { t with slots := s.slots } = s) ∧
      (p.opcode = 0x42 → fails))) ∧
  ∀ (s : State) (k id : Nat) (r : Relaxed), id < 2 ^ 20 → (s.slot k).relaxed = [r] → r.id = id →
    (s.core (coreOf k)).queues = [] →
    let sl := s.slot k
    let e := Instr.replyArrival k id none
    let rq := rqOf (coreOf k) r.cls s
    let mark := if r.store then sl.marks else putField sl.marks r.dst.toNat 1 0
    -- a load's register takes `v`, from the state `u`
    let loaded := fun (u t : State) (v : Nat) => OnlySlotAt u t k { u.slot k with relaxed := [], marks := mark, g := (t.slot k).g } [] ∧
      ∀ x : Reg, x ≠ 0 → smGet 0 (t.slot k).g x.toNat = if x = r.dst then BitVec.ofNat 32 v else smGet 0 (u.slot k).g x.toNat
    let failed := fun (u t : State) (code : BitVec 5) => OnlySlotAt u t k
      { u.slot k with relaxed := [], marks := mark, deferred := some (match sl.deferred with
          | some q => (q.1, true)
          | none => (code, false)) } []
    r.size = 4 →
    (∀ un off far, r.place = .vault un off far → r.left = 0 → ∃ u t, exec e s = .next t ∧
      OnlyCoreAt s u (coreOf k) { s.core (coreOf k) with counters := (u.core (coreOf k)).counters } [] ∧
      (∀ i, smGet 0 (u.core (coreOf k)).counters i = bump (smGet 0 (s.core (coreOf k)).counters i)
        (if i = 4 ∧ r.issued.any (fun c => c + 16 < r.ready) = true then 1 else 0)) ∧
      (r.err = none → r.store = false → loaded u t (r.data.toNat / 256 ^ (off % 4))) ∧
      (r.err = none → r.store = true → OnlySlotAt u t k { sl with relaxed := [] } []) ∧
      ∀ code, r.err = some code → failed u t code) ∧
    ((∀ un off far, r.place ≠ .vault un off far) →
      (r.store = false →
        (∀ v u, placeRead rq r.place 4 s = .ok v u → u.slot k = sl → (u.core (coreOf k)).queues = [] →
          ∃ t, exec e s = .next t ∧ loaded u t v) ∧
        (∀ o u, placeRead rq r.place 4 s = .error (.wait o) u →
          exec e s = .next { o.touch s with later := (o.touch s).later ++ [e] }) ∧
        ∀ code u, placeRead rq r.place 4 s = .error (.err code) u → u.slot k = sl → (u.core (coreOf k)).queues = [] →
          ∃ t, exec e s = .next t ∧ failed u t code) ∧
      (r.store = true →
        (∀ u, placeWrite rq r.place 4 r.data.toNat s = .ok () u → u.slot k = sl → (u.core (coreOf k)).queues = [] →
          ∃ t, exec e s = .next t ∧ OnlySlotAt u t k { sl with relaxed := [] } []) ∧
        (∀ o u, placeWrite rq r.place 4 r.data.toNat s = .error (.wait o) u →
          exec e s = .next { o.touch s with later := (o.touch s).later ++ [e] }) ∧
        ∀ code u, placeWrite rq r.place 4 r.data.toNat s = .error (.err code) u → u.slot k = sl → (u.core (coreOf k)).queues = [] →
          ∃ t, exec e s = .next t ∧ failed u t code))

/-- R164, R189, R190, R393: a receive that times out shows NOTRCVD; a timer that expires is freed and leaves a DEADLINE pending, by
which a wait is withdrawn with WAITX set or a WAIT ends; a WAIT returns what is left of it. -/
def Claim.Timeouts : Prop :=
  (∀ (s : State) (k n : Nat) (sender : Word) (seq : BitVec 16) (d b : Reg) (o : Option Nat),
    (s.slot k).run = .parked (.mrecv sender seq d b n o) → Unheld s k →
    let x := s.core (coreOf k)
    let more := x.parkedRecv.filter (· ≠ k)
    (∃ t, exec (.mrecvTimeout k) s = .next t ∧ Answered s t k [(b, 0x80000000)] ∧
      (∀ j, t.core j = if j = coreOf k then { x with parkedRecv := more } else s.core j) ∧
      { t with slots := s.slots, cores := s.cores } = s) ∧
    ∃ t, exec (.withdrawal k) s = .next t ∧
      (∀ j, t.slot j = if j = k then
        { s.slot k with run := .ready, dlstat := putField (s.slot k).dlstat 6 1 1, reissue := false } else s.slot j) ∧
      (∀ j, t.core j = if j = coreOf k then { x with parkedRecv := more } else s.core j) ∧
      { t with slots := s.slots, cores := s.cores } = s) ∧
  (∀ (s : State) (k : Nat) (w : Cond), (s.slot k).run = .parked (.cond w) → Unheld s k →
    (w = .sendReq ∨ w = .sendRsp ∨ w = .engine ∨ w = .bulk → SlotBecomes s (.withdrawal k) k
      { s.slot k with run := .ready, dlstat := putField (s.slot k).dlstat 6 1 1, reissue := false } []) ∧
    (w = .order ∨ w = .relaxed ∨ w = .quiet ∨ w = .retired ∨ w = .sendHeld ∨ (∃ o, w = .access o) → NoEffect s (.withdrawal k))) ∧
  (∀ (s : State) (k u : Nat) (d : Reg), (s.slot k).run = .parked (.wait u d) → Unheld s k →
    ∃ t, exec (.waitExpire k) s = .next t ∧
      Answered s t k [(d, BitVec.ofNat 32 (u - (s.cluster (unitOf (coreOf k))).cycle.toNat))] ∧ { t with slots := s.slots } = s) ∧
  ∀ (s : State) (c t : Nat),
    let x := s.cluster c
    let tm := smGet {} x.timers t
    let sl := s.slot tm.owner
    let e := Instr.deadlineExpiry c t
    (tm.armed = false → NoEffect s e) ∧
    (tm.armed = true → ∃ u, exec e s = .next u ∧
      (∀ n, smGet {} (u.cluster c).timers n = if n = t then {} else smGet {} x.timers n) ∧
      { u.cluster c with timers := x.timers } = x ∧ (∀ n, n ≠ c → u.cluster n = s.cluster n) ∧
      (∀ j, u.slot j = if j = tm.owner then
        { sl with dlstat := sl.dlstat &&& 0xFFFFFF0F ||| 0x20, deadline := some (BitVec.ofNat 4 t) } else s.slot j) ∧
      (u.due = s.due ++ match sl.run with
        | .parked (.wait ..) => [.waitExpire tm.owner]
        | .parked w => if w.withdrawable ∧ bitOf sl.status 0 = false ∧ (s.core (coreOf tm.owner)).halt = false then
            [.withdrawal tm.owner] else []
        | _ => []) ∧
      { u with slots := s.slots, clusters := s.clusters, due := s.due } = s)

/-- R170 to R173: the clearing network takes an arrival of a member that has not arrived for both generations; when every member has
arrived for GEN, GEN advances, the sum is the last one, the arrivals for GEN + 1 become those of GEN, a BARW that waits for it
completes with the sum, and the statement record is written. -/
def Claim.BarrierArrivals : Prop :=
  ∀ (s : State) (c n : Nat) (b : BitVec 5) (v : Word) (stmt : Option Word),
    let x := smGet ({} : Barrier) (s.cluster c).barriers b.toNat
    let e := Instr.barrierArrival c b n v stmt
    let members := ((List.range 1024).countP fun i => bitOf x.cores i) * ((List.range 16).countP fun i => bitOf x.slots i)
    let member := bitOf x.cores (n / 16) = true ∧ bitOf x.slots (n % 16) = true
    let ctrs := (List.range 16).map fun i => smGet 0 (s.core (1024 * c + n / 16)).counters i
    let st := (stmt.map fun o => (n, ctrs, o)).toList
    let becomes := fun (t : State) (y : Barrier) =>
      (∀ j, smGet ({} : Barrier) (t.cluster c).barriers j = if j = b.toNat then y else smGet {} (s.cluster c).barriers j) ∧
      { t.cluster c with barriers := (s.cluster c).barriers } = s.cluster c ∧ (∀ j, j ≠ c → t.cluster j = s.cluster j)
    let next : Barrier := { x with
        sumLast := x.sum0 + v, gen := x.gen + 1, arr0 := x.arr1, sum0 := x.sum1, stm0 := x.stm1, arr1 := [], sum1 := 0, stm1 := [] }
    (¬ member ∨ (n ∈ x.arr0 ∧ n ∈ x.arr1) → NoEffect s e) ∧
    (member → n ∈ x.arr0 → n ∉ x.arr1 → ∃ t, exec e s = .next t ∧
      becomes t { x with arr1 := x.arr1 ++ [n], sum1 := x.sum1 + v, stm1 := x.stm1 ++ st } ∧ { t with clusters := s.clusters } = s) ∧
    (member → n ∉ x.arr0 → x.arr0.length + 1 < members → ∃ t, exec e s = .next t ∧
      becomes t { x with arr0 := x.arr0 ++ [n], sum0 := x.sum0 + v, stm0 := x.stm0 ++ st } ∧ { t with clusters := s.clusters } = s) ∧
    (member → n ∉ x.arr0 → members ≤ x.arr0.length + 1 → smWf {} s.slots = true →
      (x.stm0 ++ st = [] →
        ((∀ r ∈ s.slots, ∀ g d, unitOf (coreOf r.1) = c → r.2.run ≠ .parked (.barw b g d)) →
          ∃ t, exec e s = .next t ∧ becomes t next ∧ { t with clusters := s.clusters } = s) ∧
        ∀ k g d, (∀ r ∈ s.slots, ∀ g d, unitOf (coreOf r.1) = c → r.1 ≠ k → r.2.run ≠ .parked (.barw b g d)) →
          unitOf (coreOf k) = c → (s.slot k).run = .parked (.barw b g d) → Unheld s k → bitOf (x.gen - g) 31 = false →
          ∃ t, exec e s = .next t ∧ becomes t next ∧ Answered s t k [(d, x.sum0 + v)] ∧
            { t with clusters := s.clusters, slots := s.slots } = s) ∧
      (∀ o, x.stm0 = [] → stmt = some o → o.toNat % 4 = 0 → o.toNat + 80 ≤ 0x2000000 →
        (∀ r ∈ s.slots, ∀ g d, unitOf (coreOf r.1) = c → r.2.run ≠ .parked (.barw b g d)) →
        let w := fun i => ownKeyOf (1024 * c) (o.toNat + 4 * i) / 4
        c < 16 → ∃ t, exec e s = .next t ∧ becomes t next ∧
          (∀ i < 20, vWord t (w i) = ([x.gen, 1] ++ ctrs ++ [0, 1]).getD i 0) ∧ vFullOf t (w 19) = true ∧
          (∀ j, (∀ i < 20, j ≠ w i) → vWord t j = vWord s j) ∧ (∀ j, j ≠ w 19 → vFullOf t j = vFullOf s j) ∧
          (∀ k, { t.bank k with retries := (s.bank k).retries } = s.bank k) ∧
          { t with clusters := s.clusters, vault := s.vault, verr := s.verr, vfull := s.vfull, banks := s.banks, hot := s.hot } = s))

/-! ### Events of the threads' own traps, of firmware, of translation and of the engines -/

/-- R190, R192, R194, R200, R296, R392: before the next instruction issues a thread takes its pending DEADLINE, the error of a relaxed
access, the BREAK of a step (or halts its core), and a fetch outside s0 traps with its own cause. -/
def Claim.PendingTraps : Prop :=
  ∀ (s : State), Unheld s s.cur →
    let c := s.core s.myCore
    (s.me.deadline = none → NoEffect s .deadlineTrap) ∧ (s.me.deferred = none → NoEffect s .deferredMemerr) ∧
    (s.me.stepDue = false → NoEffect s .stepBreak) ∧
    (Handles s →
      (∀ n, s.me.deadline = some n → ∃ t, exec .deadlineTrap s = .next t ∧
        Trapped (s.modMe fun sl => { sl with deadline := none }) t 11 (n.setWidth 32)) ∧
      (∀ code more, s.me.deferred = some (code, more) → ∃ t, exec .deferredMemerr s = .next t ∧
        Trapped (s.modMe fun sl => { sl with deferred := none }) t 7
          (BitVec.ofNat 32 (code.toNat + 256 + if more then 512 else 0))) ∧
      (s.me.stepDue = true → c.brkhalt = false → ∃ t, exec .stepBreak s = .next t ∧
        Trapped (s.modMe fun sl => { sl with stepDue := false }) t 9 1) ∧
      ∀ cause, segTest (isBursar s.myCore) (s.seg 0) s.me.pc.toNat 2 2 { kind := .fetch, x := true } = some cause →
        ∃ t, exec .fetchFailure s = .next t ∧ Trapped s t cause s.me.pc) ∧
    (s.me.stepDue = true → c.brkhalt = true → ∃ t, exec .stepBreak s = .next t ∧
      (∀ k, t.slot k = if k = s.cur then { s.me with stepDue := false } else s.slot k) ∧
      (∀ n, t.core n = if n = s.myCore then
        { c with halt := true, brkhit := true, bslot := BitVec.ofNat 4 (s.cur % 16) } else s.core n) ∧
      { t with slots := s.slots, cores := s.cores } = s)

/-- R196, R197: a fetch from a page without X, with room in the fault buffer: the thread is FAULTED and a record posted with the
address, the start of the instruction's chain, the slot, the access and the kind. -/
def Claim.FetchFaults : Prop :=
  ∀ (s : State) (va : Nat) (e : TlbEntry), Unheld s s.cur → isBursar s.myCore = false → s.me.tcb = none →
    va = segBase (s.seg 0) + s.me.pc.toNat →
    segTest false (s.seg 0) s.me.pc.toNat 2 2 { kind := .fetch, x := true } = none →
    (∀ l ∈ (s.core s.myCore).icache, l.va ≠ va / 64 * 64) → tlbFind (s.core s.myCore) va = some e →
    leafAllows e.leaf { kind := .fetch, x := true } = false →
    let x := s.cluster s.myUnit
    (x.fbHead - x.fbTail).toNat < 256 → ∃ t, exec .fetchFailure s = .next t ∧
      t.me.run = .faulted ∧ t.me.faultVa = va ∧ t.me.pc = s.me.reportPc ∧ (∀ r, t.reg r = s.reg r) ∧
      (∀ k, k ≠ s.cur → t.slot k = s.slot k) ∧
      (∀ n, smGet {} (t.cluster s.myUnit).fbRing n = if n = x.fbHead.toNat % 256 then
          { va := va, pc := s.me.reportPc, slot := s.cur % 16384, phys := s.myUnit, vcl := (x.launch.map (·.vc)).getD 0
            access := 0, kind := 2, lnum := x.lnum.toNat
            owner := BitVec.ofNat 32 ((if x.owBursar then 2 ^ 31 else 0) + x.owVi.toNat), seq := x.fbSeq }
        else smGet {} x.fbRing n) ∧
      (t.cluster s.myUnit).fbHead = x.fbHead + 1 ∧ (t.cluster s.myUnit).fbTail = x.fbTail ∧
      (∀ i, smGet 0 (t.core s.myCore).counters i = bump (smGet 0 (s.core s.myCore).counters i) (if i = 6 then 1 else 0)) ∧
      (∀ n, n ≠ s.myUnit → t.cluster n = s.cluster n) ∧ (∀ n, n ≠ s.myCore → t.core n = s.core n) ∧
      { t with slots := s.slots, cores := s.cores, clusters := s.clusters, due := s.due } = s

/-- R197 to R200, R203: FBTAIL outside the ring's range is ignored, else room is made and a held record accepted; FBWAKE retries a
faulted thread at its translation, its task RUNNING again, and a stopped one at its instruction, or ends the thread; a core halts, resumes and steps. -/
def Claim.FaultBufferAndHalts : Prop :=
  (∀ (s : State) (c : Nat) (v : Word),
    let x := s.cluster c
    let n := v.setWidth 16
    let e := Instr.fbtailWrite c v
    (256 < (x.fbHead - n).toNat → NoEffect s e) ∧
    ((x.fbHead - n).toNat ≤ 256 → x.fbHeld = [] → ClusterBecomes s e c { x with fbTail := n } []) ∧
    ∀ r, (x.fbHead - n).toNat < 256 → x.fbHeld = [r] → ∃ t, exec e s = .next t ∧
      (t.cluster c).fbHeld = [] ∧ (t.cluster c).fbTail = n ∧ (t.cluster c).fbHead = x.fbHead + 1 ∧
      (∀ j, smGet {} (t.cluster c).fbRing j =
        if j = x.fbHead.toNat % 256 then { r with seq := x.fbSeq } else smGet {} x.fbRing j) ∧
      (∀ k, k ≠ c → t.cluster k = s.cluster k) ∧ { t with clusters := s.clusters, due := s.due } = s) ∧
  (∀ (s : State) (c k : Nat) (cause : Byte),
    let sl := s.slot k
    let x := s.core (coreOf k)
    let bad := fun e => ClusterBecomes s e c { s.cluster c with badwake := true } []
    (sl.run ≠ .faulted → sl.run ≠ .stopped → bad (.fbwakeRetry c k)) ∧
    (sl.run = .idle → bad (.fbwakeKill c k cause)) ∧
    (sl.run = .stopped → SlotBecomes s (.fbwakeRetry c k) k { sl with run := .ready, reissue := false } []) ∧
    (sl.run = .faulted → ∃ t, exec (.fbwakeRetry c k) s = .next t ∧
      (∀ a, smGet 0 t.vault a = if sl.tcb.any fun off => a = c * 2 ^ 25 + off + 28 then putField (smGet 0 s.vault a) 4 3 3
        else smGet 0 s.vault a) ∧
      (∀ j, t.slot j = if j = k then { sl with run := .parked (.fill sl.faultVa) } else s.slot j) ∧
      t.due = s.due ++ [.tlb2Lookup k sl.faultVa { kind := sl.faultAcc }] ∧
      (∀ i, smGet 0 (t.core (coreOf k)).counters i = bump (smGet 0 x.counters i) (if i = 5 then 1 else 0)) ∧
      { t.core (coreOf k) with counters := x.counters } = x ∧ (∀ n, n ≠ coreOf k → t.core n = s.core n) ∧
      { t with slots := s.slots, cores := s.cores, vault := s.vault, due := s.due } = s) ∧
    (sl.run = .faulted ∨ sl.run = .stopped ∨ sl.run = .ready → Unheld s k → bitOf sl.dlstat 4 = false → sl.access = none →
      x.mailbox = [] →
      let ends := fun (t : State) =>
        (∀ j, t.slot j = if j = k then
          { sl with
            run := .idle, pend := 0, pv := false, chain := none, taken := [], tcb := none, handler := false, replyOwed := false
            deferred := none, deadline := none, stepDue := false, status := putField sl.status 1 1 0, icnt := 0
            faultVa := 0, reissue := false, counted := false, marks := 0, relaxed := [] } else s.slot j) ∧
        (∀ n, t.core n = if n = coreOf k then
          { x with first := if x.first = none then some (cause, slotIn k) else x.first
                   errbits := x.errbits ||| (if sl.tcb = none then 1 else 3) } else s.core n) ∧
        t.due = s.due ++ [.handlerStart k, .idleSlotWorkSearch k]
      (sl.tcb = none → ∃ t, exec (.fbwakeKill c k cause) s = .next t ∧ ends t ∧
        { t with slots := s.slots, cores := s.cores, due := s.due } = s) ∧
      ∀ off, sl.tcb = some off → off % 64 = 0 →
        let w := (c * 2 ^ 25 + off) / 4 + 7
        ∃ t, exec (.fbwakeKill c k cause) s = .next t ∧ ends t ∧
          (∀ n, vWord t n = if n = w then putField (putField (vWord s w) 4 3 5) 8 8 cause.toNat else vWord s n) ∧
          { t with slots := s.slots, cores := s.cores, vault := s.vault, verr := s.verr, due := s.due } = s)) ∧
  ∀ (s : State) (n : Nat),
    let x := s.core n
    CoreBecomes s (.coreHalt n) n { x with halt := true } [] ∧
    (x.halt = true → CoreBecomes s (.coreStep n) n { x with step := true } []) ∧
    (x.halt = false → NoEffect s (.coreStep n)) ∧
    CoreBecomes s (.coreResume n) n { x with halt := false, step := false }
      (((List.range 16).filter fun j => decide ((s.slot (16 * n + j)).run = .idle)).flatMap fun j =>
        [.handlerStart (16 * n + j), .idleSlotWorkSearch (16 * n + j)])

/-- Slot `k` no longer waits for address `va`: it issues its instruction again. -/
def Claim.woken (s : State) (k va : Nat) : Slot :=
  if (s.slot k).run = .parked (.fill va) then { s.slot k with run := .ready, reissue := true } else s.slot k

/-- `l` with an entry installed among those that `p` names, of which at most `n` stay: the least recently used gives way. -/
def Claim.installed {α : Type} [DecidableEq α] (l l' : List α) (new : α) (p : α → Bool) (used : α → Nat) (n : Nat) : Prop :=
  ((l.filter p).length < n → l' = l ++ [new]) ∧
  (n ≤ (l.filter p).length → 0 < n → ∃ v ∈ l.filter p, (∀ y ∈ l.filter p, used v ≤ used y) ∧ l' = l.erase v ++ [new])

/-- R33, R184, R233, R239: the line of an address enters the instruction cache, in its set of 4, and a fetch from an I/O page takes
MEMERR with FIREWALL; a line that its home cannot give yet is asked for again, and a fenced one faults. A translation is looked up in the
second-level TLB, and a miss enters the walker queue when it has room. -/
def Claim.FillsAndLookups : Prop :=
  (∀ (s : State) (k va : Nat),
    let n := coreOf k
    let x := s.core n
    let la := va / 64 * 64
    let rq := rqOf n 1 s
    let e := Instr.icacheFill k va
    let pl := if isBursar n then some (Place.vault (unitOf n) la false)
      else (tlbFind x la).bind fun e => leafTarget s (s.partOf (dieOfCluster (unitOf n))) e.leaf la
    (pl = none → ∃ t, exec e s = .next t ∧ (∀ j, t.slot j = if j = k then Claim.woken s k va else s.slot j) ∧
      { t with slots := s.slots } = s) ∧
    (∀ pa, pl = some (.io pa) → isMgmt pa = false → s.cur = k → s.me.run = .parked (.fill va) → Handles s →
      Unheld s k → ∃ t, exec e s = .next t ∧ Trapped (s.modMe fun y => { y with run := .ready }) t 7 2) ∧
    (∀ p o u, pl = some p → (∀ pa, p ≠ .io pa) → placeRead rq p 64 s = .error (.wait o) u →
      exec e s = .next { o.touch s with later := (o.touch s).later ++ [e] }) ∧
    (∀ p u, pl = some p → (∀ pa, p ≠ .io pa) → placeRead rq p 64 s = .error .fenced u → (u.slot k).run = .parked (.fill va) →
      Unheld u k → ∃ t, exec e s = .next t ∧ (t.slot k).run = .faulted ∧ (t.slot k).faultVa = va) ∧
    ∀ p v u, pl = some p → (∀ pa, p ≠ .io pa) → placeRead rq p 64 s = .ok v u → u.slot k = s.slot k → ∃ t, exec e s = .next t ∧
      (∀ j, t.slot j = if j = k then Claim.woken s k va else u.slot j) ∧
      Claim.installed ((u.core n).icache.filter fun l => l.va ≠ la) (t.core n).icache
        { va := la, data := BitVec.ofNat 512 v, used := (u.core n).stamp + 1 } (fun l => l.va / 64 % 32 = la / 64 % 32) (·.used) 4 ∧
      { t.core n with icache := (u.core n).icache, stamp := (u.core n).stamp } = u.core n ∧
      (∀ m, m ≠ n → t.core m = u.core m) ∧ { t with slots := u.slots, cores := u.cores } = u) ∧
  ∀ (s : State) (k va : Nat) (acc : Access),
    let n := coreOf k
    let c := unitOf n
    let x := s.cluster c
    let e := Instr.tlb2Lookup k va acc
    let hit := fun (y : TlbEntry) => va / pageBytes y.size = y.va / pageBytes y.size
    ((∀ y ∈ x.tlb2, ¬ hit y) → 256 ≤ x.walkQueue.length → Defers s e) ∧
    ((∀ y ∈ x.tlb2, ¬ hit y) → x.walkQueue.length < 256 →
      ClusterBecomes s e c { x with walkQueue := x.walkQueue ++ [{ slot := k, va := va, acc := acc }] } [.walk c]) ∧
    ∀ pre y post, x.tlb2 = pre ++ y :: post → hit y → (∀ z ∈ pre, ¬ hit z) → (x.tlb2).Nodup →
      let z := leafSize y.leaf
      let page := va / pageBytes z * pageBytes z
      ∃ t, exec e s = .next t ∧ (∀ j, t.slot j = if j = k then Claim.woken s k va else s.slot j) ∧
        (t.cluster c).tlb2 = pre ++ { y with used := x.tlbStamp + 1 } :: post ∧
        Claim.installed ((s.core n).tlb.filter fun y => !(y.size = z && y.va = page)) (t.core n).tlb
          { va := page, size := z, leaf := y.leaf, used := (s.core n).stamp + 1 } (fun _ => true) (·.used) 256 ∧
        { t.core n with tlb := (s.core n).tlb, stamp := (s.core n).stamp } = s.core n ∧
        { t.cluster c with tlb2 := x.tlb2, tlbStamp := x.tlbStamp } = x ∧ (∀ m, m ≠ n → t.core m = s.core m) ∧
        (∀ m, m ≠ c → t.cluster m = s.cluster m) ∧ { t with slots := s.slots, cores := s.cores, clusters := s.clusters } = s

/-- A page-table entry of a walk: read at its home in the partition's table lines, over the mesh. -/
def Claim.walkReads (rq : Rq) (s : State) (ea : Nat) (e : BitVec 64) (u : State) : Prop :=
  ∃ sl w, tableHome rq ea s = .ok sl w ∧ overRoute rq.router rq.ep sl 1 ea rq.bulk (homeRead sl ea 8) w = .ok e.toNat u

/-- A leaf `e` of a walk for group `g`, read with `u` as the state, is the leaf `l` after its home has served its first touch. -/
def Claim.walkLeaf (rq : Rq) (g : Nat) (s : State) (ea : Nat) (e : BitVec 64) (u : State) (l : BitVec 64) (v : State) : Prop :=
  ∃ sl w, tableHome rq ea s = .ok sl w ∧ overRoute rq.router rq.ep sl 1 ea rq.bulk (homeRead sl ea 8) w = .ok e.toNat u ∧
    overRoute rq.router rq.ep sl 3 ea rq.bulk (firstTouch sl ea g e) u = .ok l v

/-- R234 to R236, R240: a walker serves the oldest miss: a page found meanwhile answers; a ROOT or an entry that is not valid faults
NOTPRESENT; a chain of three pointers and a leaf of the last level, pinned at its first touch, that allows the access and places it
enters both TLBs and the thread issues again, and one that does not faults and enters neither (R238). A walk that is held goes on later,
behind the other misses. -/
def Claim.Walks : Prop :=
  (∀ (s : State) (c : Nat), (s.cluster c).walkQueue = [] → NoEffect s (.walk c)) ∧
  ∀ (s : State) (c : Nat) (r : WalkReq) (more : List WalkReq), (s.cluster c).walkQueue = r :: more → unitOf (coreOf r.slot) = c →
    let k := r.slot
    let n := coreOf k
    let x := s.cluster c
    let d : State := s.modCluster c fun y => { y with walkQueue := more }
    let rq := rqUnit (64 * c) 0x53 false d
    let ptr := fun (e : BitVec 64) => fieldOf e 0 2 = 3 ∧ fieldOf e 48 16 = 0 ∧ fieldOf e 2 12 = 0
    let table := fun (e : BitVec 64) => fieldOf e 14 34 * 0x4000
    let at_ := fun (t : Nat) (sh : Nat) => t + 8 * (r.va / 2 ^ sh % 2048)
    let faults := fun (u : State) => (s.slot k).run = .parked (.fill r.va) → u.slot k = s.slot k → Unheld u k →
      ∃ t, exec (.walk c) s = .next t ∧ (t.slot k).run = .faulted ∧ (t.slot k).faultVa = r.va ∧
        (t.cluster c).tlb2 = (u.cluster c).tlb2 ∧ (t.core n).tlb = (u.core n).tlb
    (∀ y, tlb2Find x r.va = some y → ∃ t, exec (.walk c) s = .next t ∧ t.slot k = Claim.woken s k r.va ∧
      (t.cluster c).tlb2 = x.tlb2 ∧ (t.cluster c).walkQueue = more ∧ ∃ z ∈ (t.core n).tlb, z.leaf = y.leaf) ∧
    (tlb2Find x r.va = none →
      (∀ o u, walkTree c n r.va d = .error (.wait o) u → ∃ t, exec (.walk c) s = .next t ∧
        (t.cluster c).walkQueue = more ++ [r] ∧ t.later = s.later ++ [.walk c] ∧ ∀ j, t.slot j = s.slot j) ∧
      (bitOf x.root 0 = false ∨ fieldOf x.root 48 16 ≠ 0 ∨ fieldOf x.root 1 13 ≠ 0 → faults d) ∧
      (bitOf x.root 0 = true → fieldOf x.root 48 16 = 0 → fieldOf x.root 1 13 = 0 →
        ∀ e1 u1, Claim.walkReads rq d (at_ (table x.root) 45) e1 u1 →
        (bitOf e1 0 = false → faults u1) ∧ (bitOf e1 0 = true → bitOf e1 1 = true → ¬ ptr e1 → faults u1) ∧
        (bitOf e1 0 = true → bitOf e1 1 = false → faults u1) ∧
        (ptr e1 → ∀ e2 u2, Claim.walkReads rq u1 (at_ (table e1) 34) e2 u2 → ptr e2 →
          ∀ e3 u3, Claim.walkReads rq u2 (at_ (table e2) 23) e3 u3 → ptr e3 →
          (∀ e4 u4, Claim.walkReads rq u3 (at_ (table e3) 12) e4 u4 → bitOf e4 0 = false ∨ bitOf e4 1 = true ∨ leafOk 4 e4 = false →
            faults u4) ∧
          ∀ e4 u4 l u, Claim.walkLeaf rq (groupOf n) u3 (at_ (table e3) 12) e4 u4 l u →
            bitOf e4 0 = true → bitOf e4 1 = false → leafOk 4 e4 = true →
            let z := leafSize l
            let page := r.va / pageBytes z * pageBytes z
            let placed := leafTarget u (u.partOf (dieOfCluster c)) l r.va
            (l = if leafKind e4 = 0 ∧ leafPlaceMode e4 = 2 then putField (putField e4 10 2 1) 12 10 (groupOf n) else e4) ∧
            (leafAllows l r.acc = false ∨ placed = none → faults u) ∧
            (leafAllows l r.acc = true → placed ≠ none → ∃ t, exec (.walk c) s = .next t ∧
              t.slot k = Claim.woken u k r.va ∧ (∀ j, j ≠ k → t.slot j = u.slot j) ∧
              (∃ y ∈ (t.cluster c).tlb2, y.va = page ∧ y.size = z ∧ y.leaf = l) ∧
              ∃ y ∈ (t.core n).tlb, y.va = page ∧ y.size = z ∧ y.leaf = l))))

/-- R143, R272, R273, R279, R367: an engine holds a command of its latches until the ring step it has arrived for is complete; a ring step
moves every active latch to the successor's inactive one, then ACT flips and RSN advances. An engine waits for the words it has asked
for and drops a command whose thread no longer waits; it writes status words after the others, and with its last write performed the
command retires, or takes MEMERR for one that failed. A committed command retires. -/
def Claim.EngineEvents : Prop :=
  (∀ (s : State) (q : Nat),
    let ready := ∀ i < 16, (s.engine (16 * q + i)).arrivals ≠ (s.engine (16 * q + i)).rsn
    let active := fun (e : Engine) => if e.act then e.l1 else e.l0
    let fromOf := fun i => (i + 15) % 16
    (¬ ready → NoEffect s (.ringStep q) ∧ NoEffect s (.ringStepComplete q)) ∧
    (ready → (∃ t, exec (.ringStep q) s = .next t ∧ t.due = s.due ++ [.ringStepComplete q] ∧
      (∀ i < 16,
        let e := s.engine (16 * q + i)
        let l := active (s.engine (16 * q + fromOf i))
        t.engine (16 * q + i) = if e.act then { e with l0 := l } else { e with l1 := l }) ∧
      (∀ g, g / 16 ≠ q → t.engine g = s.engine g) ∧ { t with engines := s.engines, due := s.due } = s) ∧
      ∃ t, exec (.ringStepComplete q) s = .next t ∧
      (∀ i < 16,
        let e := s.engine (16 * q + i)
        t.engine (16 * q + i) = { e with act := !e.act, rsn := e.rsn + 1, retiring := e.retiring.filter fun p => p.2 ≠ 0xFFFFFFFF }) ∧
      (∀ g, g / 16 ≠ q → t.engine g = s.engine g) ∧
      t.due = s.due ++ (List.range 16).flatMap (fun i =>
        let e := s.engine (16 * q + i)
        (e.retiring.filter fun p => p.2 ≠ 0xFFFFFFFF).map (fun _ => .matrixRetire (16 * q + i)) ++
          if e.queue = [] then [] else [.matrixCommandTaken (16 * q + i)]) ∧
      { t with engines := s.engines, due := s.due } = s)) ∧
  (∀ (s : State) (g : Nat),
    let e := s.engine g
    let ev := Instr.matrixCommandTaken g
    let more := fun (q : List MCmd) => if q = [] then [] else [Instr.matrixCommandTaken g]
    let only := fun (q : List MCmd) => ∃ t, exec ev s = .next t ∧ t.due = s.due ++ more q ∧
      (∀ n, t.engine n = if n = g then { e.answered with queue := q } else s.engine n) ∧ { t with engines := s.engines, due := s.due } = s
    (e.cmd = none → e.queue = [] → NoEffect s ev) ∧
    (∀ c q, e.cmd = none → e.queue = c :: q →
      (c.op = .ldb ∨ c.op = .lds true ∨ c.op = .ring ∨ (∃ b td, c.op = .mma b td) → e.arrivals ≠ e.rsn → NoEffect s ev) ∧
      (e.arrivals = e.rsn → (s.slot c.slot).run ≠ .parked .matrix → only q)) ∧
    ∀ c, e.cmd = some c →
      (e.io.want ≠ 0 → NoEffect s ev) ∧
      (e.io.want = 0 → (s.slot c.slot).run ≠ .parked .matrix → only e.queue) ∧
      (e.io.want = 0 → (s.slot c.slot).run = .parked .matrix → e.io.writing = true →
        (∀ p, e.io.puts = [p] → p.mask ≠ 0 → ∃ t n, exec ev s = .next t ∧
          AsksWords s t (g / 64) (g % 64) 0 n p.far true p.setFull (fun w => if w = p.word then (p.mask, p.data) else (0, 0)) ∧
          (∀ m, t.engine m = if m = g then { e with io := { e.io with puts := [], want := n } } else s.engine m) ∧
          { t with engines := s.engines, banks := s.banks, hot := s.hot } = s) ∧
        (e.io.puts = [] → groupOf (coreOf c.slot) = g → Unmapped { s with cur := c.slot } →
          let r := { s with cur := c.slot }
          let fx : Fx := { fl := e.io.fx.setWidth 6, nan := bitOf e.io.fx 6, draws := e.io.fx.toNat / 128 }
          (e.io.err = none → ∃ t, exec ev s = .next { t with cur := s.cur } ∧ EngineRetires r t fx 0) ∧
          ∀ k, e.io.err = some k → HandlesAt s c.slot →
            ∃ t, exec ev s = .next { t with cur := s.cur } ∧ EngineTraps r t 7 (BitVec.ofNat 32 (k.toNat + 2 ^ 10)) 0))) ∧
  ∀ (s : State) (g : Nat),
    let e := s.engine g
    let ev := Instr.matrixRetire g
    ((∀ p ∈ e.retiring, p.2 = 0xFFFFFFFF) → NoEffect s ev) ∧
    ∀ k w more, e.retiring = (k, w) :: more → w ≠ 0xFFFFFFFF →
      let fx : Fx := { fl := w.setWidth 6, nan := bitOf w 6, draws := w.toNat / 128 }
      ∃ t, exec ev s = .next t ∧
        (∀ j, t.slot j = if j = k then { s.slot k with fflags := (s.slot k).fflags ||| w &&& 0x3F } else s.slot j) ∧
        (∀ i, smGet 0 (t.core (coreOf k)).counters i = bump (smGet 0 (s.core (coreOf k)).counters i) (fx.advances i)) ∧
        { t.core (coreOf k) with counters := (s.core (coreOf k)).counters } = s.core (coreOf k) ∧
        (∀ n, n ≠ coreOf k → t.core n = s.core n) ∧ (∀ n, t.engine n = if n = g then { e with retiring := more } else s.engine n) ∧
        { t with slots := s.slots, cores := s.cores, engines := s.engines } = s

/-- R380, R382 to R384: an engine accepts the oldest copy of its queue that it has not, whose completion word it sets empty. The first
four accepted copies run, the others wait unless they are to end.
A copy that runs goes on unit by unit: its words of vaults are asked for, and its writes are asked for once all is read; after the last unit, or
when it is stopped or an access of it fails, its completion word is written, stored full at its bank, and then it leaves the engine. -/
def Claim.CopyEvents : Prop :=
  (∀ (s : State) (g : Nat),
    let b := s.bulkOf g
    let ev := Instr.copyAccept g
    ((∀ c ∈ b.copies, c.accepted = true) → NoEffect s ev) ∧
    ∀ pre c post, b.copies = pre ++ c :: post → c.accepted = false → (∀ x ∈ pre, x.accepted = true) →
      (∀ x ∈ pre ++ post, x.id ≠ c.id) → isBursar (coreOf c.slot) = false →
      let m0 := match c.comp with
        | none => s
        | some v => vSetFull (ownKeyOf (coreOf c.slot) v / 4) false s
      ∃ t, exec ev s = .next t ∧
        (∀ n, t.bulkOf n = if n = g then { b with copies := pre ++ { c with accepted := true } :: post } else s.bulkOf n) ∧
        ((s.slot c.slot).run = .parked .copy → c.orphan = false → Unheld s c.slot → Answered s t c.slot []) ∧
        ((s.slot c.slot).run ≠ .parked .copy ∨ c.orphan = true → ∀ k, t.slot k = s.slot k) ∧
        t.due = s.due ++ [.copyComplete g c.id] ∧
        { t with slots := s.slots, bulk := s.bulk, due := s.due, cores := s.cores } = m0) ∧
  ∀ (s : State) (g id : Nat),
    let b := s.bulkOf g
    let ev := Instr.copyComplete g id
    ((∀ c ∈ b.copies, c.id ≠ id) → NoEffect s ev) ∧
    ∀ c ∈ b.copies, c.id = id → (b.copies.map (·.id)).Nodup →
      let ends := fun (u : State) (c : Copy) (code : Nat) => ∃ t, exec ev s = .next t ∧ CopyEnds u t g c code
      let r := { s with cur := c.slot }
      let runs := ∃ pre post, b.copies.filter (·.accepted) = pre ++ c :: post ∧ pre.length < 4
      (c.accepted = false ∨ c.io.want ≠ 0 ∨ (¬ runs ∧ c.ending = none ∧ c.stopCode = none) → NoEffect s ev) ∧
      (c.accepted = true → c.io.want = 0 → (runs ∨ c.ending ≠ none ∨ c.stopCode ≠ none) →
        (c.ending ≠ none → ∃ t, exec ev s = .next t ∧ CopyDropped s t g c 0) ∧
        (c.ending = none →
          (∀ code, c.stopCode = some code → ends s c code) ∧
          (c.stopCode = none → c.io.writing = true →
            (∀ k, c.io.err = some k → ends s c k.toNat) ∧
            (c.io.err = none →
              let c' := { c with unit := c.unit + 1, io := {} }
              (c.unit + 1 < c.units → ∃ t, exec ev s = .next t ∧ CopyBecomes s t g c c' ∧ t.banks = s.banks ∧ t.hot = s.hot) ∧
              (c.units ≤ c.unit + 1 → ∃ u, CopyBecomes s u g c c' ∧ u.banks = s.banks ∧ u.hot = s.hot ∧ ends u c' 0))) ∧
          (c.stopCode = none → c.io.writing = false →
            (∀ near far y, copyUnit c r = .error (.lines near far) y → far = [] → near.Nodup → ∃ t n, exec ev s = .next t ∧
              CopyBecomes s t g c { c with io := { c.io with want := n } } ∧
              AsksWords s t (g / 64) (64 + g % 64) id n false false false fun w => if w ∈ near then (15, 0) else (0, 0)) ∧
            (∀ near far y, copyUnit c r = .error (.lines near far) y → near = [] → far.Nodup → ∃ t n, exec ev s = .next t ∧
              CopyBecomes s t g c { c with io := { c.io with want := n } } ∧
              AsksWords s t (g / 64) (64 + g % 64) id n true false false fun w => if w ∈ far then (15, 0) else (0, 0)) ∧
            (∀ k y, copyUnit c r = .error (.code k) y → y.bulkOf g = b → ends { y with cur := s.cur } c k) ∧
            (∀ y, copyUnit c r = .error .room y → NoEffect s ev) ∧
            (∀ x last y c1, copyUnit c r = .ok (x, last) y → c1 ∈ (y.bulkOf g).copies → c1.id = id →
              ((y.bulkOf g).copies.map (·.id)).Nodup →
              let u := { y with cur := s.cur }
              let c' := { c1 with unit := c1.unit + 1, index := x, io := {} }
              (c1.io.puts = [] → last = false → ∃ t, exec ev s = .next t ∧ CopyBecomes u t g c1 c' ∧ t.banks = u.banks ∧ t.hot = u.hot) ∧
              (c1.io.puts = [] → last = true → ∃ u2, CopyBecomes u u2 g c1 c' ∧ u2.banks = u.banks ∧ u2.hot = u.hot ∧ ends u2 c' 0) ∧
              (∀ far full put, c1.io.puts ≠ [] → PutsAre c1.io.puts far full put → ∃ t n, exec ev s = .next t ∧
                CopyBecomes u t g c1 { c1 with index := x, io := { c1.io with puts := [], writing := true, want := c1.io.want + n } } ∧
                AsksWords u t (g / 64) (64 + g % 64) id n far true full put)))))

/-- R381, R384: what a unit of a copy with its ranges in the own vault does, the words of `f` being those read: the words of its source
that it does not hold are read first; then those bytes of the source (where the copy has not written them itself), or of the pattern, are to be written to the destination. A
gathered or scattered row lies where its index, read from the list, puts it: beyond the segment limit the copy stops with
RANGE, a scattered row in the mint view with MINTDEST. With nothing to move no unit moves anything. -/
def Claim.CopyUnits : Prop :=
  ∀ (s : State) (c : Copy) (f : Nat → Word), c.slot = s.cur → isBursar s.myCore = false → c ∈ (s.bulkOf s.myGroup).copies →
    ((s.bulkOf s.myGroup).copies.map (·.id)).Nodup → c.io.puts = [] →
    segType c.dst = 3 → segOwn c.dst = true → (c.fn = 2 ∨ (segType c.src = 3 ∧ segOwn c.src = true)) → c.unit < c.units →
    let len := c.x0.toNat
    let r := c.unit / c.rowUnits
    let i := c.unit % c.rowUnits
    let m := Nat.min 64 (len - 64 * i)
    let has := fun (a n : Nat) => ∀ k, spanOf s a n k → c.io.got.lookup (k / 4) = some (some (f (k / 4)))
    let asks := fun (a n : Nat) => (∃ k, spanOf s a n k ∧ c.io.got.lookup (k / 4) = none) →
      ∃ near, copyUnit c s = .error (.lines near []) s ∧ near.Nodup ∧
        ∀ w, w ∈ near ↔ ∃ k, spanOf s a n k ∧ k / 4 = w ∧ c.io.got.lookup w = none
    let own := fun (a n : Nat) => a + n ≤ 0x4000000
    -- the copy has not written these bytes itself
    let clean := fun (a n : Nat) => ∀ k, spanOf s a n k → ∀ b ∈ c.before, ∀ u o far, b.1 = .vault u o far →
      ¬ (vKey u o ≤ k ∧ k < vKey u o + b.2.1)
    -- the unit's bytes `v` are to be written at address `a`
    let writes := fun (x a v : Nat) => ∃ y puts before, copyUnit c s = .ok (x, decide (c.units ≤ c.unit + 1)) y ∧
      PutsAre puts false c.setFull (putOf (spanBytes s a m v)) ∧ (c.overlaps = false → before = c.before) ∧
      CopyBecomes { s with fresh := y.fresh } y s.myGroup c { c with before := before, io := { c.io with puts := puts } }
    let moves := fun (x a b : Nat) => own a m → own b m → asks a m ∧ (has a m → clean a m → writes x b (bytesOf s f a m))
    let sb := segBase c.src + 64 * i
    let db := segBase c.dst + 64 * i
    (c.fn = 0 → moves 0 (sb + c.so.toNat) (db + c.do_.toNat)) ∧
    (c.fn = 1 → moves 0 (sb + c.so.toNat + r * c.x2.toNat) (db + c.do_.toNat + r * c.x3.toNat)) ∧
    (c.fn = 2 → own (db + c.do_.toNat) m → writes 0 (db + c.do_.toNat)
      ((List.range m).map fun k => c.pattern.toNat / 256 ^ ((c.do_.toNat + 64 * i + k) % 4) % 256 * 256 ^ k).sum) ∧
    ∀ gather, (c.fn = 3 ∧ gather = true) ∨ (c.fn = 4 ∧ gather = false) →
      let at_ := c.x2.toNat + 4 * r
      (i = 0 → own at_ 4 → asks at_ 4) ∧
      ∀ x, (if i = 0 then own at_ 4 ∧ has at_ 4 ∧ x = bytesOf s f at_ 4 else x = c.index) →
        let o := (if gather then c.so.toNat else c.do_.toNat) + x * c.x3.toNat
        let d := if gather then c.src else c.dst
        (segLimit d < o + len → ∃ y, copyUnit c s = .error (.code 0x15) y) ∧
        (gather = false → o + len ≤ segLimit d → segBase d + o + len ≤ 0x8000000 → 0x4000000 < segBase d + o + len →
          ∃ y, copyUnit c s = .error (.code 0x11) y) ∧
        (o + len ≤ segLimit d → segBase d + o + len ≤ 0x4000000 →
          if gather then moves x (sb + o) (db + c.do_.toNat + r * len) else moves x (sb + c.so.toNat + r * len) (db + o))

/-! ### Reset, decoding, steps, invariants -/

/-- R19, R46, R81, R121, R125 (reset values of R5's register maps): what the bursar's region of a die reads as at reset. -/
def Obligations.ResetValues : Prop :=
  ∀ d < 4,
    let at_ := regionRead State.reset d
    at_ 0x000000 = 0 ∧
    (∀ k < 2,
      let c := 0x100000 + 0x10000 * k
      at_ c = 0 ∧ at_ (c + 0x04) = 0 ∧ at_ (c + 0x08) = 0x00000400 ∧ at_ (c + 0x0C) = 0 ∧ at_ (c + 0x10) = 0x02004000 ∧
      at_ (c + 0x18) = 0 ∧ at_ (c + 0x20) = 0 ∧ at_ (c + 0x24) = 0) ∧
    at_ 0x200000 = 0x00040801 ∧
    (∀ n < 256,
      let r := 0x210000 + 0x100 * n
      at_ r = 0 ∧ at_ (r + 4) = 0 ∧ ∀ p < 8, at_ (r + 0x40 + 8 * p) = 0 ∧ at_ (r + 0x44 + 8 * p) = 0) ∧
    (∀ n < 35, at_ (0x220000 + 4 * n) = 0) ∧
    (∀ n < 64, at_ (0x500000 + 4 * n) = 0) ∧ at_ 0x500100 = 0x0000695F ∧ at_ 0x500104 = 0 ∧
    at_ 0x600000 = 0 ∧ at_ 0x600004 = 0x00700000 ∧ at_ 0x600008 = 0

/-- R4: a mesh cycle of a work cycle counts in every die that runs; with no router busy nothing moves in it, and the engines' requests
that are due by it become due. -/
def Claim.MeshCycles : Prop :=
  ∀ (s : State) (n : Nat), s.due = [] → s.mcDue = n + 1 → s.sr.powered = true → s.busy = [] → ∃ t, step s = .next t ∧ t.mcDue = n ∧
    (∀ d < 4, t.die d = if bitOf s.sr.dieup d = true ∧ (s.die d).stopped = false then { s.die d with mc := (s.die d).mc + 1 } else s.die d) ∧
    (∀ e ∈ t.due, ∃ d < 4, bitOf s.sr.dieup d = true ∧ (s.die d).stopped = false ∧ e ∈ requestEvents t d) ∧
    { t with dies := s.dies, due := s.due, mcDue := s.mcDue } = s

/-- R180, R181: the slot that a core issues in a work cycle: in FIXED mode slot RPOS if it is eligible, else none (a bubble); in
SHARED mode the first eligible one from RPOS on. The core's turn then issues that slot, or counts the bubble. -/
def Obligations.IssuedSlots : Prop :=
  ∀ (s : State) (n : Nat), s.due = [] → s.mcDue = 0 → s.sr.powered = true → nextCore s = some n →
    let u : State := { s with turn := n + 1 }
    let x := s.cluster (unitOf n)
    let p := x.rpos.toNat
    let runs := fun (k : Nat) (lent : Bool) => step s = match issueSlot k lent u with
      | (t, some i) => exec i t
      | (t, none) => .next t
    let bubbles := ∃ t, step s = .next t ∧
      { t.core n with counters := (s.core n).counters } = s.core n ∧ (∀ m, m ≠ n → t.core m = s.core m) ∧
      (∀ i, smGet 0 (t.core n).counters i = bump (smGet 0 (s.core n).counters i) (if i = 8 then 1 else 0)) ∧
      { t with cores := s.cores } = u
    x.idleDue = false → (isBursar n = true ∨ x.owState ≠ 2) → (s.core n).halt = false →
    (x.rotmode = false →
      (eligible u (16 * n + p) = true → runs (16 * n + p) false) ∧ (eligible u (16 * n + p) = false → bubbles)) ∧
    (x.rotmode = true →
      (∀ j < 16, eligible u (16 * n + (p + j) % 16) = true → (∀ i < j, eligible u (16 * n + (p + i) % 16) = false) →
        runs (16 * n + (p + j) % 16) (decide (0 < j))) ∧
      ((∀ j < 16, eligible u (16 * n + (p + j) % 16) = false) → bubbles))

/-- R6, R184, R201, R296: an event that is due is executed; with every clock stopped nothing is; and where the halfwords at the pc of
the slot that issues are in its instruction cache and decode to an instruction, a step executes exactly that, with the slot busy
for eight cycles and the issue counted; halfwords that do not decode are the ILLEGAL encoding.
The model's choices of log entry 1 enter here. -/
def Obligations.StepRunsDecoded : Prop :=
  (∀ (s : State) (e : Instr) (more : List Instr), s.due = e :: more →
    eventLost s e = false → step s = exec e { s with due := more }) ∧
  (∀ (s : State), s.due = [] → s.sr.powered = false → step s = .fault .clocksStopped) ∧
  ∀ (s : State) (n k : Nat) (lent : Bool), s.due = [] → s.mcDue = 0 → s.sr.powered = true →
    nextCore s = some n →
    pickSlot { s with turn := n + 1 } n = some (k, lent) → coreOf k = n → (s.core n).halt = false →
    let sl := s.slot k
    let x := s.core n
    let d := smGet 0 sl.sg 0
    let fetches := ({ kind := .fetch, x := true } : Access)
    let line := fun (va : Nat) (l : ICLine) => icFind x va = some l
    let half := fun (l : ICLine) (va : Nat) => l.data.extractLsb' (8 * (va % 64)) 16
    let va := segBase d + sl.pc.toNat
    let va2 := segBase d + (sl.pc + 2).toNat
    let runs := fun (i : Instr) (bits : Word) (len : Nat) => ∃ u, step s = exec i u ∧ u.cur = k ∧
      u.me = { sl with
        ir := bits, irLen := len, busyUntil := (s.cluster (unitOf n)).cycle.toNat + 8, counted := true, run := .ready
        undo := some { issued := smGet 0 x.counters 7, lent := smGet 0 x.counters 9, step := x.step, busyUntil := sl.busyUntil
                       counted := sl.counted }
        reissue := sl.reissue || decide (sl.run ≠ .ready) } ∧
      (∀ j, j ≠ k → u.slot j = s.slot j) ∧ (∀ m, m ≠ n → u.core m = s.core m) ∧
      { u.core n with counters := x.counters, icache := x.icache, stamp := x.stamp } = x ∧
      (∀ j, smGet 0 (u.core n).counters j =
        bump (smGet 0 x.counters j) (if sl.counted = false ∧ (j = 7 ∨ (j = 9 ∧ lent = true)) then 1 else 0)) ∧
      (u.core n).icache.map (fun l => (l.va, l.data)) = x.icache.map (fun l => (l.va, l.data)) ∧
      (∀ c, (u.cluster c).launch.map (fun l => { l with stalled := false }) =
          (s.cluster c).launch.map (fun l => { l with stalled := false }) ∧
        { u.cluster c with launch := none } = { s.cluster c with launch := none }) ∧
      { u with slots := s.slots, cores := s.cores, clusters := s.clusters, cur := s.cur, turn := s.turn } = s
    sl.deferred = none → (sl.deadline = none ∨ bitOf sl.status 0 = true) → sl.stepDue = false →
    segTest (isBursar n) d sl.pc.toNat 2 2 fetches = none → ∀ l, line va l →
      ((half l va).getLsbD 0 = false →
        (∀ i, decode16 (half l va) = some i → runs i ((half l va).setWidth 32) 2) ∧
        (decode16 (half l va) = none → runs .illegalEncoding ((half l va).setWidth 32) 2)) ∧
      ((half l va).getLsbD 0 = true → segTest (isBursar n) d (sl.pc + 2).toNat 2 2 fetches = none → ∀ m, line va2 m →
        (∀ i, decode32 (half m va2 ++ half l va) = some i → runs i (half m va2 ++ half l va) 4) ∧
        (decode32 (half m va2 ++ half l va) = none → runs .illegalEncoding (half m va2 ++ half l va) 4))

/-- Words that the manual writes out (R6, R303, R315 to R317, R321 to R399): each decodes to the instruction it stands for; the
reserved halfwords and words of R300 to R304 decode to none. -/
def Obligations.DecodeWords : Prop :=
  (∀ p ∈ ([
    (0x00183285, .addi 5 3 12), (0x00128293, .lui 5 0x128), (0xFFF85285, .addi 5 5 0x7FFC), (0x004E6283, .sub 5 6 7),
    (0x008E629B, .cmul 5 6 7), (0x800E62A1, .fadd 5 6 7 true), (0x00400031, .fenceG), (0x01C432A9, .lw 5 3 2 3),
    (0xFF36232B, .sd 6 2 3 0x1FE), (0x001433AD, .lwt 7 3 2 0), (0x008C32AF, .tadd 5 3 6 2), (0x128C32AF, .tcas 5 3 6 2),
    (0x184062C1, .barw 5 6 3), (0x00D6A243, .msend 4 10 11 3), (0x2000C245, .qput 4 12 1), (0x008C3047, .spawn 3 6 2),
    (0x0C8002C7, .wid 5 2), (0x004A62C9, .dlarmm 5 6 9), (0x41500051, .mldb 10 2), (0x425800D1, .mldsB 11 2),
    (0x04000051, .mring), (0x40500253, .mma 4 10 2), (0xB7604055, .msttF 2 12 3), (0xD4488055, .mredRowmax 4 9 true),
    (0x00300057, .mpotrf 0 6), (0x42300157, .mtrsm 2 0 6 2 false false false), (0x068C5259, .bcopy 4 5 6 2 3 false),
    (0x968C5259, .bcopy2 4 5 6 2 3 true), (0x500C03D9, .bcancel 7 6), (0x2028C05B, .mqnt 6 5 2),
    (0xB08C525B, .cvtblk 4 5 6 2 3), (0x01000061, .wait 0 0), (0x00000061, .syscall), (0x000040B7, .jal 1 4),
    (0x00001039, .jalr 0 1 0)] : List (Nat × Instr)), decodeTableWord 32 p.1 = some p.2) ∧
  (∀ p ∈ ([
    (0x0704, .cLi 0 7), (0x4026, .cMv 1 8), (0x0108, .cAdd 0 1), (0x6402, .cAddi 0 100), (0x0036, .movxToX 1 0),
    (0x02B6, .lox 1 2), (0x8556, .movxToG 2 5), (0x0018, .cNop), (0x3394, .fmt 4 3 3), (0x0DF4, .rel), (0x2DF4, .cls 2),
    (0xDDF4, .fmt 7 13 13)] : List (Nat × Instr)), decodeTableWord 16 p.1 = some p.2) ∧
  (∀ w ∈ [0x0000, 0x001A, 0x0118, 0x9DF4], decodeTableWord 16 w = none) ∧ decodeTableWord 32 0x0000FFFF = none

/-- Decoding an encoded well-formed instruction gives it back, with every operand at every value. -/
def Obligations.DecodeEncode : Prop :=
  ∀ i : Instr, i.wf = true → encode i ≠ .event → decodeCode (encode i) = some i

/-- Main memory and the vaults keep their canonical form through every step: equal contents stay equal data. -/
def Obligations.StepKeepsCanonical : Prop := ∀ s t : State, Canonical s → step s = .next t → Canonical t

/-- The device is in canonical form at reset.
The model's choices of log entries 3 and 4 enter here. -/
def Obligations.ResetCanonical : Prop := Canonical State.reset

/-! ### The statements that stand in several parts -/

/-- R321: the ALU group; a reserved function, or a second operand of the functions 20 to 26 that is not 0, does not decode. -/
def Obligations.AluResults : Prop :=
  Claim.AluTwoOperandResults ∧ Claim.AluOneOperandResults ∧
  ∀ w : BitVec 32, w.toNat % 128 = 3 → (27 ≤ w.toNat / 2 ^ 22 ∨ (20 ≤ w.toNat / 2 ^ 22 ∧ w.toNat / 2 ^ 17 % 32 ≠ 0)) → decode32 w = none

/-- R332, R334: selection, comparison, classification and sign operations, scalar and packed. -/
def Obligations.FloatSelectResults : Prop :=
  Claim.FloatSelectAndCompareResults ∧ Claim.PackedFloatSelectResults

/-- R253, R260, R262: rounding to nearest even gives the nearest value of the format, ties to even; each encoding stands for its exact value. -/
def Obligations.Rounding : Prop :=
  Claim.RoundNearestEven ∧ Claim.FloatValuesExact

/-- R335 to R338: where branches and jumps go and what they link. -/
def Obligations.BranchesAndJumps : Prop :=
  Claim.BranchTargets ∧ Claim.JumpTargets

/-- R304 to R306: prefixes add to the pending state; an instruction that does not accept one traps.
The model's choices of log entry 28 enter here. -/
def Obligations.Prefixes : Prop :=
  Claim.PrefixesAccumulate ∧ Claim.RefusedPrefixTraps

/-- R215, R216, R343: the full/empty operations that find their condition, and those that wait for it.
The model's choices of log entries 6, 7, 21 and 51 enter here. -/
def Obligations.FullEmpty : Prop :=
  Claim.FullEmptyRequests ∧ Claim.FullEmptyAtTheBank ∧ Claim.FullEmptyAtSlices

/-- R213, R214, R344: the teller operations, and that FADD rounds the exact sum once.
The model's choices of log entries 6 and 51 enter here. -/
def Obligations.Tellers : Prop :=
  Claim.TellerOperations ∧ Claim.TellerFaddRoundsOnce

/-- R186, R243, R342, R345: relaxed accesses stay outstanding with their marks; fences wait for them.
The model's choices of log entry 33 enter here. -/
def Obligations.RelaxedAccessesAndFences : Prop :=
  Claim.RelaxedAccessesOutstanding ∧ Claim.Fences

/-- R192, R193, R195: a trap enters the handler of its thread, or stops the thread.
The model's choices of log entry 28 enter here. -/
def Obligations.Traps : Prop :=
  Claim.TrapsEnterTheHandler ∧ Claim.TrapsStopTheThread

/-- R200, R390 to R392: ERET and DRET return; BREAK with BRKHALT halts the core. -/
def Obligations.ReturnsAndBreaks : Prop :=
  Claim.ReturnsFromTraps ∧ Claim.BreakHaltsTheCore

/-- R186 to R188: mapped registers take and give queue entries; marked registers wait; mapped bases trap. -/
def Obligations.QueuesAndMarks : Prop :=
  Claim.InterSlotQueues ∧ Claim.MarksAndMappedBases

/-- R393 to R395: WAIT, YIELD and HALT.
The model's choices of log entry 7 enter here. -/
def Obligations.WaitsAndHalts : Prop :=
  Claim.WaitsAndYields ∧ Claim.HaltEndsTheThread

/-- R397, R398 and R239: TLBINV with its invalidations; MINTLD and MINTSV.
The model's choices of log entries 6 and 51 enter here. -/
def Obligations.TlbAndMintInstructions : Prop :=
  Claim.TlbInvalidations ∧ Claim.MintBlocks

/-- R399 to R404: reads and writes of every CSR.
The model's choices of log entries 21 and 30 enter here. -/
def Obligations.CsrAccess : Prop :=
  Claim.CsrReads ∧ Claim.CsrWrites

/-- R361 to R363: WID, COREID and the budget timers.
The model's choices of log entry 21 enter here. -/
def Obligations.WorkAndTimers : Prop :=
  Claim.WorkIdentifiers ∧ Claim.BudgetTimers

/-- R170 to R173, R346, R347: the barrier instructions. -/
def Obligations.BarrierInstructions : Prop :=
  Claim.BarrierArrivalInstructions ∧ Claim.BarrierRecordsWaitsAndMembers

/-- R163, R164, R168, R348 to R351: the message instructions.
The model's choices of log entries 32 and 48 enter here. -/
def Obligations.MessageInstructions : Prop :=
  Claim.MessageSends ∧ Claim.MessageReceives

/-- R149 to R156, R357, R358: SPAWN, SPRET, JOIN and RSPAWN.
The model's choices of log entries 31 and 51 enter here. -/
def Obligations.Spawns : Prop :=
  Claim.SpawnsAndJoins ∧ Claim.JoinAnswers ∧ Claim.RemoteSpawns

/-- R372 to R376: epilogue operations, tile stores and reductions.
The model's choices of log entry 23 enter here. -/
def Obligations.MatrixEpilogues : Prop :=
  Claim.MatrixEpilogue ∧ Claim.MatrixStoresAndReductions

/-- R285 to R292, R377, R378: the solver instructions.
The model's choices of log entries 12 and 26 enter here. -/
def Obligations.MatrixSolvers : Prop :=
  Claim.MatrixFactorsAndSolves ∧ Claim.MatrixDeltasAndShifts

/-- The memory controllers: requests, windows and scrub, lane lending, map changes.
The model's choices of log entries 1, 7 and 40 to 42 enter here. -/
def Obligations.ControllerEvents : Prop :=
  Claim.ControllerRequests ∧ Claim.WindowsAndScrub ∧ Claim.LaneLending ∧ Claim.MapChanges

/-- The routers and their links.
The model's choices of log entries 1, 11, 40, 48 and 50 enter here. -/
def Obligations.MeshEvents : Prop :=
  Claim.FlitsSent ∧ Claim.FlitsReady ∧ Claim.FlitsReceived ∧ Claim.LinkStates ∧ Claim.Routing ∧ Claim.ReadsMerge ∧ Claim.Deliveries ∧
  Claim.RequestsOfPorts ∧ Claim.MeshCycles

/-- The slices, their queues, and streams.
The model's choices of log entries 1, 6, 34 and 48 enter here. -/
def Obligations.SliceEvents : Prop :=
  Claim.SliceRequests ∧ Claim.SliceFillsAndFlushes ∧ Claim.SliceQueuePackets ∧ Claim.StreamEvents

/-- The banks and line ports of the vaults.
The model's choices of log entries 1, 7 and 51 enter here. -/
def Obligations.VaultEvents : Prop :=
  Claim.BankGrants ∧ Claim.WaitersAndResends ∧ Claim.LinePorts ∧ Claim.RemoteVaultAccesses

/-- The host port.
The model's choices of log entries 1, 9 and 43 to 45 enter here. -/
def Obligations.HostPortEvents : Prop :=
  Claim.HostBursts ∧ Claim.HostQueues ∧ Claim.MailboxAndAttestation

/-- The Ethernet ports.
The model's choices of log entries 1 and 34 enter here. -/
def Obligations.EthernetEvents : Prop :=
  Claim.FramesReceived ∧ Claim.FramesSent

/-- Management registers, power and thermal control, log, I3C, boot and resets.
The model's choices of log entries 1, 9, 13, 18, 19, 41, 44, 46 and 47 enter here. -/
def Obligations.ManagementEvents : Prop :=
  Claim.RegisterWrites ∧ Claim.ThrottleAndThermal ∧ Claim.LogRing ∧ Claim.LogAndI3c ∧ Claim.BootAndReset

/-- Launches from record to completion.
The model's choices of log entries 1, 8, 17 and 20 enter here. -/
def Obligations.LaunchEvents : Prop :=
  Claim.LaunchDispatch ∧ Claim.BursarCompletions ∧ Claim.LaunchSetup ∧ Claim.LaunchDrain ∧ Claim.LaunchCompletion

/-- Idle slots, the ready queue and steals.
The model's choices of log entries 1 and 31 enter here. -/
def Obligations.TaskEvents : Prop :=
  Claim.IdleSearch ∧ Claim.ReadyQueue ∧ Claim.TaskReleases ∧ Claim.Steals

/-- Messages, handlers, replies, timers and barriers.
The model's choices of log entries 1, 32 and 48 enter here. -/
def Obligations.MessageAndBarrierEvents : Prop :=
  Claim.MessageArrivals ∧ Claim.HandlerStarts ∧ Claim.Replies ∧ Claim.Timeouts ∧ Claim.BarrierArrivals

/-- Traps taken between instructions, page faults, the fault buffer, halt and step.
The model's choices of log entries 1, 28, 29 and 47 enter here. -/
def Obligations.ThreadEvents : Prop :=
  Claim.PendingTraps ∧ Claim.FetchFaults ∧ Claim.FaultBufferAndHalts

/-- The instruction cache, the TLBs and the walkers.
The model's choices of log entries 1, 10, 38 and 49 enter here. -/
def Obligations.TranslationEvents : Prop :=
  Claim.FillsAndLookups ∧ Claim.Walks

/-- The matrix engines and the bulk copy engines.
The model's choices of log entries 1, 7, 13, 25 and 51 enter here. -/
def Obligations.EngineAndCopyEvents : Prop :=
  Claim.EngineEvents ∧ Claim.CopyEvents ∧ Claim.CopyUnits
end

