-- ==== Sys2Proof/Laws/Sparse.lean ====
section
/-! SUPPORT. What the operations of a sparse store do: reads after writes hold of every store, and writes keep the canonical form. -/

namespace Sys2Proof.Machine

variable {α : Type}

/-! ### Reads after writes -/

theorem smGet_smPut (d : α) (m : SMap α) (i j : Nat) (x : α) : smGet d (smPut m i x) j = if i = j then x else smGet d m j := by
  induction m with
  | nil => simp [smPut, smGet]
  | cons e r ih =>
    obtain ⟨k, v⟩ := e
    simp only [smPut]
    split
    · simp only [smGet]
    · split
      · subst_vars
        simp only [smGet]
        split <;> rfl
      · simp only [smGet, ih]
        split <;> split <;> first | rfl | omega

theorem smGet_smDel (d : α) (m : SMap α) (i j : Nat) : smGet d (smDel m i) j = if i = j then d else smGet d m j := by
  induction m with
  | nil => simp [smDel, smGet]
  | cons e r ih =>
    obtain ⟨k, v⟩ := e
    simp only [smDel]
    split
    · subst_vars
      simp only [smGet, ih]
      split <;> rfl
    · simp only [smGet, ih]
      split <;> split <;> first | rfl | omega

/-- A write is read back, and every other key reads as before. -/
@[simp] theorem smGet_smSet [DecidableEq α] (d : α) (m : SMap α) (i j : Nat) (x : α) :
    smGet d (smSet d m i x) j = if i = j then x else smGet d m j := by
  unfold smSet
  split
  · subst_vars
    exact smGet_smDel x m i j
  · exact smGet_smPut d m i j x

@[simp] theorem smGet_smMod [DecidableEq α] (d : α) (m : SMap α) (i j : Nat) (f : α → α) :
    smGet d (smMod d m i f) j = if i = j then f (smGet d m i) else smGet d m j := smGet_smSet d m i j _

/-- Changing every listed value changes the value at every key. -/
theorem smGet_smEach [DecidableEq α] (d : α) (m : SMap α) (f : Nat → α → α) (hf : ∀ k, f k d = d) (j : Nat) :
    smGet d (smEach d m f) j = f j (smGet d m j) := by
  have key (l r : SMap α) : smGet d (l.foldl (fun r e => smSet d r e.1 (f e.1 (smGet d m e.1))) r) j =
      if j ∈ l.map (·.1) then f j (smGet d m j) else smGet d r j := by
    induction l generalizing r with
    | nil => simp
    | cons e l ih =>
      rw [List.foldl_cons, ih, smGet_smSet]
      by_cases h : j ∈ l.map (·.1)
      · simp [h]
      · by_cases he : e.1 = j
        · simp [he]
        · simp [h, he, Ne.symm he]
  have hn (l : SMap α) (h : j ∉ l.map (·.1)) : smGet d l j = d := by
    induction l with
    | nil => rfl
    | cons e l ih =>
      simp only [List.map_cons, List.mem_cons, not_or] at h
      simp [smGet, Ne.symm h.1, ih h.2]
  unfold smEach
  rw [key]
  split
  · rfl
  · rw [hn m ‹_›, hf]

@[simp] theorem smGet_nil (d : α) (j : Nat) : smGet d [] j = d := rfl

/-! ### The canonical form -/

theorem smRising_cons (lo : Option Nat) (k : Nat) (v : α) (r : SMap α) :
    smRising lo ((k, v) :: r) = true ↔ (∀ l ∈ lo, l < k) ∧ smRising (some k) r = true := by
  cases lo <;> simp [smRising]

theorem smRising_weaken {lo hi : Option Nat} {m : SMap α} (h : smRising hi m = true)
    (hlo : ∀ l ∈ lo, ∃ k ∈ hi, l ≤ k) : smRising lo m = true := by
  cases m with
  | nil => rfl
  | cons e r =>
    obtain ⟨k, v⟩ := e
    rw [smRising_cons] at h ⊢
    refine ⟨fun l hl => ?_, h.2⟩
    obtain ⟨j, hj, hle⟩ := hlo l hl
    exact Nat.lt_of_le_of_lt hle (h.1 j hj)

theorem smRising_smPut {lo : Option Nat} {m : SMap α} {i : Nat} {x : α} (h : smRising lo m = true) (hi : ∀ l ∈ lo, l < i) :
    smRising lo (smPut m i x) = true := by
  induction m generalizing lo with
  | nil => exact (smRising_cons lo i x []).2 ⟨hi, rfl⟩
  | cons e r ih =>
    obtain ⟨k, v⟩ := e
    have hh := (smRising_cons lo k v r).1 h
    simp only [smPut]
    split
    next hik => exact (smRising_cons lo i x _).2 ⟨hi, (smRising_cons _ k v r).2 ⟨by simpa using hik, hh.2⟩⟩
    next hik =>
      split
      next he => exact (smRising_cons lo i x r).2 ⟨hi, he ▸ hh.2⟩
      next hne => exact (smRising_cons lo k v _).2 ⟨hh.1, ih hh.2 (by simp; omega)⟩

theorem smRising_smDel {lo : Option Nat} {m : SMap α} {i : Nat} (h : smRising lo m = true) : smRising lo (smDel m i) = true := by
  induction m generalizing lo with
  | nil => rfl
  | cons e r ih =>
    obtain ⟨k, v⟩ := e
    have hh := (smRising_cons lo k v r).1 h
    simp only [smDel]
    split
    · exact smRising_weaken (ih hh.2) fun l hl => ⟨k, rfl, Nat.le_of_lt (hh.1 l hl)⟩
    · exact (smRising_cons lo k v _).2 ⟨hh.1, ih hh.2⟩

theorem mem_smPut {m : SMap α} {i : Nat} {x : α} {e : Nat × α} (h : e ∈ smPut m i x) : e = (i, x) ∨ e ∈ m := by
  induction m with
  | nil => simpa [smPut] using h
  | cons a r ih =>
    obtain ⟨k, v⟩ := a
    simp only [smPut] at h
    split at h
    · simpa using h
    · split at h
      · simp only [List.mem_cons] at h ⊢
        tauto
      · simp only [List.mem_cons] at h ⊢
        rcases h with h | h
        · tauto
        · have := ih h
          tauto

theorem mem_smDel {m : SMap α} {i : Nat} {e : Nat × α} (h : e ∈ smDel m i) : e ∈ m := by
  induction m with
  | nil => exact h
  | cons a r ih =>
    obtain ⟨k, v⟩ := a
    simp only [smDel] at h
    split at h
    · exact List.mem_cons_of_mem _ (ih h)
    · simp only [List.mem_cons] at h ⊢
      exact h.imp id ih

theorem smWf_iff [DecidableEq α] (d : α) (m : SMap α) :
    smWf d m = true ↔ smRising none m = true ∧ ∀ e ∈ m, e.2 ≠ d := by
  simp [smWf]

/-- A write keeps the canonical form. -/
theorem smWf_smSet [DecidableEq α] {d : α} {m : SMap α} (i : Nat) (x : α) (h : smWf d m = true) :
    smWf d (smSet d m i x) = true := by
  rw [smWf_iff] at h ⊢
  unfold smSet
  split
  · exact ⟨smRising_smDel h.1, fun e he => h.2 e (mem_smDel he)⟩
  next hx =>
    refine ⟨smRising_smPut h.1 (by simp), fun e he => ?_⟩
    rcases mem_smPut he with rfl | he
    · exact hx
    · exact h.2 e he

theorem smWf_smMod [DecidableEq α] {d : α} {m : SMap α} (i : Nat) (f : α → α) (h : smWf d m = true) :
    smWf d (smMod d m i f) = true := smWf_smSet i _ h

/-- Removing entries keeps the canonical form. -/
theorem smRising_filter {lo : Option Nat} {m : SMap α} (p : Nat × α → Bool) (h : smRising lo m = true) :
    smRising lo (m.filter p) = true := by
  induction m generalizing lo with
  | nil => rfl
  | cons e r ih =>
    obtain ⟨k, v⟩ := e
    have hh := (smRising_cons lo k v r).1 h
    simp only [List.filter_cons]
    split
    · exact (smRising_cons lo k v _).2 ⟨hh.1, ih hh.2⟩
    · exact smRising_weaken (ih hh.2) fun l hl => ⟨k, rfl, Nat.le_of_lt (hh.1 l hl)⟩

theorem smWf_filter [DecidableEq α] {d : α} {m : SMap α} (p : Nat × α → Bool) (h : smWf d m = true) :
    smWf d (m.filter p) = true := by
  rw [smWf_iff] at h ⊢
  exact ⟨smRising_filter p h.1, fun e he => h.2 e (List.mem_filter.1 he).1⟩

theorem smWf_nil [DecidableEq α] (d : α) : smWf d ([] : SMap α) = true := rfl

/-- Two canonical stores that read alike are equal. -/
theorem smGet_of_rising {lo : Option Nat} {m : SMap α} {d : α} {i : Nat} (h : smRising lo m = true) (hi : ∃ l ∈ lo, i ≤ l) :
    smGet d m i = d := by
  induction m generalizing lo with
  | nil => rfl
  | cons e r ih =>
    obtain ⟨k, v⟩ := e
    have hh := (smRising_cons lo k v r).1 h
    obtain ⟨l, hl, hle⟩ := hi
    have hlt := hh.1 l hl
    simp only [smGet]
    rw [if_neg (by omega)]
    exact ih hh.2 ⟨k, rfl, by omega⟩

end Sys2Proof.Machine
end

