-- ==== Sys2Proof/Laws/State.lean ====
section
/-! SUPPORT. What the updates of a record of the state leave alone, one lemma per field and accessor, and what they write. -/

namespace Sys2Proof.Machine.State

variable (s : State)

/-! ### Updates are read back -/

@[simp] theorem slot_setSlot (k j : Nat) (v : Slot) : (s.setSlot k v).slot j = if k = j then v else s.slot j := smGet_smSet ..
@[simp] theorem slot_modSlot (k j : Nat) (f : Slot → Slot) : (s.modSlot k f).slot j = if k = j then f (s.slot k) else s.slot j := smGet_smSet ..
@[simp] theorem core_setCore (k j : Nat) (v : Core) : (s.setCore k v).core j = if k = j then v else s.core j := smGet_smSet ..
@[simp] theorem core_modCore (k j : Nat) (f : Core → Core) : (s.modCore k f).core j = if k = j then f (s.core k) else s.core j := smGet_smSet ..
@[simp] theorem cluster_setCluster (k j : Nat) (v : Cluster) : (s.setCluster k v).cluster j = if k = j then v else s.cluster j := smGet_smSet ..
@[simp] theorem cluster_modCluster (k j : Nat) (f : Cluster → Cluster) : (s.modCluster k f).cluster j = if k = j then f (s.cluster k) else s.cluster j := smGet_smSet ..
@[simp] theorem bank_modBank (k j : Nat) (f : Bank → Bank) : (s.modBank k f).bank j = if k = j then f (s.bank k) else s.bank j := smGet_smSet ..
@[simp] theorem engine_modEngine (k j : Nat) (f : Engine → Engine) : (s.modEngine k f).engine j = if k = j then f (s.engine k) else s.engine j := smGet_smSet ..
@[simp] theorem bulkOf_modBulk (k j : Nat) (f : BulkEngine → BulkEngine) : (s.modBulk k f).bulkOf j = if k = j then f (s.bulkOf k) else s.bulkOf j := smGet_smSet ..
@[simp] theorem slice_modSlice (k j : Nat) (f : Slice → Slice) : (s.modSlice k f).slice j = if k = j then f (s.slice k) else s.slice j := smGet_smSet ..
@[simp] theorem router_modRouter (k j : Nat) (f : Router → Router) : (s.modRouter k f).router j = if k = j then f (s.router k) else s.router j := smGet_smSet ..
@[simp] theorem ctl_modCtl (k j : Nat) (f : Ctl → Ctl) : (s.modCtl k f).ctl j = if k = j then f (s.ctl k) else s.ctl j := smGet_smSet ..
@[simp] theorem die_modDie (k j : Nat) (f : Die → Die) : (s.modDie k f).die j = if k = j then f (s.die k) else s.die j := smGet_smSet ..
@[simp] theorem part_modPart (k j : Nat) (f : Part → Part) : (s.modPart k f).part j = if k = j then f (s.part k) else s.part j := smGet_smSet ..
@[simp] theorem slot_modMe (j : Nat) (f : Slot → Slot) : (s.modMe f).slot j = if s.cur = j then f s.me else s.slot j := smGet_smSet ..
@[simp] theorem me_modMe (f : Slot → Slot) : (s.modMe f).me = f s.me := (slot_modMe s s.cur f).trans (if_pos rfl)
@[simp] theorem due_push (e : Instr) : (s.push e).due = s.due ++ [e] := rfl
@[simp] theorem due_pushAll (es : List Instr) : (s.pushAll es).due = s.due ++ es := rfl

/-! ### Everything else is unchanged -/

@[simp] theorem sr_setSlot (k : Nat) (v : Slot) : (s.setSlot k v).sr = s.sr := rfl
@[simp] theorem parts_setSlot (k : Nat) (v : Slot) : (s.setSlot k v).parts = s.parts := rfl
@[simp] theorem dies_setSlot (k : Nat) (v : Slot) : (s.setSlot k v).dies = s.dies := rfl
@[simp] theorem ctls_setSlot (k : Nat) (v : Slot) : (s.setSlot k v).ctls = s.ctls := rfl
@[simp] theorem mem_setSlot (k : Nat) (v : Slot) : (s.setSlot k v).mem = s.mem := rfl
@[simp] theorem flips_setSlot (k : Nat) (v : Slot) : (s.setSlot k v).flips = s.flips := rfl
@[simp] theorem memFull_setSlot (k : Nat) (v : Slot) : (s.setSlot k v).memFull = s.memFull := rfl
@[simp] theorem vault_setSlot (k : Nat) (v : Slot) : (s.setSlot k v).vault = s.vault := rfl
@[simp] theorem vfull_setSlot (k : Nat) (v : Slot) : (s.setSlot k v).vfull = s.vfull := rfl
@[simp] theorem verr_setSlot (k : Nat) (v : Slot) : (s.setSlot k v).verr = s.verr := rfl
@[simp] theorem banks_setSlot (k : Nat) (v : Slot) : (s.setSlot k v).banks = s.banks := rfl
@[simp] theorem slices_setSlot (k : Nat) (v : Slot) : (s.setSlot k v).slices = s.slices := rfl
@[simp] theorem routers_setSlot (k : Nat) (v : Slot) : (s.setSlot k v).routers = s.routers := rfl
@[simp] theorem requests_setSlot (k : Nat) (v : Slot) : (s.setSlot k v).requests = s.requests := rfl
@[simp] theorem clusters_setSlot (k : Nat) (v : Slot) : (s.setSlot k v).clusters = s.clusters := rfl
@[simp] theorem cores_setSlot (k : Nat) (v : Slot) : (s.setSlot k v).cores = s.cores := rfl
@[simp] theorem engines_setSlot (k : Nat) (v : Slot) : (s.setSlot k v).engines = s.engines := rfl
@[simp] theorem bulk_setSlot (k : Nat) (v : Slot) : (s.setSlot k v).bulk = s.bulk := rfl
@[simp] theorem remotes_setSlot (k : Nat) (v : Slot) : (s.setSlot k v).remotes = s.remotes := rfl
@[simp] theorem busy_setSlot (k : Nat) (v : Slot) : (s.setSlot k v).busy = s.busy := rfl
@[simp] theorem mcDue_setSlot (k : Nat) (v : Slot) : (s.setSlot k v).mcDue = s.mcDue := rfl
@[simp] theorem mcPhase_setSlot (k : Nat) (v : Slot) : (s.setSlot k v).mcPhase = s.mcPhase := rfl
@[simp] theorem hot_setSlot (k : Nat) (v : Slot) : (s.setSlot k v).hot = s.hot := rfl
@[simp] theorem ported_setSlot (k : Nat) (v : Slot) : (s.setSlot k v).ported = s.ported := rfl
@[simp] theorem cur_setSlot (k : Nat) (v : Slot) : (s.setSlot k v).cur = s.cur := rfl
@[simp] theorem turn_setSlot (k : Nat) (v : Slot) : (s.setSlot k v).turn = s.turn := rfl
@[simp] theorem due_setSlot (k : Nat) (v : Slot) : (s.setSlot k v).due = s.due := rfl
@[simp] theorem later_setSlot (k : Nat) (v : Slot) : (s.setSlot k v).later = s.later := rfl
@[simp] theorem fresh_setSlot (k : Nat) (v : Slot) : (s.setSlot k v).fresh = s.fresh := rfl
@[simp] theorem core_setSlot (j : Nat) (k : Nat) (v : Slot) : (s.setSlot k v).core j = s.core j := rfl
@[simp] theorem cluster_setSlot (j : Nat) (k : Nat) (v : Slot) : (s.setSlot k v).cluster j = s.cluster j := rfl
@[simp] theorem bank_setSlot (j : Nat) (k : Nat) (v : Slot) : (s.setSlot k v).bank j = s.bank j := rfl
@[simp] theorem engine_setSlot (j : Nat) (k : Nat) (v : Slot) : (s.setSlot k v).engine j = s.engine j := rfl
@[simp] theorem bulkOf_setSlot (j : Nat) (k : Nat) (v : Slot) : (s.setSlot k v).bulkOf j = s.bulkOf j := rfl
@[simp] theorem slice_setSlot (j : Nat) (k : Nat) (v : Slot) : (s.setSlot k v).slice j = s.slice j := rfl
@[simp] theorem router_setSlot (j : Nat) (k : Nat) (v : Slot) : (s.setSlot k v).router j = s.router j := rfl
@[simp] theorem ctl_setSlot (j : Nat) (k : Nat) (v : Slot) : (s.setSlot k v).ctl j = s.ctl j := rfl
@[simp] theorem die_setSlot (j : Nat) (k : Nat) (v : Slot) : (s.setSlot k v).die j = s.die j := rfl
@[simp] theorem part_setSlot (j : Nat) (k : Nat) (v : Slot) : (s.setSlot k v).part j = s.part j := rfl
@[simp] theorem myCore_setSlot (k : Nat) (v : Slot) : (s.setSlot k v).myCore = s.myCore := rfl
@[simp] theorem myUnit_setSlot (k : Nat) (v : Slot) : (s.setSlot k v).myUnit = s.myUnit := rfl
@[simp] theorem sr_modSlot (k : Nat) (f : Slot → Slot) : (s.modSlot k f).sr = s.sr := rfl
@[simp] theorem parts_modSlot (k : Nat) (f : Slot → Slot) : (s.modSlot k f).parts = s.parts := rfl
@[simp] theorem dies_modSlot (k : Nat) (f : Slot → Slot) : (s.modSlot k f).dies = s.dies := rfl
@[simp] theorem ctls_modSlot (k : Nat) (f : Slot → Slot) : (s.modSlot k f).ctls = s.ctls := rfl
@[simp] theorem mem_modSlot (k : Nat) (f : Slot → Slot) : (s.modSlot k f).mem = s.mem := rfl
@[simp] theorem flips_modSlot (k : Nat) (f : Slot → Slot) : (s.modSlot k f).flips = s.flips := rfl
@[simp] theorem memFull_modSlot (k : Nat) (f : Slot → Slot) : (s.modSlot k f).memFull = s.memFull := rfl
@[simp] theorem vault_modSlot (k : Nat) (f : Slot → Slot) : (s.modSlot k f).vault = s.vault := rfl
@[simp] theorem vfull_modSlot (k : Nat) (f : Slot → Slot) : (s.modSlot k f).vfull = s.vfull := rfl
@[simp] theorem verr_modSlot (k : Nat) (f : Slot → Slot) : (s.modSlot k f).verr = s.verr := rfl
@[simp] theorem banks_modSlot (k : Nat) (f : Slot → Slot) : (s.modSlot k f).banks = s.banks := rfl
@[simp] theorem slices_modSlot (k : Nat) (f : Slot → Slot) : (s.modSlot k f).slices = s.slices := rfl
@[simp] theorem routers_modSlot (k : Nat) (f : Slot → Slot) : (s.modSlot k f).routers = s.routers := rfl
@[simp] theorem requests_modSlot (k : Nat) (f : Slot → Slot) : (s.modSlot k f).requests = s.requests := rfl
@[simp] theorem clusters_modSlot (k : Nat) (f : Slot → Slot) : (s.modSlot k f).clusters = s.clusters := rfl
@[simp] theorem cores_modSlot (k : Nat) (f : Slot → Slot) : (s.modSlot k f).cores = s.cores := rfl
@[simp] theorem engines_modSlot (k : Nat) (f : Slot → Slot) : (s.modSlot k f).engines = s.engines := rfl
@[simp] theorem bulk_modSlot (k : Nat) (f : Slot → Slot) : (s.modSlot k f).bulk = s.bulk := rfl
@[simp] theorem remotes_modSlot (k : Nat) (f : Slot → Slot) : (s.modSlot k f).remotes = s.remotes := rfl
@[simp] theorem busy_modSlot (k : Nat) (f : Slot → Slot) : (s.modSlot k f).busy = s.busy := rfl
@[simp] theorem mcDue_modSlot (k : Nat) (f : Slot → Slot) : (s.modSlot k f).mcDue = s.mcDue := rfl
@[simp] theorem mcPhase_modSlot (k : Nat) (f : Slot → Slot) : (s.modSlot k f).mcPhase = s.mcPhase := rfl
@[simp] theorem hot_modSlot (k : Nat) (f : Slot → Slot) : (s.modSlot k f).hot = s.hot := rfl
@[simp] theorem ported_modSlot (k : Nat) (f : Slot → Slot) : (s.modSlot k f).ported = s.ported := rfl
@[simp] theorem cur_modSlot (k : Nat) (f : Slot → Slot) : (s.modSlot k f).cur = s.cur := rfl
@[simp] theorem turn_modSlot (k : Nat) (f : Slot → Slot) : (s.modSlot k f).turn = s.turn := rfl
@[simp] theorem due_modSlot (k : Nat) (f : Slot → Slot) : (s.modSlot k f).due = s.due := rfl
@[simp] theorem later_modSlot (k : Nat) (f : Slot → Slot) : (s.modSlot k f).later = s.later := rfl
@[simp] theorem fresh_modSlot (k : Nat) (f : Slot → Slot) : (s.modSlot k f).fresh = s.fresh := rfl
@[simp] theorem core_modSlot (j : Nat) (k : Nat) (f : Slot → Slot) : (s.modSlot k f).core j = s.core j := rfl
@[simp] theorem cluster_modSlot (j : Nat) (k : Nat) (f : Slot → Slot) : (s.modSlot k f).cluster j = s.cluster j := rfl
@[simp] theorem bank_modSlot (j : Nat) (k : Nat) (f : Slot → Slot) : (s.modSlot k f).bank j = s.bank j := rfl
@[simp] theorem engine_modSlot (j : Nat) (k : Nat) (f : Slot → Slot) : (s.modSlot k f).engine j = s.engine j := rfl
@[simp] theorem bulkOf_modSlot (j : Nat) (k : Nat) (f : Slot → Slot) : (s.modSlot k f).bulkOf j = s.bulkOf j := rfl
@[simp] theorem slice_modSlot (j : Nat) (k : Nat) (f : Slot → Slot) : (s.modSlot k f).slice j = s.slice j := rfl
@[simp] theorem router_modSlot (j : Nat) (k : Nat) (f : Slot → Slot) : (s.modSlot k f).router j = s.router j := rfl
@[simp] theorem ctl_modSlot (j : Nat) (k : Nat) (f : Slot → Slot) : (s.modSlot k f).ctl j = s.ctl j := rfl
@[simp] theorem die_modSlot (j : Nat) (k : Nat) (f : Slot → Slot) : (s.modSlot k f).die j = s.die j := rfl
@[simp] theorem part_modSlot (j : Nat) (k : Nat) (f : Slot → Slot) : (s.modSlot k f).part j = s.part j := rfl
@[simp] theorem myCore_modSlot (k : Nat) (f : Slot → Slot) : (s.modSlot k f).myCore = s.myCore := rfl
@[simp] theorem myUnit_modSlot (k : Nat) (f : Slot → Slot) : (s.modSlot k f).myUnit = s.myUnit := rfl
@[simp] theorem sr_modMe (f : Slot → Slot) : (s.modMe f).sr = s.sr := rfl
@[simp] theorem parts_modMe (f : Slot → Slot) : (s.modMe f).parts = s.parts := rfl
@[simp] theorem dies_modMe (f : Slot → Slot) : (s.modMe f).dies = s.dies := rfl
@[simp] theorem ctls_modMe (f : Slot → Slot) : (s.modMe f).ctls = s.ctls := rfl
@[simp] theorem mem_modMe (f : Slot → Slot) : (s.modMe f).mem = s.mem := rfl
@[simp] theorem flips_modMe (f : Slot → Slot) : (s.modMe f).flips = s.flips := rfl
@[simp] theorem memFull_modMe (f : Slot → Slot) : (s.modMe f).memFull = s.memFull := rfl
@[simp] theorem vault_modMe (f : Slot → Slot) : (s.modMe f).vault = s.vault := rfl
@[simp] theorem vfull_modMe (f : Slot → Slot) : (s.modMe f).vfull = s.vfull := rfl
@[simp] theorem verr_modMe (f : Slot → Slot) : (s.modMe f).verr = s.verr := rfl
@[simp] theorem banks_modMe (f : Slot → Slot) : (s.modMe f).banks = s.banks := rfl
@[simp] theorem slices_modMe (f : Slot → Slot) : (s.modMe f).slices = s.slices := rfl
@[simp] theorem routers_modMe (f : Slot → Slot) : (s.modMe f).routers = s.routers := rfl
@[simp] theorem requests_modMe (f : Slot → Slot) : (s.modMe f).requests = s.requests := rfl
@[simp] theorem clusters_modMe (f : Slot → Slot) : (s.modMe f).clusters = s.clusters := rfl
@[simp] theorem cores_modMe (f : Slot → Slot) : (s.modMe f).cores = s.cores := rfl
@[simp] theorem engines_modMe (f : Slot → Slot) : (s.modMe f).engines = s.engines := rfl
@[simp] theorem bulk_modMe (f : Slot → Slot) : (s.modMe f).bulk = s.bulk := rfl
@[simp] theorem remotes_modMe (f : Slot → Slot) : (s.modMe f).remotes = s.remotes := rfl
@[simp] theorem busy_modMe (f : Slot → Slot) : (s.modMe f).busy = s.busy := rfl
@[simp] theorem mcDue_modMe (f : Slot → Slot) : (s.modMe f).mcDue = s.mcDue := rfl
@[simp] theorem mcPhase_modMe (f : Slot → Slot) : (s.modMe f).mcPhase = s.mcPhase := rfl
@[simp] theorem hot_modMe (f : Slot → Slot) : (s.modMe f).hot = s.hot := rfl
@[simp] theorem ported_modMe (f : Slot → Slot) : (s.modMe f).ported = s.ported := rfl
@[simp] theorem cur_modMe (f : Slot → Slot) : (s.modMe f).cur = s.cur := rfl
@[simp] theorem turn_modMe (f : Slot → Slot) : (s.modMe f).turn = s.turn := rfl
@[simp] theorem due_modMe (f : Slot → Slot) : (s.modMe f).due = s.due := rfl
@[simp] theorem later_modMe (f : Slot → Slot) : (s.modMe f).later = s.later := rfl
@[simp] theorem fresh_modMe (f : Slot → Slot) : (s.modMe f).fresh = s.fresh := rfl
@[simp] theorem core_modMe (j : Nat) (f : Slot → Slot) : (s.modMe f).core j = s.core j := rfl
@[simp] theorem cluster_modMe (j : Nat) (f : Slot → Slot) : (s.modMe f).cluster j = s.cluster j := rfl
@[simp] theorem bank_modMe (j : Nat) (f : Slot → Slot) : (s.modMe f).bank j = s.bank j := rfl
@[simp] theorem engine_modMe (j : Nat) (f : Slot → Slot) : (s.modMe f).engine j = s.engine j := rfl
@[simp] theorem bulkOf_modMe (j : Nat) (f : Slot → Slot) : (s.modMe f).bulkOf j = s.bulkOf j := rfl
@[simp] theorem slice_modMe (j : Nat) (f : Slot → Slot) : (s.modMe f).slice j = s.slice j := rfl
@[simp] theorem router_modMe (j : Nat) (f : Slot → Slot) : (s.modMe f).router j = s.router j := rfl
@[simp] theorem ctl_modMe (j : Nat) (f : Slot → Slot) : (s.modMe f).ctl j = s.ctl j := rfl
@[simp] theorem die_modMe (j : Nat) (f : Slot → Slot) : (s.modMe f).die j = s.die j := rfl
@[simp] theorem part_modMe (j : Nat) (f : Slot → Slot) : (s.modMe f).part j = s.part j := rfl
@[simp] theorem myCore_modMe (f : Slot → Slot) : (s.modMe f).myCore = s.myCore := rfl
@[simp] theorem myUnit_modMe (f : Slot → Slot) : (s.modMe f).myUnit = s.myUnit := rfl
@[simp] theorem sr_setCore (k : Nat) (v : Core) : (s.setCore k v).sr = s.sr := rfl
@[simp] theorem parts_setCore (k : Nat) (v : Core) : (s.setCore k v).parts = s.parts := rfl
@[simp] theorem dies_setCore (k : Nat) (v : Core) : (s.setCore k v).dies = s.dies := rfl
@[simp] theorem ctls_setCore (k : Nat) (v : Core) : (s.setCore k v).ctls = s.ctls := rfl
@[simp] theorem mem_setCore (k : Nat) (v : Core) : (s.setCore k v).mem = s.mem := rfl
@[simp] theorem flips_setCore (k : Nat) (v : Core) : (s.setCore k v).flips = s.flips := rfl
@[simp] theorem memFull_setCore (k : Nat) (v : Core) : (s.setCore k v).memFull = s.memFull := rfl
@[simp] theorem vault_setCore (k : Nat) (v : Core) : (s.setCore k v).vault = s.vault := rfl
@[simp] theorem vfull_setCore (k : Nat) (v : Core) : (s.setCore k v).vfull = s.vfull := rfl
@[simp] theorem verr_setCore (k : Nat) (v : Core) : (s.setCore k v).verr = s.verr := rfl
@[simp] theorem banks_setCore (k : Nat) (v : Core) : (s.setCore k v).banks = s.banks := rfl
@[simp] theorem slices_setCore (k : Nat) (v : Core) : (s.setCore k v).slices = s.slices := rfl
@[simp] theorem routers_setCore (k : Nat) (v : Core) : (s.setCore k v).routers = s.routers := rfl
@[simp] theorem requests_setCore (k : Nat) (v : Core) : (s.setCore k v).requests = s.requests := rfl
@[simp] theorem clusters_setCore (k : Nat) (v : Core) : (s.setCore k v).clusters = s.clusters := rfl
@[simp] theorem slots_setCore (k : Nat) (v : Core) : (s.setCore k v).slots = s.slots := rfl
@[simp] theorem engines_setCore (k : Nat) (v : Core) : (s.setCore k v).engines = s.engines := rfl
@[simp] theorem bulk_setCore (k : Nat) (v : Core) : (s.setCore k v).bulk = s.bulk := rfl
@[simp] theorem remotes_setCore (k : Nat) (v : Core) : (s.setCore k v).remotes = s.remotes := rfl
@[simp] theorem busy_setCore (k : Nat) (v : Core) : (s.setCore k v).busy = s.busy := rfl
@[simp] theorem mcDue_setCore (k : Nat) (v : Core) : (s.setCore k v).mcDue = s.mcDue := rfl
@[simp] theorem mcPhase_setCore (k : Nat) (v : Core) : (s.setCore k v).mcPhase = s.mcPhase := rfl
@[simp] theorem hot_setCore (k : Nat) (v : Core) : (s.setCore k v).hot = s.hot := rfl
@[simp] theorem ported_setCore (k : Nat) (v : Core) : (s.setCore k v).ported = s.ported := rfl
@[simp] theorem cur_setCore (k : Nat) (v : Core) : (s.setCore k v).cur = s.cur := rfl
@[simp] theorem turn_setCore (k : Nat) (v : Core) : (s.setCore k v).turn = s.turn := rfl
@[simp] theorem due_setCore (k : Nat) (v : Core) : (s.setCore k v).due = s.due := rfl
@[simp] theorem later_setCore (k : Nat) (v : Core) : (s.setCore k v).later = s.later := rfl
@[simp] theorem fresh_setCore (k : Nat) (v : Core) : (s.setCore k v).fresh = s.fresh := rfl
@[simp] theorem slot_setCore (j : Nat) (k : Nat) (v : Core) : (s.setCore k v).slot j = s.slot j := rfl
@[simp] theorem cluster_setCore (j : Nat) (k : Nat) (v : Core) : (s.setCore k v).cluster j = s.cluster j := rfl
@[simp] theorem bank_setCore (j : Nat) (k : Nat) (v : Core) : (s.setCore k v).bank j = s.bank j := rfl
@[simp] theorem engine_setCore (j : Nat) (k : Nat) (v : Core) : (s.setCore k v).engine j = s.engine j := rfl
@[simp] theorem bulkOf_setCore (j : Nat) (k : Nat) (v : Core) : (s.setCore k v).bulkOf j = s.bulkOf j := rfl
@[simp] theorem slice_setCore (j : Nat) (k : Nat) (v : Core) : (s.setCore k v).slice j = s.slice j := rfl
@[simp] theorem router_setCore (j : Nat) (k : Nat) (v : Core) : (s.setCore k v).router j = s.router j := rfl
@[simp] theorem ctl_setCore (j : Nat) (k : Nat) (v : Core) : (s.setCore k v).ctl j = s.ctl j := rfl
@[simp] theorem die_setCore (j : Nat) (k : Nat) (v : Core) : (s.setCore k v).die j = s.die j := rfl
@[simp] theorem part_setCore (j : Nat) (k : Nat) (v : Core) : (s.setCore k v).part j = s.part j := rfl
@[simp] theorem me_setCore (k : Nat) (v : Core) : (s.setCore k v).me = s.me := rfl
@[simp] theorem myCore_setCore (k : Nat) (v : Core) : (s.setCore k v).myCore = s.myCore := rfl
@[simp] theorem myUnit_setCore (k : Nat) (v : Core) : (s.setCore k v).myUnit = s.myUnit := rfl
@[simp] theorem sr_modCore (k : Nat) (f : Core → Core) : (s.modCore k f).sr = s.sr := rfl
@[simp] theorem parts_modCore (k : Nat) (f : Core → Core) : (s.modCore k f).parts = s.parts := rfl
@[simp] theorem dies_modCore (k : Nat) (f : Core → Core) : (s.modCore k f).dies = s.dies := rfl
@[simp] theorem ctls_modCore (k : Nat) (f : Core → Core) : (s.modCore k f).ctls = s.ctls := rfl
@[simp] theorem mem_modCore (k : Nat) (f : Core → Core) : (s.modCore k f).mem = s.mem := rfl
@[simp] theorem flips_modCore (k : Nat) (f : Core → Core) : (s.modCore k f).flips = s.flips := rfl
@[simp] theorem memFull_modCore (k : Nat) (f : Core → Core) : (s.modCore k f).memFull = s.memFull := rfl
@[simp] theorem vault_modCore (k : Nat) (f : Core → Core) : (s.modCore k f).vault = s.vault := rfl
@[simp] theorem vfull_modCore (k : Nat) (f : Core → Core) : (s.modCore k f).vfull = s.vfull := rfl
@[simp] theorem verr_modCore (k : Nat) (f : Core → Core) : (s.modCore k f).verr = s.verr := rfl
@[simp] theorem banks_modCore (k : Nat) (f : Core → Core) : (s.modCore k f).banks = s.banks := rfl
@[simp] theorem slices_modCore (k : Nat) (f : Core → Core) : (s.modCore k f).slices = s.slices := rfl
@[simp] theorem routers_modCore (k : Nat) (f : Core → Core) : (s.modCore k f).routers = s.routers := rfl
@[simp] theorem requests_modCore (k : Nat) (f : Core → Core) : (s.modCore k f).requests = s.requests := rfl
@[simp] theorem clusters_modCore (k : Nat) (f : Core → Core) : (s.modCore k f).clusters = s.clusters := rfl
@[simp] theorem slots_modCore (k : Nat) (f : Core → Core) : (s.modCore k f).slots = s.slots := rfl
@[simp] theorem engines_modCore (k : Nat) (f : Core → Core) : (s.modCore k f).engines = s.engines := rfl
@[simp] theorem bulk_modCore (k : Nat) (f : Core → Core) : (s.modCore k f).bulk = s.bulk := rfl
@[simp] theorem remotes_modCore (k : Nat) (f : Core → Core) : (s.modCore k f).remotes = s.remotes := rfl
@[simp] theorem busy_modCore (k : Nat) (f : Core → Core) : (s.modCore k f).busy = s.busy := rfl
@[simp] theorem mcDue_modCore (k : Nat) (f : Core → Core) : (s.modCore k f).mcDue = s.mcDue := rfl
@[simp] theorem mcPhase_modCore (k : Nat) (f : Core → Core) : (s.modCore k f).mcPhase = s.mcPhase := rfl
@[simp] theorem hot_modCore (k : Nat) (f : Core → Core) : (s.modCore k f).hot = s.hot := rfl
@[simp] theorem ported_modCore (k : Nat) (f : Core → Core) : (s.modCore k f).ported = s.ported := rfl
@[simp] theorem cur_modCore (k : Nat) (f : Core → Core) : (s.modCore k f).cur = s.cur := rfl
@[simp] theorem turn_modCore (k : Nat) (f : Core → Core) : (s.modCore k f).turn = s.turn := rfl
@[simp] theorem due_modCore (k : Nat) (f : Core → Core) : (s.modCore k f).due = s.due := rfl
@[simp] theorem later_modCore (k : Nat) (f : Core → Core) : (s.modCore k f).later = s.later := rfl
@[simp] theorem fresh_modCore (k : Nat) (f : Core → Core) : (s.modCore k f).fresh = s.fresh := rfl
@[simp] theorem slot_modCore (j : Nat) (k : Nat) (f : Core → Core) : (s.modCore k f).slot j = s.slot j := rfl
@[simp] theorem cluster_modCore (j : Nat) (k : Nat) (f : Core → Core) : (s.modCore k f).cluster j = s.cluster j := rfl
@[simp] theorem bank_modCore (j : Nat) (k : Nat) (f : Core → Core) : (s.modCore k f).bank j = s.bank j := rfl
@[simp] theorem engine_modCore (j : Nat) (k : Nat) (f : Core → Core) : (s.modCore k f).engine j = s.engine j := rfl
@[simp] theorem bulkOf_modCore (j : Nat) (k : Nat) (f : Core → Core) : (s.modCore k f).bulkOf j = s.bulkOf j := rfl
@[simp] theorem slice_modCore (j : Nat) (k : Nat) (f : Core → Core) : (s.modCore k f).slice j = s.slice j := rfl
@[simp] theorem router_modCore (j : Nat) (k : Nat) (f : Core → Core) : (s.modCore k f).router j = s.router j := rfl
@[simp] theorem ctl_modCore (j : Nat) (k : Nat) (f : Core → Core) : (s.modCore k f).ctl j = s.ctl j := rfl
@[simp] theorem die_modCore (j : Nat) (k : Nat) (f : Core → Core) : (s.modCore k f).die j = s.die j := rfl
@[simp] theorem part_modCore (j : Nat) (k : Nat) (f : Core → Core) : (s.modCore k f).part j = s.part j := rfl
@[simp] theorem me_modCore (k : Nat) (f : Core → Core) : (s.modCore k f).me = s.me := rfl
@[simp] theorem myCore_modCore (k : Nat) (f : Core → Core) : (s.modCore k f).myCore = s.myCore := rfl
@[simp] theorem myUnit_modCore (k : Nat) (f : Core → Core) : (s.modCore k f).myUnit = s.myUnit := rfl
@[simp] theorem sr_setCluster (k : Nat) (v : Cluster) : (s.setCluster k v).sr = s.sr := rfl
@[simp] theorem parts_setCluster (k : Nat) (v : Cluster) : (s.setCluster k v).parts = s.parts := rfl
@[simp] theorem dies_setCluster (k : Nat) (v : Cluster) : (s.setCluster k v).dies = s.dies := rfl
@[simp] theorem ctls_setCluster (k : Nat) (v : Cluster) : (s.setCluster k v).ctls = s.ctls := rfl
@[simp] theorem mem_setCluster (k : Nat) (v : Cluster) : (s.setCluster k v).mem = s.mem := rfl
@[simp] theorem flips_setCluster (k : Nat) (v : Cluster) : (s.setCluster k v).flips = s.flips := rfl
@[simp] theorem memFull_setCluster (k : Nat) (v : Cluster) : (s.setCluster k v).memFull = s.memFull := rfl
@[simp] theorem vault_setCluster (k : Nat) (v : Cluster) : (s.setCluster k v).vault = s.vault := rfl
@[simp] theorem vfull_setCluster (k : Nat) (v : Cluster) : (s.setCluster k v).vfull = s.vfull := rfl
@[simp] theorem verr_setCluster (k : Nat) (v : Cluster) : (s.setCluster k v).verr = s.verr := rfl
@[simp] theorem banks_setCluster (k : Nat) (v : Cluster) : (s.setCluster k v).banks = s.banks := rfl
@[simp] theorem slices_setCluster (k : Nat) (v : Cluster) : (s.setCluster k v).slices = s.slices := rfl
@[simp] theorem routers_setCluster (k : Nat) (v : Cluster) : (s.setCluster k v).routers = s.routers := rfl
@[simp] theorem requests_setCluster (k : Nat) (v : Cluster) : (s.setCluster k v).requests = s.requests := rfl
@[simp] theorem cores_setCluster (k : Nat) (v : Cluster) : (s.setCluster k v).cores = s.cores := rfl
@[simp] theorem slots_setCluster (k : Nat) (v : Cluster) : (s.setCluster k v).slots = s.slots := rfl
@[simp] theorem engines_setCluster (k : Nat) (v : Cluster) : (s.setCluster k v).engines = s.engines := rfl
@[simp] theorem bulk_setCluster (k : Nat) (v : Cluster) : (s.setCluster k v).bulk = s.bulk := rfl
@[simp] theorem remotes_setCluster (k : Nat) (v : Cluster) : (s.setCluster k v).remotes = s.remotes := rfl
@[simp] theorem busy_setCluster (k : Nat) (v : Cluster) : (s.setCluster k v).busy = s.busy := rfl
@[simp] theorem mcDue_setCluster (k : Nat) (v : Cluster) : (s.setCluster k v).mcDue = s.mcDue := rfl
@[simp] theorem mcPhase_setCluster (k : Nat) (v : Cluster) : (s.setCluster k v).mcPhase = s.mcPhase := rfl
@[simp] theorem hot_setCluster (k : Nat) (v : Cluster) : (s.setCluster k v).hot = s.hot := rfl
@[simp] theorem ported_setCluster (k : Nat) (v : Cluster) : (s.setCluster k v).ported = s.ported := rfl
@[simp] theorem cur_setCluster (k : Nat) (v : Cluster) : (s.setCluster k v).cur = s.cur := rfl
@[simp] theorem turn_setCluster (k : Nat) (v : Cluster) : (s.setCluster k v).turn = s.turn := rfl
@[simp] theorem due_setCluster (k : Nat) (v : Cluster) : (s.setCluster k v).due = s.due := rfl
@[simp] theorem later_setCluster (k : Nat) (v : Cluster) : (s.setCluster k v).later = s.later := rfl
@[simp] theorem fresh_setCluster (k : Nat) (v : Cluster) : (s.setCluster k v).fresh = s.fresh := rfl
@[simp] theorem slot_setCluster (j : Nat) (k : Nat) (v : Cluster) : (s.setCluster k v).slot j = s.slot j := rfl
@[simp] theorem core_setCluster (j : Nat) (k : Nat) (v : Cluster) : (s.setCluster k v).core j = s.core j := rfl
@[simp] theorem bank_setCluster (j : Nat) (k : Nat) (v : Cluster) : (s.setCluster k v).bank j = s.bank j := rfl
@[simp] theorem engine_setCluster (j : Nat) (k : Nat) (v : Cluster) : (s.setCluster k v).engine j = s.engine j := rfl
@[simp] theorem bulkOf_setCluster (j : Nat) (k : Nat) (v : Cluster) : (s.setCluster k v).bulkOf j = s.bulkOf j := rfl
@[simp] theorem slice_setCluster (j : Nat) (k : Nat) (v : Cluster) : (s.setCluster k v).slice j = s.slice j := rfl
@[simp] theorem router_setCluster (j : Nat) (k : Nat) (v : Cluster) : (s.setCluster k v).router j = s.router j := rfl
@[simp] theorem ctl_setCluster (j : Nat) (k : Nat) (v : Cluster) : (s.setCluster k v).ctl j = s.ctl j := rfl
@[simp] theorem die_setCluster (j : Nat) (k : Nat) (v : Cluster) : (s.setCluster k v).die j = s.die j := rfl
@[simp] theorem part_setCluster (j : Nat) (k : Nat) (v : Cluster) : (s.setCluster k v).part j = s.part j := rfl
@[simp] theorem me_setCluster (k : Nat) (v : Cluster) : (s.setCluster k v).me = s.me := rfl
@[simp] theorem myCore_setCluster (k : Nat) (v : Cluster) : (s.setCluster k v).myCore = s.myCore := rfl
@[simp] theorem myUnit_setCluster (k : Nat) (v : Cluster) : (s.setCluster k v).myUnit = s.myUnit := rfl
@[simp] theorem sr_modCluster (k : Nat) (f : Cluster → Cluster) : (s.modCluster k f).sr = s.sr := rfl
@[simp] theorem parts_modCluster (k : Nat) (f : Cluster → Cluster) : (s.modCluster k f).parts = s.parts := rfl
@[simp] theorem dies_modCluster (k : Nat) (f : Cluster → Cluster) : (s.modCluster k f).dies = s.dies := rfl
@[simp] theorem ctls_modCluster (k : Nat) (f : Cluster → Cluster) : (s.modCluster k f).ctls = s.ctls := rfl
@[simp] theorem mem_modCluster (k : Nat) (f : Cluster → Cluster) : (s.modCluster k f).mem = s.mem := rfl
@[simp] theorem flips_modCluster (k : Nat) (f : Cluster → Cluster) : (s.modCluster k f).flips = s.flips := rfl
@[simp] theorem memFull_modCluster (k : Nat) (f : Cluster → Cluster) : (s.modCluster k f).memFull = s.memFull := rfl
@[simp] theorem vault_modCluster (k : Nat) (f : Cluster → Cluster) : (s.modCluster k f).vault = s.vault := rfl
@[simp] theorem vfull_modCluster (k : Nat) (f : Cluster → Cluster) : (s.modCluster k f).vfull = s.vfull := rfl
@[simp] theorem verr_modCluster (k : Nat) (f : Cluster → Cluster) : (s.modCluster k f).verr = s.verr := rfl
@[simp] theorem banks_modCluster (k : Nat) (f : Cluster → Cluster) : (s.modCluster k f).banks = s.banks := rfl
@[simp] theorem slices_modCluster (k : Nat) (f : Cluster → Cluster) : (s.modCluster k f).slices = s.slices := rfl
@[simp] theorem routers_modCluster (k : Nat) (f : Cluster → Cluster) : (s.modCluster k f).routers = s.routers := rfl
@[simp] theorem requests_modCluster (k : Nat) (f : Cluster → Cluster) : (s.modCluster k f).requests = s.requests := rfl
@[simp] theorem cores_modCluster (k : Nat) (f : Cluster → Cluster) : (s.modCluster k f).cores = s.cores := rfl
@[simp] theorem slots_modCluster (k : Nat) (f : Cluster → Cluster) : (s.modCluster k f).slots = s.slots := rfl
@[simp] theorem engines_modCluster (k : Nat) (f : Cluster → Cluster) : (s.modCluster k f).engines = s.engines := rfl
@[simp] theorem bulk_modCluster (k : Nat) (f : Cluster → Cluster) : (s.modCluster k f).bulk = s.bulk := rfl
@[simp] theorem remotes_modCluster (k : Nat) (f : Cluster → Cluster) : (s.modCluster k f).remotes = s.remotes := rfl
@[simp] theorem busy_modCluster (k : Nat) (f : Cluster → Cluster) : (s.modCluster k f).busy = s.busy := rfl
@[simp] theorem mcDue_modCluster (k : Nat) (f : Cluster → Cluster) : (s.modCluster k f).mcDue = s.mcDue := rfl
@[simp] theorem mcPhase_modCluster (k : Nat) (f : Cluster → Cluster) : (s.modCluster k f).mcPhase = s.mcPhase := rfl
@[simp] theorem hot_modCluster (k : Nat) (f : Cluster → Cluster) : (s.modCluster k f).hot = s.hot := rfl
@[simp] theorem ported_modCluster (k : Nat) (f : Cluster → Cluster) : (s.modCluster k f).ported = s.ported := rfl
@[simp] theorem cur_modCluster (k : Nat) (f : Cluster → Cluster) : (s.modCluster k f).cur = s.cur := rfl
@[simp] theorem turn_modCluster (k : Nat) (f : Cluster → Cluster) : (s.modCluster k f).turn = s.turn := rfl
@[simp] theorem due_modCluster (k : Nat) (f : Cluster → Cluster) : (s.modCluster k f).due = s.due := rfl
@[simp] theorem later_modCluster (k : Nat) (f : Cluster → Cluster) : (s.modCluster k f).later = s.later := rfl
@[simp] theorem fresh_modCluster (k : Nat) (f : Cluster → Cluster) : (s.modCluster k f).fresh = s.fresh := rfl
@[simp] theorem slot_modCluster (j : Nat) (k : Nat) (f : Cluster → Cluster) : (s.modCluster k f).slot j = s.slot j := rfl
@[simp] theorem core_modCluster (j : Nat) (k : Nat) (f : Cluster → Cluster) : (s.modCluster k f).core j = s.core j := rfl
@[simp] theorem bank_modCluster (j : Nat) (k : Nat) (f : Cluster → Cluster) : (s.modCluster k f).bank j = s.bank j := rfl
@[simp] theorem engine_modCluster (j : Nat) (k : Nat) (f : Cluster → Cluster) : (s.modCluster k f).engine j = s.engine j := rfl
@[simp] theorem bulkOf_modCluster (j : Nat) (k : Nat) (f : Cluster → Cluster) : (s.modCluster k f).bulkOf j = s.bulkOf j := rfl
@[simp] theorem slice_modCluster (j : Nat) (k : Nat) (f : Cluster → Cluster) : (s.modCluster k f).slice j = s.slice j := rfl
@[simp] theorem router_modCluster (j : Nat) (k : Nat) (f : Cluster → Cluster) : (s.modCluster k f).router j = s.router j := rfl
@[simp] theorem ctl_modCluster (j : Nat) (k : Nat) (f : Cluster → Cluster) : (s.modCluster k f).ctl j = s.ctl j := rfl
@[simp] theorem die_modCluster (j : Nat) (k : Nat) (f : Cluster → Cluster) : (s.modCluster k f).die j = s.die j := rfl
@[simp] theorem part_modCluster (j : Nat) (k : Nat) (f : Cluster → Cluster) : (s.modCluster k f).part j = s.part j := rfl
@[simp] theorem me_modCluster (k : Nat) (f : Cluster → Cluster) : (s.modCluster k f).me = s.me := rfl
@[simp] theorem myCore_modCluster (k : Nat) (f : Cluster → Cluster) : (s.modCluster k f).myCore = s.myCore := rfl
@[simp] theorem myUnit_modCluster (k : Nat) (f : Cluster → Cluster) : (s.modCluster k f).myUnit = s.myUnit := rfl
@[simp] theorem sr_modBank (k : Nat) (f : Bank → Bank) : (s.modBank k f).sr = s.sr := rfl
@[simp] theorem parts_modBank (k : Nat) (f : Bank → Bank) : (s.modBank k f).parts = s.parts := rfl
@[simp] theorem dies_modBank (k : Nat) (f : Bank → Bank) : (s.modBank k f).dies = s.dies := rfl
@[simp] theorem ctls_modBank (k : Nat) (f : Bank → Bank) : (s.modBank k f).ctls = s.ctls := rfl
@[simp] theorem mem_modBank (k : Nat) (f : Bank → Bank) : (s.modBank k f).mem = s.mem := rfl
@[simp] theorem flips_modBank (k : Nat) (f : Bank → Bank) : (s.modBank k f).flips = s.flips := rfl
@[simp] theorem memFull_modBank (k : Nat) (f : Bank → Bank) : (s.modBank k f).memFull = s.memFull := rfl
@[simp] theorem vault_modBank (k : Nat) (f : Bank → Bank) : (s.modBank k f).vault = s.vault := rfl
@[simp] theorem vfull_modBank (k : Nat) (f : Bank → Bank) : (s.modBank k f).vfull = s.vfull := rfl
@[simp] theorem verr_modBank (k : Nat) (f : Bank → Bank) : (s.modBank k f).verr = s.verr := rfl
@[simp] theorem slices_modBank (k : Nat) (f : Bank → Bank) : (s.modBank k f).slices = s.slices := rfl
@[simp] theorem routers_modBank (k : Nat) (f : Bank → Bank) : (s.modBank k f).routers = s.routers := rfl
@[simp] theorem requests_modBank (k : Nat) (f : Bank → Bank) : (s.modBank k f).requests = s.requests := rfl
@[simp] theorem clusters_modBank (k : Nat) (f : Bank → Bank) : (s.modBank k f).clusters = s.clusters := rfl
@[simp] theorem cores_modBank (k : Nat) (f : Bank → Bank) : (s.modBank k f).cores = s.cores := rfl
@[simp] theorem slots_modBank (k : Nat) (f : Bank → Bank) : (s.modBank k f).slots = s.slots := rfl
@[simp] theorem engines_modBank (k : Nat) (f : Bank → Bank) : (s.modBank k f).engines = s.engines := rfl
@[simp] theorem bulk_modBank (k : Nat) (f : Bank → Bank) : (s.modBank k f).bulk = s.bulk := rfl
@[simp] theorem remotes_modBank (k : Nat) (f : Bank → Bank) : (s.modBank k f).remotes = s.remotes := rfl
@[simp] theorem busy_modBank (k : Nat) (f : Bank → Bank) : (s.modBank k f).busy = s.busy := rfl
@[simp] theorem mcDue_modBank (k : Nat) (f : Bank → Bank) : (s.modBank k f).mcDue = s.mcDue := rfl
@[simp] theorem mcPhase_modBank (k : Nat) (f : Bank → Bank) : (s.modBank k f).mcPhase = s.mcPhase := rfl
@[simp] theorem hot_modBank (k : Nat) (f : Bank → Bank) : (s.modBank k f).hot = s.hot := rfl
@[simp] theorem ported_modBank (k : Nat) (f : Bank → Bank) : (s.modBank k f).ported = s.ported := rfl
@[simp] theorem cur_modBank (k : Nat) (f : Bank → Bank) : (s.modBank k f).cur = s.cur := rfl
@[simp] theorem turn_modBank (k : Nat) (f : Bank → Bank) : (s.modBank k f).turn = s.turn := rfl
@[simp] theorem due_modBank (k : Nat) (f : Bank → Bank) : (s.modBank k f).due = s.due := rfl
@[simp] theorem later_modBank (k : Nat) (f : Bank → Bank) : (s.modBank k f).later = s.later := rfl
@[simp] theorem fresh_modBank (k : Nat) (f : Bank → Bank) : (s.modBank k f).fresh = s.fresh := rfl
@[simp] theorem slot_modBank (j : Nat) (k : Nat) (f : Bank → Bank) : (s.modBank k f).slot j = s.slot j := rfl
@[simp] theorem core_modBank (j : Nat) (k : Nat) (f : Bank → Bank) : (s.modBank k f).core j = s.core j := rfl
@[simp] theorem cluster_modBank (j : Nat) (k : Nat) (f : Bank → Bank) : (s.modBank k f).cluster j = s.cluster j := rfl
@[simp] theorem engine_modBank (j : Nat) (k : Nat) (f : Bank → Bank) : (s.modBank k f).engine j = s.engine j := rfl
@[simp] theorem bulkOf_modBank (j : Nat) (k : Nat) (f : Bank → Bank) : (s.modBank k f).bulkOf j = s.bulkOf j := rfl
@[simp] theorem slice_modBank (j : Nat) (k : Nat) (f : Bank → Bank) : (s.modBank k f).slice j = s.slice j := rfl
@[simp] theorem router_modBank (j : Nat) (k : Nat) (f : Bank → Bank) : (s.modBank k f).router j = s.router j := rfl
@[simp] theorem ctl_modBank (j : Nat) (k : Nat) (f : Bank → Bank) : (s.modBank k f).ctl j = s.ctl j := rfl
@[simp] theorem die_modBank (j : Nat) (k : Nat) (f : Bank → Bank) : (s.modBank k f).die j = s.die j := rfl
@[simp] theorem part_modBank (j : Nat) (k : Nat) (f : Bank → Bank) : (s.modBank k f).part j = s.part j := rfl
@[simp] theorem me_modBank (k : Nat) (f : Bank → Bank) : (s.modBank k f).me = s.me := rfl
@[simp] theorem myCore_modBank (k : Nat) (f : Bank → Bank) : (s.modBank k f).myCore = s.myCore := rfl
@[simp] theorem myUnit_modBank (k : Nat) (f : Bank → Bank) : (s.modBank k f).myUnit = s.myUnit := rfl
@[simp] theorem sr_modEngine (k : Nat) (f : Engine → Engine) : (s.modEngine k f).sr = s.sr := rfl
@[simp] theorem parts_modEngine (k : Nat) (f : Engine → Engine) : (s.modEngine k f).parts = s.parts := rfl
@[simp] theorem dies_modEngine (k : Nat) (f : Engine → Engine) : (s.modEngine k f).dies = s.dies := rfl
@[simp] theorem ctls_modEngine (k : Nat) (f : Engine → Engine) : (s.modEngine k f).ctls = s.ctls := rfl
@[simp] theorem mem_modEngine (k : Nat) (f : Engine → Engine) : (s.modEngine k f).mem = s.mem := rfl
@[simp] theorem flips_modEngine (k : Nat) (f : Engine → Engine) : (s.modEngine k f).flips = s.flips := rfl
@[simp] theorem memFull_modEngine (k : Nat) (f : Engine → Engine) : (s.modEngine k f).memFull = s.memFull := rfl
@[simp] theorem vault_modEngine (k : Nat) (f : Engine → Engine) : (s.modEngine k f).vault = s.vault := rfl
@[simp] theorem vfull_modEngine (k : Nat) (f : Engine → Engine) : (s.modEngine k f).vfull = s.vfull := rfl
@[simp] theorem verr_modEngine (k : Nat) (f : Engine → Engine) : (s.modEngine k f).verr = s.verr := rfl
@[simp] theorem banks_modEngine (k : Nat) (f : Engine → Engine) : (s.modEngine k f).banks = s.banks := rfl
@[simp] theorem slices_modEngine (k : Nat) (f : Engine → Engine) : (s.modEngine k f).slices = s.slices := rfl
@[simp] theorem routers_modEngine (k : Nat) (f : Engine → Engine) : (s.modEngine k f).routers = s.routers := rfl
@[simp] theorem requests_modEngine (k : Nat) (f : Engine → Engine) : (s.modEngine k f).requests = s.requests := rfl
@[simp] theorem clusters_modEngine (k : Nat) (f : Engine → Engine) : (s.modEngine k f).clusters = s.clusters := rfl
@[simp] theorem cores_modEngine (k : Nat) (f : Engine → Engine) : (s.modEngine k f).cores = s.cores := rfl
@[simp] theorem slots_modEngine (k : Nat) (f : Engine → Engine) : (s.modEngine k f).slots = s.slots := rfl
@[simp] theorem bulk_modEngine (k : Nat) (f : Engine → Engine) : (s.modEngine k f).bulk = s.bulk := rfl
@[simp] theorem remotes_modEngine (k : Nat) (f : Engine → Engine) : (s.modEngine k f).remotes = s.remotes := rfl
@[simp] theorem busy_modEngine (k : Nat) (f : Engine → Engine) : (s.modEngine k f).busy = s.busy := rfl
@[simp] theorem mcDue_modEngine (k : Nat) (f : Engine → Engine) : (s.modEngine k f).mcDue = s.mcDue := rfl
@[simp] theorem mcPhase_modEngine (k : Nat) (f : Engine → Engine) : (s.modEngine k f).mcPhase = s.mcPhase := rfl
@[simp] theorem hot_modEngine (k : Nat) (f : Engine → Engine) : (s.modEngine k f).hot = s.hot := rfl
@[simp] theorem ported_modEngine (k : Nat) (f : Engine → Engine) : (s.modEngine k f).ported = s.ported := rfl
@[simp] theorem cur_modEngine (k : Nat) (f : Engine → Engine) : (s.modEngine k f).cur = s.cur := rfl
@[simp] theorem turn_modEngine (k : Nat) (f : Engine → Engine) : (s.modEngine k f).turn = s.turn := rfl
@[simp] theorem due_modEngine (k : Nat) (f : Engine → Engine) : (s.modEngine k f).due = s.due := rfl
@[simp] theorem later_modEngine (k : Nat) (f : Engine → Engine) : (s.modEngine k f).later = s.later := rfl
@[simp] theorem fresh_modEngine (k : Nat) (f : Engine → Engine) : (s.modEngine k f).fresh = s.fresh := rfl
@[simp] theorem slot_modEngine (j : Nat) (k : Nat) (f : Engine → Engine) : (s.modEngine k f).slot j = s.slot j := rfl
@[simp] theorem core_modEngine (j : Nat) (k : Nat) (f : Engine → Engine) : (s.modEngine k f).core j = s.core j := rfl
@[simp] theorem cluster_modEngine (j : Nat) (k : Nat) (f : Engine → Engine) : (s.modEngine k f).cluster j = s.cluster j := rfl
@[simp] theorem bank_modEngine (j : Nat) (k : Nat) (f : Engine → Engine) : (s.modEngine k f).bank j = s.bank j := rfl
@[simp] theorem bulkOf_modEngine (j : Nat) (k : Nat) (f : Engine → Engine) : (s.modEngine k f).bulkOf j = s.bulkOf j := rfl
@[simp] theorem slice_modEngine (j : Nat) (k : Nat) (f : Engine → Engine) : (s.modEngine k f).slice j = s.slice j := rfl
@[simp] theorem router_modEngine (j : Nat) (k : Nat) (f : Engine → Engine) : (s.modEngine k f).router j = s.router j := rfl
@[simp] theorem ctl_modEngine (j : Nat) (k : Nat) (f : Engine → Engine) : (s.modEngine k f).ctl j = s.ctl j := rfl
@[simp] theorem die_modEngine (j : Nat) (k : Nat) (f : Engine → Engine) : (s.modEngine k f).die j = s.die j := rfl
@[simp] theorem part_modEngine (j : Nat) (k : Nat) (f : Engine → Engine) : (s.modEngine k f).part j = s.part j := rfl
@[simp] theorem me_modEngine (k : Nat) (f : Engine → Engine) : (s.modEngine k f).me = s.me := rfl
@[simp] theorem myCore_modEngine (k : Nat) (f : Engine → Engine) : (s.modEngine k f).myCore = s.myCore := rfl
@[simp] theorem myUnit_modEngine (k : Nat) (f : Engine → Engine) : (s.modEngine k f).myUnit = s.myUnit := rfl
@[simp] theorem sr_modBulk (k : Nat) (f : BulkEngine → BulkEngine) : (s.modBulk k f).sr = s.sr := rfl
@[simp] theorem parts_modBulk (k : Nat) (f : BulkEngine → BulkEngine) : (s.modBulk k f).parts = s.parts := rfl
@[simp] theorem dies_modBulk (k : Nat) (f : BulkEngine → BulkEngine) : (s.modBulk k f).dies = s.dies := rfl
@[simp] theorem ctls_modBulk (k : Nat) (f : BulkEngine → BulkEngine) : (s.modBulk k f).ctls = s.ctls := rfl
@[simp] theorem mem_modBulk (k : Nat) (f : BulkEngine → BulkEngine) : (s.modBulk k f).mem = s.mem := rfl
@[simp] theorem flips_modBulk (k : Nat) (f : BulkEngine → BulkEngine) : (s.modBulk k f).flips = s.flips := rfl
@[simp] theorem memFull_modBulk (k : Nat) (f : BulkEngine → BulkEngine) : (s.modBulk k f).memFull = s.memFull := rfl
@[simp] theorem vault_modBulk (k : Nat) (f : BulkEngine → BulkEngine) : (s.modBulk k f).vault = s.vault := rfl
@[simp] theorem vfull_modBulk (k : Nat) (f : BulkEngine → BulkEngine) : (s.modBulk k f).vfull = s.vfull := rfl
@[simp] theorem verr_modBulk (k : Nat) (f : BulkEngine → BulkEngine) : (s.modBulk k f).verr = s.verr := rfl
@[simp] theorem banks_modBulk (k : Nat) (f : BulkEngine → BulkEngine) : (s.modBulk k f).banks = s.banks := rfl
@[simp] theorem slices_modBulk (k : Nat) (f : BulkEngine → BulkEngine) : (s.modBulk k f).slices = s.slices := rfl
@[simp] theorem routers_modBulk (k : Nat) (f : BulkEngine → BulkEngine) : (s.modBulk k f).routers = s.routers := rfl
@[simp] theorem requests_modBulk (k : Nat) (f : BulkEngine → BulkEngine) : (s.modBulk k f).requests = s.requests := rfl
@[simp] theorem clusters_modBulk (k : Nat) (f : BulkEngine → BulkEngine) : (s.modBulk k f).clusters = s.clusters := rfl
@[simp] theorem cores_modBulk (k : Nat) (f : BulkEngine → BulkEngine) : (s.modBulk k f).cores = s.cores := rfl
@[simp] theorem slots_modBulk (k : Nat) (f : BulkEngine → BulkEngine) : (s.modBulk k f).slots = s.slots := rfl
@[simp] theorem engines_modBulk (k : Nat) (f : BulkEngine → BulkEngine) : (s.modBulk k f).engines = s.engines := rfl
@[simp] theorem remotes_modBulk (k : Nat) (f : BulkEngine → BulkEngine) : (s.modBulk k f).remotes = s.remotes := rfl
@[simp] theorem busy_modBulk (k : Nat) (f : BulkEngine → BulkEngine) : (s.modBulk k f).busy = s.busy := rfl
@[simp] theorem mcDue_modBulk (k : Nat) (f : BulkEngine → BulkEngine) : (s.modBulk k f).mcDue = s.mcDue := rfl
@[simp] theorem mcPhase_modBulk (k : Nat) (f : BulkEngine → BulkEngine) : (s.modBulk k f).mcPhase = s.mcPhase := rfl
@[simp] theorem hot_modBulk (k : Nat) (f : BulkEngine → BulkEngine) : (s.modBulk k f).hot = s.hot := rfl
@[simp] theorem ported_modBulk (k : Nat) (f : BulkEngine → BulkEngine) : (s.modBulk k f).ported = s.ported := rfl
@[simp] theorem cur_modBulk (k : Nat) (f : BulkEngine → BulkEngine) : (s.modBulk k f).cur = s.cur := rfl
@[simp] theorem turn_modBulk (k : Nat) (f : BulkEngine → BulkEngine) : (s.modBulk k f).turn = s.turn := rfl
@[simp] theorem due_modBulk (k : Nat) (f : BulkEngine → BulkEngine) : (s.modBulk k f).due = s.due := rfl
@[simp] theorem later_modBulk (k : Nat) (f : BulkEngine → BulkEngine) : (s.modBulk k f).later = s.later := rfl
@[simp] theorem fresh_modBulk (k : Nat) (f : BulkEngine → BulkEngine) : (s.modBulk k f).fresh = s.fresh := rfl
@[simp] theorem slot_modBulk (j : Nat) (k : Nat) (f : BulkEngine → BulkEngine) : (s.modBulk k f).slot j = s.slot j := rfl
@[simp] theorem core_modBulk (j : Nat) (k : Nat) (f : BulkEngine → BulkEngine) : (s.modBulk k f).core j = s.core j := rfl
@[simp] theorem cluster_modBulk (j : Nat) (k : Nat) (f : BulkEngine → BulkEngine) : (s.modBulk k f).cluster j = s.cluster j := rfl
@[simp] theorem bank_modBulk (j : Nat) (k : Nat) (f : BulkEngine → BulkEngine) : (s.modBulk k f).bank j = s.bank j := rfl
@[simp] theorem engine_modBulk (j : Nat) (k : Nat) (f : BulkEngine → BulkEngine) : (s.modBulk k f).engine j = s.engine j := rfl
@[simp] theorem slice_modBulk (j : Nat) (k : Nat) (f : BulkEngine → BulkEngine) : (s.modBulk k f).slice j = s.slice j := rfl
@[simp] theorem router_modBulk (j : Nat) (k : Nat) (f : BulkEngine → BulkEngine) : (s.modBulk k f).router j = s.router j := rfl
@[simp] theorem ctl_modBulk (j : Nat) (k : Nat) (f : BulkEngine → BulkEngine) : (s.modBulk k f).ctl j = s.ctl j := rfl
@[simp] theorem die_modBulk (j : Nat) (k : Nat) (f : BulkEngine → BulkEngine) : (s.modBulk k f).die j = s.die j := rfl
@[simp] theorem part_modBulk (j : Nat) (k : Nat) (f : BulkEngine → BulkEngine) : (s.modBulk k f).part j = s.part j := rfl
@[simp] theorem me_modBulk (k : Nat) (f : BulkEngine → BulkEngine) : (s.modBulk k f).me = s.me := rfl
@[simp] theorem myCore_modBulk (k : Nat) (f : BulkEngine → BulkEngine) : (s.modBulk k f).myCore = s.myCore := rfl
@[simp] theorem myUnit_modBulk (k : Nat) (f : BulkEngine → BulkEngine) : (s.modBulk k f).myUnit = s.myUnit := rfl
@[simp] theorem sr_modSlice (k : Nat) (f : Slice → Slice) : (s.modSlice k f).sr = s.sr := rfl
@[simp] theorem parts_modSlice (k : Nat) (f : Slice → Slice) : (s.modSlice k f).parts = s.parts := rfl
@[simp] theorem dies_modSlice (k : Nat) (f : Slice → Slice) : (s.modSlice k f).dies = s.dies := rfl
@[simp] theorem ctls_modSlice (k : Nat) (f : Slice → Slice) : (s.modSlice k f).ctls = s.ctls := rfl
@[simp] theorem mem_modSlice (k : Nat) (f : Slice → Slice) : (s.modSlice k f).mem = s.mem := rfl
@[simp] theorem flips_modSlice (k : Nat) (f : Slice → Slice) : (s.modSlice k f).flips = s.flips := rfl
@[simp] theorem memFull_modSlice (k : Nat) (f : Slice → Slice) : (s.modSlice k f).memFull = s.memFull := rfl
@[simp] theorem vault_modSlice (k : Nat) (f : Slice → Slice) : (s.modSlice k f).vault = s.vault := rfl
@[simp] theorem vfull_modSlice (k : Nat) (f : Slice → Slice) : (s.modSlice k f).vfull = s.vfull := rfl
@[simp] theorem verr_modSlice (k : Nat) (f : Slice → Slice) : (s.modSlice k f).verr = s.verr := rfl
@[simp] theorem banks_modSlice (k : Nat) (f : Slice → Slice) : (s.modSlice k f).banks = s.banks := rfl
@[simp] theorem routers_modSlice (k : Nat) (f : Slice → Slice) : (s.modSlice k f).routers = s.routers := rfl
@[simp] theorem requests_modSlice (k : Nat) (f : Slice → Slice) : (s.modSlice k f).requests = s.requests := rfl
@[simp] theorem clusters_modSlice (k : Nat) (f : Slice → Slice) : (s.modSlice k f).clusters = s.clusters := rfl
@[simp] theorem cores_modSlice (k : Nat) (f : Slice → Slice) : (s.modSlice k f).cores = s.cores := rfl
@[simp] theorem slots_modSlice (k : Nat) (f : Slice → Slice) : (s.modSlice k f).slots = s.slots := rfl
@[simp] theorem engines_modSlice (k : Nat) (f : Slice → Slice) : (s.modSlice k f).engines = s.engines := rfl
@[simp] theorem bulk_modSlice (k : Nat) (f : Slice → Slice) : (s.modSlice k f).bulk = s.bulk := rfl
@[simp] theorem remotes_modSlice (k : Nat) (f : Slice → Slice) : (s.modSlice k f).remotes = s.remotes := rfl
@[simp] theorem busy_modSlice (k : Nat) (f : Slice → Slice) : (s.modSlice k f).busy = s.busy := rfl
@[simp] theorem mcDue_modSlice (k : Nat) (f : Slice → Slice) : (s.modSlice k f).mcDue = s.mcDue := rfl
@[simp] theorem mcPhase_modSlice (k : Nat) (f : Slice → Slice) : (s.modSlice k f).mcPhase = s.mcPhase := rfl
@[simp] theorem hot_modSlice (k : Nat) (f : Slice → Slice) : (s.modSlice k f).hot = s.hot := rfl
@[simp] theorem ported_modSlice (k : Nat) (f : Slice → Slice) : (s.modSlice k f).ported = s.ported := rfl
@[simp] theorem cur_modSlice (k : Nat) (f : Slice → Slice) : (s.modSlice k f).cur = s.cur := rfl
@[simp] theorem turn_modSlice (k : Nat) (f : Slice → Slice) : (s.modSlice k f).turn = s.turn := rfl
@[simp] theorem due_modSlice (k : Nat) (f : Slice → Slice) : (s.modSlice k f).due = s.due := rfl
@[simp] theorem later_modSlice (k : Nat) (f : Slice → Slice) : (s.modSlice k f).later = s.later := rfl
@[simp] theorem fresh_modSlice (k : Nat) (f : Slice → Slice) : (s.modSlice k f).fresh = s.fresh := rfl
@[simp] theorem slot_modSlice (j : Nat) (k : Nat) (f : Slice → Slice) : (s.modSlice k f).slot j = s.slot j := rfl
@[simp] theorem core_modSlice (j : Nat) (k : Nat) (f : Slice → Slice) : (s.modSlice k f).core j = s.core j := rfl
@[simp] theorem cluster_modSlice (j : Nat) (k : Nat) (f : Slice → Slice) : (s.modSlice k f).cluster j = s.cluster j := rfl
@[simp] theorem bank_modSlice (j : Nat) (k : Nat) (f : Slice → Slice) : (s.modSlice k f).bank j = s.bank j := rfl
@[simp] theorem engine_modSlice (j : Nat) (k : Nat) (f : Slice → Slice) : (s.modSlice k f).engine j = s.engine j := rfl
@[simp] theorem bulkOf_modSlice (j : Nat) (k : Nat) (f : Slice → Slice) : (s.modSlice k f).bulkOf j = s.bulkOf j := rfl
@[simp] theorem router_modSlice (j : Nat) (k : Nat) (f : Slice → Slice) : (s.modSlice k f).router j = s.router j := rfl
@[simp] theorem ctl_modSlice (j : Nat) (k : Nat) (f : Slice → Slice) : (s.modSlice k f).ctl j = s.ctl j := rfl
@[simp] theorem die_modSlice (j : Nat) (k : Nat) (f : Slice → Slice) : (s.modSlice k f).die j = s.die j := rfl
@[simp] theorem part_modSlice (j : Nat) (k : Nat) (f : Slice → Slice) : (s.modSlice k f).part j = s.part j := rfl
@[simp] theorem me_modSlice (k : Nat) (f : Slice → Slice) : (s.modSlice k f).me = s.me := rfl
@[simp] theorem myCore_modSlice (k : Nat) (f : Slice → Slice) : (s.modSlice k f).myCore = s.myCore := rfl
@[simp] theorem myUnit_modSlice (k : Nat) (f : Slice → Slice) : (s.modSlice k f).myUnit = s.myUnit := rfl
@[simp] theorem sr_modRouter (k : Nat) (f : Router → Router) : (s.modRouter k f).sr = s.sr := rfl
@[simp] theorem parts_modRouter (k : Nat) (f : Router → Router) : (s.modRouter k f).parts = s.parts := rfl
@[simp] theorem dies_modRouter (k : Nat) (f : Router → Router) : (s.modRouter k f).dies = s.dies := rfl
@[simp] theorem ctls_modRouter (k : Nat) (f : Router → Router) : (s.modRouter k f).ctls = s.ctls := rfl
@[simp] theorem mem_modRouter (k : Nat) (f : Router → Router) : (s.modRouter k f).mem = s.mem := rfl
@[simp] theorem flips_modRouter (k : Nat) (f : Router → Router) : (s.modRouter k f).flips = s.flips := rfl
@[simp] theorem memFull_modRouter (k : Nat) (f : Router → Router) : (s.modRouter k f).memFull = s.memFull := rfl
@[simp] theorem vault_modRouter (k : Nat) (f : Router → Router) : (s.modRouter k f).vault = s.vault := rfl
@[simp] theorem vfull_modRouter (k : Nat) (f : Router → Router) : (s.modRouter k f).vfull = s.vfull := rfl
@[simp] theorem verr_modRouter (k : Nat) (f : Router → Router) : (s.modRouter k f).verr = s.verr := rfl
@[simp] theorem banks_modRouter (k : Nat) (f : Router → Router) : (s.modRouter k f).banks = s.banks := rfl
@[simp] theorem slices_modRouter (k : Nat) (f : Router → Router) : (s.modRouter k f).slices = s.slices := rfl
@[simp] theorem requests_modRouter (k : Nat) (f : Router → Router) : (s.modRouter k f).requests = s.requests := rfl
@[simp] theorem clusters_modRouter (k : Nat) (f : Router → Router) : (s.modRouter k f).clusters = s.clusters := rfl
@[simp] theorem cores_modRouter (k : Nat) (f : Router → Router) : (s.modRouter k f).cores = s.cores := rfl
@[simp] theorem slots_modRouter (k : Nat) (f : Router → Router) : (s.modRouter k f).slots = s.slots := rfl
@[simp] theorem engines_modRouter (k : Nat) (f : Router → Router) : (s.modRouter k f).engines = s.engines := rfl
@[simp] theorem bulk_modRouter (k : Nat) (f : Router → Router) : (s.modRouter k f).bulk = s.bulk := rfl
@[simp] theorem remotes_modRouter (k : Nat) (f : Router → Router) : (s.modRouter k f).remotes = s.remotes := rfl
@[simp] theorem busy_modRouter (k : Nat) (f : Router → Router) : (s.modRouter k f).busy = s.busy := rfl
@[simp] theorem mcDue_modRouter (k : Nat) (f : Router → Router) : (s.modRouter k f).mcDue = s.mcDue := rfl
@[simp] theorem mcPhase_modRouter (k : Nat) (f : Router → Router) : (s.modRouter k f).mcPhase = s.mcPhase := rfl
@[simp] theorem hot_modRouter (k : Nat) (f : Router → Router) : (s.modRouter k f).hot = s.hot := rfl
@[simp] theorem ported_modRouter (k : Nat) (f : Router → Router) : (s.modRouter k f).ported = s.ported := rfl
@[simp] theorem cur_modRouter (k : Nat) (f : Router → Router) : (s.modRouter k f).cur = s.cur := rfl
@[simp] theorem turn_modRouter (k : Nat) (f : Router → Router) : (s.modRouter k f).turn = s.turn := rfl
@[simp] theorem due_modRouter (k : Nat) (f : Router → Router) : (s.modRouter k f).due = s.due := rfl
@[simp] theorem later_modRouter (k : Nat) (f : Router → Router) : (s.modRouter k f).later = s.later := rfl
@[simp] theorem fresh_modRouter (k : Nat) (f : Router → Router) : (s.modRouter k f).fresh = s.fresh := rfl
@[simp] theorem slot_modRouter (j : Nat) (k : Nat) (f : Router → Router) : (s.modRouter k f).slot j = s.slot j := rfl
@[simp] theorem core_modRouter (j : Nat) (k : Nat) (f : Router → Router) : (s.modRouter k f).core j = s.core j := rfl
@[simp] theorem cluster_modRouter (j : Nat) (k : Nat) (f : Router → Router) : (s.modRouter k f).cluster j = s.cluster j := rfl
@[simp] theorem bank_modRouter (j : Nat) (k : Nat) (f : Router → Router) : (s.modRouter k f).bank j = s.bank j := rfl
@[simp] theorem engine_modRouter (j : Nat) (k : Nat) (f : Router → Router) : (s.modRouter k f).engine j = s.engine j := rfl
@[simp] theorem bulkOf_modRouter (j : Nat) (k : Nat) (f : Router → Router) : (s.modRouter k f).bulkOf j = s.bulkOf j := rfl
@[simp] theorem slice_modRouter (j : Nat) (k : Nat) (f : Router → Router) : (s.modRouter k f).slice j = s.slice j := rfl
@[simp] theorem ctl_modRouter (j : Nat) (k : Nat) (f : Router → Router) : (s.modRouter k f).ctl j = s.ctl j := rfl
@[simp] theorem die_modRouter (j : Nat) (k : Nat) (f : Router → Router) : (s.modRouter k f).die j = s.die j := rfl
@[simp] theorem part_modRouter (j : Nat) (k : Nat) (f : Router → Router) : (s.modRouter k f).part j = s.part j := rfl
@[simp] theorem me_modRouter (k : Nat) (f : Router → Router) : (s.modRouter k f).me = s.me := rfl
@[simp] theorem myCore_modRouter (k : Nat) (f : Router → Router) : (s.modRouter k f).myCore = s.myCore := rfl
@[simp] theorem myUnit_modRouter (k : Nat) (f : Router → Router) : (s.modRouter k f).myUnit = s.myUnit := rfl
@[simp] theorem sr_modCtl (k : Nat) (f : Ctl → Ctl) : (s.modCtl k f).sr = s.sr := rfl
@[simp] theorem parts_modCtl (k : Nat) (f : Ctl → Ctl) : (s.modCtl k f).parts = s.parts := rfl
@[simp] theorem dies_modCtl (k : Nat) (f : Ctl → Ctl) : (s.modCtl k f).dies = s.dies := rfl
@[simp] theorem mem_modCtl (k : Nat) (f : Ctl → Ctl) : (s.modCtl k f).mem = s.mem := rfl
@[simp] theorem flips_modCtl (k : Nat) (f : Ctl → Ctl) : (s.modCtl k f).flips = s.flips := rfl
@[simp] theorem memFull_modCtl (k : Nat) (f : Ctl → Ctl) : (s.modCtl k f).memFull = s.memFull := rfl
@[simp] theorem vault_modCtl (k : Nat) (f : Ctl → Ctl) : (s.modCtl k f).vault = s.vault := rfl
@[simp] theorem vfull_modCtl (k : Nat) (f : Ctl → Ctl) : (s.modCtl k f).vfull = s.vfull := rfl
@[simp] theorem verr_modCtl (k : Nat) (f : Ctl → Ctl) : (s.modCtl k f).verr = s.verr := rfl
@[simp] theorem banks_modCtl (k : Nat) (f : Ctl → Ctl) : (s.modCtl k f).banks = s.banks := rfl
@[simp] theorem slices_modCtl (k : Nat) (f : Ctl → Ctl) : (s.modCtl k f).slices = s.slices := rfl
@[simp] theorem routers_modCtl (k : Nat) (f : Ctl → Ctl) : (s.modCtl k f).routers = s.routers := rfl
@[simp] theorem requests_modCtl (k : Nat) (f : Ctl → Ctl) : (s.modCtl k f).requests = s.requests := rfl
@[simp] theorem clusters_modCtl (k : Nat) (f : Ctl → Ctl) : (s.modCtl k f).clusters = s.clusters := rfl
@[simp] theorem cores_modCtl (k : Nat) (f : Ctl → Ctl) : (s.modCtl k f).cores = s.cores := rfl
@[simp] theorem slots_modCtl (k : Nat) (f : Ctl → Ctl) : (s.modCtl k f).slots = s.slots := rfl
@[simp] theorem engines_modCtl (k : Nat) (f : Ctl → Ctl) : (s.modCtl k f).engines = s.engines := rfl
@[simp] theorem bulk_modCtl (k : Nat) (f : Ctl → Ctl) : (s.modCtl k f).bulk = s.bulk := rfl
@[simp] theorem remotes_modCtl (k : Nat) (f : Ctl → Ctl) : (s.modCtl k f).remotes = s.remotes := rfl
@[simp] theorem busy_modCtl (k : Nat) (f : Ctl → Ctl) : (s.modCtl k f).busy = s.busy := rfl
@[simp] theorem mcDue_modCtl (k : Nat) (f : Ctl → Ctl) : (s.modCtl k f).mcDue = s.mcDue := rfl
@[simp] theorem mcPhase_modCtl (k : Nat) (f : Ctl → Ctl) : (s.modCtl k f).mcPhase = s.mcPhase := rfl
@[simp] theorem hot_modCtl (k : Nat) (f : Ctl → Ctl) : (s.modCtl k f).hot = s.hot := rfl
@[simp] theorem ported_modCtl (k : Nat) (f : Ctl → Ctl) : (s.modCtl k f).ported = s.ported := rfl
@[simp] theorem cur_modCtl (k : Nat) (f : Ctl → Ctl) : (s.modCtl k f).cur = s.cur := rfl
@[simp] theorem turn_modCtl (k : Nat) (f : Ctl → Ctl) : (s.modCtl k f).turn = s.turn := rfl
@[simp] theorem due_modCtl (k : Nat) (f : Ctl → Ctl) : (s.modCtl k f).due = s.due := rfl
@[simp] theorem later_modCtl (k : Nat) (f : Ctl → Ctl) : (s.modCtl k f).later = s.later := rfl
@[simp] theorem fresh_modCtl (k : Nat) (f : Ctl → Ctl) : (s.modCtl k f).fresh = s.fresh := rfl
@[simp] theorem slot_modCtl (j : Nat) (k : Nat) (f : Ctl → Ctl) : (s.modCtl k f).slot j = s.slot j := rfl
@[simp] theorem core_modCtl (j : Nat) (k : Nat) (f : Ctl → Ctl) : (s.modCtl k f).core j = s.core j := rfl
@[simp] theorem cluster_modCtl (j : Nat) (k : Nat) (f : Ctl → Ctl) : (s.modCtl k f).cluster j = s.cluster j := rfl
@[simp] theorem bank_modCtl (j : Nat) (k : Nat) (f : Ctl → Ctl) : (s.modCtl k f).bank j = s.bank j := rfl
@[simp] theorem engine_modCtl (j : Nat) (k : Nat) (f : Ctl → Ctl) : (s.modCtl k f).engine j = s.engine j := rfl
@[simp] theorem bulkOf_modCtl (j : Nat) (k : Nat) (f : Ctl → Ctl) : (s.modCtl k f).bulkOf j = s.bulkOf j := rfl
@[simp] theorem slice_modCtl (j : Nat) (k : Nat) (f : Ctl → Ctl) : (s.modCtl k f).slice j = s.slice j := rfl
@[simp] theorem router_modCtl (j : Nat) (k : Nat) (f : Ctl → Ctl) : (s.modCtl k f).router j = s.router j := rfl
@[simp] theorem die_modCtl (j : Nat) (k : Nat) (f : Ctl → Ctl) : (s.modCtl k f).die j = s.die j := rfl
@[simp] theorem part_modCtl (j : Nat) (k : Nat) (f : Ctl → Ctl) : (s.modCtl k f).part j = s.part j := rfl
@[simp] theorem me_modCtl (k : Nat) (f : Ctl → Ctl) : (s.modCtl k f).me = s.me := rfl
@[simp] theorem myCore_modCtl (k : Nat) (f : Ctl → Ctl) : (s.modCtl k f).myCore = s.myCore := rfl
@[simp] theorem myUnit_modCtl (k : Nat) (f : Ctl → Ctl) : (s.modCtl k f).myUnit = s.myUnit := rfl
@[simp] theorem sr_modDie (k : Nat) (f : Die → Die) : (s.modDie k f).sr = s.sr := rfl
@[simp] theorem parts_modDie (k : Nat) (f : Die → Die) : (s.modDie k f).parts = s.parts := rfl
@[simp] theorem ctls_modDie (k : Nat) (f : Die → Die) : (s.modDie k f).ctls = s.ctls := rfl
@[simp] theorem mem_modDie (k : Nat) (f : Die → Die) : (s.modDie k f).mem = s.mem := rfl
@[simp] theorem flips_modDie (k : Nat) (f : Die → Die) : (s.modDie k f).flips = s.flips := rfl
@[simp] theorem memFull_modDie (k : Nat) (f : Die → Die) : (s.modDie k f).memFull = s.memFull := rfl
@[simp] theorem vault_modDie (k : Nat) (f : Die → Die) : (s.modDie k f).vault = s.vault := rfl
@[simp] theorem vfull_modDie (k : Nat) (f : Die → Die) : (s.modDie k f).vfull = s.vfull := rfl
@[simp] theorem verr_modDie (k : Nat) (f : Die → Die) : (s.modDie k f).verr = s.verr := rfl
@[simp] theorem banks_modDie (k : Nat) (f : Die → Die) : (s.modDie k f).banks = s.banks := rfl
@[simp] theorem slices_modDie (k : Nat) (f : Die → Die) : (s.modDie k f).slices = s.slices := rfl
@[simp] theorem routers_modDie (k : Nat) (f : Die → Die) : (s.modDie k f).routers = s.routers := rfl
@[simp] theorem requests_modDie (k : Nat) (f : Die → Die) : (s.modDie k f).requests = s.requests := rfl
@[simp] theorem clusters_modDie (k : Nat) (f : Die → Die) : (s.modDie k f).clusters = s.clusters := rfl
@[simp] theorem cores_modDie (k : Nat) (f : Die → Die) : (s.modDie k f).cores = s.cores := rfl
@[simp] theorem slots_modDie (k : Nat) (f : Die → Die) : (s.modDie k f).slots = s.slots := rfl
@[simp] theorem engines_modDie (k : Nat) (f : Die → Die) : (s.modDie k f).engines = s.engines := rfl
@[simp] theorem bulk_modDie (k : Nat) (f : Die → Die) : (s.modDie k f).bulk = s.bulk := rfl
@[simp] theorem remotes_modDie (k : Nat) (f : Die → Die) : (s.modDie k f).remotes = s.remotes := rfl
@[simp] theorem busy_modDie (k : Nat) (f : Die → Die) : (s.modDie k f).busy = s.busy := rfl
@[simp] theorem mcDue_modDie (k : Nat) (f : Die → Die) : (s.modDie k f).mcDue = s.mcDue := rfl
@[simp] theorem mcPhase_modDie (k : Nat) (f : Die → Die) : (s.modDie k f).mcPhase = s.mcPhase := rfl
@[simp] theorem hot_modDie (k : Nat) (f : Die → Die) : (s.modDie k f).hot = s.hot := rfl
@[simp] theorem ported_modDie (k : Nat) (f : Die → Die) : (s.modDie k f).ported = s.ported := rfl
@[simp] theorem cur_modDie (k : Nat) (f : Die → Die) : (s.modDie k f).cur = s.cur := rfl
@[simp] theorem turn_modDie (k : Nat) (f : Die → Die) : (s.modDie k f).turn = s.turn := rfl
@[simp] theorem due_modDie (k : Nat) (f : Die → Die) : (s.modDie k f).due = s.due := rfl
@[simp] theorem later_modDie (k : Nat) (f : Die → Die) : (s.modDie k f).later = s.later := rfl
@[simp] theorem fresh_modDie (k : Nat) (f : Die → Die) : (s.modDie k f).fresh = s.fresh := rfl
@[simp] theorem slot_modDie (j : Nat) (k : Nat) (f : Die → Die) : (s.modDie k f).slot j = s.slot j := rfl
@[simp] theorem core_modDie (j : Nat) (k : Nat) (f : Die → Die) : (s.modDie k f).core j = s.core j := rfl
@[simp] theorem cluster_modDie (j : Nat) (k : Nat) (f : Die → Die) : (s.modDie k f).cluster j = s.cluster j := rfl
@[simp] theorem bank_modDie (j : Nat) (k : Nat) (f : Die → Die) : (s.modDie k f).bank j = s.bank j := rfl
@[simp] theorem engine_modDie (j : Nat) (k : Nat) (f : Die → Die) : (s.modDie k f).engine j = s.engine j := rfl
@[simp] theorem bulkOf_modDie (j : Nat) (k : Nat) (f : Die → Die) : (s.modDie k f).bulkOf j = s.bulkOf j := rfl
@[simp] theorem slice_modDie (j : Nat) (k : Nat) (f : Die → Die) : (s.modDie k f).slice j = s.slice j := rfl
@[simp] theorem router_modDie (j : Nat) (k : Nat) (f : Die → Die) : (s.modDie k f).router j = s.router j := rfl
@[simp] theorem ctl_modDie (j : Nat) (k : Nat) (f : Die → Die) : (s.modDie k f).ctl j = s.ctl j := rfl
@[simp] theorem part_modDie (j : Nat) (k : Nat) (f : Die → Die) : (s.modDie k f).part j = s.part j := rfl
@[simp] theorem me_modDie (k : Nat) (f : Die → Die) : (s.modDie k f).me = s.me := rfl
@[simp] theorem myCore_modDie (k : Nat) (f : Die → Die) : (s.modDie k f).myCore = s.myCore := rfl
@[simp] theorem myUnit_modDie (k : Nat) (f : Die → Die) : (s.modDie k f).myUnit = s.myUnit := rfl
@[simp] theorem sr_modPart (k : Nat) (f : Part → Part) : (s.modPart k f).sr = s.sr := rfl
@[simp] theorem dies_modPart (k : Nat) (f : Part → Part) : (s.modPart k f).dies = s.dies := rfl
@[simp] theorem ctls_modPart (k : Nat) (f : Part → Part) : (s.modPart k f).ctls = s.ctls := rfl
@[simp] theorem mem_modPart (k : Nat) (f : Part → Part) : (s.modPart k f).mem = s.mem := rfl
@[simp] theorem flips_modPart (k : Nat) (f : Part → Part) : (s.modPart k f).flips = s.flips := rfl
@[simp] theorem memFull_modPart (k : Nat) (f : Part → Part) : (s.modPart k f).memFull = s.memFull := rfl
@[simp] theorem vault_modPart (k : Nat) (f : Part → Part) : (s.modPart k f).vault = s.vault := rfl
@[simp] theorem vfull_modPart (k : Nat) (f : Part → Part) : (s.modPart k f).vfull = s.vfull := rfl
@[simp] theorem verr_modPart (k : Nat) (f : Part → Part) : (s.modPart k f).verr = s.verr := rfl
@[simp] theorem banks_modPart (k : Nat) (f : Part → Part) : (s.modPart k f).banks = s.banks := rfl
@[simp] theorem slices_modPart (k : Nat) (f : Part → Part) : (s.modPart k f).slices = s.slices := rfl
@[simp] theorem routers_modPart (k : Nat) (f : Part → Part) : (s.modPart k f).routers = s.routers := rfl
@[simp] theorem requests_modPart (k : Nat) (f : Part → Part) : (s.modPart k f).requests = s.requests := rfl
@[simp] theorem clusters_modPart (k : Nat) (f : Part → Part) : (s.modPart k f).clusters = s.clusters := rfl
@[simp] theorem cores_modPart (k : Nat) (f : Part → Part) : (s.modPart k f).cores = s.cores := rfl
@[simp] theorem slots_modPart (k : Nat) (f : Part → Part) : (s.modPart k f).slots = s.slots := rfl
@[simp] theorem engines_modPart (k : Nat) (f : Part → Part) : (s.modPart k f).engines = s.engines := rfl
@[simp] theorem bulk_modPart (k : Nat) (f : Part → Part) : (s.modPart k f).bulk = s.bulk := rfl
@[simp] theorem remotes_modPart (k : Nat) (f : Part → Part) : (s.modPart k f).remotes = s.remotes := rfl
@[simp] theorem busy_modPart (k : Nat) (f : Part → Part) : (s.modPart k f).busy = s.busy := rfl
@[simp] theorem mcDue_modPart (k : Nat) (f : Part → Part) : (s.modPart k f).mcDue = s.mcDue := rfl
@[simp] theorem mcPhase_modPart (k : Nat) (f : Part → Part) : (s.modPart k f).mcPhase = s.mcPhase := rfl
@[simp] theorem hot_modPart (k : Nat) (f : Part → Part) : (s.modPart k f).hot = s.hot := rfl
@[simp] theorem ported_modPart (k : Nat) (f : Part → Part) : (s.modPart k f).ported = s.ported := rfl
@[simp] theorem cur_modPart (k : Nat) (f : Part → Part) : (s.modPart k f).cur = s.cur := rfl
@[simp] theorem turn_modPart (k : Nat) (f : Part → Part) : (s.modPart k f).turn = s.turn := rfl
@[simp] theorem due_modPart (k : Nat) (f : Part → Part) : (s.modPart k f).due = s.due := rfl
@[simp] theorem later_modPart (k : Nat) (f : Part → Part) : (s.modPart k f).later = s.later := rfl
@[simp] theorem fresh_modPart (k : Nat) (f : Part → Part) : (s.modPart k f).fresh = s.fresh := rfl
@[simp] theorem slot_modPart (j : Nat) (k : Nat) (f : Part → Part) : (s.modPart k f).slot j = s.slot j := rfl
@[simp] theorem core_modPart (j : Nat) (k : Nat) (f : Part → Part) : (s.modPart k f).core j = s.core j := rfl
@[simp] theorem cluster_modPart (j : Nat) (k : Nat) (f : Part → Part) : (s.modPart k f).cluster j = s.cluster j := rfl
@[simp] theorem bank_modPart (j : Nat) (k : Nat) (f : Part → Part) : (s.modPart k f).bank j = s.bank j := rfl
@[simp] theorem engine_modPart (j : Nat) (k : Nat) (f : Part → Part) : (s.modPart k f).engine j = s.engine j := rfl
@[simp] theorem bulkOf_modPart (j : Nat) (k : Nat) (f : Part → Part) : (s.modPart k f).bulkOf j = s.bulkOf j := rfl
@[simp] theorem slice_modPart (j : Nat) (k : Nat) (f : Part → Part) : (s.modPart k f).slice j = s.slice j := rfl
@[simp] theorem router_modPart (j : Nat) (k : Nat) (f : Part → Part) : (s.modPart k f).router j = s.router j := rfl
@[simp] theorem ctl_modPart (j : Nat) (k : Nat) (f : Part → Part) : (s.modPart k f).ctl j = s.ctl j := rfl
@[simp] theorem die_modPart (j : Nat) (k : Nat) (f : Part → Part) : (s.modPart k f).die j = s.die j := rfl
@[simp] theorem me_modPart (k : Nat) (f : Part → Part) : (s.modPart k f).me = s.me := rfl
@[simp] theorem myCore_modPart (k : Nat) (f : Part → Part) : (s.modPart k f).myCore = s.myCore := rfl
@[simp] theorem myUnit_modPart (k : Nat) (f : Part → Part) : (s.modPart k f).myUnit = s.myUnit := rfl
@[simp] theorem sr_push (e : Instr) : (s.push e).sr = s.sr := rfl
@[simp] theorem parts_push (e : Instr) : (s.push e).parts = s.parts := rfl
@[simp] theorem dies_push (e : Instr) : (s.push e).dies = s.dies := rfl
@[simp] theorem ctls_push (e : Instr) : (s.push e).ctls = s.ctls := rfl
@[simp] theorem mem_push (e : Instr) : (s.push e).mem = s.mem := rfl
@[simp] theorem flips_push (e : Instr) : (s.push e).flips = s.flips := rfl
@[simp] theorem memFull_push (e : Instr) : (s.push e).memFull = s.memFull := rfl
@[simp] theorem vault_push (e : Instr) : (s.push e).vault = s.vault := rfl
@[simp] theorem vfull_push (e : Instr) : (s.push e).vfull = s.vfull := rfl
@[simp] theorem verr_push (e : Instr) : (s.push e).verr = s.verr := rfl
@[simp] theorem banks_push (e : Instr) : (s.push e).banks = s.banks := rfl
@[simp] theorem slices_push (e : Instr) : (s.push e).slices = s.slices := rfl
@[simp] theorem routers_push (e : Instr) : (s.push e).routers = s.routers := rfl
@[simp] theorem requests_push (e : Instr) : (s.push e).requests = s.requests := rfl
@[simp] theorem clusters_push (e : Instr) : (s.push e).clusters = s.clusters := rfl
@[simp] theorem cores_push (e : Instr) : (s.push e).cores = s.cores := rfl
@[simp] theorem slots_push (e : Instr) : (s.push e).slots = s.slots := rfl
@[simp] theorem engines_push (e : Instr) : (s.push e).engines = s.engines := rfl
@[simp] theorem bulk_push (e : Instr) : (s.push e).bulk = s.bulk := rfl
@[simp] theorem remotes_push (e : Instr) : (s.push e).remotes = s.remotes := rfl
@[simp] theorem busy_push (e : Instr) : (s.push e).busy = s.busy := rfl
@[simp] theorem mcDue_push (e : Instr) : (s.push e).mcDue = s.mcDue := rfl
@[simp] theorem mcPhase_push (e : Instr) : (s.push e).mcPhase = s.mcPhase := rfl
@[simp] theorem hot_push (e : Instr) : (s.push e).hot = s.hot := rfl
@[simp] theorem ported_push (e : Instr) : (s.push e).ported = s.ported := rfl
@[simp] theorem cur_push (e : Instr) : (s.push e).cur = s.cur := rfl
@[simp] theorem turn_push (e : Instr) : (s.push e).turn = s.turn := rfl
@[simp] theorem later_push (e : Instr) : (s.push e).later = s.later := rfl
@[simp] theorem fresh_push (e : Instr) : (s.push e).fresh = s.fresh := rfl
@[simp] theorem slot_push (j : Nat) (e : Instr) : (s.push e).slot j = s.slot j := rfl
@[simp] theorem core_push (j : Nat) (e : Instr) : (s.push e).core j = s.core j := rfl
@[simp] theorem cluster_push (j : Nat) (e : Instr) : (s.push e).cluster j = s.cluster j := rfl
@[simp] theorem bank_push (j : Nat) (e : Instr) : (s.push e).bank j = s.bank j := rfl
@[simp] theorem engine_push (j : Nat) (e : Instr) : (s.push e).engine j = s.engine j := rfl
@[simp] theorem bulkOf_push (j : Nat) (e : Instr) : (s.push e).bulkOf j = s.bulkOf j := rfl
@[simp] theorem slice_push (j : Nat) (e : Instr) : (s.push e).slice j = s.slice j := rfl
@[simp] theorem router_push (j : Nat) (e : Instr) : (s.push e).router j = s.router j := rfl
@[simp] theorem ctl_push (j : Nat) (e : Instr) : (s.push e).ctl j = s.ctl j := rfl
@[simp] theorem die_push (j : Nat) (e : Instr) : (s.push e).die j = s.die j := rfl
@[simp] theorem part_push (j : Nat) (e : Instr) : (s.push e).part j = s.part j := rfl
@[simp] theorem me_push (e : Instr) : (s.push e).me = s.me := rfl
@[simp] theorem myCore_push (e : Instr) : (s.push e).myCore = s.myCore := rfl
@[simp] theorem myUnit_push (e : Instr) : (s.push e).myUnit = s.myUnit := rfl
@[simp] theorem sr_pushAll (es : List Instr) : (s.pushAll es).sr = s.sr := rfl
@[simp] theorem parts_pushAll (es : List Instr) : (s.pushAll es).parts = s.parts := rfl
@[simp] theorem dies_pushAll (es : List Instr) : (s.pushAll es).dies = s.dies := rfl
@[simp] theorem ctls_pushAll (es : List Instr) : (s.pushAll es).ctls = s.ctls := rfl
@[simp] theorem mem_pushAll (es : List Instr) : (s.pushAll es).mem = s.mem := rfl
@[simp] theorem flips_pushAll (es : List Instr) : (s.pushAll es).flips = s.flips := rfl
@[simp] theorem memFull_pushAll (es : List Instr) : (s.pushAll es).memFull = s.memFull := rfl
@[simp] theorem vault_pushAll (es : List Instr) : (s.pushAll es).vault = s.vault := rfl
@[simp] theorem vfull_pushAll (es : List Instr) : (s.pushAll es).vfull = s.vfull := rfl
@[simp] theorem verr_pushAll (es : List Instr) : (s.pushAll es).verr = s.verr := rfl
@[simp] theorem banks_pushAll (es : List Instr) : (s.pushAll es).banks = s.banks := rfl
@[simp] theorem slices_pushAll (es : List Instr) : (s.pushAll es).slices = s.slices := rfl
@[simp] theorem routers_pushAll (es : List Instr) : (s.pushAll es).routers = s.routers := rfl
@[simp] theorem requests_pushAll (es : List Instr) : (s.pushAll es).requests = s.requests := rfl
@[simp] theorem clusters_pushAll (es : List Instr) : (s.pushAll es).clusters = s.clusters := rfl
@[simp] theorem cores_pushAll (es : List Instr) : (s.pushAll es).cores = s.cores := rfl
@[simp] theorem slots_pushAll (es : List Instr) : (s.pushAll es).slots = s.slots := rfl
@[simp] theorem engines_pushAll (es : List Instr) : (s.pushAll es).engines = s.engines := rfl
@[simp] theorem bulk_pushAll (es : List Instr) : (s.pushAll es).bulk = s.bulk := rfl
@[simp] theorem remotes_pushAll (es : List Instr) : (s.pushAll es).remotes = s.remotes := rfl
@[simp] theorem busy_pushAll (es : List Instr) : (s.pushAll es).busy = s.busy := rfl
@[simp] theorem mcDue_pushAll (es : List Instr) : (s.pushAll es).mcDue = s.mcDue := rfl
@[simp] theorem mcPhase_pushAll (es : List Instr) : (s.pushAll es).mcPhase = s.mcPhase := rfl
@[simp] theorem hot_pushAll (es : List Instr) : (s.pushAll es).hot = s.hot := rfl
@[simp] theorem ported_pushAll (es : List Instr) : (s.pushAll es).ported = s.ported := rfl
@[simp] theorem cur_pushAll (es : List Instr) : (s.pushAll es).cur = s.cur := rfl
@[simp] theorem turn_pushAll (es : List Instr) : (s.pushAll es).turn = s.turn := rfl
@[simp] theorem later_pushAll (es : List Instr) : (s.pushAll es).later = s.later := rfl
@[simp] theorem fresh_pushAll (es : List Instr) : (s.pushAll es).fresh = s.fresh := rfl
@[simp] theorem slot_pushAll (j : Nat) (es : List Instr) : (s.pushAll es).slot j = s.slot j := rfl
@[simp] theorem core_pushAll (j : Nat) (es : List Instr) : (s.pushAll es).core j = s.core j := rfl
@[simp] theorem cluster_pushAll (j : Nat) (es : List Instr) : (s.pushAll es).cluster j = s.cluster j := rfl
@[simp] theorem bank_pushAll (j : Nat) (es : List Instr) : (s.pushAll es).bank j = s.bank j := rfl
@[simp] theorem engine_pushAll (j : Nat) (es : List Instr) : (s.pushAll es).engine j = s.engine j := rfl
@[simp] theorem bulkOf_pushAll (j : Nat) (es : List Instr) : (s.pushAll es).bulkOf j = s.bulkOf j := rfl
@[simp] theorem slice_pushAll (j : Nat) (es : List Instr) : (s.pushAll es).slice j = s.slice j := rfl
@[simp] theorem router_pushAll (j : Nat) (es : List Instr) : (s.pushAll es).router j = s.router j := rfl
@[simp] theorem ctl_pushAll (j : Nat) (es : List Instr) : (s.pushAll es).ctl j = s.ctl j := rfl
@[simp] theorem die_pushAll (j : Nat) (es : List Instr) : (s.pushAll es).die j = s.die j := rfl
@[simp] theorem part_pushAll (j : Nat) (es : List Instr) : (s.pushAll es).part j = s.part j := rfl
@[simp] theorem me_pushAll (es : List Instr) : (s.pushAll es).me = s.me := rfl
@[simp] theorem myCore_pushAll (es : List Instr) : (s.pushAll es).myCore = s.myCore := rfl
@[simp] theorem myUnit_pushAll (es : List Instr) : (s.pushAll es).myUnit = s.myUnit := rfl

end Sys2Proof.Machine.State
end

