-- ==== Sys2Proof/Laws/Instr.lean ====
section
/-! SUPPORT. What the shared operations of an instruction do: its tests, its registers, its completion. -/

namespace Sys2Proof.Machine

/-! ### The tests (R192, R186, R187) -/

theorem mapped_eq_false {s : State} (h : s.me.qmap = 0) (r : Reg) : s.mapped r = false := by
  simp [State.mapped, h, bitOf]

theorem queueMap_eq_none {f : Form} {s : State} (h : s.me.qmap = 0) : f.queueMap s = none := by
  simp [Form.queueMap, mapped_eq_false h]

theorem queuesOf_eq_zero {s : State} (h : s.me.qmap = 0) (l : List Reg) : s.queuesOf l = 0 := by
  have : l.filter s.mapped = [] := by simp [mapped_eq_false h]
  simp [State.queuesOf, this, bitsOf]

theorem queueBlocked_zero (now : Nat) (c : Core) : queueBlocked now c 0#4 0#4 = false := by simp [queueBlocked, bitOf]

/-- The tests pass when the form accepts the pending prefix, nothing is mapped, marked or held, and the form's own tests pass. -/
theorem gate_eq_go {f : Form} {s : State} (hr : f.refuses s.me.pend = false) (hi : f.illegal = false)
    (hb : (f.noBursar && isBursar s.myCore) = false) (hp : (f.priv && decide (s.prv = 0)) = false) (hq : s.me.qmap = 0)
    (hm : s.me.marks = 0) : gate f s = .go := by
  simp [gate, hr, hi, hb, hp, queueMap_eq_none hq, hm, queuesOf_eq_zero hq, queueBlocked_zero]

theorem claim_eq_self {f : Form} {s : State} (hq : s.me.qmap = 0) : claim f s = s := by
  have h (l : List Reg) : l.filter s.mapped = [] := by simp [mapped_eq_false hq]
  simp [claim, h]

/-- An instruction whose tests pass runs its body. -/
theorem instr_eq_next {f : Form} {body : M Next} {s : State} (hr : f.refuses s.me.pend = false) (hi : f.illegal = false)
    (hb : (f.noBursar && isBursar s.myCore) = false) (hp : (f.priv && decide (s.prv = 0)) = false) (hq : s.me.qmap = 0)
    (hm : s.me.marks = 0) : instr f body s = .next (finish s.cur (body s)) := by
  simp [instr, gate_eq_go hr hi hb hp hq hm, claim_eq_self hq]

theorem refuses_zero (f : Form) : f.refuses 0 = false := by simp [Form.refuses, bitOf]

/-! ### Registers (R293) -/

theorem reg_eq_of_taken {s : State} (h : s.me.taken = []) (r : Reg) :
    s.reg r = if r = 0 then 0 else smGet 0 s.me.g r.toNat := by
  simp only [State.reg, regAt]
  split
  · rfl
  · have : (s.slot s.cur).taken = [] := h
    simp [this, State.me]

/-- No entry of a queue belongs to slot `k`: nothing takes the value of a mapped register. -/
theorem qFill_eq_none {k : Nat} {v : Word} {q : List QEntry} (h : ∀ e ∈ q, e.owner ≠ k + 1) : qFill (k + 1) v q = none := by
  induction q with
  | nil => rfl
  | cons e r ih =>
    have he := h e (by simp)
    simp [qFill, he, ih fun e he => h e (by simp [he])]

theorem not_owned {k : Nat} {c : Core} (h : qOwned k c = false) (i : Nat) : ∀ e ∈ smGet [] c.queues i, e.owner ≠ k + 1 := by
  simp only [qOwned, List.any_eq_false] at h
  generalize c.queues = m at h
  induction m with
  | nil => simp [smGet]
  | cons a r ih =>
    obtain ⟨j, q⟩ := a
    simp only [smGet]
    split
    · intro e he
      have := h (j, q) (by simp)
      simp only [List.any_eq_true, not_exists, not_and, decide_eq_true_eq] at this
      exact this e he
    · exact ih fun x hx => h x (by simp [hx])

/-- A write to a register that no queue takes. -/
theorem setReg_eq {s : State} (h : qOwned s.cur (s.core s.myCore) = false) (r : Reg) (v : Word) :
    s.setReg r v = if r = 0 then s else s.modMe fun sl => { sl with g := smSet 0 sl.g r.toNat v } := by
  simp only [State.setReg, setRegAt, setRegOwned]
  split
  · rfl
  · split
    · rfl
    · have : qFill (s.cur + 1) v (smGet [] (s.core (coreOf s.cur)).queues (r.toNat - 28)) = none :=
        qFill_eq_none (not_owned h _)
      simp only [this]
      rfl

/-! ### Completion -/

theorem qAll_eq_self {k : Nat} {f : List QEntry → List QEntry} {s : State} (h : qOwned k (s.core (coreOf k)) = false) :
    qAll k f s = s := by simp [qAll, h]

end Sys2Proof.Machine
end

