-- ==== Sys2Proof/Laws/Effects.lean ====
section
/-! SUPPORT. What an instruction whose tests pass changes: registers written, flags raised, the pc (the terms of Safety). -/

namespace Sys2Proof.Machine

/-! ### Registers written -/

/-- `t` is `s` after the register writes `ws` and nothing else. -/
structure RegsOnly (s t : State) (ws : List (Reg × Word)) : Prop where
  cur : t.cur = s.cur
  regs : Registers s t ws
  slot : { t.me with g := s.me.g } = s.me
  others : ∀ k, k ≠ s.cur → t.slot k = s.slot k
  rest : { t with slots := s.slots } = s

theorem RegsOnly.refl {s : State} (h : s.me.taken = []) : RegsOnly s s [] where
  cur := rfl
  regs r := by
    rw [reg_eq_of_taken h]
    split <;> simp
  slot := rfl
  others _ _ := rfl
  rest := rfl

theorem RegsOnly.core {s t : State} {ws : List (Reg × Word)} (h : RegsOnly s t ws) (n : Nat) : t.core n = s.core n := by
  have := congrArg (fun x : State => x.core n) h.rest
  exact this

theorem RegsOnly.myCore {s t : State} {ws : List (Reg × Word)} (h : RegsOnly s t ws) : t.myCore = s.myCore := by
  simp [State.myCore, h.cur]

theorem RegsOnly.field {α : Type} {s t : State} {ws : List (Reg × Word)} (h : RegsOnly s t ws) (f : Slot → α)
    (hf : ∀ (x : Slot) g, f { x with g := g } = f x) : f t.me = f s.me := by
  have := congrArg f h.slot
  rwa [hf] at this

theorem RegsOnly.unmapped {s t : State} {ws : List (Reg × Word)} (h : RegsOnly s t ws) (hu : Unmapped s) : Unmapped t := by
  obtain ⟨h1, h2, h3, h4⟩ := hu
  refine ⟨?_, ?_, ?_, ?_⟩
  · rw [h.field Slot.qmap fun _ _ => rfl]; exact h1
  · rw [h.field Slot.taken fun _ _ => rfl]; exact h2
  · rw [h.myCore, h.core, h.cur]; exact h3
  · rw [h.field Slot.marks fun _ _ => rfl]; exact h4

theorem RegsOnly.write {s t : State} {ws : List (Reg × Word)} (h : RegsOnly s t ws) (hu : Unmapped s) (d : Reg) (v : Word) :
    RegsOnly s (t.setReg d v) (ws ++ [(d, v)]) := by
  obtain ⟨_, h2, h3, _⟩ := h.unmapped hu
  rw [setReg_eq h3]
  have hlook (r : Reg) : ((ws ++ [(d, v)]).reverse.lookup r) = if r = d then some v else ws.reverse.lookup r := by
    simp only [List.reverse_append, List.reverse_cons, List.reverse_nil, List.nil_append, List.cons_append, List.lookup]
    split <;> simp_all
  split
  next hd =>
    refine ⟨h.cur, fun r => ?_, h.slot, h.others, h.rest⟩
    rw [h.regs r, hlook]
    split
    · rfl
    · rw [if_neg (by rintro rfl; exact absurd hd (by assumption))]
  next hd =>
    refine ⟨h.cur, fun r => ?_, ?_, fun k hk => ?_, h.rest⟩
    · have ht : (t.modMe fun sl => { sl with g := smSet 0 sl.g d.toNat v }).me.taken = [] := by simpa using h2
      rw [reg_eq_of_taken ht, hlook]
      split
      · rfl
      next hr =>
        simp only [State.me_modMe, smGet_smSet]
        have := h.regs r
        rw [reg_eq_of_taken h2, if_neg hr, if_neg hr] at this
        by_cases hdr : r = d
        · subst hdr; simp
        · rw [if_neg (fun e => hdr (BitVec.eq_of_toNat_eq e.symm)), if_neg hdr, this]
    · simpa using h.slot
    · simp only [State.slot_modMe]
      rw [if_neg (by rw [h.cur]; exact fun e => hk e.symm)]
      exact h.others k hk

/-! ### Completion -/

/-- An instruction that wrote registers and goes on. -/
theorem RegsOnly.complete {s t : State} {ws : List (Reg × Word)} (h : RegsOnly s t ws) (hu : Unmapped s) (n : Next) (pc : Word)
    (hn : (n = .seq ∧ pc = s.npc) ∨ n = .jump pc) : WroteTo s (completeAt s.cur n t) ws pc := by
  obtain ⟨_, h2, h3, _⟩ := h.unmapped hu
  have hq : qAll s.cur (qSettle s.cur (t.slot s.cur).busyUntil) t = t := qAll_eq_self (by simpa [State.myCore, h.cur] using h3)
  have hpc : t.me.pc = s.me.pc := h.field Slot.pc fun _ _ => rfl
  have hlen : t.me.irLen = s.me.irLen := h.field Slot.irLen fun _ _ => rfl
  have key : ∃ f : Slot → Slot, completeAt s.cur n t = t.modSlot s.cur f ∧
      (∀ sl : Slot, (f sl).g = sl.g ∧ (f sl).taken = sl.taken) ∧ { f t.me with g := s.me.g } = s.me.went pc := by
    rw [← h.slot]
    rcases hn with ⟨rfl, rfl⟩ | rfl
    · refine ⟨fun sl => sl.went (sl.pc + word sl.irLen), ?_, fun sl => ⟨rfl, rfl⟩, ?_⟩
      · simp only [completeAt, hq]; rfl
      · simp [Slot.went, State.npc, hpc, hlen]
    · refine ⟨fun sl => sl.went pc, ?_, fun sl => ⟨rfl, rfl⟩, rfl⟩
      simp only [completeAt, hq]; rfl
  obtain ⟨f, he, hg, hs⟩ := key
  have hme : (t.modSlot s.cur f).me = f t.me := by simp [State.me, h.cur]
  rw [he]
  refine ⟨h.cur, fun r => ?_, ?_, fun k hk => ?_, h.rest⟩
  · rw [reg_eq_of_taken (by rw [hme, (hg _).2]; exact h2), hme, (hg _).1, ← reg_eq_of_taken h2]
    exact h.regs r
  · rw [hme]; exact hs
  · rw [State.slot_modSlot, if_neg (fun e => hk e.symm)]
    exact h.others k hk

/-! ### Flags raised (R201, R268) -/

theorem core_countN (s : State) (c i n m : Nat) :
    (countN c i n s).core m = if c = m then
      { s.core c with counters := smMod 0 (s.core c).counters i fun v => bump v n } else s.core m := by
  simp only [countN, State.core_modCore]
  rfl

/-- `t` is `s` with the counters of core `c` advanced by `n i` each. -/
structure Counted (c : Nat) (s t : State) (n : Nat → Nat) : Prop where
  mine : { t.core c with counters := (s.core c).counters } = s.core c
  counters : ∀ i, smGet 0 (t.core c).counters i = bump (smGet 0 (s.core c).counters i) (n i)
  cores : ∀ m, m ≠ c → t.core m = s.core m
  rest : { t with cores := s.cores } = s

theorem bump_zero (v : Word) : bump v 0 = v := by
  have := v.isLt
  simp only [bump, word, Nat.add_zero]
  rw [show Nat.min v.toNat 0xFFFFFFFF = v.toNat from Nat.min_eq_left (by omega)]
  simp

theorem bump_bump (v : Word) (m n : Nat) : bump (bump v m) n = bump v (m + n) := by
  have hm (a : Nat) : Nat.min a 0xFFFFFFFF = if a ≤ 0xFFFFFFFF then a else 0xFFFFFFFF := Nat.min_def
  simp only [bump, word, BitVec.toNat_ofNat, hm]
  congr 1
  split <;> split <;> split <;> omega

theorem Counted.refl (c : Nat) (s : State) : Counted c s s fun _ => 0 :=
  ⟨rfl, fun _ => (bump_zero _).symm, fun _ _ => rfl, rfl⟩

theorem Counted.countN {c : Nat} {s t : State} {n : Nat → Nat} (h : Counted c s t n) (i m : Nat) :
    Counted c s (countN c i m t) fun j => if i = j then n j + m else n j := by
  refine ⟨?_, fun j => ?_, fun k hk => ?_, h.rest⟩
  · rw [core_countN, if_pos rfl]
    exact h.mine
  · rw [core_countN, if_pos rfl]
    simp only [smGet_smMod]
    split
    next hij => subst hij; rw [h.counters, bump_bump]
    · exact h.counters j
  · rw [core_countN, if_neg (Ne.symm hk)]
    exact h.cores k hk

theorem Counted.ite {c : Nat} {s t : State} {n : Nat → Nat} (h : Counted c s t n) (i : Nat) (p : Bool) :
    Counted c s (if p then Machine.countN c i 1 t else t) fun j => if i = j then n j + p.toNat else n j := by
  cases p
  · simpa using h
  · exact h.countN i 1

/-- Counting results advances the counters 0 to 3 of the core and nothing else. -/
theorem countFx_counted (c : Nat) (fx : Fx) (s : State) : Counted c s (countFx c fx s) fx.advances := by
  have h := (((Counted.refl c s).ite 0 (bitOf fx.fl 2)).ite 1 (bitOf fx.fl 1)).ite 2 fx.nan
  have h3 : Counted c s (countFx c fx s) fun j => if 3 = j then (if 2 = j then
      (if 1 = j then (if 0 = j then 0 + (bitOf fx.fl 2).toNat else 0) + (bitOf fx.fl 1).toNat
        else if 0 = j then 0 + (bitOf fx.fl 2).toNat else 0) + fx.nan.toNat
      else if 1 = j then (if 0 = j then 0 + (bitOf fx.fl 2).toNat else 0) + (bitOf fx.fl 1).toNat
        else if 0 = j then 0 + (bitOf fx.fl 2).toNat else 0) + fx.draws
      else if 2 = j then
      (if 1 = j then (if 0 = j then 0 + (bitOf fx.fl 2).toNat else 0) + (bitOf fx.fl 1).toNat
        else if 0 = j then 0 + (bitOf fx.fl 2).toNat else 0) + fx.nan.toNat
      else if 1 = j then (if 0 = j then 0 + (bitOf fx.fl 2).toNat else 0) + (bitOf fx.fl 1).toNat
        else if 0 = j then 0 + (bitOf fx.fl 2).toNat else 0 := by
    unfold countFx
    dsimp only
    split
    next h0 => rw [h0]; simpa using h
    · exact h.countN 3 _
  refine ⟨h3.mine, fun j => (h3.counters j).trans (congrArg _ ?_), h3.cores, h3.rest⟩
  match j with
  | 0 | 1 | 2 | 3 => simp [Fx.advances]
  | j + 4 => simp [Fx.advances]

theorem Counted.slot {c : Nat} {s t : State} {n : Nat → Nat} (h : Counted c s t n) (k : Nat) : t.slot k = s.slot k := by
  have := congrArg (fun x : State => x.slot k) h.rest
  exact this

theorem Counted.cur {c : Nat} {s t : State} {n : Nat → Nat} (h : Counted c s t n) : t.cur = s.cur := by
  have := congrArg State.cur h.rest
  exact this

/-- An instruction that wrote registers, raised flags and goes on. -/
theorem RegsOnly.complete_raise {s t : State} {ws : List (Reg × Word)} (h : RegsOnly s t ws) (hu : Unmapped s) (fx : Fx) :
    WroteFlags s (completeAt s.cur .seq (t.raise fx)) ws fx := by
  obtain ⟨_, h2, h3, _⟩ := h.unmapped hu
  have hc := countFx_counted s.myCore fx (flagSlot s.cur fx t)
  have hv0 : t.raise fx = countFx s.myCore fx (flagSlot s.cur fx t) := by
    simp only [State.raise, raiseAt, h.cur]
    rfl
  rw [hv0]
  have htme : t.slot s.cur = t.me := by rw [← h.cur]; rfl
  generalize hu1 : flagSlot s.cur fx t = u at hc ⊢
  have hcur : u.cur = s.cur := by subst hu1; unfold flagSlot; split <;> simp [h.cur]
  have hme : u.me = { t.me with fflags := t.me.fflags ||| fx.fl.setWidth 32 } := by
    rw [State.me, hcur, ← hu1, flagSlot]
    split
    next h0 => simp [h0, htme]
    · simp [htme]
  have hoth (k : Nat) (hk : k ≠ s.cur) : u.slot k = s.slot k := by
    rw [← hu1, flagSlot]
    split
    · exact h.others k hk
    · rw [State.slot_modSlot, if_neg (Ne.symm hk)]
      exact h.others k hk
  have hrest : { u with slots := s.slots } = s := by
    rw [← hu1, flagSlot]
    split <;> exact h.rest
  have hcore (n : Nat) : u.core n = s.core n := by
    have := congrArg (fun x : State => x.core n) hrest
    exact this
  generalize countFx s.myCore fx u = v at hc ⊢
  have vslot := hc.slot
  have vme : v.me = u.me := by rw [State.me, hc.cur, vslot]; rfl
  have hq : qAll s.cur (qSettle s.cur (v.slot s.cur).busyUntil) v = v := by
    refine qAll_eq_self ?_
    have hm := hc.mine
    have : (v.core s.myCore).queues = (s.core s.myCore).queues := by
      have := congrArg Core.queues hm
      rw [hcore] at this
      exact this
    have h4 := hu.2.2.1
    simp only [qOwned] at h4 ⊢
    rw [show coreOf s.cur = s.myCore from rfl, this]
    exact h4
  have hpc : t.me.pc = s.me.pc := h.field Slot.pc fun _ _ => rfl
  have hlen : t.me.irLen = s.me.irLen := h.field Slot.irLen fun _ _ => rfl
  have he : completeAt s.cur .seq v = v.modSlot s.cur fun sl => sl.went (sl.pc + word sl.irLen) := by
    simp only [completeAt, hq]; rfl
  have hfin : (v.modSlot s.cur fun sl => sl.went (sl.pc + word sl.irLen)).me = u.me.went (u.me.pc + word u.me.irLen) := by
    simp [State.me, hc.cur, hcur, vslot]
  rw [he]
  refine ⟨hc.cur.trans hcur, fun r => ?_, ?_, fun k hk => ?_, ?_, fun i => ?_, fun n hn => ?_, ?_⟩
  · have ht : (v.modSlot s.cur fun sl => sl.went (sl.pc + word sl.irLen)).me.taken = [] := by
      rw [hfin, hme]; exact h2
    rw [reg_eq_of_taken ht, hfin, hme, ← h.regs r, reg_eq_of_taken h2]
    rfl
  · rw [hfin, hme, ← h.slot]
    simp [Slot.went, State.npc, hpc, hlen]
  · rw [State.slot_modSlot, if_neg (Ne.symm hk), vslot]
    exact hoth k hk
  · have := hc.mine
    rw [hcore] at this
    exact this
  · have := hc.counters i
    rw [hcore] at this
    exact this
  · have := hc.cores n hn
    rw [hcore] at this
    exact this
  · have := hc.rest
    rw [← hrest]
    conv_rhs => rw [← this]
    rfl

/-! ### Instructions of one shape -/

theorem Clear.instr {f : Form} {body : M Next} {s : State} (h : Clear s) (hi : f.illegal = false)
    (hb : (f.noBursar && isBursar s.myCore) = false) (hp : (f.priv && decide (s.prv = 0)) = false) :
    instr f body s = .next (finish s.cur (body s)) :=
  instr_eq_next (by rw [h.1]; exact refuses_zero f) hi hb hp h.2.1 h.2.2.2.2

/-- An instruction that only changes the state. -/
theorem Clear.upd {f : Form} {body : State → State} {s : State} (h : Clear s) (hi : f.illegal = false)
    (hb : (f.noBursar && isBursar s.myCore) = false) (hp : (f.priv && decide (s.prv = 0)) = false) :
    instrUpd f body s = .next (completeAt s.cur .seq (body s)) := h.instr hi hb hp

theorem FmtOnly.instr {f : Form} {body : M Next} {s : State} (h : FmtOnly s) (hf : f.fmt = true) (hi : f.illegal = false)
    (hb : (f.noBursar && isBursar s.myCore) = false) (hp : (f.priv && decide (s.prv = 0)) = false) :
    instr f body s = .next (finish s.cur (body s)) := by
  obtain ⟨hu, hl, hm⟩ := h
  have bits (i : Nat) (hi : i < 4) : bitOf s.me.pend i = false := by
    have := congrArg (fun x : BitVec 16 => x.getLsbD i) hl
    simp only [bitOf]
    interval_cases i <;> simpa using this
  refine instr_eq_next ?_ hi hb hp hu.1 hu.2.2.2
  simp only [Form.refuses, hf, bits 3 (by omega), bits 2 (by omega)]
  cases h15 : bitOf s.me.pend 15
  · simp
  · simp [hm h15]

/-- One register from a computation on the state, in sequence. -/
theorem instrUpd_gives {f : Form} {s : State} {d : Reg} {v : Word} (h : Clear s) (hi : f.illegal = false)
    (hb : (f.noBursar && isBursar s.myCore) = false) (hp : (f.priv && decide (s.prv = 0)) = false) :
    ∃ t, instrUpd f (fun s => s.setReg d v) s = .next t ∧ WroteTo s t [(d, v)] s.npc := by
  refine ⟨_, h.instr hi hb hp, ?_⟩
  exact ((RegsOnly.refl h.2.2.1).write h.2 d v).complete h.2 .seq _ (.inl ⟨rfl, rfl⟩)

theorem op3_gives {s : State} (h : Clear s) (d a b : Reg) (f : Word → Word → Word) :
    ∃ t, op3 d a b f s = .next t ∧ WroteTo s t [(d, f (s.reg a) (s.reg b))] s.npc := by
  unfold op3
  rw [h.upd rfl rfl rfl]
  refine ⟨_, rfl, ?_⟩
  exact ((RegsOnly.refl h.2.2.1).write h.2 d _).complete h.2 .seq _ (.inl ⟨rfl, rfl⟩)

theorem op2_gives {s : State} (h : Clear s) (d a : Reg) (f : Word → Word) :
    ∃ t, op2 d a f s = .next t ∧ WroteTo s t [(d, f (s.reg a))] s.npc := by
  unfold op2
  rw [h.upd rfl rfl rfl]
  refine ⟨_, rfl, ?_⟩
  exact ((RegsOnly.refl h.2.2.1).write h.2 d _).complete h.2 .seq _ (.inl ⟨rfl, rfl⟩)

theorem op3f_gives {s : State} (h : Clear s) (d a b : Reg) (f : Word → Word → Word × Fx) :
    ∃ t, op3f d a b f s = .next t ∧
      WroteFlags s t [(d, (f (s.reg a) (s.reg b)).1)] (f (s.reg a) (s.reg b)).2 := by
  unfold op3f
  rw [h.upd rfl rfl rfl]
  refine ⟨_, rfl, ?_⟩
  exact ((RegsOnly.refl h.2.2.1).write h.2 d _).complete_raise h.2 _

end Sys2Proof.Machine
end

