-- ==== Sys2Proof/Laws/Memory.lean ====
section
/-! SUPPORT. The operations over memory and the vaults: what a store writes reads back, every other byte reads as before, and each
operation keeps the canonical form. -/

namespace Sys2Proof.Machine

/-! ### Bytes -/

/-- After a store of `n` bytes, byte `j` is byte `j - a` of the value, or as before outside the range. -/
theorem smGet_wrBytes (m : SMap Byte) (a v n j : Nat) :
    smGet 0 (wrBytes m a v n) j = if a ≤ j ∧ j < a + n then BitVec.ofNat 8 (v / 256 ^ (j - a)) else smGet 0 m j := by
  induction n generalizing m a v with
  | zero => simp [wrBytes]
  | succ n ih =>
    rw [wrBytes, ih, smGet_smSet]
    by_cases h : a + 1 ≤ j ∧ j < a + 1 + n
    · rw [if_pos h, if_pos (by omega), Nat.div_div_eq_div_mul, ← Nat.pow_succ', show (j - (a + 1)).succ = j - a by omega]
    · rw [if_neg h]
      by_cases ha : a = j
      · subst ha; simp
      · rw [if_neg ha, if_neg (by omega)]

theorem rdBytes_lt (m : SMap Byte) (a n : Nat) : rdBytes m a n < 256 ^ n := by
  induction n generalizing a with
  | zero => simp [rdBytes]
  | succ n ih =>
    have h1 := ih (a + 1)
    have h2 : (smGet 0 m a).toNat < 256 := (smGet 0 m a).isLt
    rw [rdBytes, Nat.pow_succ]
    omega

/-- Bytes outside what a store writes read as before. -/
theorem rdBytes_congr {m m' : SMap Byte} {a n : Nat} (h : ∀ j, a ≤ j → j < a + n → smGet 0 m j = smGet 0 m' j) :
    rdBytes m a n = rdBytes m' a n := by
  induction n generalizing a with
  | zero => rfl
  | succ n ih => rw [rdBytes, rdBytes, h a (by omega) (by omega), ih fun j h1 h2 => h j (by omega) (by omega)]

theorem rdBytes_wrBytes_of_disjoint (m : SMap Byte) {a v n b k : Nat} (h : b + k ≤ a ∨ a + n ≤ b) :
    rdBytes (wrBytes m a v n) b k = rdBytes m b k :=
  rdBytes_congr fun j _ _ => by rw [smGet_wrBytes, if_neg (by omega)]

/-- A store reads back. -/
theorem rdBytes_wrBytes (m : SMap Byte) (a v n : Nat) : rdBytes (wrBytes m a v n) a n = v % 256 ^ n := by
  induction n generalizing m a v with
  | zero => simp [rdBytes, Nat.mod_one]
  | succ n ih =>
    rw [wrBytes, rdBytes, ih, smGet_wrBytes, if_neg (by omega), smGet_smSet, if_pos rfl, Nat.pow_succ', Nat.mod_mul]
    simp

/-! ### The canonical form -/

theorem wrBytes_wf {m : SMap Byte} (a v n : Nat) (h : Memory.wf m = true) : Memory.wf (wrBytes m a v n) = true := by
  induction n generalizing m a v with
  | zero => exact h
  | succ n ih => exact ih _ _ (smWf_smSet _ _ h)

theorem filter_wf {m : SMap Byte} (p : Nat × Byte → Bool) (h : Memory.wf m = true) : Memory.wf (m.filter p) = true := smWf_filter p h

/-- Two rising stores, the second wholly above the first, make one. -/
theorem smRising_append {α : Type} {lo : Option Nat} {m n : SMap α} (hm : smRising lo m = true) (hn : smRising lo n = true)
    (h : ∀ a ∈ m, ∀ b ∈ n, a.1 < b.1) : smRising lo (m ++ n) = true := by
  induction m generalizing lo with
  | nil => exact hn
  | cons e r ih =>
    obtain ⟨k, v⟩ := e
    have hh := (smRising_cons lo k v r).1 hm
    refine (smRising_cons lo k v _).2 ⟨hh.1, ih hh.2 ?_ fun a ha => h a (by simp [ha])⟩
    cases n with
    | nil => rfl
    | cons b q =>
      obtain ⟨j, w⟩ := b
      refine (smRising_cons _ j w q).2 ⟨?_, ((smRising_cons lo j w q).1 hn).2⟩
      intro l hl
      cases hl
      exact h (k, v) (by simp) (j, w) (by simp)

/-- The bytes of a block as a store. -/
theorem block_rising (lo i : Nat) (bytes : List Byte) (b : Option Nat) (hb : ∀ l ∈ b, l < lo + i) :
    smRising b (((bytes.zipIdx i).filter fun e => e.1 ≠ 0).map fun e => (lo + e.2, e.1)) = true := by
  induction bytes generalizing i b with
  | nil => rfl
  | cons x r ih =>
    simp only [List.zipIdx_cons, List.filter_cons]
    split
    · exact (smRising_cons b (lo + i) x _).2 ⟨hb, ih (i + 1) _ (by simp)⟩
    · exact ih (i + 1) b fun l hl => by have := hb l hl; omega

theorem smBlock_wf {m : SMap Byte} (lo : Nat) (bytes : List Byte) (h : Memory.wf m = true) : Memory.wf (smBlock lo bytes m) = true := by
  have hm := (smWf_iff 0 m).1 h
  refine (smWf_iff 0 _).2 ⟨?_, ?_⟩
  · unfold smBlock
    refine smRising_append (smRising_append (smRising_filter _ hm.1) (block_rising lo 0 bytes none (by simp)) ?_)
      (smRising_filter _ hm.1) ?_
    · intro a ha b hb
      simp only [List.mem_filter, decide_eq_true_eq, List.mem_map] at ha hb
      obtain ⟨e, -, rfl⟩ := hb
      simp only
      omega
    · intro a ha b hb
      simp only [List.mem_append, List.mem_filter, decide_eq_true_eq, List.mem_map] at ha hb
      rcases ha with ha | ⟨e, ⟨he, -⟩, rfl⟩
      · omega
      · have := List.snd_lt_of_mem_zipIdx he
        simp only
        omega
  · intro e he
    simp only [smBlock, List.mem_append, List.mem_filter, List.mem_map] at he
    rcases he with (he | ⟨x, ⟨-, hx⟩, rfl⟩) | he
    · exact hm.2 e he.1
    · simpa using hx
    · exact hm.2 e he.1

/-! ### Each operation -/

theorem putLine_canonical {s : State} (line : Nat) (data : Line) (full : BitVec 16) (h : Canonical s) :
    Canonical (putLine line data full s) := ⟨wrBytes_wf _ _ _ h.1, h.2⟩

theorem setTcbStatus_canonical {s : State} (u off st : Nat) (h : Canonical s) : Canonical (setTcbStatus u off st s) :=
  ⟨h.1, smWf_smMod (d := (0 : Byte)) (u * 2 ^ 25 + off + 28) (fun b => putField b 4 3 st) h.2⟩

theorem setTcbWord_canonical {s : State} (c off i : Nat) (v : Word) (h : Canonical s) : Canonical (setTcbWord c off i v s) :=
  ⟨h.1, wrBytes_wf _ _ _ h.2⟩

theorem heat_canonical {s : State} (b : Nat) (h : Canonical s) : Canonical (heat b s) := by
  unfold heat
  split <;> exact h

theorem vTouch_canonical {s : State} (w : Nat) (h : Canonical s) : Canonical (vTouch w s) := by
  unfold vTouch
  split
  · exact heat_canonical _ h
  · exact h

theorem vSetFull_canonical {s : State} (w : Nat) (b : Bool) (h : Canonical s) : Canonical (vSetFull w b s) := by
  unfold vSetFull
  simp only
  split
  · exact h
  · split
    · exact heat_canonical _ h
    · exact h

theorem vWrite_canonical {s t : State} {k n v : Nat} {u : Unit} (hs : Canonical s) (h : vWrite k n v s = .ok u t) : Canonical t := by
  unfold vWrite at h
  split at h
  · cases h
  · cases h
    exact ⟨hs.1, wrBytes_wf _ _ _ hs.2⟩

theorem vTeller_canonical {s t : State} {w code : Nat} {v v2 r : Word} (hs : Canonical s) (h : vTeller w code v v2 s = .ok r t) :
    Canonical t := by
  unfold vTeller at h
  split at h
  · cases h
  · split at h
    · cases h
      exact ⟨(vTouch_canonical w hs).1, wrBytes_wf _ _ _ hs.2⟩
    · cases h

theorem vFe_canonical {s t : State} {w code : Nat} {v : Word} {r : Option Word} (hs : Canonical s) (h : vFe w code v s = .ok r t) :
    Canonical t := by
  unfold vFe at h
  split at h
  · cases h
  · split at h
    · cases h
    · split at h
      · cases h
        exact hs
      · cases h
        exact vSetFull_canonical _ _ ⟨(vTouch_canonical w hs).1, wrBytes_wf _ _ _ hs.2⟩

theorem vRead_canonical {s t : State} {k n v : Nat} (hs : Canonical s) (h : vRead k n s = .ok v t) : Canonical t := by
  have key (ws : List Nat) : ∀ s, Canonical s → Canonical (ws.foldl (fun s w => vTouch w s) s) := by
    induction ws with
    | nil => exact fun _ h => h
    | cons w r ih => exact fun s h => ih _ (vTouch_canonical w h)
  unfold vRead at h
  split at h
  · cases h
  · cases h
    exact key _ s hs

/-- Memory lists nothing at reset, and so do the vaults. -/
theorem reset_mem : State.reset.mem = [] ∧ State.reset.vault = [] := ⟨rfl, rfl⟩

end Sys2Proof.Machine
end

