-- ==== Sys2Proof/Laws/PerInstr.lean ====
section
/-! SUPPORT. For every constructor of Instr: bit 0 of its encoding tells its length (R6, R296); an event has no encoding. -/

namespace Sys2Proof.Laws.Encoding

/-- Bit 0 of a word is 1, of a halfword 0. -/
def LengthBit : Code → Prop
  | .half h => h.getLsbD 0 = false
  | .word w => w.getLsbD 0 = true
  | .event => True

/-- The instruction's encoding shows its length in bit 0. -/
def Statement (i : Instr) : Prop := LengthBit (encode i)

theorem half_lengthBit (x : BitVec 15) : LengthBit (.half (x ++ 0#1)) := by
  show (x ++ 0#1 : BitVec (15 + 1)).getLsbD 0 = false
  rw [BitVec.getLsbD_append]
  rfl

theorem word_lengthBit (x : BitVec 31) : LengthBit (.word (x ++ 1#1)) := by
  show (x ++ 1#1 : BitVec (31 + 1)).getLsbD 0 = true
  rw [BitVec.getLsbD_append]
  rfl

theorem porstnAssert a0 : Statement (.porstnAssert a0) := trivial
theorem railFault : Statement .railFault := trivial
theorem boot : Statement .boot := trivial
theorem bursarStart a0 : Statement (.bursarStart a0) := trivial
theorem bursarInit a0 : Statement (.bursarInit a0) := trivial
theorem partitionReset a0 : Statement (.partitionReset a0) := trivial
theorem mprstReq a0 : Statement (.mprstReq a0) := trivial
theorem preset a0 a1 : Statement (.preset a0 a1) := trivial
theorem i3cPrivateWrite a0 a1 a2 a3 : Statement (.i3cPrivateWrite a0 a1 a2 a3) := trivial
theorem i3cDynamicAddress a0 a1 : Statement (.i3cDynamicAddress a0 a1) := trivial
theorem dieThermalTrip a0 : Statement (.dieThermalTrip a0) := trivial
theorem thermalSample a0 a1 : Statement (.thermalSample a0 a1) := trivial
theorem talstatClear a0 a1 : Statement (.talstatClear a0 a1) := trivial
theorem pwralertnEdge a0 a1 : Statement (.pwralertnEdge a0 a1) := trivial
theorem clthrWrite a0 a1 a2 : Statement (.clthrWrite a0 a1 a2) := trivial
theorem throttleApply a0 : Statement (.throttleApply a0) := trivial
theorem stackTempUpdate a0 a1 a2 : Statement (.stackTempUpdate a0 a1 a2) := trivial
theorem clrst a0 : Statement (.clrst a0) := trivial
theorem clusterResetDone a0 : Statement (.clusterResetDone a0) := trivial
theorem mcRequest a0 : Statement (.mcRequest a0) := trivial
theorem refreshWindowEnd a0 : Statement (.refreshWindowEnd a0) := trivial
theorem release a0 a1 : Statement (.release a0 a1) := trivial
theorem decline a0 a1 a2 : Statement (.decline a0 a1 a2) := trivial
theorem patrolScrub a0 a1 : Statement (.patrolScrub a0 a1) := trivial
theorem lendStart a0 a1 : Statement (.lendStart a0 a1) := trivial
theorem lendAck a0 a1 : Statement (.lendAck a0 a1) := trivial
theorem lendAbort a0 a1 : Statement (.lendAbort a0 a1) := trivial
theorem lendDrainDone a0 a1 : Statement (.lendDrainDone a0 a1) := trivial
theorem lendQuiesceDone a0 a1 : Statement (.lendQuiesceDone a0 a1) := trivial
theorem lendRetrainDone a0 a1 a2 : Statement (.lendRetrainDone a0 a1 a2) := trivial
theorem lendReclaimStart a0 a1 : Statement (.lendReclaimStart a0 a1) := trivial
theorem lendReclaimDone a0 a1 a2 : Statement (.lendReclaimDone a0 a1 a2) := trivial
theorem mcmapRetire a0 : Statement (.mcmapRetire a0) := trivial
theorem mcmapFence a0 : Statement (.mcmapFence a0) := trivial
theorem copyGranule a0 : Statement (.copyGranule a0) := trivial
theorem mapDrainStart a0 : Statement (.mapDrainStart a0) := trivial
theorem mapActivate a0 : Statement (.mapActivate a0) := trivial
theorem mapReceive a0 a1 : Statement (.mapReceive a0 a1) := trivial
theorem remap a0 a1 a2 a3 : Statement (.remap a0 a1 a2 a3) := trivial
theorem flitTransmit a0 a1 : Statement (.flitTransmit a0 a1) := trivial
theorem linkFlitReceive a0 a1 a2 : Statement (.linkFlitReceive a0 a1 a2) := trivial
theorem linkAck a0 a1 a2 a3 a4 : Statement (.linkAck a0 a1 a2 a3 a4) := trivial
theorem ackSend a0 a1 : Statement (.ackSend a0 a1) := trivial
theorem packetRoute a0 a1 : Statement (.packetRoute a0 a1) := trivial
theorem linkTrainingStart a0 a1 : Statement (.linkTrainingStart a0 a1) := trivial
theorem linkTrainingEnd a0 a1 a2 a3 : Statement (.linkTrainingEnd a0 a1 a2 a3) := trivial
theorem linkLost a0 a1 : Statement (.linkLost a0 a1) := trivial
theorem lnkstatRestart a0 a1 : Statement (.lnkstatRestart a0 a1) := trivial
theorem replyTimeout a0 a1 : Statement (.replyTimeout a0 a1) := trivial
theorem lostHandling a0 a1 a2 : Statement (.lostHandling a0 a1 a2) := trivial
theorem streamFlush a0 a1 : Statement (.streamFlush a0 a1) := trivial
theorem streamIdleExpire a0 a1 : Statement (.streamIdleExpire a0 a1) := trivial
theorem streamForcedClose a0 a1 : Statement (.streamForcedClose a0 a1) := trivial
theorem streamDataArrive a0 a1 a2 a3 a4 a5 : Statement (.streamDataArrive a0 a1 a2 a3 a4 a5) := trivial
theorem sliceRd a0 a1 : Statement (.sliceRd a0 a1) := trivial
theorem sliceWr a0 a1 : Statement (.sliceWr a0 a1) := trivial
theorem sliceTel a0 a1 : Statement (.sliceTel a0 a1) := trivial
theorem sliceFe a0 a1 : Statement (.sliceFe a0 a1) := trivial
theorem sliceWaiterRetry a0 a1 : Statement (.sliceWaiterRetry a0 a1) := trivial
theorem sliceFill a0 a1 a2 a3 a4 a5 : Statement (.sliceFill a0 a1 a2 a3 a4 a5) := trivial
theorem sliceFlush a0 a1 a2 a3 : Statement (.sliceFlush a0 a1 a2 a3) := trivial
theorem sliceQput a0 a1 : Statement (.sliceQput a0 a1) := trivial
theorem sliceQtake a0 a1 : Statement (.sliceQtake a0 a1) := trivial
theorem requestResend a0 a1 : Statement (.requestResend a0 a1) := trivial
theorem hostActivate a0 a1 a2 a3 : Statement (.hostActivate a0 a1 a2 a3) := trivial
theorem hostPrecharge a0 a1 a2 : Statement (.hostPrecharge a0 a1 a2) := trivial
theorem hostRefresh a0 a1 : Statement (.hostRefresh a0 a1) := trivial
theorem hostRead a0 a1 a2 a3 a4 : Statement (.hostRead a0 a1 a2 a3 a4) := trivial
theorem hostWrite a0 a1 a2 a3 a4 : Statement (.hostWrite a0 a1 a2 a3 a4) := trivial
theorem inboundWrite a0 a1 a2 a3 : Statement (.inboundWrite a0 a1 a2 a3) := trivial
theorem inboundForward a0 : Statement (.inboundForward a0) := trivial
theorem inboundAck a0 a1 : Statement (.inboundAck a0 a1) := trivial
theorem notification a0 a1 a2 a3 : Statement (.notification a0 a1 a2 a3) := trivial
theorem notifyForward a0 : Statement (.notifyForward a0) := trivial
theorem completionRecordWrite a0 a1 a2 : Statement (.completionRecordWrite a0 a1 a2) := trivial
theorem outboundWrite a0 a1 a2 a3 : Statement (.outboundWrite a0 a1 a2 a3) := trivial
theorem mbdoor a0 : Statement (.mbdoor a0) := trivial
theorem mbset a0 : Statement (.mbset a0) := trivial
theorem attcmd a0 : Statement (.attcmd a0) := trivial
theorem attestReport a0 : Statement (.attestReport a0) := trivial
theorem ethFrameReceive a0 a1 a2 : Statement (.ethFrameReceive a0 a1 a2) := trivial
theorem ethSegmentRefused a0 a1 a2 : Statement (.ethSegmentRefused a0 a1 a2) := trivial
theorem ethPause a0 : Statement (.ethPause a0) := trivial
theorem ethPauseReceive a0 a1 a2 : Statement (.ethPauseReceive a0 a1 a2) := trivial
theorem ethTxQueueWrite a0 a1 a2 : Statement (.ethTxQueueWrite a0 a1 a2) := trivial
theorem ethTransmit a0 : Statement (.ethTransmit a0) := trivial
theorem vibindWrite a0 a1 a2 a3 a4 : Statement (.vibindWrite a0 a1 a2 a3 a4) := trivial
theorem i3cGo a0 : Statement (.i3cGo a0) := trivial
theorem i3cRoleGrant a0 : Statement (.i3cRoleGrant a0) := trivial
theorem i3cRoleTimeout a0 : Statement (.i3cRoleTimeout a0) := trivial
theorem i3cTransferDone a0 a1 a2 a3 a4 : Statement (.i3cTransferDone a0 a1 a2 a3 a4) := trivial
theorem i3cRel a0 : Statement (.i3cRel a0) := trivial
theorem elpost a0 a1 : Statement (.elpost a0 a1) := trivial
theorem elctlWrite a0 a1 : Statement (.elctlWrite a0 a1) := trivial
theorem registerWrite a0 a1 a2 : Statement (.registerWrite a0 a1 a2) := trivial
theorem launchDispatch a0 : Statement (.launchDispatch a0) := trivial
theorem launchSetup a0 : Statement (.launchSetup a0) := trivial
theorem bursarLaunch a0 : Statement (.bursarLaunch a0) := trivial
theorem clusterDrained a0 : Statement (.clusterDrained a0) := trivial
theorem drained a0 a1 a2 : Statement (.drained a0 a1 a2) := trivial
theorem confirm a0 : Statement (.confirm a0) := trivial
theorem confirmAnswer a0 : Statement (.confirmAnswer a0) := trivial
theorem close a0 : Statement (.close a0) := trivial
theorem coreDone a0 : Statement (.coreDone a0) := trivial
theorem doneMessage a0 : Statement (.doneMessage a0) := trivial
theorem stallAll a0 : Statement (.stallAll a0) := trivial
theorem preempt a0 : Statement (.preempt a0) := trivial
theorem preemptSave a0 : Statement (.preemptSave a0) := trivial
theorem restore a0 : Statement (.restore a0) := trivial
theorem cancel a0 : Statement (.cancel a0) := trivial
theorem lownerWrite a0 a1 : Statement (.lownerWrite a0 a1) := trivial
theorem idleSlotWorkSearch a0 : Statement (.idleSlotWorkSearch a0) := trivial
theorem readyQueueTake a0 a1 : Statement (.readyQueueTake a0 a1) := trivial
theorem stealRequest a0 a1 : Statement (.stealRequest a0 a1) := trivial
theorem stealTimeout a0 : Statement (.stealTimeout a0) := trivial
theorem stealReply a0 : Statement (.stealReply a0) := trivial
theorem remoteSpawn a0 a1 a2 a3 : Statement (.remoteSpawn a0 a1 a2 a3) := trivial
theorem taskReleaseRequest a0 a1 : Statement (.taskReleaseRequest a0 a1) := trivial
theorem messageArrive a0 a1 : Statement (.messageArrive a0 a1) := trivial
theorem handlerStart a0 : Statement (.handlerStart a0) := trivial
theorem replyArrival a0 a1 a2 : Statement (.replyArrival a0 a1 a2) := trivial
theorem mrecvTimeout a0 : Statement (.mrecvTimeout a0) := trivial
theorem barrierArrival a0 a1 a2 a3 a4 : Statement (.barrierArrival a0 a1 a2 a3 a4) := trivial
theorem deadlineExpiry a0 a1 : Statement (.deadlineExpiry a0 a1) := trivial
theorem withdrawal a0 : Statement (.withdrawal a0) := trivial
theorem deadlineTrap : Statement .deadlineTrap := trivial
theorem deferredMemerr : Statement .deferredMemerr := trivial
theorem stepBreak : Statement .stepBreak := trivial
theorem fbtailWrite a0 a1 : Statement (.fbtailWrite a0 a1) := trivial
theorem fbwakeRetry a0 a1 : Statement (.fbwakeRetry a0 a1) := trivial
theorem fbwakeKill a0 a1 a2 : Statement (.fbwakeKill a0 a1 a2) := trivial
theorem coreHalt a0 : Statement (.coreHalt a0) := trivial
theorem coreResume a0 : Statement (.coreResume a0) := trivial
theorem coreStep a0 : Statement (.coreStep a0) := trivial
theorem icacheFill a0 a1 : Statement (.icacheFill a0 a1) := trivial
theorem tlb2Lookup a0 a1 a2 : Statement (.tlb2Lookup a0 a1 a2) := trivial
theorem walk a0 : Statement (.walk a0) := trivial
theorem bankGrant a0 : Statement (.bankGrant a0) := trivial
theorem waitlistRetry a0 : Statement (.waitlistRetry a0) := trivial
theorem feResend a0 : Statement (.feResend a0) := trivial
theorem linePortAccess a0 : Statement (.linePortAccess a0) := trivial
theorem vaultCorrectRewrite a0 : Statement (.vaultCorrectRewrite a0) := trivial
theorem remoteVaultAccess a0 a1 : Statement (.remoteVaultAccess a0 a1) := trivial
theorem ringStep a0 : Statement (.ringStep a0) := trivial
theorem ringStepComplete a0 : Statement (.ringStepComplete a0) := trivial
theorem copyAccept a0 : Statement (.copyAccept a0) := trivial
theorem copyComplete a0 a1 : Statement (.copyComplete a0 a1) := trivial
theorem waitExpire a0 : Statement (.waitExpire a0) := trivial
theorem matrixCommandTaken a0 : Statement (.matrixCommandTaken a0) := trivial
theorem matrixRetire a0 : Statement (.matrixRetire a0) := trivial
theorem tlbInvalidation a0 a1 : Statement (.tlbInvalidation a0 a1) := trivial
theorem ethLinkDown a0 : Statement (.ethLinkDown a0) := trivial
theorem ethLinkUp a0 : Statement (.ethLinkUp a0) := trivial
theorem illegalEncoding : Statement .illegalEncoding := trivial
theorem fetchFailure : Statement .fetchFailure := trivial
theorem add a0 a1 a2 : Statement (.add a0 a1 a2) := word_lengthBit _
theorem sub a0 a1 a2 : Statement (.sub a0 a1 a2) := word_lengthBit _
theorem adds a0 a1 a2 : Statement (.adds a0 a1 a2) := word_lengthBit _
theorem subs a0 a1 a2 : Statement (.subs a0 a1 a2) := word_lengthBit _
theorem and a0 a1 a2 : Statement (.and a0 a1 a2) := word_lengthBit _
theorem or a0 a1 a2 : Statement (.or a0 a1 a2) := word_lengthBit _
theorem xor a0 a1 a2 : Statement (.xor a0 a1 a2) := word_lengthBit _
theorem andn a0 a1 a2 : Statement (.andn a0 a1 a2) := word_lengthBit _
theorem sll a0 a1 a2 : Statement (.sll a0 a1 a2) := word_lengthBit _
theorem srl a0 a1 a2 : Statement (.srl a0 a1 a2) := word_lengthBit _
theorem sra a0 a1 a2 : Statement (.sra a0 a1 a2) := word_lengthBit _
theorem ror a0 a1 a2 : Statement (.ror a0 a1 a2) := word_lengthBit _
theorem slt a0 a1 a2 : Statement (.slt a0 a1 a2) := word_lengthBit _
theorem sltn a0 a1 a2 : Statement (.sltn a0 a1 a2) := word_lengthBit _
theorem min a0 a1 a2 : Statement (.min a0 a1 a2) := word_lengthBit _
theorem max a0 a1 a2 : Statement (.max a0 a1 a2) := word_lengthBit _
theorem minn a0 a1 a2 : Statement (.minn a0 a1 a2) := word_lengthBit _
theorem maxn a0 a1 a2 : Statement (.maxn a0 a1 a2) := word_lengthBit _
theorem bext a0 a1 a2 : Statement (.bext a0 a1 a2) := word_lengthBit _
theorem bexts a0 a1 a2 : Statement (.bexts a0 a1 a2) := word_lengthBit _
theorem lzc a0 a1 : Statement (.lzc a0 a1) := word_lengthBit _
theorem tzc a0 a1 : Statement (.tzc a0 a1) := word_lengthBit _
theorem ones a0 a1 : Statement (.ones a0 a1) := word_lengthBit _
theorem bswap a0 a1 : Statement (.bswap a0 a1) := word_lengthBit _
theorem brev a0 a1 : Statement (.brev a0 a1) := word_lengthBit _
theorem extb a0 a1 : Statement (.extb a0 a1) := word_lengthBit _
theorem exth a0 a1 : Statement (.exth a0 a1) := word_lengthBit _
theorem addi a0 a1 a2 : Statement (.addi a0 a1 a2) := word_lengthBit _
theorem andi a0 a1 a2 : Statement (.andi a0 a1 a2) := word_lengthBit _
theorem ori a0 a1 a2 : Statement (.ori a0 a1 a2) := word_lengthBit _
theorem xori a0 a1 a2 : Statement (.xori a0 a1 a2) := word_lengthBit _
theorem slli a0 a1 a2 : Statement (.slli a0 a1 a2) := word_lengthBit _
theorem srli a0 a1 a2 : Statement (.srli a0 a1 a2) := word_lengthBit _
theorem srai a0 a1 a2 : Statement (.srai a0 a1 a2) := word_lengthBit _
theorem rori a0 a1 a2 : Statement (.rori a0 a1 a2) := word_lengthBit _
theorem slti a0 a1 a2 : Statement (.slti a0 a1 a2) := word_lengthBit _
theorem sltni a0 a1 a2 : Statement (.sltni a0 a1 a2) := word_lengthBit _
theorem lui a0 a1 : Statement (.lui a0 a1) := word_lengthBit _
theorem pcrel a0 a1 : Statement (.pcrel a0 a1) := word_lengthBit _
theorem mul a0 a1 a2 : Statement (.mul a0 a1 a2) := word_lengthBit _
theorem mulq a0 a1 a2 : Statement (.mulq a0 a1 a2) := word_lengthBit _
theorem mulh a0 a1 a2 : Statement (.mulh a0 a1 a2) := word_lengthBit _
theorem mulhn a0 a1 a2 : Statement (.mulhn a0 a1 a2) := word_lengthBit _
theorem mulhsn a0 a1 a2 : Statement (.mulhsn a0 a1 a2) := word_lengthBit _
theorem div a0 a1 a2 : Statement (.div a0 a1 a2) := word_lengthBit _
theorem divn a0 a1 a2 : Statement (.divn a0 a1 a2) := word_lengthBit _
theorem rem a0 a1 a2 : Statement (.rem a0 a1 a2) := word_lengthBit _
theorem remn a0 a1 a2 : Statement (.remn a0 a1 a2) := word_lengthBit _
theorem padd a0 a1 a2 a3 : Statement (.padd a0 a1 a2 a3) := word_lengthBit _
theorem psub a0 a1 a2 a3 : Statement (.psub a0 a1 a2 a3) := word_lengthBit _
theorem padds a0 a1 a2 a3 : Statement (.padds a0 a1 a2 a3) := word_lengthBit _
theorem psubs a0 a1 a2 a3 : Statement (.psubs a0 a1 a2 a3) := word_lengthBit _
theorem paddsn a0 a1 a2 a3 : Statement (.paddsn a0 a1 a2 a3) := word_lengthBit _
theorem psubsn a0 a1 a2 a3 : Statement (.psubsn a0 a1 a2 a3) := word_lengthBit _
theorem pmin a0 a1 a2 a3 : Statement (.pmin a0 a1 a2 a3) := word_lengthBit _
theorem pmax a0 a1 a2 a3 : Statement (.pmax a0 a1 a2 a3) := word_lengthBit _
theorem pminn a0 a1 a2 a3 : Statement (.pminn a0 a1 a2 a3) := word_lengthBit _
theorem pmaxn a0 a1 a2 a3 : Statement (.pmaxn a0 a1 a2 a3) := word_lengthBit _
theorem pavg a0 a1 a2 a3 : Statement (.pavg a0 a1 a2 a3) := word_lengthBit _
theorem pmul a0 a1 a2 a3 : Statement (.pmul a0 a1 a2 a3) := word_lengthBit _
theorem pmulq a0 a1 a2 a3 : Statement (.pmulq a0 a1 a2 a3) := word_lengthBit _
theorem psll a0 a1 a2 a3 : Statement (.psll a0 a1 a2 a3) := word_lengthBit _
theorem psrl a0 a1 a2 a3 : Statement (.psrl a0 a1 a2 a3) := word_lengthBit _
theorem psra a0 a1 a2 a3 : Statement (.psra a0 a1 a2 a3) := word_lengthBit _
theorem pdot a0 a1 a2 a3 : Statement (.pdot a0 a1 a2 a3) := word_lengthBit _
theorem ppkl a0 a1 a2 a3 : Statement (.ppkl a0 a1 a2 a3) := word_lengthBit _
theorem ppkh a0 a1 a2 a3 : Statement (.ppkh a0 a1 a2 a3) := word_lengthBit _
theorem cadd a0 a1 a2 : Statement (.cadd a0 a1 a2) := word_lengthBit _
theorem csub a0 a1 a2 : Statement (.csub a0 a1 a2) := word_lengthBit _
theorem cmul a0 a1 a2 : Statement (.cmul a0 a1 a2) := word_lengthBit _
theorem cmulc a0 a1 a2 : Statement (.cmulc a0 a1 a2) := word_lengthBit _
theorem cconj a0 a1 : Statement (.cconj a0 a1) := word_lengthBit _
theorem cmulj a0 a1 : Statement (.cmulj a0 a1) := word_lengthBit _
theorem cmag2 a0 a1 : Statement (.cmag2 a0 a1) := word_lengthBit _
theorem cshr a0 a1 a2 : Statement (.cshr a0 a1 a2) := word_lengthBit _
theorem pdotaH a0 a1 a2 a3 : Statement (.pdotaH a0 a1 a2 a3) := word_lengthBit _
theorem pdotaB a0 a1 a2 a3 : Statement (.pdotaB a0 a1 a2 a3) := word_lengthBit _
theorem pdotasH a0 a1 a2 a3 : Statement (.pdotasH a0 a1 a2 a3) := word_lengthBit _
theorem pdotasB a0 a1 a2 a3 : Statement (.pdotasB a0 a1 a2 a3) := word_lengthBit _
theorem cmac a0 a1 a2 a3 : Statement (.cmac a0 a1 a2 a3) := word_lengthBit _
theorem cmacc a0 a1 a2 a3 : Statement (.cmacc a0 a1 a2 a3) := word_lengthBit _
theorem fadd a0 a1 a2 a3 : Statement (.fadd a0 a1 a2 a3) := word_lengthBit _
theorem fsub a0 a1 a2 a3 : Statement (.fsub a0 a1 a2 a3) := word_lengthBit _
theorem fmul a0 a1 a2 a3 : Statement (.fmul a0 a1 a2 a3) := word_lengthBit _
theorem fdiv a0 a1 a2 a3 : Statement (.fdiv a0 a1 a2 a3) := word_lengthBit _
theorem fsqrt a0 a1 a2 : Statement (.fsqrt a0 a1 a2) := word_lengthBit _
theorem fmin a0 a1 a2 a3 : Statement (.fmin a0 a1 a2 a3) := word_lengthBit _
theorem fabs a0 a1 a2 : Statement (.fabs a0 a1 a2) := word_lengthBit _
theorem fneg a0 a1 a2 : Statement (.fneg a0 a1 a2) := word_lengthBit _
theorem fcpys a0 a1 a2 a3 : Statement (.fcpys a0 a1 a2 a3) := word_lengthBit _
theorem fxors a0 a1 a2 a3 : Statement (.fxors a0 a1 a2 a3) := word_lengthBit _
theorem fcmpeq a0 a1 a2 a3 : Statement (.fcmpeq a0 a1 a2 a3) := word_lengthBit _
theorem fcmplt a0 a1 a2 a3 : Statement (.fcmplt a0 a1 a2 a3) := word_lengthBit _
theorem fcmple a0 a1 a2 a3 : Statement (.fcmple a0 a1 a2 a3) := word_lengthBit _
theorem fclass a0 a1 a2 : Statement (.fclass a0 a1 a2) := word_lengthBit _
theorem fmax a0 a1 a2 a3 : Statement (.fmax a0 a1 a2 a3) := word_lengthBit _
theorem fmadd a0 a1 a2 a3 a4 : Statement (.fmadd a0 a1 a2 a3 a4) := word_lengthBit _
theorem fmsub a0 a1 a2 a3 a4 : Statement (.fmsub a0 a1 a2 a3 a4) := word_lengthBit _
theorem fnmsub a0 a1 a2 a3 a4 : Statement (.fnmsub a0 a1 a2 a3 a4) := word_lengthBit _
theorem fnmadd a0 a1 a2 a3 a4 : Statement (.fnmadd a0 a1 a2 a3 a4) := word_lengthBit _
theorem fcvtWF a0 a1 : Statement (.fcvtWF a0 a1) := word_lengthBit _
theorem fcvtWnF a0 a1 : Statement (.fcvtWnF a0 a1) := word_lengthBit _
theorem fcvtFW a0 a1 : Statement (.fcvtFW a0 a1) := word_lengthBit _
theorem fcvtFWn a0 a1 : Statement (.fcvtFWn a0 a1) := word_lengthBit _
theorem fcvtH2F a0 a1 a2 : Statement (.fcvtH2F a0 a1 a2) := word_lengthBit _
theorem fcvtFHl a0 a1 : Statement (.fcvtFHl a0 a1) := word_lengthBit _
theorem fcvtFHh a0 a1 : Statement (.fcvtFHh a0 a1) := word_lengthBit _
theorem fcvtH2H2 a0 a1 : Statement (.fcvtH2H2 a0 a1) := word_lengthBit _
theorem lb a0 a1 a2 a3 : Statement (.lb a0 a1 a2 a3) := word_lengthBit _
theorem lbn a0 a1 a2 a3 : Statement (.lbn a0 a1 a2 a3) := word_lengthBit _
theorem lh a0 a1 a2 a3 : Statement (.lh a0 a1 a2 a3) := word_lengthBit _
theorem lhn a0 a1 a2 a3 : Statement (.lhn a0 a1 a2 a3) := word_lengthBit _
theorem lw a0 a1 a2 a3 : Statement (.lw a0 a1 a2 a3) := word_lengthBit _
theorem ld a0 a1 a2 a3 : Statement (.ld a0 a1 a2 a3) := word_lengthBit _
theorem lq a0 a1 a2 a3 : Statement (.lq a0 a1 a2 a3) := word_lengthBit _
theorem sb a0 a1 a2 a3 : Statement (.sb a0 a1 a2 a3) := word_lengthBit _
theorem sh a0 a1 a2 a3 : Statement (.sh a0 a1 a2 a3) := word_lengthBit _
theorem sw a0 a1 a2 a3 : Statement (.sw a0 a1 a2 a3) := word_lengthBit _
theorem sd a0 a1 a2 a3 : Statement (.sd a0 a1 a2 a3) := word_lengthBit _
theorem sq a0 a1 a2 a3 : Statement (.sq a0 a1 a2 a3) := word_lengthBit _
theorem lwf a0 a1 a2 a3 : Statement (.lwf a0 a1 a2 a3) := word_lengthBit _
theorem lwt a0 a1 a2 a3 : Statement (.lwt a0 a1 a2 a3) := word_lengthBit _
theorem swp a0 a1 a2 a3 : Statement (.swp a0 a1 a2 a3) := word_lengthBit _
theorem swf a0 a1 a2 a3 : Statement (.swf a0 a1 a2 a3) := word_lengthBit _
theorem ferd a0 a1 a2 a3 : Statement (.ferd a0 a1 a2 a3) := word_lengthBit _
theorem feset a0 a1 a2 a3 : Statement (.feset a0 a1 a2 a3) := word_lengthBit _
theorem tadd a0 a1 a2 a3 : Statement (.tadd a0 a1 a2 a3) := word_lengthBit _
theorem tand a0 a1 a2 a3 : Statement (.tand a0 a1 a2 a3) := word_lengthBit _
theorem tor a0 a1 a2 a3 : Statement (.tor a0 a1 a2 a3) := word_lengthBit _
theorem txor a0 a1 a2 a3 : Statement (.txor a0 a1 a2 a3) := word_lengthBit _
theorem tmin a0 a1 a2 a3 : Statement (.tmin a0 a1 a2 a3) := word_lengthBit _
theorem tmax a0 a1 a2 a3 : Statement (.tmax a0 a1 a2 a3) := word_lengthBit _
theorem tminn a0 a1 a2 a3 : Statement (.tminn a0 a1 a2 a3) := word_lengthBit _
theorem tmaxn a0 a1 a2 a3 : Statement (.tmaxn a0 a1 a2 a3) := word_lengthBit _
theorem tswap a0 a1 a2 a3 : Statement (.tswap a0 a1 a2 a3) := word_lengthBit _
theorem tcas a0 a1 a2 a3 : Statement (.tcas a0 a1 a2 a3) := word_lengthBit _
theorem tfadd a0 a1 a2 a3 : Statement (.tfadd a0 a1 a2 a3) := word_lengthBit _
theorem twinc a0 a1 a2 a3 : Statement (.twinc a0 a1 a2 a3) := word_lengthBit _
theorem fenceV : Statement .fenceV := word_lengthBit _
theorem fenceG : Statement .fenceG := word_lengthBit _
theorem fenceA : Statement .fenceA := word_lengthBit _
theorem ifence : Statement .ifence := word_lengthBit _
theorem beq a0 a1 a2 : Statement (.beq a0 a1 a2) := word_lengthBit _
theorem bne a0 a1 a2 : Statement (.bne a0 a1 a2) := word_lengthBit _
theorem blt a0 a1 a2 : Statement (.blt a0 a1 a2) := word_lengthBit _
theorem bge a0 a1 a2 : Statement (.bge a0 a1 a2) := word_lengthBit _
theorem bltn a0 a1 a2 : Statement (.bltn a0 a1 a2) := word_lengthBit _
theorem bgen a0 a1 a2 : Statement (.bgen a0 a1 a2) := word_lengthBit _
theorem bbs a0 a1 a2 : Statement (.bbs a0 a1 a2) := word_lengthBit _
theorem bbc a0 a1 a2 : Statement (.bbc a0 a1 a2) := word_lengthBit _
theorem jal a0 a1 : Statement (.jal a0 a1) := word_lengthBit _
theorem jalr a0 a1 a2 : Statement (.jalr a0 a1 a2) := word_lengthBit _
theorem bara a0 a1 : Statement (.bara a0 a1) := word_lengthBit _
theorem barw a0 a1 a2 : Statement (.barw a0 a1 a2) := word_lengthBit _
theorem barsum a0 a1 a2 : Statement (.barsum a0 a1 a2) := word_lengthBit _
theorem barstmt a0 a1 a2 : Statement (.barstmt a0 a1 a2) := word_lengthBit _
theorem barcfg a0 a1 : Statement (.barcfg a0 a1) := word_lengthBit _
theorem msend a0 a1 a2 a3 : Statement (.msend a0 a1 a2 a3) := word_lengthBit _
theorem mcall a0 a1 a2 a3 : Statement (.mcall a0 a1 a2 a3) := word_lengthBit _
theorem mrecv a0 a1 a2 a3 : Statement (.mrecv a0 a1 a2 a3) := word_lengthBit _
theorem mrecvt a0 a1 a2 a3 : Statement (.mrecvt a0 a1 a2 a3) := word_lengthBit _
theorem mpoll a0 a1 a2 a3 : Statement (.mpoll a0 a1 a2 a3) := word_lengthBit _
theorem mreply a0 a1 : Statement (.mreply a0 a1) := word_lengthBit _
theorem qput a0 a1 a2 : Statement (.qput a0 a1 a2) := word_lengthBit _
theorem qputt a0 a1 a2 a3 : Statement (.qputt a0 a1 a2 a3) := word_lengthBit _
theorem qtake a0 a1 a2 a3 a4 : Statement (.qtake a0 a1 a2 a3 a4) := word_lengthBit _
theorem qtaket a0 a1 a2 a3 : Statement (.qtaket a0 a1 a2 a3) := word_lengthBit _
theorem sopen a0 a1 : Statement (.sopen a0 a1) := word_lengthBit _
theorem sput a0 a1 : Statement (.sput a0 a1) := word_lengthBit _
theorem sclose a0 : Statement (.sclose a0) := word_lengthBit _
theorem sget a0 a1 a2 : Statement (.sget a0 a1 a2) := word_lengthBit _
theorem spawn a0 a1 a2 : Statement (.spawn a0 a1 a2) := word_lengthBit _
theorem spret a0 a1 : Statement (.spret a0 a1) := word_lengthBit _
theorem join a0 a1 : Statement (.join a0 a1) := word_lengthBit _
theorem rspawn a0 a1 a2 : Statement (.rspawn a0 a1 a2) := word_lengthBit _
theorem tsubmit a0 : Statement (.tsubmit a0) := word_lengthBit _
theorem tdone : Statement .tdone := word_lengthBit _
theorem wid a0 a1 : Statement (.wid a0 a1) := word_lengthBit _
theorem coreid a0 : Statement (.coreid a0) := word_lengthBit _
theorem dlarm a0 a1 : Statement (.dlarm a0 a1) := word_lengthBit _
theorem dlarmm a0 a1 a2 : Statement (.dlarmm a0 a1 a2) := word_lengthBit _
theorem dldis a0 : Statement (.dldis a0) := word_lengthBit _
theorem mzero a0 : Statement (.mzero a0) := word_lengthBit _
theorem mldb a0 a1 : Statement (.mldb a0 a1) := word_lengthBit _
theorem mldsA a0 a1 : Statement (.mldsA a0 a1) := word_lengthBit _
theorem mldsB a0 a1 : Statement (.mldsB a0 a1) := word_lengthBit _
theorem mwra a0 a1 a2 : Statement (.mwra a0 a1 a2) := word_lengthBit _
theorem mring : Statement .mring := word_lengthBit _
theorem mmovt a0 a1 : Statement (.mmovt a0 a1) := word_lengthBit _
theorem mrsn a0 : Statement (.mrsn a0) := word_lengthBit _
theorem mma a0 a1 a2 : Statement (.mma a0 a1 a2) := word_lengthBit _
theorem mmas a0 a1 a2 : Statement (.mmas a0 a1 a2) := word_lengthBit _
theorem mmaz a0 a1 a2 : Statement (.mmaz a0 a1 a2) := word_lengthBit _
theorem mepiAdd a0 a1 a2 : Statement (.mepiAdd a0 a1 a2) := word_lengthBit _
theorem mepiMul a0 a1 a2 : Statement (.mepiMul a0 a1 a2) := word_lengthBit _
theorem mepiMax a0 a1 a2 : Statement (.mepiMax a0 a1 a2) := word_lengthBit _
theorem mepiScale a0 a1 a2 : Statement (.mepiScale a0 a1 a2) := word_lengthBit _
theorem mepiBiasRow a0 a1 a2 : Statement (.mepiBiasRow a0 a1 a2) := word_lengthBit _
theorem mepiBiasCol a0 a1 a2 : Statement (.mepiBiasCol a0 a1 a2) := word_lengthBit _
theorem mepiExp2 a0 a1 : Statement (.mepiExp2 a0 a1) := word_lengthBit _
theorem mepiSigmoid a0 a1 : Statement (.mepiSigmoid a0 a1) := word_lengthBit _
theorem mepiSilu a0 a1 : Statement (.mepiSilu a0 a1) := word_lengthBit _
theorem mepiTanh a0 a1 : Statement (.mepiTanh a0 a1) := word_lengthBit _
theorem mepiRecip a0 a1 : Statement (.mepiRecip a0 a1) := word_lengthBit _
theorem mepiRsqrt a0 a1 : Statement (.mepiRsqrt a0 a1) := word_lengthBit _
theorem mstt a0 a1 a2 : Statement (.mstt a0 a1 a2) := word_lengthBit _
theorem msttF a0 a1 a2 : Statement (.msttF a0 a1 a2) := word_lengthBit _
theorem mtran a0 a1 : Statement (.mtran a0 a1) := word_lengthBit _
theorem mredRowmax a0 a1 a2 : Statement (.mredRowmax a0 a1 a2) := word_lengthBit _
theorem mredRowsum a0 a1 a2 : Statement (.mredRowsum a0 a1 a2) := word_lengthBit _
theorem mredColmax a0 a1 a2 : Statement (.mredColmax a0 a1 a2) := word_lengthBit _
theorem mredColsum a0 a1 a2 : Statement (.mredColsum a0 a1 a2) := word_lengthBit _
theorem mpotrf a0 a1 : Statement (.mpotrf a0 a1) := word_lengthBit _
theorem mgetrf a0 a1 : Statement (.mgetrf a0 a1) := word_lengthBit _
theorem mtrsm a0 a1 a2 a3 a4 a5 a6 : Statement (.mtrsm a0 a1 a2 a3 a4 a5 a6) := word_lengthBit _
theorem mdelta a0 : Statement (.mdelta a0) := word_lengthBit _
theorem mshiftDup a0 : Statement (.mshiftDup a0) := word_lengthBit _
theorem mshiftZero a0 : Statement (.mshiftZero a0) := word_lengthBit _
theorem bcopy a0 a1 a2 a3 a4 a5 : Statement (.bcopy a0 a1 a2 a3 a4 a5) := word_lengthBit _
theorem bcopy2 a0 a1 a2 a3 a4 a5 : Statement (.bcopy2 a0 a1 a2 a3 a4 a5) := word_lengthBit _
theorem bfill a0 a1 a2 a3 a4 : Statement (.bfill a0 a1 a2 a3 a4) := word_lengthBit _
theorem bgath a0 a1 a2 a3 a4 a5 : Statement (.bgath a0 a1 a2 a3 a4 a5) := word_lengthBit _
theorem bscat a0 a1 a2 a3 a4 a5 : Statement (.bscat a0 a1 a2 a3 a4 a5) := word_lengthBit _
theorem bcancel a0 a1 : Statement (.bcancel a0 a1) := word_lengthBit _
theorem bstat a0 : Statement (.bstat a0) := word_lengthBit _
theorem mqnt a0 a1 a2 : Statement (.mqnt a0 a1 a2) := word_lengthBit _
theorem mdqnt a0 a1 a2 : Statement (.mdqnt a0 a1 a2) := word_lengthBit _
theorem cvtblk a0 a1 a2 a3 a4 : Statement (.cvtblk a0 a1 a2 a3 a4) := word_lengthBit _
theorem cvtunb a0 a1 a2 a3 a4 : Statement (.cvtunb a0 a1 a2 a3 a4) := word_lengthBit _
theorem cvtv a0 a1 a2 a3 : Statement (.cvtv a0 a1 a2 a3) := word_lengthBit _
theorem syscall : Statement .syscall := word_lengthBit _
theorem brk : Statement .brk := word_lengthBit _
theorem eret : Statement .eret := word_lengthBit _
theorem dret : Statement .dret := word_lengthBit _
theorem wait a0 a1 : Statement (.wait a0 a1) := word_lengthBit _
theorem yield : Statement .yield := word_lengthBit _
theorem halt : Statement .halt := word_lengthBit _
theorem segld a0 a1 : Statement (.segld a0 a1) := word_lengthBit _
theorem segrd a0 a1 : Statement (.segrd a0 a1) := word_lengthBit _
theorem tlbinv a0 a1 : Statement (.tlbinv a0 a1) := word_lengthBit _
theorem segnull a0 : Statement (.segnull a0) := word_lengthBit _
theorem mintld a0 a1 : Statement (.mintld a0 a1) := word_lengthBit _
theorem mintsv a0 a1 : Statement (.mintsv a0 a1) := word_lengthBit _
theorem csrr a0 a1 : Statement (.csrr a0 a1) := word_lengthBit _
theorem csrw a0 a1 : Statement (.csrw a0 a1) := word_lengthBit _
theorem csrx a0 a1 a2 : Statement (.csrx a0 a1 a2) := word_lengthBit _
theorem csrm a0 a1 a2 : Statement (.csrm a0 a1 a2) := word_lengthBit _
theorem cAddi a0 a1 : Statement (.cAddi a0 a1) := half_lengthBit _
theorem cLi a0 a1 : Statement (.cLi a0 a1) := half_lengthBit _
theorem cMv a0 a1 : Statement (.cMv a0 a1) := half_lengthBit _
theorem cAdd a0 a1 : Statement (.cAdd a0 a1) := half_lengthBit _
theorem cSub a0 a1 : Statement (.cSub a0 a1) := half_lengthBit _
theorem cAnd a0 a1 : Statement (.cAnd a0 a1) := half_lengthBit _
theorem cOr a0 a1 : Statement (.cOr a0 a1) := half_lengthBit _
theorem cXor a0 a1 : Statement (.cXor a0 a1) := half_lengthBit _
theorem cSll a0 a1 : Statement (.cSll a0 a1) := half_lengthBit _
theorem cSrl a0 a1 : Statement (.cSrl a0 a1) := half_lengthBit _
theorem cSra a0 a1 : Statement (.cSra a0 a1) := half_lengthBit _
theorem cLw a0 a1 a2 : Statement (.cLw a0 a1 a2) := half_lengthBit _
theorem cSw a0 a1 a2 : Statement (.cSw a0 a1 a2) := half_lengthBit _
theorem cBeqz a0 a1 : Statement (.cBeqz a0 a1) := half_lengthBit _
theorem cBnez a0 a1 : Statement (.cBnez a0 a1) := half_lengthBit _
theorem cJ a0 : Statement (.cJ a0) := half_lengthBit _
theorem cNop : Statement .cNop := half_lengthBit _
theorem cYield : Statement .cYield := half_lengthBit _
theorem movxToX a0 a1 : Statement (.movxToX a0 a1) := half_lengthBit _
theorem movxToG a0 a1 : Statement (.movxToG a0 a1) := half_lengthBit _
theorem lox a0 a1 : Statement (.lox a0 a1) := half_lengthBit _
theorem fmt a0 a1 a2 : Statement (.fmt a0 a1 a2) := half_lengthBit _
theorem rel : Statement .rel := half_lengthBit _
theorem cls a0 : Statement (.cls a0) := half_lengthBit _

end Sys2Proof.Laws.Encoding
end

