-- ==== Sys2Proof/Laws/Stops.lean ====
section
/-! SUPPORT. What the two ways an instruction stops do: a park (R185), and a trap into the handler of its thread (R192). -/

namespace Sys2Proof.Machine

/-- A park changes the slot's condition and counts, but for an access that is yet to be sent (R185, R201). -/
theorem parkAt_parkedOn (s : State) (w : Wait) : ParkedOn s (parkAt s.cur w s) w := by
  have key {t : State} {n : Nat → Nat} (h : Counted (coreOf s.cur) (s.modSlot s.cur fun sl => { sl with run := .parked w }) t n)
      (hn : ∀ i, i ≠ 5 → n i = 0) : ParkedOn s t w := by
    refine ⟨h.cur, ?_, fun k hk => (h.slot k).trans ?_, h.mine, fun i hi => (h.counters i).trans ?_, h.cores, ?_⟩
    · rw [State.me, h.cur]
      exact (h.slot s.cur).trans (by simp [State.me])
    · simp [Ne.symm hk]
    · rw [hn i hi, bump_zero]
      rfl
    · exact congrArg (fun x : State => { x with slots := s.slots }) h.rest
  have h0 := Counted.refl (coreOf s.cur) (s.modSlot s.cur fun sl => { sl with run := .parked w })
  unfold parkAt
  split
  · exact key h0 fun _ _ => rfl
  · exact key (h0.countN 5 1) fun i hi => by simp [Ne.symm hi]

/-- STATUS as a trap leaves it: the prefix in PP, EXL set, DSTEP clear (R192, R392). -/
theorem trap_status (st : Word) (p : BitVec 16) : putField (putField (putField st 16 16 p.toNat) 0 1 1) 1 1 0 =
    (p.setWidth 32 <<< 16) ||| (st &&& 0x0000FFFC) ||| 1 := by
  have hp : BitVec.ofNat 32 (p.toNat % 2 ^ 16) = p.setWidth 32 := by
    rw [Nat.mod_eq_of_lt p.isLt]
    simp
  unfold putField
  rw [hp]
  apply BitVec.eq_of_getLsbD_eq
  intro i hi
  interval_cases i <;> simp

/-- The counters of a trap (R201). -/
theorem trap_counted (c cause : Nat) (s : State) :
    Counted c s
      (let s := count c 15 s
        if cause = cDEADLINE then count c 14 s else if cause = cOVERDRAFT then count c 13 s else s) (trapAdvances cause) := by
  have h := (Counted.refl c s).countN 15 1
  have key {t : State} {n : Nat → Nat} (h : Counted c s t n) (hn : ∀ j, n j = trapAdvances cause j) :
      Counted c s t (trapAdvances cause) := by rwa [show trapAdvances cause = n from funext fun j => (hn j).symm]
  dsimp only
  have fin (n : Nat → Nat) (h15 : n 15 = trapAdvances cause 15) (h14 : n 14 = trapAdvances cause 14)
      (h13 : n 13 = trapAdvances cause 13) (h : ∀ j, j ≠ 15 → j ≠ 14 → j ≠ 13 → n j = 0) (j : Nat) : n j = trapAdvances cause j := by
    by_cases h1 : j = 15
    · rw [h1, h15]
    by_cases h2 : j = 14
    · rw [h2, h14]
    by_cases h3 : j = 13
    · rw [h3, h13]
    rw [h j h1 h2 h3]
    simp [trapAdvances, h1, h2, h3]
  split
  next hc =>
    subst hc
    exact key (h.countN 14 1) (fin _ rfl rfl rfl fun j h1 h2 h3 => by simp [Ne.symm h1, Ne.symm h2])
  split
  next hc =>
    subst hc
    exact key (h.countN 13 1) (fin _ rfl rfl rfl fun j h1 h2 h3 => by simp [Ne.symm h1, Ne.symm h3])
  next hd ho =>
    simp only [cDEADLINE, cOVERDRAFT] at hd ho
    exact key h (fin _ (by simp [trapAdvances]) (by simp [trapAdvances, hd]) (by simp [trapAdvances, ho])
      fun j h1 h2 h3 => by simp [Ne.symm h1])

/-- A trap that its thread handles (R192, R142, R201). -/
theorem takeTrap_trapped {s : State} (hq : Unheld s s.cur) (hh : Handles s) (cause : Nat) (eval : Word) :
    Trapped s (takeTrap cause eval s) cause eval := by
  obtain ⟨h0, h1⟩ := hh
  have hc := trap_counted (coreOf s.cur) cause s
  unfold takeTrap takeTrapAt
  simp only [qAll_eq_self hq.2]
  generalize hu : (if cause = cDEADLINE then count (coreOf s.cur) 14 (count (coreOf s.cur) 15 s)
    else if cause = cOVERDRAFT then count (coreOf s.cur) 13 (count (coreOf s.cur) 15 s) else count (coreOf s.cur) 15 s) = u at *
  have hs (k : Nat) : (errBit (coreOf s.cur) (trapErrbits cause) u).slot k = s.slot k := by
    rw [← hc.slot k]
    unfold errBit
    split <;> rfl
  have he (n : Nat) : (errBit (coreOf s.cur) (trapErrbits cause) u).core n =
      if coreOf s.cur = n then { u.core n with errbits := (u.core n).errbits ||| trapErrbits cause } else u.core n := by
    unfold errBit
    split
    next h => rw [h]; split <;> simp
    · simp only [State.core_modCore]
      split
      next h => rw [h]
      · rfl
  have hcore := congrArg (fun x : Core => (x.tvec, x.errbits)) hc.mine
  simp only [Prod.mk.injEq] at hcore
  change Trapped s (if (bitOf ((errBit (coreOf s.cur) (trapErrbits cause) u).slot s.cur).status 0 ||
    !bitOf ((errBit (coreOf s.cur) (trapErrbits cause) u).core (coreOf s.cur)).tvec 0) = true then _ else
    (errBit (coreOf s.cur) (trapErrbits cause) u).setSlot s.cur
      (Slot.enter cause eval ((errBit (coreOf s.cur) (trapErrbits cause) u).core (coreOf s.cur)).tvec
        ((errBit (coreOf s.cur) (trapErrbits cause) u).slot s.cur))) cause eval
  have ht : ((errBit (coreOf s.cur) (trapErrbits cause) u).core (coreOf s.cur)).tvec = (s.core s.myCore).tvec := by
    rw [he, if_pos rfl]
    exact hcore.1
  have hm : bitOf (s.slot s.cur).status 0 = false := h0
  rw [hs, ht, if_neg (by rw [hm, h1]; decide)]
  have hcur : (errBit (coreOf s.cur) (trapErrbits cause) u).cur = s.cur := by
    unfold errBit
    split <;> exact hc.cur
  have hslot (k : Nat) : ((errBit (coreOf s.cur) (trapErrbits cause) u).setSlot s.cur
      (Slot.enter cause eval (s.core s.myCore).tvec (s.slot s.cur))).slot k =
      if s.cur = k then Slot.enter cause eval (s.core s.myCore).tvec (s.slot s.cur) else s.slot k := by
    rw [State.slot_setSlot, hs]
  refine ⟨hcur, fun r => ?_, ?_, fun k hk => (hslot k).trans (if_neg (Ne.symm hk)), ?_, fun i => ?_, fun n hn => ?_, ?_⟩
  · change regAt (errBit (coreOf s.cur) (trapErrbits cause) u).cur r _ = regAt s.cur r s
    rw [hcur]
    simp only [regAt, hslot, if_pos]
    rfl
  · change State.slot _ (errBit (coreOf s.cur) (trapErrbits cause) u).cur = _
    rw [hcur, hslot, if_pos rfl]
    simp only [Slot.enter, Slot.saveTrap, Slot.handling, trap_status]
    rfl
  · change { (errBit (coreOf s.cur) (trapErrbits cause) u).core (coreOf s.cur) with counters := (s.core s.myCore).counters } = _
    rw [he, if_pos rfl]
    exact congrArg (fun x : Core => { x with errbits := x.errbits ||| trapErrbits cause }) hc.mine
  · change smGet 0 ((errBit (coreOf s.cur) (trapErrbits cause) u).core (coreOf s.cur)).counters i = _
    rw [he, if_pos rfl]
    exact hc.counters i
  · change (errBit (coreOf s.cur) (trapErrbits cause) u).core n = _
    rw [he, if_neg (show ¬coreOf s.cur = n from Ne.symm hn)]
    exact hc.cores n hn
  · have hr := congrArg (fun x : State => { x with slots := s.slots }) hc.rest
    unfold errBit
    split <;> exact hr

end Sys2Proof.Machine
end

