-- ==== Sys2Proof/Tests/Slice0.lean ====
section
/-! SUPPORT. Tests: terms that the checks refuse, words of the spec's encodings with what they decode to, single steps with results
that the spec gives or that follow from it by hand, and for the hypotheses of the statements concrete states that meet them. -/

open Sys2Proof Sys2Proof.Machine

namespace Sys2Proof.Tests

set_option Elab.async false

noncomputable section

/-! ### Well-formedness (R2, R298, R304, R338) -/

theorem test_wf_pair_and_quad :
    ([.ld 5 1 2 0, .sd 5 1 2 0, .lq 6 1 2 0, .sq 2 1 2 0, .tcas 5 3 7 2] : List Instr).all (fun i => !i.wf) = true := by decide

theorem test_wf_message_ranges :
    ([.msend 31 1 2 1, .mcall 28 1 2 4, .mrecv 25 1 2 7, .mrecvt 31 1 2 7, .mpoll 30 1 2 2, .mreply 29 3] : List Instr).all
      (fun i => !i.wf) = true := by decide

theorem test_wf_queue_ranges :
    ([.qput 31 1 1, .qputt 30 1 2 2, .qtaket 29 1 2 3, .qtake 31 1 0 0 1, .qtake 4 1 5 0 0] : List Instr).all
      (fun i => !i.wf) = true := by decide

theorem test_wf_reserved_fields :
    ([.wid 1 6, .wid 1 7, .dlarmm 1 2 0, .mtrsm 0 1 2 3 false false false, .segld 0 1, .segnull 0, .segrd 6 1, .cls 0, .fmt 7 13 0,
      .fmt 7 13 15] : List Instr).all (fun i => !i.wf) = true := by decide

theorem test_wf_units :
    ([.bursarStart 4, .hostRefresh 4 .refresh, .ethTransmit 4, .partitionReset 3, .launchDispatch 3, .clrst 16, .walk 16, .mcRequest 8,
      .copyGranule 8, .lendStart 8 0, .lendAck 0 16, .ringStep 64, .copyAccept 1024, .matrixRetire 1024] : List Instr).all
      (fun i => !i.wf) = true := by decide

theorem test_wf_accepts :
    ([.ld 4 1 2 0, .sq 28 1 2 0, .tcas 5 3 6 2, .msend 24 1 2 7, .qtake 4 1 5 2 7, .wid 1 5, .dlarmm 1 2 255,
      .mtrsm 0 1 2 2 true true true, .segld 7 1, .segrd 28 0, .cls 3, .fmt 7 13 13, .fmt 6 13 0, .hostRefresh 3 .refresh, .partitionReset 2,
      .walk 15, .mcRequest 7, .lendAck 7 15, .ringStep 63, .matrixRetire 1023] : List Instr).all Instr.wf = true := by decide

/-! ### Words of the encodings: the fields where R297, R299 and R337 place them -/

def rr (op f b a d : Nat) : Nat := f * 2 ^ 22 + b * 2 ^ 17 + a * 2 ^ 12 + d * 2 ^ 7 + op * 2 + 1
def ri (op imm15 a d : Nat) : Nat := imm15 * 2 ^ 17 + a * 2 ^ 12 + d * 2 ^ 7 + op * 2 + 1
def qr (op f c b a d : Nat) : Nat := f * 2 ^ 27 + c * 2 ^ 22 + b * 2 ^ 17 + a * 2 ^ 12 + d * 2 ^ 7 + op * 2 + 1
def mm (op imm9 kind seg a t : Nat) : Nat := imm9 * 2 ^ 23 + kind * 2 ^ 20 + seg * 2 ^ 17 + a * 2 ^ 12 + t * 2 ^ 7 + op * 2 + 1
def ee (op f seg b a d : Nat) : Nat := f * 2 ^ 25 + seg * 2 ^ 22 + b * 2 ^ 17 + a * 2 ^ 12 + d * 2 ^ 7 + op * 2 + 1
def tt (op f a ta td : Nat) : Nat := f * 2 ^ 24 + a * 2 ^ 19 + ta * 2 ^ 13 + td * 2 ^ 7 + op * 2 + 1

/-- Every word decodes to the instruction beside it. -/
def reads (n : Nat) (l : List (Nat × Instr)) : Bool := l.all fun p => decodeTableWord n p.1 = some p.2

-- R321, R322, R323, R324
theorem test_word_integer : reads 32 [(rr 1 0 9 8 7, .add 7 8 9), (rr 1 3 9 8 7, .subs 7 8 9), (rr 1 7 9 8 7, .andn 7 8 9),
    (rr 1 18 9 8 7, .bext 7 8 9), (rr 1 24 0 8 7, .brev 7 8), (0x00183285, .addi 5 3 12), (0x00128293, .lui 5 0x128),
    (0xFFF85285, .addi 5 5 0x7FFC), (ri 8 5 4 3, .sltni 3 4 5), (0x020A4A17, .remn 20 4 5), (rr 0xB 1 9 8 7, .mulq 7 8 9)] = true := by
  decide
-- R326 to R329
theorem test_word_packed : reads 32 [(rr 0xC (12 + 2 ^ 8) 9 8 7, .pmulq 7 8 9 .h), (rr 0xC (12 + 2 ^ 9) 9 8 7, .pmulq 7 8 9 .b),
    (0x008E629B, .cmul 5 6 7), (rr 0xD 6 0 8 7, .cmag2 7 8), (qr 0xE 2 10 9 8 7, .pdotasH 7 8 9 10), (qr 0xE 4 10 9 8 7, .cmac 7 8 9 10)] =
      true := by decide
-- R332, R333, R334
theorem test_word_float : reads 32 [(0x800E62A1, .fadd 5 6 7 true), (rr 0x10 11 9 8 7, .fcmplt 7 8 9 false),
    (qr 0x11 3 10 9 8 7, .fnmadd 7 8 9 10 false), (rr 0x12 4 9 8 7, .fcvtH2F 7 8 9), (rr 0x12 6 0 8 7, .fcvtFHh 7 8)] = true := by decide
-- R335, R336
theorem test_word_branch : reads 32 [(0x00A002B5, .beq 5 0 10), (0xFFA202B5, .bne 5 0 0xFFA), (0x00001039, .jalr 0 1 0),
    (0x000040B7, .jal 1 4), (7 * 2 ^ 17 + 31 * 2 ^ 12 + 5 * 2 ^ 7 + 0x35, .bbc 5 31 0)] = true := by decide
-- R340, R343, R344, R345
theorem test_word_memory : reads 32 [(mm 0x14 0x1FF 0 3 2 1, .lb 1 2 3 0x1FF), (mm 0x14 3 6 3 2 4, .lq 4 2 3 3), (0x01C432A9, .lw 5 3 2 3),
    (mm 0x15 1 1 3 2 5, .sh 5 2 3 1), (0xFF36232B, .sd 6 2 3 0x1FE), (0x001433AD, .lwt 7 3 2 0), (mm 0x16 0 5 3 2 5, .feset 5 2 3 0),
    (0x008C32AF, .tadd 5 3 6 2), (0x128C32AF, .tcas 5 3 6 2), (0x00000031, .fenceV), (0x00C00031, .ifence)] = true := by decide
-- R346 to R363
theorem test_word_thread : reads 32 [(0x184062C1, .barw 5 6 3), (0x00D6A243, .msend 4 10 11 3), (ee 0x21 5 2 0 0 4, .mreply 4 2),
    (0x2000C245, .qput 4 12 1), (ee 0x22 7 3 6 0 5, .sget 5 6 3), (0x008C3047, .spawn 3 6 2), (ee 0x23 5 0 0 0 0, .tdone),
    (0x0C8002C7, .wid 5 2), (0x004A62C9, .dlarmm 5 6 9)] = true := by decide
-- R366 to R386
theorem test_word_engines : reads 32 [(0x41500051, .mldb 10 2), (0x425800D1, .mldsB 11 2), (0x40500253, .mma 4 10 2),
    (0xB7604055, .msttF 2 12 3), (0xD4488055, .mredRowmax 4 9 true), (0x00300057, .mpotrf 0 6), (0x968C5259, .bcopy2 4 5 6 2 3 true),
    (0x500C03D9, .bcancel 7 6), (0x2028C05B, .mqnt 6 5 2), (0xB08C525B, .cvtblk 4 5 6 2 3)] = true := by decide
-- R389, R396, R399
theorem test_word_system : reads 32 [(0x00000061, .syscall), (0x00C00061, .dret), (0x01000061, .wait 0 0),
    (0x01C00061 + 6 * 2 ^ 12 + 3 * 2 ^ 7, .segld 3 6), (0x02000061 + 3 * 2 ^ 17 + 8 * 2 ^ 7, .segrd 8 3),
    (0x02C00061 + 2 * 2 ^ 17 + 6 * 2 ^ 12, .mintld 6 2), (0x070 * 2 ^ 17 + 5 * 2 ^ 7 + 0x63, .csrr 5 0x070),
    (3 * 2 ^ 29 + 0x000 * 2 ^ 17 + 21 * 2 ^ 12 + 21 * 2 ^ 7 + 0x63, .csrm 21 21 0x000)] = true := by decide
-- R301 to R305
theorem test_word_short : reads 16 [(0x0704, .cLi 0 7), (0x4026, .cMv 1 8), (0x0108, .cAdd 0 1), (0x6402, .cAddi 0 100),
    (0x0036, .movxToX 1 0), (0x02B6, .lox 1 2), (0x0018, .cNop), (0x1114, .fmt 0 1 1), (0x1174, .fmt 3 1 1), (0x0DF4, .rel),
    (0x2DF4, .cls 2)] = true := by decide

-- Reserved: a function past the table, a field that must be zero, a register pair from an odd register, kind 7 of LOAD (R298, R300)
theorem test_word_reserved : [rr 1 27 0 8 7, rr 1 20 9 8 7, mm 0x14 0 5 2 1 5, mm 0x14 0 7 2 1 4, ee 0x17 12 2 0 1 4, rr 0x18 0 0 0 1,
    ee 0x23 6 6 0 0 5, 0x0000FFFF, 1].all (fun w => decodeTableWord 32 w = none) = true := by decide
theorem test_word_reserved_short : [0x0000, 0x001A, 0x0118, 0x9DF4].all (fun w => decodeTableWord 16 w = none) = true := by decide

/-! ### Single steps -/

/-- A VAULT descriptor over all of the own cluster's vault with the rights R, W, FE and ATOMIC (R229). -/
def ownSeg : BitVec 128 := BitVec.ofNat 128 (3 * 2 ^ 56 + 0x8000000 * 2 ^ 64 + 0x1B * 2 ^ 96 + 2 ^ 107)

/-- A launch of all groups of cluster 0 alone. -/
def launch0 : Launch := { clusters := [0], nc := 1, ng := 64, slotmask := 0x00FF, stksize := 0x100, entry := 0x40 }

/-- Slot 3 of core 2 of cluster 0 in execution. -/
def thr (sl : Slot) (c : Core := {}) (u : Cluster := {}) (v : List Host.Cell := []) : State :=
  { cur := 35, slots := [(35, sl)], cores := smSet {} [] 2 c, clusters := smSet {} [] 0 u, vault := v }

/-- A ready thread at offset 0x100 of its code with the registers `g`, s1 and s2 its own vault. -/
def sl0 (g : SMap Word := []) : Slot := { pc := 0x100, run := .ready, ir := 0x1234567, g := g, sg := [(1, ownSeg), (2, ownSeg)] }

/-- The state after an instruction that completes. -/
def after (i : Instr) (s : State) : State := match exec i s with
  | .next t => t
  | _ => {}

/-- With `x` in g6, `y` in g7 and `z` in g8 the instruction leaves the value beside it in g5. -/
def gives (s : Word → Word → Word → State) (l : List (Instr × Word × Word × Word × Word)) : Bool :=
  l.all fun p => (after p.1 (s p.2.1 p.2.2.1 p.2.2.2.1)).reg 5 = p.2.2.2.2
def regs (x y z : Word) : State := thr (sl0 [(6, x), (7, y), (8, z)])

-- R321 to R324, by hand
theorem test_alu : gives regs [(.add 5 6 7, 0xFFFFFFFF, 2, 0, 1), (.sub 5 6 7, 5, 7, 0, 0xFFFFFFFE), (.adds 5 6 7, 0x7FFFFFFF, 1, 0, 0x7FFFFFFF),
    (.subs 5 6 7, 0x80000000, 1, 0, 0x80000000), (.and 5 6 7, 12, 10, 0, 8), (.or 5 6 7, 12, 10, 0, 14), (.xor 5 6 7, 12, 10, 0, 6),
    (.andn 5 6 7, 12, 10, 0, 4), (.sll 5 6 7, 1, 33, 0, 2), (.srl 5 6 7, 0x80000000, 4, 0, 0x08000000),
    (.sra 5 6 7, 0x80000000, 4, 0, 0xF8000000), (.ror 5 6 7, 1, 1, 0, 0x80000000), (.slt 5 6 7, 0xFFFFFFFF, 0, 0, 1),
    (.sltn 5 6 7, 0xFFFFFFFF, 0, 0, 0), (.min 5 6 7, 0xFFFFFFFF, 1, 0, 0xFFFFFFFF), (.max 5 6 7, 0xFFFFFFFF, 1, 0, 1),
    (.minn 5 6 7, 0xFFFFFFFF, 1, 0, 1), (.maxn 5 6 7, 0xFFFFFFFF, 1, 0, 0xFFFFFFFF), (.bext 5 6 7, 0xABCD1234, 232, 0, 0x12),
    (.bext 5 6 7, 0xABCD1234, 252, 0, 0xA), (.bexts 5 6 7, 0xABCD1234, 248, 0, 0xFFFFFFAB)] = true := by decide +kernel
theorem test_alu_one : gives regs [(.lzc 5 6, 0, 0, 0, 32), (.lzc 5 6, 0x00010000, 0, 0, 15), (.tzc 5 6, 8, 0, 0, 3), (.tzc 5 6, 0, 0, 0, 32),
    (.ones 5 6, 0xFF0, 0, 0, 8), (.bswap 5 6, 0x11223344, 0, 0, 0x44332211), (.brev 5 6, 0x80000002, 0, 0, 0x40000001),
    (.extb 5 6, 0x180, 0, 0, 0xFFFFFF80), (.exth 5 6, 0x18000, 0, 0, 0xFFFF8000)] = true := by decide +kernel
theorem test_imm : gives regs [(.addi 5 6 0x7FFC, 0x00128000, 0, 0, 0x00127FFC), (.andi 5 6 0x7FFF, 0x12345678, 0, 0, 0x12345678),
    (.ori 5 6 1, 2, 0, 0, 3), (.xori 5 6 0x7FFF, 1, 0, 0, 0xFFFFFFFE), (.slti 5 6 0x7FFF, 0xFFFFFFFE, 0, 0, 1), (.sltni 5 6 0x7FFF, 5, 0, 0, 1),
    (.slli 5 6 31, 3, 0, 0, 0x80000000), (.srli 5 6 31, 0x80000000, 0, 0, 1), (.srai 5 6 31, 0x80000000, 0, 0, 0xFFFFFFFF),
    (.rori 5 6 8, 0x11223344, 0, 0, 0x44112233), (.lui 5 0x128, 0, 0, 0, 0x00128000), (.pcrel 5 1, 0, 0, 0, 0x1100)] = true := by
  decide +kernel
-- R325: the worked examples and the table of cases
theorem test_muldiv : gives regs [(.mul 5 6 7, 0xFFFFFFFF, 3, 0, 0xFFFFFFFD), (.mulq 5 6 7, 0x40000000, 0xC0000000, 0, 0xE0000000),
    (.mulq 5 6 7, 0x80000000, 0x80000000, 0, 0x7FFFFFFF), (.mulh 5 6 7, 0xFFFFFFFF, 0xFFFFFFFF, 0, 0),
    (.mulhn 5 6 7, 0xFFFFFFFF, 0xFFFFFFFF, 0, 0xFFFFFFFE), (.mulhsn 5 6 7, 0xFFFFFFFF, 0xFFFFFFFF, 0, 0xFFFFFFFF),
    (.div 5 6 7, 0xFFFFFFF9, 2, 0, 0xFFFFFFFD), (.rem 5 6 7, 0xFFFFFFF9, 2, 0, 0xFFFFFFFF), (.divn 5 6 7, 0xFFFFFFF9, 2, 0, 0x7FFFFFFC),
    (.remn 5 6 7, 84, 36, 0, 12), (.div 5 6 7, 5, 0, 0, 0x7FFFFFFF), (.div 5 6 7, 0xFFFFFFFB, 0, 0, 0x80000000),
    (.div 5 6 7, 0x80000000, 0xFFFFFFFF, 0, 0x7FFFFFFF), (.divn 5 6 7, 0, 0, 0, 0), (.rem 5 6 7, 0x80000000, 0xFFFFFFFF, 0, 0),
    (.remn 5 6 7, 0x80000000, 0xFFFFFFFF, 0, 0x80000000)] = true := by decide +kernel
theorem test_muldiv_flags : [(Instr.mulq 5 6 7, (0x80000000 : Word), (0x80000000 : Word), (4 : Word)), (.div 5 6 7, 5, 0, 8),
    (.div 5 6 7, 0x80000000, 0xFFFFFFFF, 4), (.rem 5 6 7, 0x80000000, 0xFFFFFFFF, 0), (.adds 5 6 7, 0x7FFFFFFF, 1, 4),
    (.cconj 5 6, 0x80000001, 0, 4)].all (fun p => (after p.1 (regs p.2.1 p.2.2.1 0)).me.fflags = p.2.2.2) = true := by decide +kernel
-- R326, R327, by hand
theorem test_packed : gives regs [(.padd 5 6 7 .h, 0xFFFF0001, 0x00010001, 0, 2), (.psub 5 6 7 .b, 0, 0x01010101, 0, 0xFFFFFFFF),
    (.padds 5 6 7 .h, 0x7FFF0001, 0x00010001, 0, 0x7FFF0002), (.psubs 5 6 7 .h, 0x80000000, 0x00010000, 0, 0x80000000),
    (.paddsn 5 6 7 .b, 0xFF000001, 0x01000001, 0, 0xFF000002), (.psubsn 5 6 7 .b, 0x00000005, 0x01000001, 0, 4),
    (.pmin 5 6 7 .h, 0xFFFF0001, 0, 0, 0xFFFF0000), (.pmax 5 6 7 .h, 0xFFFF0001, 0, 0, 1), (.pminn 5 6 7 .h, 0xFFFF0001, 0, 0, 0),
    (.pmaxn 5 6 7 .h, 0xFFFF0001, 0, 0, 0xFFFF0001), (.pavg 5 6 7 .b, 0xFF, 2, 0, 1), (.pmul 5 6 7 .b, 0x02030405, 0x10101010, 0, 0x20304050),
    (.pmulq 5 6 7 .h, 0x40004000, 0x40004000, 0, 0x20002000), (.psll 5 6 7 .b, 0x81818181, 1, 0, 0x02020202),
    (.psrl 5 6 7 .b, 0x81818181, 1, 0, 0x40404040), (.psra 5 6 7 .b, 0x80808080, 9, 0, 0xC0C0C0C0),
    (.pdot 5 6 7 .b, 0x01FF0203, 0x01010101, 0, 5), (.ppkl 5 6 7 .h, 0x22221111, 0x44443333, 0, 0x33331111),
    (.ppkh 5 6 7 .h, 0x22221111, 0x44443333, 0, 0x44442222)] = true := by decide +kernel
-- R328, R329: the worked example, and by hand
theorem test_complex : gives regs [(.cmul 5 6 7, 0x40004000, 0xE0004000, 0, 0x10003000), (.cmulc 5 6 7, 0x40004000, 0xE0004000, 0, 0x30001000),
    (.cmac 5 6 7 8, 0x40004000, 0xE0004000, 0x10003000, 0x20006000), (.cmacc 5 6 7 8, 0x40004000, 0xE0004000, 0, 0x30001000),
    (.cadd 5 6 7, 0x7FFF0001, 0x00010001, 0, 0x7FFF0002), (.csub 5 6 7, 0x00050007, 0x00020003, 0, 0x00030004),
    (.cconj 5 6, 0x80000001, 0, 0, 0x7FFF0001), (.cmulj 5 6, 0x00020003, 0, 0, 0x0003FFFE), (.cmag2 5 6, 0x00030004, 0, 0, 25),
    (.cshr 5 6 7, 0x00050005, 1, 0, 0x00030003), (.pdotaH 5 6 7 8, 0x00040002, 0x00050003, 1, 27),
    (.pdotaB 5 6 7 8, 0x01FF0203, 0x01010101, 1, 6), (.pdotasH 5 6 7 8, 0x00010001, 0x00010001, 0x7FFFFFFF, 0x7FFFFFFF),
    (.pdotasB 5 6 7 8, 0x00000001, 0x000000FF, 0x80000000, 0x80000000)] = true := by decide +kernel
-- R331 to R334, by hand: 1.0, 2.0, 3.0 are 0x3F800000, 0x40000000, 0x40400000
theorem test_float : gives regs [(.fadd 5 6 7 false, 0x3F800000, 0x40000000, 0, 0x40400000), (.fsub 5 6 7 false, 0x40400000, 0x3F800000, 0, 0x40000000),
    (.fmul 5 6 7 false, 0x40000000, 0x40400000, 0, 0x40C00000), (.fdiv 5 6 7 false, 0x3F800000, 0, 0, 0x7F800000),
    (.fsqrt 5 6 false, 0x40800000, 0, 0, 0x40000000), (.fsqrt 5 6 false, 0xBF800000, 0, 0, 0x7FC00000),
    (.fmadd 5 6 7 8 false, 0x40000000, 0x40400000, 0x3F800000, 0x40E00000), (.fmsub 5 6 7 8 false, 0x40000000, 0x40400000, 0x3F800000, 0x40A00000),
    (.fnmsub 5 6 7 8 false, 0x40000000, 0x40400000, 0x3F800000, 0xC0A00000), (.fnmadd 5 6 7 8 false, 0x40000000, 0x40400000, 0x3F800000, 0xC0E00000),
    (.fmin 5 6 7 false, 0, 0x80000000, 0, 0x80000000), (.fmax 5 6 7 false, 0x80000000, 0, 0, 0), (.fabs 5 6 false, 0xBF800000, 0, 0, 0x3F800000),
    (.fneg 5 6 false, 0, 0, 0, 0x80000000), (.fcpys 5 6 7 false, 0x3F800000, 0x80000000, 0, 0xBF800000),
    (.fxors 5 6 7 false, 0xBF800000, 0x80000000, 0, 0x3F800000), (.fcmpeq 5 6 7 false, 0, 0x80000000, 0, 1),
    (.fcmplt 5 6 7 false, 0x7FC00000, 0, 0, 0), (.fcmple 5 6 7 false, 0x3F800000, 0x3F800000, 0, 1), (.fclass 5 6 false, 0x3F800000, 0, 0, 0x7F02),
    (.fclass 5 6 false, 0x80000000, 0, 0, 8)] = true := by decide +kernel
theorem test_convert : gives regs [(.fcvtWF 5 6, 0x40200000, 0, 0, 2), (.fcvtWnF 5 6, 0x40600000, 0, 0, 4), (.fcvtFW 5 6, 0xFFFFFFFD, 0, 0, 0xC0400000),
    (.fcvtFWn 5 6, 0x80000000, 0, 0, 0x4F000000)] = true := by decide +kernel
-- R334: the worked example of BF16 lanes, rounding to nearest and up
def bf16 (rnd x y : Word) : State := thr { sl0 [(6, x), (7, y)] with pend := BitVec.ofNat 16 (0x8110 + 0x1000 * rnd.toNat) }
theorem test_packed_float : [((0 : Word), (0x40403F80 : Word)), (3, 0x40413F81)].all (fun p =>
    let t := after (.fadd 5 6 7 true) (bf16 p.1 0x40403F80 0x3C003B80)
    t.reg 5 = p.2 && t.me.fflags = 1) = true := by decide +kernel
theorem test_half_conversions : ((after (.fcvtH2F 5 6 7) (bf16 0 0x3F800000 0x40000000)).reg 5 = 0x40003F80 &&
    (after (.fcvtFHl 5 6) (bf16 0 0x40003F80 0)).reg 5 = 0x3F800000 && (after (.fcvtFHh 5 6) (bf16 0 0x40003F80 0)).reg 5 = 0x40000000 &&
    (after (.fcvtH2H2 5 6) (bf16 0 0x40003F80 0)).reg 5 = 0x40003F80) = true := by decide +kernel

-- R301, R302, R335, R336: the offset that follows each
def goesTo (s : State) (l : List (Instr × Word)) : Bool := l.all fun p => (after p.1 s).me.pc = p.2
theorem test_branches : goesTo (thr (sl0 [(6, 1), (7, 0xFFFFFFFF), (9, 0)])) [(.beq 6 6 10, 0x114), (.bne 6 6 10, 0x104), (.bne 6 7 0xFFA, 0xF4),
    (.blt 7 6 4, 0x108), (.bge 7 6 4, 0x104), (.bltn 7 6 4, 0x104), (.bgen 7 6 4, 0x108), (.bbs 6 0 4, 0x108), (.bbc 6 0 4, 0x104),
    (.cBeqz 1 4, 0x108), (.cBnez 1 0xFC, 0x104), (.cJ 0x7FF, 0xFE), (.jal 1 4, 0x108), (.jalr 6 6 3, 4), (.add 5 6 7, 0x104)] = true := by
  decide +kernel
theorem test_links : ((after (.jal 1 4) (thr (sl0 []))).reg 1 = 0x104 && (after (.jalr 6 6 3) (thr (sl0 [(6, 1)]))).reg 6 = 0x104) = true := by
  decide +kernel
theorem test_short : (let s := thr (sl0 [(9, 5), (10, 3), (20, 77)])
    [(Instr.cAddi 1 0xFF, (4 : Word)), (.cLi 1 0x80, 0xFFFFFF80), (.cMv 1 20, 77), (.cAdd 1 2, 8), (.cSub 1 2, 2), (.cAnd 1 2, 1), (.cOr 1 2, 7),
      (.cXor 1 2, 6), (.cSll 1 2, 40), (.cSrl 1 2, 0), (.cSra 1 2, 0)].all fun p => (after p.1 s).reg 9 = p.2) = true := by decide +kernel
theorem test_extension : ((after (.movxToX 1 6) (thr (sl0 [(6, 9)]))).xreg 1 = 9 &&
    (after (.lox 1 0x34) (thr { sl0 [] with x := [(1, 0x12)] })).xreg 1 = 0x1234) = true := by decide +kernel
theorem test_prefix : ((after (.fmt 3 1 2) (thr (sl0 []))).me.pend = 0xB210 && (after .rel (thr { sl0 [] with pend := 0x8110 })).me.pend = 0x8118 &&
    (after (.cls 2) (thr (sl0 []))).me.pend = 5) = true := by decide +kernel

/-- A work cycle by which every request and every datum of cluster 0 has arrived. -/
def later (s : State) : State := s.modCluster 0 fun c => { c with cycle := c.cycle + 64 }
/-- The banks that hold something grant it, twice. -/
def granted (s : State) : State := let u := later s; (u.hot ++ u.hot).foldl (fun s b => after (.bankGrant b) s) u
/-- The state after an instruction of slot 35 whose requests its banks have served and answered. -/
def settled (i : Instr) (s : State) : State := after (.replyArrival 35 accessId none) (later (granted (after i s)))

-- R340 to R344: the bytes 11 22 33 84 at offset 0x40 of the vault
def mem0 : State := thr (sl0 [(3, 0x40), (6, 2), (7, 9), (10, 0xAABBCCDD), (11, 1)]) {} {} [(0x40, 0x11), (0x41, 0x22), (0x42, 0x33), (0x43, 0x84)]
theorem test_loads : [(Instr.lb 5 3 2 3, (0xFFFFFF84 : Word)), (.lbn 5 3 2 3, 0x84), (.lh 5 3 2 1, 0xFFFF8433), (.lhn 5 3 2 1, 0x8433),
    (.lw 5 3 2 0, 0x84332211), (.lwf 5 3 2 0, 0x84332211), (.ferd 5 3 2 0, 1), (.tadd 5 3 6 2, 0x84332211)].all
      (fun p => (settled p.1 mem0).reg 5 = p.2) = true := by decide +kernel
theorem test_load_ranges : ((settled (.ld 4 3 2 0) mem0).reg 4 = 0x84332211 && (settled (.lq 12 3 2 0x1FF) (thr (sl0 [(3, 0x50)]) {} {}
    [(0x40, 0x11), (0x4C, 7)])).reg 15 = 7) = true := by decide +kernel
theorem test_stores : [(Instr.sb 10 3 2 1, (0x8433DD11 : Word)), (.sh 10 3 2 1, 0xCCDD2211), (.sw 10 3 2 0, 0xAABBCCDD), (.sd 10 3 2 0, 0xAABBCCDD),
    (.swf 10 3 2 0, 0xAABBCCDD), (.feset 10 3 2 0, 0x84332211), (.cSw 2 3 0, 0x84332211), (.tadd 5 3 6 2, 0x84332213), (.tand 5 3 6 2, 0),
    (.tor 5 3 7 2, 0x84332219), (.txor 5 3 7 2, 0x84332218), (.tmin 5 3 6 2, 0x84332211), (.tmax 5 3 6 2, 2), (.tminn 5 3 6 2, 2),
    (.tmaxn 5 3 6 2, 0x84332211), (.tswap 5 3 7 2, 9), (.tcas 5 3 6 2, 0x84332211), (.twinc 5 3 6 2, 0)].all
      (fun p => vaultBytes (granted (after p.1 mem0)) 0x40 4 = p.2.toNat) = true := by decide +kernel
theorem test_teller_fadd : tellerFadd 0x3F800000 0x40000000 = 0x40400000 := by decide +kernel
theorem test_full_empty : (let bit := fun i => vFullOf (granted (after i mem0)) 0x10
    bit (.lwt 5 3 2 0) = false && bit (.feset 10 3 2 0) && bit (.feset 6 3 2 0) = false &&
      (granted (after (.swp 6 3 2 0) mem0)).me.run = .parked (.fullEmpty none)) = true := by
  decide +kernel

-- R192, R391: SYSCALL with its handler at 0x2000, and the return
theorem test_syscall : (let t := after .syscall (thr (sl0 []) { tvec := 0x2001 })
    t.me.pc = 0x2000 && t.me.epc = 0x100 && t.me.ecause = 10 && t.me.eval = 0 && t.me.status = 1) = true := by decide +kernel
theorem test_illegal : (let t := after .illegalEncoding (thr (sl0 []) { tvec := 0x2001 })
    t.me.pc = 0x2000 && t.me.ecause = 1 && t.me.eval = 0x1234567) = true := by decide +kernel
theorem test_eret : (let t := after .eret (thr { sl0 [] with epc := 0x204, status := 0x8110_0001 })
    t.me.pc = 0x204 && t.me.pend = 0x8110 && t.me.status = 0) = true := by decide +kernel
-- R193: no handler
theorem test_stop : (let t := after .brk (thr (sl0 []))
    t.me.run = .stopped && t.me.ecause = 9 && t.me.pc = 0x100) = true := by decide +kernel
-- R231: MISALIGN 5, SEGLIMIT 3, SEGRIGHTS 4, with the offset as EVAL
theorem test_segment_traps : [(Instr.lw 5 3 2 0, (0x41 : Word), (5 : Word)), (.lw 5 3 2 0, 0x8000000, 3), (.lw 5 3 3 0, 0, 3), (.lh 5 3 2 0, 3, 5)].all
    (fun p => let t := after p.1 (thr (sl0 [(3, p.2.1)]) { tvec := 1 })
      t.me.ecause = p.2.2 && t.me.eval = p.2.1) = true := by decide +kernel
-- R189, R361 to R363, R393, R396, R399
theorem test_wid : ([6, 5, 3, 2, 1, 0].zipIdx.all fun p =>
    (after (.wid 5 (BitVec.ofNat 3 p.2)) (thr { sl0 [] with widLo := 12718 } { widshape := 0x01084103 } { launch := some launch0 })).reg 5 =
      BitVec.ofNat 32 p.1) = true := by decide +kernel
theorem test_coreid : (after (.coreid 5) (thr (sl0 []) {} { launch := some launch0 })).reg 5 = 35 := by decide +kernel
theorem test_timer : (let t := after (.dlarm 5 6) (thr (sl0 [(6, 1000)]))
    t.reg 5 = 1 && t.me.dlstat = 16 && (smGet {} (t.cluster 0).timers 0).count = 1000 && (after (.dldis 5) t).reg 5 = 1000) = true := by
  decide +kernel
/-- R189, R363: the decrements up to WB, 8 for a timer that runs; one that reaches 0 by then has expired. -/
theorem test_timerInWb : ([(1000, 992, 0), (9, 1, 0), (8, 0, 0x20), (1, 0, 0x20)].all fun p =>
    let t := after (.dldis 5) (thr { sl0 [] with dlstat := 0x12 } {} { timers := [(2, { armed := true, count := word p.1, owner := 35 })] })
    t.reg 5 = word p.2.1 && t.me.dlstat &&& 0xF0 = word p.2.2 && t.me.deadline = none && (t.cluster 0).timers = []) = true := by decide +kernel
theorem test_wait : (after (.wait 5 6) (thr (sl0 [(6, 100)]) {} { cycle := 50 })).me.run = .parked (.wait 158 5) := by decide +kernel
theorem test_yield_halt : ((after .yield (thr (sl0 []))).me.yielding && (after .halt (thr (sl0 []))).me.run = .idle &&
    ((after .halt (thr (sl0 []))).core 2).count = 1) = true := by decide +kernel
theorem test_segments : ((after (.segrd 8 2) (thr (sl0 []))).reg 11 = 0x0000081B && (after (.segnull 2) (thr (sl0 []))).seg 2 = 0) = true := by
  decide +kernel
theorem test_csr : ((after (.csrx 5 6 0x005) (thr { sl0 [(6, 7)] with escratch := 3 })).reg 5 = 3 &&
    (after (.csrx 5 6 0x005) (thr { sl0 [(6, 7)] with escratch := 3 })).me.escratch = 7 &&
    (after (.csrm 21 21 0x000) (thr (sl0 [(21, 4)]))).me.status = 4) = true := by decide +kernel
theorem test_csr_privilege : (let t := after (.csrr 5 0x120) (thr (sl0 []) { tvec := 1 })
    t.me.ecause = 2 && t.me.eval = 0x120) = true := by decide +kernel
theorem test_mintld_privilege : (after (.mintld 6 2) (thr (sl0 []) { tvec := 1 })).me.ecause = 2 := by decide +kernel
-- R349, R354, R357, R347, R362
def lch (sl : Slot) (c : Core := {}) (u : Cluster := {}) (v : List Host.Cell := []) : State := thr sl c { u with launch := some launch0 } v
theorem test_msend : (let t := after (.msend 8 6 7 1) (lch (sl0 [(6, 9), (7, 0x00050003), (8, 11), (9, 22)]))
    let m := packetMessage t (flitHeader (((t.router 0).ins.flatMap fun e => e.2.flits.map (·.1)).headD {}))
    (m.typ, m.seq, m.words) = (3, 5, [11, 22])) = true := by decide +kernel
theorem test_mpoll : (after (.mpoll 8 6 7 1) (lch (sl0 []))).reg 7 = 0x80000000 := by decide +kernel
theorem test_streams : ((after (.sget 5 7 1) (lch (sl0 []) { inputs := [(1, { words := [42, 43] })] })).reg 5 = 42 &&
    (smGet {} ((after (.sput 6 1) (lch (sl0 [(6, 8)]) { ports := [(1, { bound := true })] })).core 2).ports 1).words = [8]) = true := by
  decide +kernel
theorem test_spawn : (let t := settled (.spawn 3 6 2) (lch (sl0 [(3, 0x40), (6, 0x300)]))
    t.me.pc = 0x300 && vaultBytes t 0x40 4 = 1 && vFullOf t 0x10 = false && (t.core 2).deque.map (·.pc) = [0x104]) = true := by decide +kernel
theorem test_join_waits : (granted (after (.join 3 2) { mem0 with vfull := [(0x10, false)] })).me.run = .parked (.fullEmpty none) := by decide +kernel
theorem test_bara : (let t := after (.bara 5 2) (lch (sl0 []) {} { barriers := [(2, { cores := 4, slots := 0x18, gen := 6 })] })
    t.reg 5 = 6 && (smGet {} (t.cluster 0).barriers 2).arr0 = [35]) = true := by decide +kernel
theorem test_tsubmit : (let t := after (.tsubmit 3) (lch (sl0 [(3, 0x40)]))
    vaultBytes t 0x5C 4 = 0x20 && (t.cluster 0).qlen = 1 && smGet 0 ((linkReleased 0 t).cluster 0).heads 0 = 0x41) = true := by decide +kernel
theorem test_tdone_traps : (after .tdone (lch (sl0 []) { tvec := 1 })).me.ecause = 16 := by decide +kernel
-- R284, R368, R376, R380: tiles and copies
def eng (sl : Slot) (e : Engine := {}) : State := { lch sl with engines := [(0, e)] }
theorem test_tiles : (let e : Engine := { tiles := [(256, 0x3F800000), (257, 7), (512, 0x40000000)] }
    ((after (.mzero 1) (eng (sl0 []) e)).engine 0).tileAt 1 0 = 0 && ((after (.mtran 3 1) (eng (sl0 []) e)).engine 0).tileAt 3 16 = 7 &&
      ((after (.mepiAdd 3 1 2) (eng (sl0 []) e)).engine 0).tileAt 3 0 = 0x40400000) = true := by decide +kernel
/-- The line ports serve what copy 0 of engine 0 has asked of them, and the copy goes on. -/
def moved (s : State) : State := after (.copyComplete 0 0) (let u := later s; u.hot.foldl (fun s b => after (.linePortAccess b) s) u)
theorem test_bfill : (let t := after (.bfill 3 6 7 2 false) { lch { sl0 [(3, 0x400), (6, 0x01020304), (7, 0x80)] with x := [(0, 8)] } with cur := 35 }
    ((t.bulkOf 0).copies.map (·.accepted)) = [true] && vFullOf t 0x20 = false &&
      vaultBytes (moved (moved t)) 0x400 8 = 0x0102030401020304 && vFullOf (moved (moved (moved t))) 0x20) = true := by
  decide +kernel

-- R18, R19, R136: boot is due at reset; an instruction that stands where the next step fetches runs
theorem test_first_step : ([(32, 0x00183285, (12 : Word)), (32, 0x00128293, 0x00128000), (16, 0x0704, 0)].all fun p =>
    match step (State.reset.withFetchWord p.1 p.2.1) with
    | .next t => t.reg 5 = p.2.2
    | _ => false) = true := by decide +kernel
theorem test_reset_boot_due : State.reset.due = [.boot] := by decide

/-! ### Witnesses: states and operands that meet the hypotheses of the statements -/

def thrTrap : State := lch (sl0 [(3, 0x40), (6, 2), (7, 9)]) { tvec := 0x2001 }

-- AluResults, ImmediateAndShortResults, MultiplyDivideResults, PackedResults, ComplexAndAccumulateResults, BranchesAndJumps,
-- OperandExtensionRegisters
theorem wit_clear : Clear (regs 7 0 3) ∧ Clear (regs 0x80000000 0xFFFFFFFF 0) := by unfold Clear Unmapped; decide +kernel
theorem wit_divisors : (regs 7 0 3).reg 7 = 0 ∧ (regs 0x80000000 0xFFFFFFFF 0).reg 7 ≠ 0 := by decide +kernel
theorem wit_aluReserved : ∃ w : BitVec 32, w.toNat % 128 = 3 ∧ 27 ≤ w.toNat / 2 ^ 22 := ⟨BitVec.ofNat 32 (rr 1 27 0 8 7), by decide⟩
theorem wit_muldivReserved : ∃ w : BitVec 32, w.toNat % 128 = 23 ∧ 9 ≤ w.toNat / 2 ^ 22 := ⟨BitVec.ofNat 32 (rr 11 9 0 8 7), by decide⟩
theorem wit_aluReservedOperand : ∃ w : BitVec 32, w.toNat % 128 = 3 ∧ 20 ≤ w.toNat / 2 ^ 22 ∧ w.toNat / 2 ^ 17 % 32 ≠ 0 :=
  ⟨BitVec.ofNat 32 (rr 1 20 1 8 7), by decide⟩

-- FloatArithmeticResults, FloatSelectResults, FloatConversionResults
theorem wit_float : FmtOnly (regs 1 2 3) ∧ fpIllegal false (regs 1 2 3) = false := by unfold FmtOnly Unmapped; decide +kernel
theorem wit_floatPacked : FmtOnly (bf16 3 1 2) ∧ fpIllegal true (bf16 3 1 2) = false ∧ (bf16 3 1 2).fmtA = 1 ∧ (bf16 3 1 2).fmtB = 1 := by
  unfold FmtOnly Unmapped; decide +kernel
theorem wit_floatDefault : (let s := thr { sl0 [] with fmtdef := 0x22 }
    FmtOnly s ∧ fpIllegal true s = false ∧ s.fmtA = 2 ∧ s.fmtB = 2) := by unfold FmtOnly Unmapped; decide +kernel

-- Rounding
theorem wit_roundNearestEven : rneCtx.mode = 0 ∧ (Val.fin false 3 (-1) false).Exact ∧
    bitOf (fFP32.round rneCtx 0 (Val.fin false 3 (-1) false)).2.fl 2 = false := ⟨rfl, rfl, by decide +kernel⟩
theorem wit_floatValues : (0x3F800000 / 2 ^ fFP32.mb % 2 ^ (fFP32.w - 1 - fFP32.mb) < 2 ^ (fFP32.w - 1 - fFP32.mb) - 1) ∧
    (0x7F800000 / 2 ^ fFP32.mb % 2 ^ (fFP32.w - 1 - fFP32.mb) = 2 ^ (fFP32.w - 1 - fFP32.mb) - 1) := by decide +kernel

-- Prefixes: none pending, another kind pending, each kind refused
theorem wit_prefixNone : bitOf (sl0 []).pend 15 = false ∧ bitOf (sl0 []).pend 3 = false ∧ bitOf (sl0 []).pend 2 = false := by decide
theorem wit_prefixOther : bitOf (0x8110 : BitVec 16) 3 = false ∧ ¬ (bitOf (0x8110 : BitVec 16) 2 = true ∧ fieldOf (0x8110 : BitVec 16) 0 2 = 3) := by
  decide
def pending (p : BitVec 16) : State := lch { sl0 [(3, 0x40)] with pend := p } { tvec := 0x2001 }
theorem wit_refusedPrefix : ∀ s ∈ [pending 0x8110, pending 0x0008, pending 0x0004], Unmapped s ∧ Handles s ∧
    (bitOf s.me.pend 15 = true ∨ bitOf s.me.pend 3 = true ∨ bitOf s.me.pend 2 = true) := by unfold Unmapped Handles; decide +kernel

-- VaultLoads, VaultStores: every size, at the first and the last place of the vault below the mint windows
theorem wit_vaultLoads : Clear mem0 ∧ mem0.me.relaxed = [] ∧ ∀ n ∈ [1, 2, 4, 8, 16],
    OwnVaultAccess mem0 2 (mem0.memOffset 3 0) n aLoad ∧ OwnVaultAccess mem0 2 0 n aLoad ∧ OwnVaultAccess mem0 2 (0x4000000 - n) n aLoad := by
  unfold Clear Unmapped OwnVaultAccess; decide +kernel
theorem wit_vaultStores : ∀ n ∈ [1, 2, 4, 8, 16],
    OwnVaultAccess mem0 2 (mem0.memOffset 3 0) n aStore ∧ OwnVaultAccess mem0 2 0 n aStore ∧ OwnVaultAccess mem0 2 (0x4000000 - n) n aStore := by
  unfold OwnVaultAccess; decide +kernel
theorem wit_shortVault : (let s := thr (sl0 [(9, 0x40)])
    Clear s ∧ s.me.relaxed = [] ∧ ∀ f ∈ [(0 : Reg), 31], ∀ acc ∈ [aLoad, aStore],
      OwnVaultAccess s 1 (s.memOffset (BitVec.ofNat 5 (8 + (1 : BitVec 3).toNat)) (BitVec.ofNat 32 (4 * f.toNat))) 4 acc) := by
  unfold Clear Unmapped OwnVaultAccess; decide +kernel

-- VaultLoads, VaultStores, FullEmpty, Tellers: a bank with one request of slot 35, and the access it belongs to, performed
def access0 (u : VaultUse) (n : Nat) : VaultAccess := { use_ := u, size := 4, left := n }
def req0 (op : WordOp) (asker : Asker := .access 35 0) : BankReq := { requester := 2, word := 0x10, op := op, asker := asker }
def serving (r : BankReq) (a : Option VaultAccess) (run : Run := .busy) (full : Bool := true) : State :=
  { thr { sl0 [] with run := run, access := a } with
    banks := [(bankOf 0x10, { held := [r] })], vfull := if full then [] else [(0x10, false)] }
theorem wit_grants (r : BankReq) (a : Option VaultAccess) (run : Run) (full : Bool) (h : r.word = 0x10) (ha : r.arrive = 0) :
    Grants (serving r a run full) (bankOf 0x10) r := by
  have hb : ((serving r a run full).bank (bankOf 0x10)).held = [r] := by
    show (smGet {} [(bankOf 0x10, ({ held := [r] } : Bank))] (bankOf 0x10)).held = [r]
    simp [smGet]
  exact ⟨by rw [h], by rw [ha]; exact Nat.zero_le _, [], [], hb, fun _ hq => absurd hq List.not_mem_nil, fun _ hq => absurd hq List.not_mem_nil⟩
theorem wit_serves : Serves (serving (req0 .read) (some (access0 (.load 5 false) 1))) (bankOf 0x10) (req0 .read) 35 0 (access0 (.load 5 false) 1) ∧
    Serves (serving (req0 (.write 3 9)) (some (access0 .store 1))) (bankOf 0x10) (req0 (.write 3 9)) 35 0 (access0 .store 1) ∧
    Serves (serving (req0 (.teller 0 1 0)) (some (access0 (.word (some 5)) 1))) (bankOf 0x10) (req0 (.teller 0 1 0)) 35 0
      (access0 (.word (some 5)) 1) ∧ ∀ w, vErr (serving (req0 .read) none) w = 0 :=
  ⟨⟨wit_grants _ _ _ _ rfl rfl, rfl, by decide, by decide +kernel, by decide⟩, ⟨wit_grants _ _ _ _ rfl rfl, rfl, by decide, by decide +kernel, by decide⟩,
    ⟨wit_grants _ _ _ _ rfl rfl, rfl, by decide, by decide +kernel, by decide⟩, fun _ => rfl⟩
theorem wit_performed : ∀ u ∈ [VaultUse.load 5 true, .store, .word (some 5), .word none, .segment 3 1, .mint, .classMap 0x801 none],
    Performed (serving (req0 .read) (some (access0 u 0))) 35 (access0 u 0) := by unfold Performed Unheld; decide +kernel
theorem wit_fullEmptyBank : (∀ full ∈ [true, false], ∀ code ∈ [0, 1, 2, 3, 4, 5], let s := serving (req0 (.fe code 9) (.thread 35)) none (.parked (.fullEmpty none)) full;
    (s.slot 35).run = .parked (.fullEmpty none) ∧ vFullOf s 0x10 = full ∧ vErr s 0x10 = 0 ∧ (s.bank (bankOf 0x10)).waiters.length < 8) ∧
    (req0 (.fe 0 9) (.thread 35)).requester ≠ 1024 := by decide +kernel

-- FullEmpty, Tellers
def emptyWord : State := { mem0 with vfull := [(0x10, false)] }
theorem wit_fullEmpty : ∀ s ∈ [mem0, emptyWord], Clear s ∧ s.me.relaxed = [] ∧
    (∀ acc ∈ [aLwf, aLwt, aSwp], OwnVaultAccess s 2 (s.memOffset 3 0) 4 acc) ∧ (s.bank (bankOf 0x10)).waiters.length < 8 := by
  unfold Clear Unmapped OwnVaultAccess; decide +kernel
theorem wit_fullEmptyBits : vFullOf mem0 (ownKey mem0 0x40 / 4) = true ∧ vFullOf emptyWord (ownKey emptyWord 0x40 / 4) = false := by
  decide +kernel
theorem wit_tellers : OwnVaultAccess mem0 2 (mem0.reg 3).toNat 4 aTeller := by unfold OwnVaultAccess; decide +kernel

-- ResidentMemoryAccesses: s3 GLOBAL over a page of 4,096 bytes at 0, placed PINNED at slice 5
def globalSeg : BitVec 128 := BitVec.ofNat 128 (2 * 2 ^ 56 + 0x1000 * 2 ^ 64 + 0x1B * 2 ^ 96)
def page : TlbEntry := { va := 0, size := 0, leaf := BitVec.ofNat 64 (0x3C1 + 2 ^ 10 + 5 * 2 ^ 12) }
/-- The routers of cluster 0 with their links up. -/
def meshUp : SMap Router := (List.range 64).map fun r => (r, { links := (List.range 5).map fun p => (p, { st := .up }) })
def resident : State :=
  { thr { sl0 [(3, 0x40)] with sg := [(1, globalSeg), (3, globalSeg)] } { tlb := [page] }
    with routers := meshUp, slices := [(5, { lines := [(1, { valid := true }), (63, { valid := true })] })] }
theorem wit_near : coreRouter resident.myCore = 5 ∨ (routeOf resident (coreRouter resident.myCore) 5 (resident.clsOf (resident.seg 3) = 0) = .there [] ∧
    routeOf resident 5 (coreRouter resident.myCore) = .there []) := by decide +kernel
theorem wit_resident : Clear resident ∧ resident.me.relaxed = [] ∧ ∀ n ∈ [1, 2, 4, 8, 16], ∀ acc ∈ [aLoad, aStore],
    ResidentAccess resident 3 (resident.memOffset 3 0) n acc 5 0x40 ∧ ResidentAccess resident 3 (0x1000 - n) n acc 5 (0x1000 - n) := by
  refine ⟨by unfold Clear Unmapped; decide +kernel, by decide, fun n hn acc ha => ?_⟩
  simp only [List.mem_cons, List.not_mem_nil, or_false] at hn ha
  rcases hn with rfl | rfl | rfl | rfl | rfl <;> rcases ha with rfl | rfl <;>
    exact ⟨⟨by decide +kernel, by decide +kernel, by decide +kernel, ⟨page, by decide +kernel⟩, wit_near, by decide +kernel,
      by decide +kernel⟩, ⟨by decide +kernel, by decide +kernel, by decide +kernel, ⟨page, by decide +kernel⟩, wit_near,
      by decide +kernel, by decide +kernel⟩⟩

-- RelaxedAccessesAndFences
theorem wit_relaxed : Unmapped (pending 8) ∧ (pending 8).me.pend = 0x0008 ∧ (pending 8).me.relaxed.length < 8 ∧
    OwnVaultAccess (pending 8) 2 ((pending 8).memOffset 3 0) 4 aLoad ∧ OwnVaultAccess (pending 8) 2 ((pending 8).memOffset 3 0) 4 aStore := by
  unfold Unmapped OwnVaultAccess; decide +kernel
def outstanding (p : Place) : State := thr { sl0 [] with relaxed := [{ id := 0, place := p }] }
theorem wit_fenceWaits : Clear (outstanding (.vault 0 0 false)) ∧ Clear (outstanding (.home 0 0)) ∧
    (outstanding (.vault 0 0 false)).me.relaxed.any (fun r => r.place.quick) = true ∧
    (outstanding (.home 0 0)).me.relaxed.any (fun r => !r.place.quick) = true ∧
    (outstanding (.home 0 0)).me.relaxed.any (fun r => r.place.quick) = false ∧
    (outstanding (.vault 0 0 false)).me.relaxed.any (fun r => !r.place.quick) = false := by unfold Clear Unmapped; decide +kernel
theorem wit_fenceGoes : (regs 1 2 3).me.relaxed = [] ∧ (∀ c ∈ ((regs 1 2 3).engine (groupOf (regs 1 2 3).myCore)).queue, c.slot ≠ 35) ∧
    (∀ c ∈ ((regs 1 2 3).engine (groupOf (regs 1 2 3).myCore)).retiring, c.1 ≠ 35) ∧
    (∀ c ∈ ((regs 1 2 3).bulkOf (groupOf (regs 1 2 3).myCore)).copies, c.slot = 35 → c.orphan = true) := by decide +kernel

-- Traps, ReturnsAndBreaks
theorem wit_traps : Unmapped thrTrap ∧ Handles thrTrap ∧ thrTrap.me.pend = 0 ∧ (thrTrap.core thrTrap.myCore).brkhalt = false := by
  unfold Unmapped Handles; decide +kernel
def due3 : State := thr { sl0 [] with deadline := some 3, deferred := some (6, true), stepDue := true } { tvec := 1 }
theorem wit_pendingTraps : Unmapped due3 ∧ Handles due3 ∧ Unheld due3 due3.cur ∧ due3.me.deadline = some 3 ∧ due3.me.deferred = some (6, true) ∧
    due3.me.stepDue = true ∧ (due3.core due3.myCore).brkhalt = false := by unfold Unmapped Handles Unheld; decide +kernel
theorem wit_stops : (let s := thr { sl0 [] with status := 1 } { tvec := 1 }
    Unmapped s ∧ bitOf s.me.status 0 = true ∧ s.me.pend = 0 ∧ (s.core s.myCore).brkhalt = false) := by unfold Unmapped; decide +kernel
theorem wit_stopsDisabled : (let s := thr (sl0 [])
    Unmapped s ∧ bitOf (s.core s.myCore).tvec 0 = false) := by unfold Unmapped; decide +kernel
theorem wit_returns : Clear (thr { sl0 [] with status := 1 }) ∧ bitOf (thr { sl0 [] with status := 1 }).me.status 0 = true ∧
    Clear thrTrap ∧ bitOf thrTrap.me.status 0 = false ∧ bitOf (thrTrap.core thrTrap.myCore).tvec 0 = true := by
  unfold Clear Unmapped; decide +kernel
theorem wit_breakHalts : (let s := thr { sl0 [] with stepDue := true } { brkhalt := true }
    (s.core s.myCore).brkhalt = true ∧ Clear s ∧ s.me.stepDue = true) := by unfold Clear Unmapped; decide +kernel

-- SegmentChecksTrap: each test fails where those before it pass
def segs4 (d : BitVec 128) (o : Word) : State := thr { sl0 [(3, o)] with sg := [(2, d)] } { tvec := 1 }
theorem wit_segmentChecks : (∀ s ∈ [segs4 ownSeg 1, segs4 ownSeg 0x7FFFFFD, segs4 ownSeg 0x8000000, segs4 0 0, segs4 ownSeg 0x4000000],
      Clear s ∧ Handles s ∧ isBursar s.myCore = false) ∧
    (segBase ownSeg + (segs4 ownSeg 1).memOffset 3 0) % 4 ≠ 0 ∧
    (segBase ownSeg + (segs4 ownSeg 0x8000000).memOffset 3 0) % 4 = 0 ∧ segLimit ownSeg < (segs4 ownSeg 0x8000000).memOffset 3 0 + 4 ∧
    ¬ (bitOf (globalSeg &&& 0xFFFFFFFF) 96 = true) ∧ segLimit (BitVec.ofNat 128 (2 ^ 66)) = 4 ∧
    ¬ (bitOf (BitVec.ofNat 128 (2 ^ 66)) 97 = true) ∧
    ¬ segLimit ownSeg < 0x4000000 + 4 ∧ segType ownSeg = 3 ∧ bitOf ownSeg 97 = true ∧ 0x4000000 < segBase ownSeg + 0x4000000 + 4 := by
  unfold Clear Unmapped Handles; decide +kernel

-- QueuesAndMarks: g29 mapped; its queue with an entry, with room, empty, full
def mapped (q : List QEntry) : State := thr { sl0 [(6, 2), (7, 3)] with qmap := 2 } { queues := if q = [] then [] else [(1, q)], tvec := 1 }
theorem wit_queues : (∀ q ∈ [[{ val := some 9 }], [], List.replicate 8 ({ val := some 1 } : QEntry)],
      (mapped q).me.pend = 0 ∧ (mapped q).me.marks = 0 ∧ (mapped q).me.taken = [] ∧ qOwned 35 ((mapped q).core (mapped q).myCore) = false ∧
      (∀ i < 4, bitOf (mapped q).me.qmap i = decide (i = 1)) ∧ Handles (mapped q) ∧ bitOf (mapped q).me.qmap (29 - 28) = true ∧
      smGet [] ((mapped q).core (mapped q).myCore).queues 1 = q ∧ (mapped q).me.undo = none ∧ nowAt (mapped q) 2 = 0) ∧ (5 : Reg) ≠ 29 ∧ (6 : Reg) ≠ 29 ∧
    (0 : Nat) < ({ val := some 9, ready := 1 } : QEntry).ready ∧ ({ mapped [] with slots := [(35, { (mapped []).me with undo := some {} })] } : State).me.undo = some {} := by
  unfold Handles; decide +kernel
theorem wit_marks : (let s := thr { sl0 [] with marks := 0x40 }
    s.me.pend = 0 ∧ s.me.qmap = 0 ∧ bitOf s.me.marks 6) := by decide +kernel

-- WaitsAndHalts
theorem wit_waits : Clear (regs 0 1 2) ∧ (regs 0 1 2).reg 6 = 0 ∧ (regs 0 1 2).reg 7 ≠ 0 := by unfold Clear Unmapped; decide +kernel
theorem wit_halt : (let s := thr { sl0 [] with handler := true, replyOwed := true, msg := { reply := true }, dlstat := 0x12 }
    Clear s ∧ s.me.tcb = none ∧ s.me.icnt = 0 ∧ retiredAll s.cur s = true) := by unfold Clear Unmapped; decide +kernel
theorem wit_haltTraps : (let s := thr { sl0 [] with tcb := some 64 } { tvec := 1 }
    Clear s ∧ Handles s ∧ s.me.tcb ≠ none) ∧ (let s := thr { sl0 [] with icnt := 1 } { tvec := 1 }
    Clear s ∧ Handles s ∧ s.me.tcb = none ∧ s.me.icnt ≠ 0) := by unfold Clear Unmapped Handles; decide +kernel

-- SegmentRegisters: a valid and an invalid descriptor in the table, an index past each bound
def descTable (i : Word) (status : Word) (d : List Host.Cell) : State :=
  thr { sl0 [(6, i)] with status := status } { segtab := 0x01000002, tvec := 1 } { launch := some launch0 } d
theorem wit_segld : (∀ s ∈ [descTable 1 0x100 [], descTable 1 0x100 [(0x11, 1)], descTable 2 0 [], descTable 1 0 []],
      Clear s ∧ Handles s ∧ isBursar s.myCore = false ∧ s.me.relaxed = []) ∧
    (2 : Nat) ≤ ((descTable 2 0 []).reg 6).toNat ∧ (descTable 1 0 []).prv = 0 ∧ (descTable 1 0x100 []).prv ≠ 0 ∧
    segValid false 1 (BitVec.ofNat 128 (vaultBytes (descTable 1 0x100 []) 16 16)) = true ∧
    segValid false 1 (BitVec.ofNat 128 (vaultBytes (descTable 1 0x100 [(0x11, 1)]) 16 16)) = false ∧
    (∀ j < 4, vErr (descTable 1 0x100 []) (16 / 4 + j) = 0) := by unfold Clear Unmapped Handles; decide +kernel

-- TlbAndMintInstructions
def sup : State := lch { sl0 [(6, 0), (7, 0x80000000)] with status := 0x100 } { tvec := 1 }
theorem wit_tlbinv : Clear sup ∧ sup.prv ≠ 0 ∧ sup.me.relaxed = [] ∧ (sup.core sup.myCore).sendReq.length < 8 ∧
    sup.partOf (dieOfCluster 0) = sup.partOf (dieOfCluster sup.myUnit) ∧ sup.myCore < 16388 ∧ coreRouter sup.myCore = 64 * 0 := by
  unfold Clear Unmapped; decide +kernel
theorem wit_tlbInvalidation : (let s := thr { sl0 [] with run := .parked (.tlbinv true 0 0 1) } {} { ctx := some (true, 0), tlb2 := [{}] }
    (s.slot 35).run = .parked (.tlbinv true 0 0 1) ∧ Unheld s 35) := by unfold Unheld; decide +kernel
theorem wit_mintBlocks : Clear sup ∧ isBursar sup.myCore = false ∧ segType (sup.seg 2) = 3 ∧ segOwn (sup.seg 2) = true ∧ (sup.reg 6).toNat % 64 = 0 ∧
    segTest false (sup.seg 2) (sup.reg 6).toNat 1536 4 aLoad = none ∧ segTest false (sup.seg 2) (sup.reg 6).toNat 1536 4 aStore = none ∧
    segBase (sup.seg 2) + (sup.reg 6).toNat + 1536 ≤ 0x4000000 ∧ (∀ i < 384, vErr sup (ownKey sup (4 * i) / 4) = 0) ∧
    thrTrap.prv = 0 ∧ Handles thrTrap := by unfold Clear Unmapped Handles; decide +kernel

-- CsrAccess, WorkAndTimers
theorem wit_csr : (∀ s ∈ [sup, thrTrap], Clear s ∧ Handles s ∧ isBursar s.myCore = false ∧ s.me.relaxed = [] ∧
      (∀ c ∈ (s.engine (groupOf s.myCore)).queue, c.slot ≠ s.cur) ∧ (∀ c ∈ (s.engine (groupOf s.myCore)).retiring, c.1 ≠ s.cur)) ∧
    sup.prv ≠ 0 ∧ thrTrap.prv = 0 ∧ thrTrap.reg 0 = 0 ∧ thrTrap.reg 6 ≠ 0 := by unfold Clear Unmapped Handles; decide +kernel
def timed (dl : Word) (n : Nat) : State :=
  thr { sl0 [(6, 5)] with dlstat := dl } { tvec := 1 } { timers := (List.range n).map fun i => (i, { armed := true, count := 9 }) }
theorem wit_timers : Clear (timed 0x12 16) ∧ Handles (timed 0x12 16) ∧ bitOf (timed 0x12 16).me.dlstat 4 = true ∧ (timed 0 0).reg 6 ≠ 0 ∧
    (timed 0 0).reg 7 = 0 ∧ Clear (timed 0 15) ∧ ¬ bitOf (timed 0 15).me.dlstat 4 = true ∧
    (smGet ({} : Timer) ((timed 0 15).cluster 0).timers 15).armed = false ∧
    (∀ j < 15, (smGet ({} : Timer) ((timed 0 15).cluster 0).timers j).armed = true) ∧ Clear (timed 0 16) ∧
    (∀ i < 16, (smGet ({} : Timer) ((timed 0 16).cluster 0).timers i).armed = true) ∧
    timerHeld (timed 0x12 16) = true ∧ timerGone (timed 0x13 3) = false ∧
    (let s := thr { sl0 [(6, 5)] with dlstat := 0x12 } {} { timers := [(2, { armed := true, count := 8 })] };
      timerGone s = true ∧ timerHeld s = false ∧ s.reg 6 ≠ 0 ∧ (smGet ({} : Timer) (s.cluster 0).timers 0).armed = false) := by unfold Clear Unmapped Handles; decide +kernel

-- BarrierInstructions: core 2 and slots 3 and 4 are members; arrivals of none, of slot 4, of slot 3, of slot 3 twice
def atBarrier (x : Barrier) : State := lch (sl0 [(6, 0x40)]) { tvec := 1 } { barriers := [(2, { x with cores := 4, slots := 0x18, gen := 6 })] }
theorem wit_barrier : (∀ x ∈ [({} : Barrier), { arr0 := [36] }, { arr0 := [35] }, { arr0 := [35], arr1 := [35] }],
      Clear (atBarrier x) ∧ isBursar (atBarrier x).myCore = false ∧ quietAll 35 (atBarrier x) = true ∧ (atBarrier x).me.relaxed = [] ∧
      Handles (atBarrier x) ∧ ((atBarrier x).core (atBarrier x).myCore).sendReq.length < 8) ∧
    bitOf (4 : BitVec 1024) 2 = true ∧ bitOf (0x18 : BitVec 16) 3 = true ∧ 16 * ((atBarrier {}).myCore % 1024) + 35 % 16 = 35 ∧
    ({ cores := 4, slots := 0x18 } : Barrier).members = 2 ∧ ((atBarrier {}).reg 6).toNat % 4 = 0 ∧ ((atBarrier {}).reg 6).toNat + 132 ≤ 0x4000000 := by
  unfold Clear Unmapped Handles; decide +kernel
theorem wit_barrierOthers : (∀ e ∈ (atBarrier {}).slots, ∀ i g r, e.2.run ≠ .parked (.barw i g r)) := by
  intro e he; simp only [atBarrier, lch, thr, List.mem_singleton] at he; subst he; intro i g r h; cases h
theorem wit_barrierWaits : ((6 : Word) - 1 - 5).getLsbD 31 = false ∧ ((6 : Word) - 1 - 6).getLsbD 31 = true ∧
    ¬ (bitOf (4 : BitVec 1024) 2 = true ∧ bitOf (0x10 : BitVec 16) 3 = true) := by decide +kernel
theorem wit_barcfg : (let s := lch (sl0 [(6, 0x40)]) {} {} [(0x40, 4), (0xC0, 0x18)]
    BitVec.ofNat 1024 (((List.range 32).map fun i => vaultBytes s (ownKey s (0x40 + 4 * i)) 4 * 2 ^ (32 * i)).sum) = 4 ∧
    BitVec.ofNat 16 (vaultBytes s (ownKey s (0x40 + 4 * 32)) 4) = 0x18 ∧ (4 : BitVec 1024) >>> (16 * 64) = 0) := by decide +kernel

-- MessageInstructions
theorem wit_messages : (let s := lch (sl0 [(6, 9), (7, 0x00050003)]) { tvec := 1 }
    Clear s ∧ Handles s ∧ isBursar s.myCore = false ∧ s.me.relaxed = [] ∧ launchCore s s.myCore ((s.reg 6).toNat % 2 ^ 14) = some 9 ∧
    (s.core s.myCore).sendReq.length < 8 ∧ (s.reg 7).toNat % 2 ^ 8 ≠ 0 ∧ (s.reg 8).toNat % 2 ^ 8 = 0 ∧
    launchCore s s.myCore ((s.reg 7).toNat % 2 ^ 14 + 1024) = none ∧ s.me.handler = false) := by unfold Clear Unmapped Handles; decide +kernel
theorem wit_mreply : (let s := lch { sl0 [] with handler := true, replyOwed := true }
    Clear s ∧ s.me.handler = true ∧ s.me.replyOwed = true ∧ (s.core s.myCore).sendRsp.length < 8) := by unfold Clear Unmapped; decide +kernel
def received (m : List Message) : State := lch (sl0 [(6, 9), (7, 0x00050003)]) { rxbuf := m }
theorem wit_receives : (received [{ sender := 1 }, { sender := 9, seq := 5 }]).core 2 = { (received []).core 2 with
      rxbuf := [{ sender := 1 }] ++ { sender := 9, seq := 5 } :: [] } ∧ Clear (received []) ∧
    (∀ q ∈ ((received [{ sender := 1 }]).core 2).rxbuf, ¬ (q.typ = 0 ∧ q.sender = 9 ∧ q.seq = 5)) := by
  unfold Clear Unmapped; decide +kernel

-- SliceQueueInstructions, Streams: queue 1 of slice 1 with its lines resident
def queued (tail head : BitVec 16) (en : Bool) : State :=
  { lch (sl0 [(6, 9), (7, 0x40)]) with
    routers := meshUp
    slices := [(1, { lines := (List.range 16).map fun i => (1024 + i, { valid := true }), queues := [(1, { tail := tail, head := head, base := 1024, en := en })] })] }
theorem wit_sliceQueues : (∀ s ∈ [queued 3 1 true, queued 16 0 true, queued 3 3 true, queued 0 0 false],
      Clear s ∧ s.me.relaxed = [] ∧ (s.core s.myCore).sendReq.length < 8 ∧ isBursar s.myCore = false ∧
      s.partOf (1 / 256) = s.partOf (dieOfCluster s.myUnit) ∧
      ringInside s (s.partOf (dieOfCluster s.myUnit)) (smGet ({} : SQueue) (s.slice 1).queues 1) = true ∧ (smGet ({} : SQueue) (s.slice 1).queues 1).waiters = [] ∧
      (∀ n ∈ [3, 1, 0], (sliceLine s 1 (1024 + n)).valid = true) ∧ s.myCore < 16388 ∧
      (∀ bulk, routeOf s (coreRouter s.myCore) 1 bulk = .there []) ∧ routeOf s 1 (coreRouter s.myCore) = .there []) ∧
    ((3 : BitVec 16) - 1).toNat ≠ 2 ^ (4 : BitVec 4).toNat ∧ ((16 : BitVec 16) - 0).toNat = 2 ^ (4 : BitVec 4).toNat ∧
    segTest false ((queued 3 1 true).seg 2) ((queued 3 1 true).reg 7).toNat 512 64 aStore = none := by
  unfold Clear Unmapped; decide +kernel
def ported (y : SendPort) (z : StreamIn) : State := lch (sl0 [(6, 0x25)]) { ports := [(1, y)], inputs := [(1, z)], tvec := 1 }
theorem wit_streams : (∀ y ∈ [({ lost := 1 } : SendPort), { bound := true }, { state := 1, bound := true, dst := 0x25, words := [4] }, { state := 2 }],
    ∀ z ∈ [({ words := [7] } : StreamIn), { fin := 1 }, { sender := 1 }], Clear (ported y z) ∧ Handles (ported y z) ∧
      isBursar (ported y z).myCore = false ∧ (inBuf (ported y z) 0 (inKey (portInput 2 1) 0)).drop = false ∧ launchCore (ported y z) 2 (((ported y z).reg 6).toNat / 4 % 2 ^ 14) = some 9) ∧
    launchCore (ported {} {}) 2 (0x25000 / 4 % 2 ^ 14) = none := by
  unfold Clear Unmapped Handles; decide +kernel

-- Spawns: the join word at 0x40 holds `n`
def joined (n : BitVec 8) (x : Core) (icnt : BitVec 6 := 0) : State :=
  lch { sl0 [(3, 0x40), (6, 0x300)] with icnt := icnt } { x with tvec := 1 } {} (if n = 0 then [] else [(0x40, n)])
def entry3 : DequeEntry := { pc := 0x200, slot := 3 }
theorem wit_spawn : (∀ s ∈ [joined 0 {}, joined 1 { deque := List.replicate 31 {} }, joined 1 { deque := List.replicate 32 {} },
      joined 1 { deque := List.replicate 32 {} } 63, joined 1 { deque := [entry3] }, joined 1 {} 1],
      Clear s ∧ Handles s ∧ isBursar s.myCore = false ∧ s.me.relaxed = [] ∧ OwnVaultAccess s 2 (s.reg 3).toNat 4 aJoin ∧
      (s.core s.myCore).mailbox = [] ∧ quietAll s.cur s = true ∧ BitVec.ofNat 32 (vaultBytes s (ownKey s 0x40) 4) ≠ (0xFFFFFFFF : Word)) := by
  unfold Clear Unmapped Handles OwnVaultAccess; decide +kernel
theorem wit_spret : BitVec.ofNat 32 (vaultBytes (joined 0 {}) (ownKey (joined 0 {}) 0x40) 4) = (0 : Word) ∧
    BitVec.ofNat 32 (vaultBytes (joined 1 {}) (ownKey (joined 1 {}) 0x40) 4) ≠ (0 : Word) ∧
    (entry3.slot.toNat = 35 % 16 ∧ entry3.icnt = 0) ∧ ¬ (({} : DequeEntry).slot.toNat = 35 % 16 ∧ ({} : DequeEntry).icnt = 0) := by decide +kernel
theorem wit_spawnOverflow : (let s := lch (sl0 [(3, 0x40)]) { tvec := 1 } {} [(0x40, 0xFF), (0x41, 0xFF), (0x42, 0xFF), (0x43, 0xFF)]
    BitVec.ofNat 32 (vaultBytes s (ownKey s 0x40) 4) = (0xFFFFFFFF : Word)) := by decide +kernel
theorem wit_join : vFullOf (joined 0 {}) (ownKey (joined 0 {}) 0x40 / 4) = true ∧
    vFullOf { joined 0 {} with vfull := [(0x10, false)] } (ownKey (joined 0 {}) 0x40 / 4) = false ∧
    ((joined 0 {}).bank (bankOf 0x10)).waiters.length < 8 := by decide +kernel
theorem wit_joinAnswers : (∀ up ∈ [true, false], let a := access0 (.join none) 1
      Serves (serving (req0 (.join up)) (some a)) (bankOf 0x10) (req0 (.join up)) 35 0 a ∧ vErr (serving (req0 (.join up)) (some a)) 0x10 = 0 ∧
        ((serving (req0 (.join up)) (some a)).bank (bankOf 0x10)).waiters = []) :=
  fun up _ => ⟨⟨wit_grants _ _ _ _ rfl rfl, rfl, by decide, by cases up <;> decide +kernel, by decide⟩, rfl, by cases up <;> decide +kernel⟩
def answered (u : VaultUse) (old : BitVec 128) (x : Core) (icnt : BitVec 6 := 0) : State :=
  lch { sl0 [] with run := .parked .vault, access := some { access0 u 0 with data := old }, icnt := icnt } { x with tvec := 1 }
theorem wit_joinAnswered : (∀ p ∈ ([(.join (some 0x300), 0xFFFFFFFF, {}, 0), (.join (some 0x300), 1, {}, 0), (.join (some 0x300), 1, { deque := List.replicate 32 {} }, 0),
      (.join (some 0x300), 1, { mailbox := [(163, 0)] }, 0), (.join none, 0, {}, 0), (.join none, 2, { deque := [entry3] }, 0), (.join none, 2, {}, 1),
      (.join none, 2, {}, 0)] : List (VaultUse × BitVec 128 × Core × BitVec 6)), let s := answered p.1 p.2.1 p.2.2.1 p.2.2.2
      let v := { access0 p.1 0 with data := p.2.1 }
      Performed s 35 v ∧ v.issued = none ∧ HandlesAt s 35 ∧ launchOf s 2 = some launch0) ∧
    coreOf 163 ≠ 2 ∧ ((answered (.join none) 2 {}).core 2).mailbox = [] := by unfold Performed Unheld HandlesAt; decide +kernel
theorem wit_rspawn : launchCore (lch (sl0 [(6, 9)])) 2 (((lch (sl0 [(6, 9)])).reg 6).toNat % 2 ^ 14) = some 9 ∧
    launchCore (lch (sl0 [(6, 1024)])) 2 (((lch (sl0 [(6, 1024)])).reg 6).toNat % 2 ^ 14) = none := by decide +kernel
def spawning (busy : Bool) : State :=
  { lch (sl0 []) {} { owState := 1 } with slots := [(35, { sl0 [] with run := .parked (.rspawn 5 7) })] ++ if busy then (List.range 16).map fun i => (144 + i, sl0 []) else [(144, sl0 [])] }
theorem wit_remoteSpawn : (∀ b ∈ [true, false], ((spawning b).slot 35).run = .parked (.rspawn 5 ({ tag := 7, opcode := 0x41 } : Packet).tag.toNat) ∧ Unheld (spawning b) 35 ∧
      launchOf (spawning b) 9 = some launch0 ∧ launch0.place = 0 ∧ 9 % 1024 / 16 < launch0.ng ∧ ((spawning b).core 9).halt = false ∧
      ((spawning b).core 9).heldSteal = none ∧ ((spawning b).cluster (unitOf 9)).owState = 1 ∧ FreshStart (spawning b) 145) ∧
    ((spawning false).slot 145).run = .idle ∧ ((spawning false).slot 144).run ≠ .idle ∧ ((spawning false).core 9).classMap = 0 ∧
    ∀ i < 16, ((spawning true).slot (16 * 9 + i)).run ≠ .idle := by unfold Unheld FreshStart; decide +kernel

-- TaskSubmissionAndCompletion: the TCB at 0x40; its successor list at 0x200 names the TCB at 0x80 with one dependence
def tasks (tcb : Option Nat) (v : List Host.Cell) : State := lch { sl0 [(3, 0x40), (6, 1)] with tcb := tcb } { tvec := 1 } {} v
theorem wit_tsubmit : (∀ s ∈ [tasks none [], tasks none [(0x54, 1)]], Clear s ∧ Handles s ∧ isBursar s.myCore = false ∧ quietAll s.cur s = true ∧
      (s.reg 3).toNat % 64 = 0 ∧ (s.reg 3).toNat + 64 ≤ 0x2000000 ∧ vaultBytes s (vKey 0 (0x40 + 28)) 4 / 2 ^ 4 % 2 ^ 3 = 0 ∧
      (s.reg 6).toNat % 64 ≠ 0 ∧ s.me.tcb = none) ∧
    vaultBytes (tasks none [(0x54, 1)]) (vKey 0 (0x40 + 20)) 4 ≠ 0 ∧ vaultBytes (tasks none []) (vKey 0 (0x40 + 20)) 4 = 0 ∧ vErr (tasks none []) 0x15 = 0 := by
  unfold Clear Unmapped Handles; decide +kernel
theorem wit_tdone : (let s := tasks (some 0x40) [(0x59, 2), (0x5C, 0x30), (0x94, 1), (0x200, 1), (0x204, 0x80)]
    s.me.tcb = some 0x40 ∧ vaultBytes s (vKey 0 (0x40 + 28)) 4 / 2 ^ 4 % 2 ^ 3 ≠ 7 ∧ successors s 0 0x40 = some [0x80] ∧ [0x80].Nodup ∧
    0x40 ∉ [0x80] ∧ vaultBytes s (vKey 0 (0x80 + 20)) 4 = 1 ∧ vaultBytes s (vKey 0 (0x80 + 28)) 4 / 2 ^ 4 % 2 ^ 3 ≠ 7 ∧ quietAll s.cur s = true) ∧
    ∀ w, vErr (tasks (some 0x40) []) w = 0 := ⟨by decide +kernel, fun _ => rfl⟩

-- The matrix instructions: an engine with nothing to do, operands at 0x400 of the own vault or in the group's own banks
def mat (pend : BitVec 16) (k pitch : Word) (e : Engine := {}) (a : Word := 0x400) : State :=
  { lch { sl0 [(6, a), (7, a + 0x1000), (8, 0x2000)] with pend := pend, x := [(0, k), (1, pitch), (2, 0x800)] } { tvec := 1 } with
    engines := [(0, e)], routers := meshUp }
theorem wit_engineFree : (∀ s ∈ [mat 0 0 0, mat 0x8110 32 64 { l0 := { tag := some (1, 32) } }, mat 0x8DD0 16 64 { l0 := { tag := some (13, 16) } },
      mat 0x8550 32 32, mat 0x8330 0 64, mat 0x8FF0 32 512], FmtOnly s ∧ EngineFree s ∧ Handles s ∧ HandlesAt s s.cur ∧ NoPuts s) ∧ Clear (mat 0 0 0) := by
  unfold FmtOnly EngineFree Handles HandlesAt NoPuts Clear Unmapped; decide +kernel
/-- The command of `i` at issue in `s`. -/
def cmdOf (s : State) (i : Instr) : MCmd := (commandOf s i).getD { op := .ring, slot := 0 }
-- Each command of the claims, with a state in which its tests pass; then one for each kind of test that fails
theorem wit_commands : (∀ p ∈ ([(.mzero 1, mat 0 0 0), (.mmovt 1 2, mat 0 0 0), (.mtran 1 2, mat 0 0 0), (.mrsn 5, mat 0 0 0), (.mring, mat 0 0 0), (.mldsA 6 2, mat 0 0 0),
      (.mldsB 6 2, mat 0 0 0), (.mldb 6 2, mat 0x8110 32 64), (.mwra 1 6 2, mat 0x8110 0 64), (.mma 1 6 2, mat 0x8110 32 64),
      (.mmas 2 6 2, mat 0x8DD0 16 64), (.mmaz 2 6 2, mat 0x8110 32 64), (.mepiAdd 1 2 3, mat 0 0 0), (.mepiScale 1 2 6, mat 0 0 0),
      (.mepiBiasRow 1 2 6, mat 0 0 0), (.mepiBiasCol 1 2 6, mat 0 0 0), (.mepiExp2 1 2, mat 0 0 0), (.mstt 1 6 2, mat 0x8110 0 64),
      (.msttF 1 6 2, mat 0x8110 0 64), (.mredRowmax 1 6 true, mat 0 0 0), (.mredColsum 1 6 false, mat 0 0 0), (.mpotrf 1 6, mat 0 0 0), (.mgetrf 1 6, mat 0 0 0),
      (.mtrsm 1 2 6 2 true false true, mat 0 0 0), (.mdelta 6, mat 0 0x100 0x200), (.mshiftDup 6, mat 0 0x100 5), (.mshiftZero 6, mat 0 0x100 5),
      (.mqnt 2 6 2, mat 0x8550 0 32), (.mdqnt 2 6 2, mat 0x8550 0 32), (.cvtv 7 6 2 2, mat 0x8010 2 0), (.cvtblk 7 6 8 2 2, mat 0x8050 1 0),
      (.cvtunb 7 6 8 2 2, mat 0x8500 1 0)] : List (Instr × State)),
      commandOf p.2 p.1 = some (cmdOf p.2 p.1) ∧ ((p.2.me.pend = 0 ∨ (cmdOf p.2 p.1).op.takesFmt = true) ∧ FmtOnly p.2) ∧ isBursar p.2.myCore = false ∧
        issueTest p.2 (cmdOf p.2 p.1) = none ∧ (cmdOf p.2 p.1).slot = p.2.cur ∧ (cmdOf p.2 p.1).cls = none ∧ EngineFree p.2) := by
  unfold FmtOnly Unmapped EngineFree; decide +kernel
theorem wit_commandTraps : ∀ p ∈ ([(.mldb 6 2, mat 0x8110 0 64, 2), (.mma 1 6 2, mat 0x8120 32 64, 1), (.mma 1 6 2, mat 0x8DD0 16 64, 3), (.mwra 1 6 2, mat 0x8330 0 64, 1),
      (.mdelta 6, mat 0 0x4000000 0, 7)] : List (Instr × State × Word)), issueTest p.2.1 (cmdOf p.2.1 p.1) = some (12, p.2.2) := by decide +kernel
theorem wit_commandPrefix : Commands (mat 0x8110 32 64) (.mldb 6 2) (cmdOf (mat 0x8110 32 64) (.mldb 6 2)) :=
  ⟨by decide +kernel, by decide +kernel, by unfold FmtOnly Unmapped; decide +kernel, by decide +kernel,
    fun _ _ _ _ _ => ⟨fun h => Instr.noConfusion h, fun h => Instr.noConfusion h⟩⟩
theorem wit_engineBehind : (∀ n ∈ [1, 15], let s := mat 0 0 0 { queue := List.replicate n { op := .ring, slot := 36 } }
      s.myEngine.queue ≠ [] ∧ s.myEngine.queue.length < 16) ∧
    (mat 0 0 0 { queue := List.replicate 16 { op := .ring, slot := 36 } }).myEngine.queue.length = 16 := by decide +kernel
/-- Slot 35 parked on its engine, which is to take its command. -/
def waiting (c : MCmd) (q : List MCmd) : State := { mat 0 0 0 { queue := c :: q } with slots := [(35, { sl0 [] with run := .parked .matrix })] }
theorem wit_engineTakes : (let c : MCmd := { op := .zero 4, slot := 35 }
    let w := waiting c []
    Waits w { (w.modEngine 0 fun e => { e with queue := [] }).modSlot 35 fun sl => { sl with run := .ready } with cur := 35 } c) :=
  ⟨by decide +kernel, by decide +kernel, by unfold Unmapped; decide +kernel,
    .inr ⟨by decide +kernel, by decide +kernel, by decide +kernel, [], by decide +kernel, rfl⟩⟩
theorem wit_ports : PortsOpen (mat 0 0 0) true ∧ PortsOpen (mat 0 0 0) false := by
  have h : ∀ bulk : Bool, ∀ r < 64, portFull (mat 0 0 0) r = false ∧
      (r = 0 ∨ (routeOf (mat 0 0 0) 0 r bulk = .there [] ∧ routeOf (mat 0 0 0) r 0 = .there [])) := by decide +kernel
  have g : ∀ r, r / 64 = (mat 0 0 0).myUnit → r < 64 := fun r e => by
    have : (mat 0 0 0).myUnit = 0 := by decide +kernel
    omega
  exact ⟨fun r e => h true r (g r e), fun r e => h false r (g r e)⟩
-- An operand at 0x400 goes over the mesh, one at 0x2000400 lies in the banks of group 0
theorem wit_operands : usesLines (mat 0 0 0) ((mat 0 0 0).seg 2) 0x400 1 0 32 = false ∧ usesLines (mat 0 0 0) ((mat 0 0 0).seg 2) 0x2000400 16 64 64 = true ∧
    OwnRange ((mat 0 0 0).seg 2) 0x400 1 0 32 ∧ OwnRange ((mat 0 0 0).seg 2) 0x2000400 16 64 64 ∧ OwnRange Machine.ownSeg 0x400 1 0 64 ∧
    usesLines (mat 0 0 0) Machine.ownSeg 0x2000400 1 0 64 = true ∧ (∀ r < 64, portFull (mat 0 0 0) r = false) := by
  unfold OwnRange; decide +kernel
theorem wit_asks : ∃ a, covers (mat 0 0 0) ((mat 0 0 0).seg 2) 0x400 1 0 32 a ∧ (mat 0 0 0).myEngine.io.got.lookup (a / 4) = none :=
  ⟨_, ⟨0, by decide, 0, by decide, rfl⟩, by decide +kernel⟩
/-- The engine holds `n` words 7 from offset `a` of the own vault on. -/
def holding (a n : Nat) (v : Option Word) (e : Engine := {}) : State :=
  mat 0 0x100 0x200 { e with io := { got := (List.range n).map fun i => (vKey 0 (interleaved (a + 4 * i)) / 4, v) } }
theorem wit_holds : HoldsWords (holding 0x400 8 (some 7)) (fun _ => 7) (covers (holding 0x400 8 (some 7)) Machine.ownSeg 0x400 1 0 32) := by
  rintro k ⟨r, hr, b, hb, rfl⟩
  have h0 : r = 0 := by omega
  subst h0
  have : ∀ b < 32, (holding 0x400 8 (some 7)).myEngine.io.got.lookup (ownKey (holding 0x400 8 (some 7)) (segBase Machine.ownSeg + 0x400 + 0 * 0 + b) / 4) = some (some 7) := by
    decide +kernel
  exact this b hb
theorem wit_holdsError : (holding 0x400 8 none).myEngine.io.got.lookup (ownKey (holding 0x400 8 none) 0x400 / 4) = some none := by decide +kernel
theorem wit_reads : ∃ u, Reads (readOperand Machine.ownSeg 0x400 1 0 32) (holding 0x400 8 (some 7)) (7 * ((List.range 8).map fun i => 2 ^ (32 * i)).sum) u :=
  by
  have h : (match readOperand Machine.ownSeg 0x400 1 0 32 (holding 0x400 8 (some 7)) with
      | .ok v u => decide (v = 7 * ((List.range 8).map fun i => 2 ^ (32 * i)).sum ∧ u = holding 0x400 8 (some 7))
      | .error _ _ => false) = true := by decide +kernel
  refine ⟨holding 0x400 8 (some 7), ?_, rfl, by unfold Unmapped; decide +kernel⟩
  split at h
  · next v u e => rw [e, (of_decide_eq_true h).1, (of_decide_eq_true h).2]
  · cases h
theorem wit_mma : pairOk 1 1 = true ∧ kBad 1 32 = false ∧ pairOk 13 13 = true ∧ kBad 13 16 = false ∧ (2 : Tile).toNat % 2 = 0 ∧ (3 : Tile).toNat % 2 = 1 ∧
    (mat 0x8110 32 64 { l0 := { tag := some (1, 32) } }).myEngine.l0.tag = some (1, 32) ∧ ({} : Engine).l0.tag ≠ some (1, 32) := by decide +kernel
theorem wit_solvers : (0x400 : Nat) % 4 = 0 ∧ 0x400 + 20 ≤ 0x4000000 ∧ (mat 0 0 0).fmtA = 0 ∧ sttOk 1 = true ∧ sttOk 13 = true ∧ 32 ≤ 64 := by decide +kernel
/-- A list at 0x100 and a matrix at 0x200 whose words the engine holds as `f`: a count or height of 1, one row and column, pitch 1. -/
def headers (n : Nat) (full : Bool) : State :=
  { holding 0x100 68 (some 1) with vfull := if full then [] else [(0x40, false)], slots := [(35, { sl0 [(6, 0x400)] with x := [(0, BitVec.ofNat 32 n)] })] }
theorem wit_deltas : ∀ full ∈ [true, false], let s := headers 0x100 full
    vFullOf s (ownKey s 0x100 / 4) = full ∧ (∀ i < 68, s.myEngine.io.got.lookup (ownKey s (0x100 + 4 * i) / 4) = some (some 1)) ∧
      ownKey s 0x400 / 4 ≠ ownKey s 0x100 / 4 ∧ ((1 : Word).toNat ≤ 4096 ∧ (1 : Word).toNat % 2 ^ 16 = 1) ∧ HandlesAt (mat 0 0 0) 35 := by
  unfold HandlesAt; decide +kernel

-- BlockConversions
theorem wit_conversions : (4 : Tile).toNat % 2 = 0 ∧ isBlocked 5 = true ∧ isMx 5 = true ∧ isBlocked 15 = true ∧ isMx 15 = false ∧ isVec 0 = true ∧ isVec 1 = true ∧
    isWide 0 = true ∧ OwnRange ((mat 0x8550 0 32).seg 2) 0x400 16 32 32 ∧ 32 ≤ 32 ∧
    (let d := (mat 0 0 0).seg 2; OwnRange d 0x800 1 0 16 ∧ OwnRange d 0x400 1 0 8 ∧ OwnRange d 0x2001400 1 0 4 ∧ usesLines (mat 0 0 0) d 0x2001400 1 0 4 = true ∧
      (0x2000400 + 8 ≤ 0x2001400 ∨ 0x2001400 + 4 ≤ 0x2000400)) := by unfold OwnRange; decide +kernel

-- BulkCopies, CopyEvents
def copyWit (fn : Nat) : Copy :=
  { fn := fn, src := ownSeg, dst := ownSeg, so := 0x400, do_ := 0x1000, x0 := 8, x1 := 1, x2 := 0x600, x3 := 8, comp := some 0x80, slot := 35 }
theorem wit_copies : (∀ fn ∈ [0, 1, 2, 3, 4], firstTest (copyTests (copyWit fn) 7 0x80) = none) ∧
    (∀ c ∈ [copyWit 0], c.slot = 35 ∧ c.orphan = false ∧ c.comp = some 0x80) ∧ ([copyWit 0].map (·.id)).Nodup ∧
    ((List.replicate 4 { copyWit 0 with accepted := true }).filter (·.accepted)).length = 4 ∧ Clear (lch (sl0 [])) ∧
    isBursar (lch (sl0 [])).myCore = false ∧
    (∀ n ∈ [4, 19], let cs := List.replicate n { copyWit 0 with accepted := true };
      4 ≤ cs.length ∧ cs.length - Nat.min 4 (cs.filter (·.accepted)).length < 16) ∧
    (let cs := List.replicate 20 { copyWit 0 with accepted := true };
      16 ≤ cs.length - Nat.min 4 (cs.filter (·.accepted)).length) := by unfold Clear Unmapped; decide +kernel
def copying (c : Copy) (run : Run := .ready) : State := { lch { sl0 [] with run := run } with bulk := [(0, { copies := [c], nextId := 1 })] }
theorem wit_copyAccept : (let s := copying (copyWit 0) (.parked .copy)
    (s.bulkOf 0).copies = [] ++ copyWit 0 :: [] ∧ (copyWit 0).accepted = false ∧ ((s.bulkOf 0).copies.filter (·.accepted)).length < 4 ∧
    unitOf (coreOf 35) < 16 ∧ (s.slot 35).run = .parked .copy ∧ Unheld s 35) := by unfold Unheld; decide +kernel
theorem wit_copyComplete : (∀ fn ∈ [0, 2], segType (copyWit fn).dst = 3 ∧ segOwn (copyWit fn).dst = true ∧
      segBase (copyWit fn).dst + 0x1000 + 8 ≤ 0x2000000 ∧ segBase (copyWit fn).src + 0x400 + 8 ≤ segBase (copyWit fn).dst + 0x1000) ∧
    (∀ v, (copyWit 0).comp = some v → v % 4 = 0 ∧ v < 0x4000000) ∧
    ((copying { copyWit 0 with accepted := true }).bulkOf 0).copies = [{ copyWit 0 with accepted := true }] ∧
    ((copying { copyWit 0 with accepted := true }).bulkOf 0).copies.filter (·.accepted) = [] ++ { copyWit 0 with accepted := true } :: [] := by
  refine ⟨by decide, fun v h => ?_, by decide +kernel, by decide +kernel⟩
  cases h; decide

-- ControllerEvents: stack 0 with one request, in each of the cases of ControllerRequests
def ctl0 (c : Ctl) : State := { ctls := [(0, c)] }
def req (w : Bool) (stamp : BitVec 4 := 0) : Ctl := { queue := [{ line := 0, write := w, stamp := stamp }] }
theorem wit_controllerRequests : (∀ c ∈ [req false, req true, req false 1, { req false with state := 2 }, { req false with fenced := 1 },
      { req true with trackers := [(0, { open_ := some 0 })] }, { req false with trackers := [(0, { open_ := some 0 })] },
      { req false with trackers := [(0, { entries := [(0, 0x1FF)] })] }],
      ((ctl0 c).ctl 0).queue = c.queue ∧ c.queue.length = 1 ∧ ((ctl0 c).ctl 0).pairs = [] ∧ stackOf 0 = 0) ∧
    (0 : BitVec 4) ≠ 1 ∧ bitOf (1 : Word) (channel0 0) = true ∧ coords none 0 = (0, 0, 0, 0) ∧ smGet [] (ctl0 {}).flips 0 = [] ∧
    ((trackRow 0 [(0, 0x1FF)]).find? fun e => e.1 = 0) = some (0, 0x200) ∧ (({} : Ctl).thresh).toNat = 0x200 ∧
    ((trackRow 0 []).find? fun e => e.1 = 0) = some (0, 1) := by decide +kernel
theorem wit_fillRoutes : (mcRoutes (ctl0 (req false)) (mcPort 0 0) 0).2 = .there [] ∧ (mcRoutes (ctl0 (req false)) 0 0).2 ≠ .there [] ∧
    (∀ n ∈ [(0 : Nat), 4], 0x1FF < 0x200 ∧ ((List.replicate n 0).length < 4 ↔ n = 0)) ∧ chanServed (ctl0 {}) 0 0 = true ∧
    chanServed (ctl0 { pairs := [(0, { st := .quiesce })] }) 0 0 = false ∧ reserveHolds none 0 (2 ^ 33) = none ∧
    ((ctl0 { trackers := [(0, { paced := true, capture := [0], acts := 255 })] }).ctl 0).pairs = [] := by decide +kernel
theorem wit_patrolScrub : (decodePattern [(3, 5)] = some [(3, 5), (3, 5)]) ∧ decodePattern [(0, 1), (1, 1)] = none :=
  ⟨by decide +kernel, by decide +kernel⟩
theorem wit_decline : (false : Bool) ≠ true ∧ (ctl0 {}).ctl 0 = {} ∧ (({} : Ctl).parity) = false := by decide +kernel
def lending (st : Lend) (fails : Nat) (q : Nat) : State :=
  ctl0 { pairEn := 1, pairs := if st = .normal ∧ fails = 0 then [] else [(0, { st := st, fails := fails })], queue := List.replicate q { line := 0 } }
theorem wit_laneLending : (let c := (lending .normal 0 16).ctl 0;
      bitOf c.pairEn 0 = true ∧ c.retired ≠ some 0 ∧ bitOf c.fenced 0 = false ∧ c.state = 0 ∧
      16 ≤ (c.queue.countP fun r => (coords c.retired r.line).1 = 0) ∧ (c.queue.countP fun r => (coords c.retired r.line).1 = 1) = 0) ∧
    (pairOf (lending .normal 0 0) 0 0).st = .normal ∧
    ∀ st ∈ [Lend.request, .drain, .quiesce, .retrain, .lent, .reclaim], ∀ n ∈ [0, 2], (pairOf (lending st n 0) 0 0).st = st ∧
      (pairOf (lending st n 0) 0 0).fails = n := by decide +kernel
theorem wit_mapChanges : (let c := (ctl0 {}).ctl 0;
      c.retired ≠ some c.target.toNat ∧ bitOf c.fenced c.target.toNat = false ∧ c.state = 0 ∧ c.resvUsed = false) ∧
    (let c := (ctl0 { retire := true, state := 1 }).ctl 0;
      c.retire = true ∧ c.state = 1 ∧ (∀ p ∈ c.pairs, p.2.st = .normal) ∧ c.copyNext < 8388608 ∧
        ∀ l < 4, smGet [] (ctl0 {}).flips (granuleLine 0 c.chan c.copyNext l) = []) ∧
    (let c := (ctl0 { retire := true, state := 1, copyNext := 8388608 }).ctl 0;
      c.state = 1 ∧ c.retire = true ∧ c.copyNext = 8388608) ∧
    ((ctl0 { fence := true, state := 1 }).ctl 0).retire = false ∧ channelHeld (ctl0 { fence := true, state := 1 }) 0 0 = false ∧
    ((ctl0 { state := 2 }).ctl 0).state = 2 ∧ (∀ b ∈ ((ctl0 {}).slice 5).bounced, stackOf b.line ≠ 0) := by decide +kernel
theorem wit_bounced : (let s : State := { slices := [(5, { bounced := [{ slice := 5 }] })] };
    stackOf ({ slice := 5 } : McReq).line = 0 ∧ (s.slice 5).bounced = [{ slice := 5 }] ∧ (s.ctl 0).state ≠ 3 ∧ ({ bounces := 3 } : McReq).bounces = 3 ∧
    ((smGet ({} : StackMap) (s.slice 5).maps 0).gen = 0)) := by decide +kernel

-- MeshEvents
def rt (x : Router) : State := { routers := [(0, x)] }
/-- Router 0 in mesh cycle `n` of its die. -/
def rtAt (n : Nat) (x : Router) : State := { rt x with dies := [(0, { mc := BitVec.ofNat 64 n })] }
def up (l : Link := {}) : SMap Link := [(1, { l with st := .up })]
def head (p : Packet) : Flit := { data := packHeader p, first := true, last := true, vn := p.vn, cls := p.cls }
/-- A packet of one flit at the front of an input, for the output `o`. -/
def front (c : Nat) (o : Option Nat := some 1) (p : Packet := { opcode := 1 }) (at_ : Nat := 0) : InBuf :=
  { flits := [(head { p with cls := BitVec.ofNat 2 c }, at_)], out := o, pkt := { p with cls := BitVec.ofNat 2 c } }
theorem wit_flitsSent : (linkOf (rt {}) 0 1).st ≠ .up ∧
    (∀ l ∈ [({ owed := some true } : Link), { ackBy := some 2 }], let s := rtAt 2 { links := up l }
      (linkOf s 0 1).st = .up ∧ smGet 0 (s.router 0).sent 1 ≠ 3 ∧ l.half = false ∧ l.resend = [] ∧ readyOf s 0 1 2 = none) ∧
    (let s := rtAt 2 { links := up { resend := [{}] } };
      (linkOf s 0 1).owed = none ∧ (linkOf s 0 1).ackBy = none ∧ (linkOf s 0 1).resend = {} :: []) ∧
    (let s := rtAt 2 { links := up, ucount := [(1, 7)] };
      (linkOf s 0 1).resend = [] ∧ (linkOf s 0 1).owed = none ∧ (linkOf s 0 1).replay.length < 64 ∧ ∀ c < 3, readyOf s 0 1 c = none) ∧
    64 ≤ (linkOf (rt { links := up { replay := List.replicate 64 {} } }) 0 1).replay.length ∧
    (∀ port ∈ [1, 4], ∀ x ∈ [(0, (0 : BitVec 64), 0), (0, 0, 32), (1, 0, 5), (2, 0, 5), (2, 4, 0)],
      let s := rtAt 2 { links := up, ins := [(x.1, front x.1 (some port))], tslot := [(port, x.2.1)], ucount := [(port, x.2.2)] }
      (port = 4 ∨ (linkOf s 0 port).st = .up) ∧ readyOf s 0 port x.1 = some (false, x.1) ∧ (∀ c < 3, c ≠ x.1 → readyOf s 0 port c = none) ∧
        (inBuf s 0 x.1).flits = (head { opcode := 1, cls := BitVec.ofNat 2 x.1 }, 0) :: []) := by decide +kernel
theorem wit_flitsReady : (let s := rtAt 2 { ins := [(0, front 0)] };
      (s.router 0).ins = [(0, front 0)] ∧ (front 0).out = some 1 ∧ smGet 0 (s.router 0).owner 6 = 0 ∧ stopped s 0 1 false 0 = false ∧ 0 + 2 ≤ mcAt s 0) ∧
    (let b := { front 0 with started := true };
      let s := rtAt 2 { ins := [(0, b)], owner := [(6, 1)] };
      (s.router 0).ins = [(0, b)] ∧ smGet 0 (s.router 0).owner 6 = 1) ∧ mcAt (rtAt 1 { ins := [(0, front 0)] }) 0 < 0 + 2 ∧
    (∀ c ∈ [0, 1, 2], ∀ vn ∈ [true, false],
      let d := front c (some 1) { opcode := 1, vn := vn } 1;
      let j := 18 + pairIx vn c;
      let s := rtAt 3 { ins := [(c, front c), (j, d)] };
      (s.router 0).ins = [(c, front c), (j, d)] ∧ j ≠ c ∧ (front c).started = false ∧ d.started = false ∧ d.out = some 1 ∧ 1 + 2 ≤ mcAt s 0) := by
  decide +kernel
def flit0 (f : Flit) : Flit := { f with crc := flitCrc f }
theorem wit_flitsReceived : (∀ f ∈ [flit0 { first := true, last := true }, flit0 { first := true }, flit0 { ctl := true }, flit0 { seq := 9 }],
      f.crc = flitCrc f) ∧ ({ crc := 1 } : Flit).crc ≠ flitCrc { crc := 1 } ∧ (linkOf (rt { links := up }) 0 1).expect = 0 ∧
    (linkOf (rt { links := up }) 0 1).st = .up ∧
    -- in sequence with a fitting count; a tail too early; the rest of a discarded packet; a flit without its header; a full timed buffer
    (flitHeader (head {})).count = 0 ∧ (flitHeader { first := true, last := true, data := packHeader { count := 2 } }).count ≠ 0 ∧
    (∀ b ∈ [({} : InBuf), { part := some ({ count := 2 }, 0) }, { drop := true }, { part := some ({}, 0), flits := [(head {}, 0)] },
        { part := some ({ cls := 2, count := 9 }, 7), flits := List.replicate 8 ({ cls := 2 }, 0) }],
      inBuf (rt { ins := [(6, b)] }) 0 6 = b) ∧ 8 ≤ (List.replicate 8 (({ cls := 2 } : Flit), 0)).length ∧
    (∀ o ∈ [some true, some false], (linkOf (rt { links := up { owed := o } }) 0 1).owed = o) ∧
    (linkOf (rt { links := up { replay := [{ ext := 3 }, { ext := 4 }] } }) 0 1).replay.headD {} = { ext := 3 } ∧
    (1 : Nat) = (if ((3 : BitVec 16) - 3 + 1).toNat % 256 ≤ 2 then ((3 : BitVec 16) - 3 + 1).toNat % 256 else 0) := by decide +kernel
/-- Port 1 of router 0, its other end LOST already. -/
def ends (l : Link) (x : Router := {}) : State := { routers := [(0, { x with links := [(1, l)] }), (1, { links := [(3, { st := .lost })] })] }
theorem wit_linkStates : (linkOf (rt {}) 0 1).st = .down ∧ (linkOf (rt { links := [(5, { st := .lost, restart := true })] }) 0 5).st = .lost ∧
    (∀ n ∈ [0, 2], (linkOf (rt { links := [(1, { st := .training, fails := n })] }) 0 1).st = .training) ∧
    (∀ l ∈ [({ st := .up } : Link), { st := .up, tails := [(0, {})] }, { st := .lost }],
      linkOf (ends l) 0 1 = l ∧ neighbour 0 1 = some 1 ∧ (linkOf (ends l) 1 (oppPort 1)).st = .lost) ∧
    (∀ p ∈ [(0, front 0), (0, { front 0 with started := true }), (0, front 0 none), (6, { part := some ({}, 0) })],
      let s := ends { st := .up } { ins := [p] }
      (s.router 0).ins = [p] ∧ (p.1 / 6 ≠ 1 ∨ p.2.part ≠ none)) ∧ (front 0).out = some 1 ∧ (front 0).part = none ∧
    trizenRouter 0 2 = 0 ∧ (linkOf (rt {}) 0 7).st ≠ .lost := by decide +kernel
def packet (col : BitVec 5) (ep op : Byte) : Packet := { dstCol := col, dstEp := ep, opcode := op }
def routing (p : Packet) (st : LinkState) (cfg : BitVec 20) (inp : Nat := 0) : State :=
  rt { ins := [(6 * inp, front 0 none p)], links := (List.range 5).map fun i => (i, { st := if i = 1 then st else .up }), routecfg := cfg }
theorem wit_routing : (∀ p ∈ [packet 0 0x10 1, packet 5 0x10 1, packet 0 0 0, { packet 0 0 1 with dstDev := 9 }], ∀ inp ∈ [0, 5, 16],
      ((routing p .up 0 inp).router 0).ins = [(6 * inp, front 0 none p)] ∧ (6 * inp) / 6 = inp ∧ (front 0 none p).out = none ∧
        (front 0 none p).flits = [(head p, 0)] ∧ flitHeader (head p) = p) ∧
    trizenAdmits (routing (packet 0 0x10 1) .up 0 5) 0 0 {} (packet 0 0x10 1) = false ∧
    routerAt 0 0 = 0 ∧ routerAt 5 0 ≠ 0 ∧ groupCol 0 < groupCol (routerAt 5 0) ∧ neighbour 0 1 = some (routerAt 1 0) ∧
    (∀ st ∈ [LinkState.up, .training, .down, .lost], (linkOf (routing (packet 5 0x10 1) st 0) 0 1).st = st) ∧
    fieldOf (0x30 : BitVec 20) 4 4 = 3 ∧ neighbour 0 2 ≠ none ∧ (linkOf (routing (packet 5 0x10 1) .lost 0x30) 0 2).st = .up ∧
    (linkOf (routing (packet 5 0x10 1) .lost 0x20) 0 1).st = .lost ∧ (packet 5 0x10 1).detour ≠ 15 ∧
    (let s := { routing (packet 31 0x10 1) .up 0 with sr := { pcfg := some [0, 4] } }; s.partOf (dieOfRouter 64) = s.partOf 0 ∧ s.partOf 1 ≠ s.partOf 0) ∧
    (∀ n ∈ [0, 1, 2, 3], let s := { routing (packet 0 0 1) .up 0 with dies := [(0, { devroute := [(9, BitVec.ofNat 8 n)] })] };
      (9 : BitVec 6) ≠ s.sr.devnum ∧ (smGet 0 (s.die 0).devroute 9).toNat = n) ∧ trizenRouter 0 0 = 1 := by
  decide +kernel
theorem wit_readsMerge : (let p : Packet := { opcode := 1, tag := 5 };
    let b := front 0 (some 4);
    let s := { rt { ins := [(0, b), (18, front 0 none p)] } with dies := [(0, { mergeen := true })] };
    (s.router 0).ins = [(0, b), (18, front 0 none p)] ∧ b.pkt.more ≠ 3 ∧ (s.die 0).mergeen = true ∧ (front 0 none p).flits = [(head p, 0)] ∧
      p.dstDev = s.sr.devnum ∧ b.pkt = { p with tag := b.pkt.tag } ∧ flitHeader (head p) = p) := by decide +kernel
theorem wit_sinks : (∀ f ∈ [({ abort := true, last := true } : Flit), head (packet 0 0x10 1), {}, { last := true }],
      smGet [] ((rt {}).router 0).sink (3 * f.vn.toNat + f.cls.toNat) = [] ∧
        ¬ ((flitHeader f).opcode = 9 ∧ (flitHeader f).dstEp.toNat < 16)) ∧
    (let h := head (packet 0 2 9);
      ∀ f ∈ [({ abort := true, last := true } : Flit), { mark := true, last := true }, { valid := 3 }],
        (flitHeader ((smGet [] ((rt { sink := [(0, [h])] }).router 0).sink 0).headD f)).opcode = 9) := by decide +kernel
theorem wit_deliveries : (∀ p ∈ [packet 0 0x11 1, packet 0 0xD1 1], endpointListed 0 p.dstEp.toNat = false) ∧
    (∀ p ∈ [packet 0 0x10 7, packet 0 0x20 4, packet 0 3 5, packet 0 0xC0 5, packet 0 3 6, packet 0 0xA0 1, packet 0 0x10 0xB, packet 0 0xC1 1, packet 0 0x90 1],
      endpointListed 0 p.dstEp.toNat = true ∧ p.vn = false) ∧
    (∀ ep ∈ [(0x80 : Nat), 0x81], endpointListed (ctlRouter (ep % 2)) ep = true ∧ ctlRouter (ep % 2) ∈ ctlRouters (2 * 0 + ep % 2)) ∧
    (0 : Nat) = cornerRouter 0 ∧ ({ packet 0 0xC1 1 with srcEp := 0xD0 }).srcDev = (rt {}).sr.devnum ∧ (packet 0 0xC1 1).srcEp ≠ 0xC0 ∧
    isMgmt 0xFF00000000 = true ∧ (match mgmtRead 0xFF00000000 (rt {}) with | .ok _ _ => true | .error _ _ => false) = true ∧
    outboundOk (rt {}) 0 2 0x80000 4 = false ∧
    outboundOk { dies := [(0, { host := { aps := [(2, { en := true, outsize := 1 })] } })] } 0 2 0x80000 64 = true := by decide +kernel
theorem wit_requests : (∀ op ∈ [(1 : Nat), 0x0A, 2], ∀ n ∈ [0, 3], let q : Request := { pkt := { opcode := BitVec.ofNat 8 op }, losses := n, slot := 35 };
      ({ requests := [q] } : State).requests = [q] ∧ q.origin = 256 * 0 + 0 ∧ 0 < 16) ∧
    (∀ w ∈ [Wait.mcall 0 5 6 1, .rspawn 5 0], (({ slots := [(35, { run := .parked w })] } : State).slot 35).run = .parked w) ∧
    (let s : State := { slots := [(35, { run := .parked (.mcall 7 5 6 1) })] };
      35 / 16 = 16 * 0 + 2 ∧ (s.slot 35).run = .parked (.mcall (7 : BitVec 16).toNat 5 6 1)) ∧
    (let x : SendPort := { state := 1, tag := 7 };
      (({ cores := [(2, { ports := [(1, x)] })] } : State).core (16 * 0 + 2)).ports = [(1, x)] ∧ x.state = 1 ∧ x.tag = 7) := by decide +kernel
theorem wit_meshCycles : (let s : State := { mcDue := 1, sr := { powered := true } };
    s.due = [] ∧ s.mcDue = 0 + 1 ∧ s.sr.powered = true ∧ s.busy = []) := by decide +kernel

-- SliceEvents: slice 16 stands where the controller of stack 0 takes requests for channel 0; slice 0 does not
def slc (x : Slice) (n : Nat := 5) : State := { slices := [(n, x)] }
theorem wit_sliceRequests : (let s := slc { lines := [(0, { valid := true })] };
      (∀ m ∈ (s.slice 5).misses, m.1 ≠ 0) ∧ (sliceLine s 5 0).valid = true ∧ (s.slice 5).waiters.length < 16) ∧
    (let s := slc { misses := [(0, [])] };
      ∃ m ∈ (s.slice 5).misses, m.1 = 0) ∧ (sliceLine (slc {}) 5 0).valid = false ∧
    (let s := slc { misses := (List.range 32).map fun i => (i + 1, []) };
      (∀ m ∈ (s.slice 5).misses, m.1 ≠ 0) ∧ 32 ≤ (s.slice 5).misses.length) ∧
    (mcRoutes (slc {} 16) 16 0).1 = .there [] ∧ (mcRoutes (slc {} 0) 0 0).1 = .held ∧
    (mcRoutes (ends { st := .lost }) 0 0).1 = .lost 0 ∧ lineQueued (slc {}) 5 0 = false ∧ mcFenced (slc {}) 0 = false ∧
    ((slc {}).slice 5).lines.countP (fun f => f.2.valid) < 16 ∧
    (∃ b ∈ ((slc { bounced := [{ line := 0 }] }).slice 5).bounced, stackOf b.line = 0) ∧
    (∀ b ∈ ((slc {}).slice 5).bounced, stackOf b.line ≠ 0) ∧ (∀ code ∈ [0, 1, 3, 4, 5], (feStep code 1 2 true).isSome) ∧ feStep 2 1 2 true = none ∧
    ∀ code < 12, (tellerNew code 1 2 3).isSome := by decide +kernel
theorem wit_sliceFills : (sliceLine (slc {}) 5 0).valid = false ∧ ((slc {}).slice 5).lines.countP (fun e => e.2.valid) < 16 ∧
    (∀ lines ∈ [[(0, ({ valid := true } : SliceLine))], []], let x : SliceWaiter := { word := 3, op := .fe 0 0 };
      let s := slc { lines := lines, waiters := [x] };
      (s.slice 5).waiters = x :: [] ∧ x.word / 16 = 0 ∧ ((sliceLine s 5 (3 / 16)).valid = true ∨ lineBlocked s 5 (3 / 16) = true)) ∧
    (∀ n ∈ [16, 0], let e : SliceLine := { valid := true, dirty := true };
      let s := slc { lines := [(0, e)] } n;
      (s.slice n).lines = [(0, e)] ∧ stackOf 0 = 0 ∧ channel0 0 = 0 ∧ mcBusy s n 0 = false ∧ bitOf (s.ctl 0).fenced (channel0 0) = false ∧
        (∀ b ∈ (s.slice n).bounced, stackOf b.line ≠ 0) ∧
        (if n = 16 then routeBlocked s n (mcPort 0 (sliceChannel s n 0)) true = false ∧ (mcRoutes s n 0).1 = .there []
          else routeBlocked s n (mcPort 0 (sliceChannel s n 0)) true = true)) ∧
    (∀ l ∈ ((slc { lines := [(0, { valid := true })] }).slice 5).lines, l.2.dirty = false) := by decide +kernel
theorem wit_queuePackets : (∀ s ∈ [queued 3 1 true, queued 16 0 true, queued 3 3 true, queued 0 0 false],
      s.partOf (1 / 256) = s.partOf (routerAt 0 0 / 256) ∧ ringInside s (s.partOf 0) (smGet ({} : SQueue) (s.slice 1).queues 1) = true ∧
      (smGet ({} : SQueue) (s.slice 1).queues 1).entlines = 0) ∧
    (let s : State := { slices := [(1, { queues := [(1, { tail := 3, head := 1, base := 1024, en := true })] })] };
      (sliceLine s 1 (1024 + 1)).valid = false ∧ lineBlocked s 1 (1024 + 1) = true) ∧
    (∀ w : Asker, ({ waiters := [w] } : SQueue).waiters = w :: []) := ⟨by decide +kernel, by decide +kernel, fun _ => rfl⟩
theorem wit_streamEvents : (∀ y ∈ [({ state := 1, dst := 0x25, words := [4] } : SendPort), { state := 1, dst := 0x25, words := [4], route := true },
      { state := 1, dst := 0x25, words := [4], route := true, resume := true }, { state := 2, dst := 0x25 }],
    let s := lch (sl0 []) { ports := [(1, y)] };
    launchCore s 2 (y.dst.toNat / 4 % 2 ^ 14) = some 9 ∧ smGet ({} : SendPort) (s.core 2).ports 1 = y ∧
      (inBuf s (coreRouter 2) (6 * (272 + 4 * (2 % 16) + 1))).flits = [] ∧ (inBuf s (coreRouter 2) (6 * (272 + 4 * (2 % 16) + 1))).drop = false) := by
  decide +kernel
theorem wit_streamInputs : (∀ z ∈ [({} : StreamIn), { words := [7] }, { fin := 1 }],
      z.waiters = [] ∧ (smGet ({} : StreamIn) ((ported {} z).core 2).inputs 1) = z) ∧
    (let s : State := thr { sl0 [] with run := .parked (.sget 1 5 6) } { inputs := [(1, { waiters := [35] })] };
      (smGet ({} : StreamIn) (s.core 2).inputs 1).waiters = [35] ∧ coreOf 35 = 2 ∧ (s.slot 35).run = .parked (.sget 1 5 6) ∧ Unheld s 35) := by
  unfold Unheld; decide +kernel

-- VaultEvents
def bank0 (b : Bank) (full : Bool := true) : State := { banks := [(0, b)], vfull := if full then [] else [(0, false)] }
theorem wit_bankGrants : (∀ op ∈ [WordOp.read, .write 3 9, .write 0xF 9, .teller 0 1 0, .join true, .join false, .fe 0 0, .fe 2 5],
      Grants (serving (req0 op) none) (bankOf 0x10) (req0 op)) ∧ vErr (serving (req0 .read) none) 0x10 = 0 ∧
    (∀ up ∈ [true, false], vWord { vault := [(0x40, 5)] } 0x10 ≠ 0 ∧ vWord { vault := [(0x40, 5)] } 0x10 ≠ 0xFFFFFFFF ∨ up = false) ∧
    vErr { verr := [(0x10, 2)] } 0x10 = 2 ∧ ((serving (req0 .read) none).bank (bankOf 0x10)).waiters.length < 8 ∧
    8 ≤ ((bank0 { waiters := List.replicate 8 {} }).bank 0).waiters.length ∧
    (∀ r ∈ ((bank0 { held := [{ arrive := 9 }] }).bank 0).held, bankNow (bank0 { held := [{ arrive := 9 }] }) 0 < r.arrive) := by
  refine ⟨fun op _ => wit_grants _ _ _ _ rfl rfl, by decide +kernel, by decide +kernel, by decide +kernel, by decide +kernel, by decide +kernel, by decide +kernel⟩
theorem wit_listFull : (∀ rq ∈ [2, 1024], let r : BankReq := { req0 (.fe 0 9) (.thread 35) with requester := rq };
      r.asker = .thread 35 ∧ r.op = .fe 0 9 ∧ ((serving r none (.parked (.fullEmpty (some 5)))).slot 35).run = .parked (.fullEmpty (some 5))) ∧
    ({ remotes := [(1, {})] } : State).remotes = [(1, {})] := by decide +kernel
theorem wit_vaultErrors : vErr { verr := [(0, 1)] } 0 = 1 ∧ vErr {} 0 = 0 := by decide
theorem wit_waitlist : (∀ full ∈ [true, false], let s := bank0 { waiters := [{ word := 0, op := .fe 0 9 }] } full
    (s.bank (bankOf 0)).waiters = { word := 0, op := .fe 0 9 } :: [] ∧ vErr s 0 = 0 ∧ ((feStep 0 9 (vWord s 0) (vFullOf s 0)).isSome = full)) ∧
    (∀ r ∈ ((bank0 {}).bank (bankOf 0)).waiters, r.word ≠ 0) := by decide +kernel
def resending (p : Place) (x : Slice := {}) : State :=
  { thr { sl0 [] with run := .parked (.resend p 0 9 (some 5) 64 0) } with slices := [(5, x)] }
theorem wit_feResend : ∀ far ∈ [true, false], ((resending (.vault 0 0 far)).slot 35).run = .parked (.resend (.vault 0 0 far) 0 9 (some 5) 64 0) := by
  decide +kernel
def resendLine (full : BitVec 16) (n : Nat) : State :=
  resending (.home 5 0) { lines := [(0, { valid := true, full := full })], waiters := List.replicate n {} }
theorem wit_feResendHome : (∀ n ∈ [0, 16], ((resendLine 0 n).slot 35).run = .parked (.resend (.home 5 0) 0 9 (some 5) 64 0) ∧
      (sliceLine (resendLine 0 n) 5 0).valid = true ∧ ((resendLine 0 n).slice 5).waiters.length = n) ∧
    feStep 0 9 0 (bitOf (sliceLine (resendLine 0 0) 5 0).full 0) = none ∧
    feStep 0 9 0 (bitOf (sliceLine (resendLine 1 0) 5 0).full 0) ≠ none ∧
    (sliceLine (resending (.home 5 0)) 5 0).valid = false ∧ lineBlocked (resending (.home 5 0)) 5 0 = true := by decide +kernel
theorem wit_linePorts : ∀ w ∈ [true, false], let r : LineReq := { engine := 1, write := w, mask := 0xF };
    let s := bank0 { lineHeld := [{ engine := 3 }] ++ r :: [{ engine := 9 }] };
    let after := fun q : LineReq => (q.engine + 127 - (s.bank 0).lineLast) % 128;
    (s.bank 0).lineHeld = [{ engine := 3 }] ++ r :: [{ engine := 9 }] ∧ r.arrive ≤ bankNow s 0 ∧
      (∀ q ∈ [({ engine := 3 } : LineReq)], after r < after q) ∧ (∀ q ∈ [({ engine := 9 } : LineReq)], after r ≤ after q) ∧ r.engine < 64 ∧
      ∀ l < 4, vErr s (lineKey 0 r.row (4 * l) / 4) = 0 := by decide +kernel
theorem wit_remoteVault : (∀ op ∈ [(1 : Nat), 2, 3, 4], ({ opcode := BitVec.ofNat 8 op, param := 2 } : Packet).payload = []) ∧
    (∃ named : Nat → Bool, (∃ i, named i = true) ∧ (∀ i, named i = true → 0 % 64 + i < 64) ∧
      ∀ i, named i = (decide (i < 32) && bitOf (2 : Word) i)) ∧
    (∀ n ∈ [1, 2], ∀ e ∈ [none, some (4 : BitVec 5)], let j : RemoteJob := { left := n, err := e };
      ({ remotes := [(1, j)] } : State).remotes.lookup 1 = some j) := by
  refine ⟨by decide +kernel, ⟨fun i => decide (i < 32) && bitOf (2 : Word) i, ⟨1, by decide⟩, fun i h => ?_, fun _ => rfl⟩, by decide +kernel⟩
  simp at h; omega

-- HostPortEvents: aperture 2 of die 0, open, with row 0x200 open in channel 0 bank 0
def port (h : HostPort) : State := { dies := [(0, { host := { h with open_ := true } })] }
def ap2 (x : Aperture) : SMap Aperture := [(2, { x with en := true })]
theorem wit_hostBursts : (let s := port { rows := [(0, some 0x200)], aps := ap2 { outsize := 1 } };
    let w := 0x200 % 65536 * 65536 + 0 % 16 * 4096 + 0 % 2 * 2048 + 0 % 2048;
    smGet none (s.die 0).host.rows 0 = some 0x200 ∧ (s.die 0).host.open_ = true ∧ w / 0x1000000 = 2 ∧ w % 0x1000000 = 0 ∧ w % 4 = 0 ∧
      (smGet ({} : Aperture) (s.die 0).host.aps 2).en = true ∧ smGet none (s.die 0).host.rows 1 = none) ∧
    ((({} : State).die 0).host.open_ = false) ∧
    (0x208 * 65536 % 0x1000000 = 0x80000 ∧ 0x203 * 65536 % 0x1000000 = 0x30000 ∧ 0x280 * 65536 % 0x1000000 = 0x800000) := by decide +kernel
def hashAll (m : Word := 0x20) : Part := { place := [((0x1000 + 128 * 63) / 4, m)] }
/-- An inbound write `e` at the front of the buffer of die 0, for a line homed at slice 0 or 5, whose copy is `l`. -/
def inbound (e : Inbound) (m : Word) (l : SliceLine) (links : SMap Link := []) : State :=
  { port { inbuf := [e], aps := ap2 {} } with
    parts := [(0, hashAll m)], slices := [(0, { lines := [(1, l)] })], routers := [(0, { links := links })] }
theorem wit_hostQueues : (let e : Inbound := { ap := 2, off := 0x800040, bytes := [some 1, some 2] };
    let s := inbound e 1 { valid := true };
    (s.die 0).host.inbuf = e :: [] ∧ e.sent = false ∧ 0x800000 ≤ e.off ∧ s.partOf (0x40 / 2 ^ 37) = s.partOf 0 ∧
      hashHome (s.part (s.partOf 0)).place 63 0x40 = some 0 ∧ cornerRouter 0 = 0 ∧ e.bytes = [1, 2].map some ∧ 0x40 % 64 + 2 ≤ 64 ∧
      (sliceLine s 0 (0x40 / 64)).valid = true ∧ (s.die 0).host.inbuf.length < 4096) ∧
    (let bs : List Byte := List.replicate 64 3;
      let e : Inbound := { ap := 2, off := 0x800040, bytes := bs.map some };
      let s := inbound e 1 {};
      0x40 % 64 + bs.length ≤ 64 ∧ (sliceLine s 0 1).valid = false ∧ lineQueued s 0 1 = false ∧ mcFenced s 1 = false ∧
        (s.slice 0).lines.countP (fun f => f.2.valid) < 16) ∧
    (let s := inbound {} 0x20 {};
      hashHome (s.part (s.partOf 0)).place 63 0x40 = some 5 ∧ routeOf s (cornerRouter 0) 5 = .held ∧
        routeOf (inbound {} 0x20 {} [(1, { st := .lost })]) (cornerRouter 0) 5 = .lost 0) ∧
    (let e : Inbound := { ap := 2, off := 0x800040, sent := true };
      ((inbound e 1 {}).die 0).host.inbuf = e :: [] ∧ e.sent = true ∧ e.ap = 2) := by decide +kernel
theorem wit_notifications : (let x : Aperture := {};
    (3 : Word).toNat ≤ 62 ∧ (3 + 63 - smGet 0 x.tail 1) % 63 ≤ (smGet 0 x.head 1 + 125 - smGet 0 x.tail 1) % 63 ∧ x.ovf = false ∧ x.werr = false) ∧
    ((port { notes := [(2, 1, 3, 0)], aps := ap2 {} }).die 0).host.notes = [(2, 1, 3, 0)] := by decide +kernel
theorem wit_completions : (let x : Aperture := { held := [(1, [[3, 9, 0, 0, 1, 0, 0, 0]])] };
    smGet [] x.held 1 = [3, 9, 0, 0, 1, 0, 0, 0] :: [] ∧ ([3, 9, 0, 0, 1, 0, 0, 0] : List Word).length = 8 ∧
      (smGet 0 x.ctail 1 + 1) % 128 ≠ (smGet 0 x.chead 1).toNat ∧ smGet [] x.held 0 = []) := by decide +kernel
theorem wit_outbound : outboundOk (port { aps := ap2 { outsize := 1 } }) 0 2 0x80000 64 = true ∧ (3 : Word).toNat ≤ 62 := by decide +kernel
theorem wit_binding : (let s := { port {} with sr := { pcfg := some [0, 0, 0, 0, 0, 0, 0, 0, 0, 4] } };
    let cfg := fun i => ((s.sr.pcfg.getD []).getD i 0).toNat;
    cfg (8 + 2 * 0) ≤ 2 ∧ 2 < cfg 8 + cfg 9 ∧ (∀ e < 4, e ≠ 0 → (smGet ({} : Aperture) (s.die e).host.aps 2).en = false) ∧
      bitOf (putField (vibind {}) 0 32 0x80000000) 31 = true) := by decide +kernel
theorem wit_mailbox : ((port { attcmd := 1 }).die 0).host.attcmd = 1 ∧ ((port {}).die 0).host.attcmd ≠ 1 ∧
    ((({ port {} with sr := { booted := true } } : State).part 0).resetting || (({ port {} with sr := { booted := true } } : State).part 0).requested ||
      !({ port {} with sr := { booted := true } } : State).sr.booted) = false := by decide +kernel

-- EthernetEvents: rule 63 alone decides, for queue 0 of slice 0, at the corner router
def eth0 (e : Eth) (q : SQueue) (valid : Bool := true) : State :=
  { dies := [(0, { eth := { e with en := true, up := true, rules := [(63, BitVec.ofNat 128 (2 ^ 24))] } })]
    slices := [(0, { lines := (List.range 32).map fun i => (1024 + i, { valid := valid }), queues := [(0, q)]
                     misses := if valid then [] else [(1024, [])] })] }
theorem wit_frames : (∀ q ∈ [({ base := 1024, en := true, entlines := 1 } : SQueue), { base := 1024, entlines := 1 }], ∀ valid ∈ [true, false],
      let s := eth0 {} q valid;
      let e := (s.die 0).eth;
      let body := List.replicate 60 (0 : Byte);
      64 ≤ body.length + 4 ∧ e.rxBytes + 64 ≤ 2 ^ 21 ∧ decidingRule e body = 63 ∧ bitOf (ethRule e 63) 23 = false ∧
        fieldOf (ethRule e 63) 10 10 = 0 ∧ fieldOf (ethRule e 63) 20 3 = 0 ∧ s.partOf (0 / 256) = s.partOf 0 ∧ e.rx = [] ∧ e.pausing = none ∧
        e.rxBytes + 64 < e.xoff.toNat * 8192 ∧ ringInside s (s.partOf 0) (smGet ({} : SQueue) (s.slice 0).queues 0) = true ∧
        body.length ≤ entBytes (smGet ({} : SQueue) (s.slice 0).queues 0) - 16 ∧ cornerRouter 0 = 0 ∧
        (smGet ({} : SQueue) (s.slice 0).queues 0).waiters = []) ∧
    (∀ k ≤ 1, (sliceLine (eth0 {} { base := 1024, en := true, entlines := 1 }) 0 (1024 + k)).valid = true) ∧
    (let s := eth0 {} { base := 1024, en := true, entlines := 1 } false;
      (sliceLine s 0 1024).valid = false ∧ mcFenced s 1024 = false ∧ lineQueued s 0 1024 = true) ∧
    bitOf (ethRule ({} : Eth) 63) 23 = false ∧ (({ rxBytes := 2 ^ 21 } : Eth).rxBytes + 64 > 2 ^ 21) ∧
    (({ rxBytes := 0xC0 * 8192 } : Eth).xoff.toNat * 8192 ≤ 0xC0 * 8192 + 64 ∧ 0xC0 * 8192 + 64 ≤ 2 ^ 21 ∧ ({ pauseen := true } : Eth).pauseen = true) ∧
    (let s : State := { dies := [(0, { eth := { rules := [(63, BitVec.ofNat 128 (256 * 2 ^ 10))] } })], sr := { pcfg := some [0, 4] } };
      s.partOf (fieldOf (ethRule (s.die 0).eth 63) 10 10 / 256) ≠ s.partOf 0) := by decide +kernel
theorem wit_transmit : (let e := ((eth0 { tx := [(3, [[1, 2]])] } {}).die 0).eth;
    smGet [] e.tx 3 = [1, 2] :: [] ∧ bitOf e.paused 3 = false ∧ e.pausedAll = false ∧
      (∀ k, 3 < k → k < 8 → smGet [] e.tx k = [] ∨ bitOf e.paused k = true)) ∧
    ({ rxBytes := 0xC0 * 8192 } : Eth).xoff.toNat * 8192 ≤ ({ rxBytes := 0xC0 * 8192 } : Eth).rxBytes ∧
    ({} : Eth).rxBytes < ({} : Eth).xoff.toNat * 8192 ∧ ({ rxBytes := 0xA0 * 8192 } : Eth).rxBytes < ({} : Eth).xoff.toNat * 8192 := by
  refine ⟨⟨by decide +kernel, by decide +kernel, by decide +kernel, fun k h1 h2 => ?_⟩, by decide, by decide, by decide⟩
  rcases (show k = 4 ∨ k = 5 ∨ k = 6 ∨ k = 7 by omega) with rfl | rfl | rfl | rfl <;> decide +kernel

-- ManagementEvents
theorem wit_registerWrites : isMgmt 0xFF0FFFFFFC = true ∧ ({} : ErrLog).en = false ∧ ({ en := true } : ErrLog).en = true ∧ ({} : I3c).busy = false ∧
    fieldOf (0x80000000 : Word) 31 1 = 1 ∧ fieldOf (0x40000000 : Word) 30 2 = 1 ∧ fieldOf (0xC0000000 : Word) 30 2 = 3 := by decide +kernel
theorem wit_throttle : (let x : Cluster := { cycle := 40, applies := [(32, 3)] ++ (40, 5) :: [(64, 8)] };
      x.applies = [(32, 3)] ++ (40, 5) :: [(64, 8)] ∧ 40 ≤ x.cycle.toNat ∧ ∀ b ∈ [((64 : Nat), (8 : BitVec 4))], x.cycle.toNat < b.1) ∧
    (∀ a ∈ [((64 : Nat), (8 : BitVec 4))], ({ cycle := 40, applies := [(64, 8)] } : Cluster).cycle.toNat < a.1) ∧
    ({} : State).sr.pwralertn = true := by decide +kernel
theorem wit_logged : (let l : ErrLog := { en := true, post := [(0, 0x00300000)] };
      let s : State := { dies := [(0, { log := l })], parts := [(0, hashAll 1)], slices := [(0, { lines := [(0, { valid := true })] })] };
      (s.die 0).log.en = true ∧ (smGet 0 l.post 0).toNat / 2 ^ 16 % 256 = 0x30 ∧ (l.head - l.tail).toNat ≠ 2 ^ l.log2n.toNat ∧
        s.partOf (0 / 2 ^ 37) = s.partOf 0 ∧ cornerRouter 0 = 0 ∧
        hashHome (s.part (s.partOf 0)).place 63 (l.base.toNat * 4096 + l.basehi.toNat * 2 ^ 44 + 32 * 0) = some 0 ∧
        (sliceLine s 0 0).valid = true) ∧
    (({ head := 128 } : ErrLog).head - 0).toNat = 2 ^ ({} : ErrLog).log2n.toNat ∧ ({} : ErrLog).en = false ∧
    2 ^ 39 ≤ ({ basehi := 1 } : ErrLog).basehi.toNat * 2 ^ 44 := by decide +kernel
theorem wit_i3c : (let x : I3c := { go := true, role := true, ctl := 0x00400008 };
      x.go = true ∧ x.role = true ∧ fieldOf x.ctl 23 7 ≠ 0x52 ∧ bitOf x.ctl 22 = true ∧ x.ctl.toNat % 16 = 8) ∧ ({} : I3c).busy = false ∧
    (let x : I3c := { go := true, role := true, ctl := 0x29620004 };
      fieldOf x.ctl 23 7 = 0x52 ∧ bitOf x.ctl 22 = true ∧ bitOf x.ctl 21 = true ∧ fieldOf x.ctl 13 8 = 0x10 ∧ x.ctl.toNat % 16 = 4) ∧
    (let x : I3c := { go := true, role := true, ctl := 0x29000005, data0 := 0x10, data1 := 0x80 };
      fieldOf x.ctl 23 7 = 0x52 ∧ bitOf x.ctl 22 = false ∧ bitOf x.ctl 21 = false ∧ x.ctl.toNat % 16 = 5 ∧ fieldOf x.data0 0 8 = 0x10 ∧
        (0x80000000 : Word).toNat = fieldOf x.data0 8 24 + fieldOf x.data1 0 8 * 2 ^ 24) ∧
    (0x31 : BitVec 7).toNat = 0x30 + 1 ∧ ({ dyn := some 9 } : I3c).dyn = some 9 ∧ ¬ (0x32 : BitVec 7).toNat = 0x30 + 1 ∧
    (let s : State := { sr := { pcfg := some [0, 0, 0, 1] } };
      (s.sr.pcfg.getD []) ≠ [] ∧ pcfgDies (s.sr.pcfg.getD []) 0 ≠ [] ∧ ¬ pcfgDies (s.sr.pcfg.getD []) 1 ≠ [] ∧
        (0xA500 : Word).toNat / 2 ^ 8 % 256 = 0xA5 ∧ bitOf ((s.sr.pcfg.getD []).getD 3 0) 0 = true ∧ (s.part 0).requested = false) := by decide +kernel
theorem wit_boot : State.reset.sr.powered = true ∧ State.reset.sr.stage = 0 ∧ State.reset.sr.selfTested = true ∧ State.reset.sr.porstn = true ∧
    ({ sr := { powered := false } } : State).sr.powered = false ∧ ({ sr := { porstn := false } } : State).sr.porstn = false ∧
    (∀ fails ∈ [(0 : BitVec 3), 1], let s : State := { sr := { booted := true, stage := 8, pcfg := some [0, 0, 0, 1], releaseFails := fails } };
      s.sr.booted = true ∧ s.sr.pcfg = some [0, 0, 0, 1] ∧ pcfgDies [0, 0, 0, 1] 0 ≠ [] ∧ s.sr.stage ≠ 0 ∧
        bitOf s.sr.releaseFails 0 = decide (fails = 1)) := by decide +kernel

-- LaunchEvents
def owned : Cluster := { owEn := true, owVi := 1 }
theorem wit_launchDispatch : (let s : State := { dies := [(0, { host := { aps := [(1, { en := true, known := [(0, 1)] })] } })], clusters := [(0, owned)], parts := [(0, { lastVq := 0 })] };
    1 < 128 ∧ ((s.part 0).lastVq + 1) % 2048 = 128 * 0 + 1 ∧ s.partOf 0 = 0 ∧ (s.ap 0 1).en = true ∧ smGet 0 (s.ap 0 1).head 0 ≠ smGet 0 (s.ap 0 1).known 0 ∧
      (rdBytes (s.die 0).host.store (1 * 0x1000000 + 4096 * 0 + 64 * (1 + 0)) 64).testBit 59 = false ∧ residents s 0 1 1 = some [0]) := by
  decide +kernel
def running (u : Cluster) (slots : SMap Slot := []) : State := { clusters := [(0, { u with launch := some launch0, owState := 1 })], slots := slots }
theorem wit_launchSetup : ((running {}).cluster 0).launch = some launch0 ∧ launch0.ng ≤ 64 ∧ ((running {}).cluster 0).prevVi = none ∧
    ((running { prevVi := some 0 }).cluster 0).prevVi = some ((running {}).cluster 0).owVi.toNat ∧ bitOf launch0.slotmask 7 = true ∧ launch0.place ≠ 1 := by
  decide +kernel
theorem wit_launchDrain : ((running {}).cluster 0).owState = 1 ∧ ((running {}).cluster 0).drainedSent = false ∧ ((running {}).cluster 0).qlen = 0 ∧
    copiesOf (running {}) 0 = [] ∧ entriesLeft (running {}) launch0 0 = false ∧ 0 ∈ launch0.clusters ∧ ((running {}).cluster 0).ending = none ∧
    (running {}).slots = [] ∧ (running {}).cores = [] ∧ ¬ ((running { qlen := 1 }).cluster 0).qlen = 0 := by decide +kernel
theorem wit_confirm : (∀ a ∈ [1, 2], let x : Cluster := { confirming := true, answers := [(0, a)], reports := [(0, 1)] };
    x.confirming = true ∧ (∀ k ∈ launch0.clusters, smGet 0 x.answers k ≠ 0)) ∧
    (let x : Cluster := { answers := [(0, 2)], reports := [(0, 1)] }; smGet 0 x.answers 0 = 2 * (smGet 0 x.reports 0 - 1) + 2) := by decide +kernel
theorem wit_bursarCompletions : (let s : State := { clusters := [(0, { lbcompLo := 0x1000 })], parts := [(0, hashAll 1)], slices := [(0, { lines := [(0x40, { valid := true })] })] };
    ([3, 9, 0, 0, 1, 0, 0, 0] : List Word).length = 8 ∧ ([3, 9, 0, 0, 1, 0, 0, 0] : List Word).headD 0 &&& 0x80FF0000 = 0 ∧
      (s.cluster 0).lbcompLo.toNat + (s.cluster 0).lbcompHi.toNat * 2 ^ 32 = 0x1000 ∧ s.partOf (0x1000 / 2 ^ 37) = s.partOf (dieOfCluster 0) ∧
      hashHome (s.part (s.partOf 0)).place 63 0x1000 = some 0 ∧ (sliceLine s 0 (0x1000 / 64)).valid = true ∧ 0x1000 % 32 = 0 ∧
      dieOfRouter (64 * 0) = dieOfCluster 0) := by decide +kernel
def closing (n : Nat) (got : List DoneMsg) : State :=
  { running {} with
    cores := [(n, { closing := true, done := true, got := got })]
    dies := [(0, { host := { aps := [(0, { running := [(0, [0])] })] } })] }
theorem wit_doneTree : (∀ p ∈ [(0, 18), (16, 15), (5, 0), (256, 30)], let s := closing p.1 (List.replicate p.2 (1, 0, none));
      p.1 < 16384 ∧ (s.cluster (p.1 / 1024)).launch = some launch0 ∧ launch0.ng ≤ 64 ∧ (s.core p.1).closing = true ∧ (s.core p.1).done = true ∧
        (s.core p.1).got.length = p.2) ∧
    (let s := closing 0 []; launch0.nc ≤ (s.cluster 0).rootGot.length + 1 ∧ (s.cluster 0).ending = none ∧ launch0.bursar = false ∧
      launch0.slotNo ∈ smGet [] (s.ap launch0.die launch0.vi).running launch0.queue) ∧
    (({ launch0 with nc := 2 } : Launch).nc > 0 + 1) := by decide +kernel
theorem wit_coreDone : (let s : State := { cores := [(5, { closing := true })] };
    (s.core 5).closing = true ∧ (s.core 5).done = false ∧ (∀ i < 16, (s.slot (16 * 5 + i)).relaxed = []) ∧ (s.bulkOf 0).copies = [] ∧
      (s.engine 0).queue = [] ∧ (s.engine 0).retiring = []) := by decide +kernel
theorem wit_stallAll : launch0.stalled = false ∧ launchQuiescent (running {} [(35, sl0 [])]) launch0.clusters = false ∧
    launchQuiescent (running {} [(35, { sl0 [] with run := .parked (.fullEmpty none) })]) launch0.clusters = true := by decide +kernel

-- PreemptionEvents
theorem wit_saveRecords : bitOf ((fun _ => 0 : Nat → Word) 1) 31 = false ∧ (entry3 :: ([] : List DequeEntry)).length ≤ 32 ∧
    (writtenEntries []).length ≤ 8 := by decide
theorem wit_preempt : ((running {}).cluster 0).owState = 1 ∧ ((running {}).cluster (launch0.clusters.headD 0)).closeSent = false ∧ launch0.clusters ≠ [] ∧
    ({} : Cluster).owState ≠ 1 ∧
    (let x : Cluster := { launch := some launch0, owState := 2 };
      let s : State := { clusters := [(0, x)] };
      x.owState = 2 ∧ x.ending = none ∧ copiesOf s 0 = [] ∧ ∀ k ∈ launchClusters s 0, Machine.settled s k = true) ∧
    (let s : State := { clusters := [(0, { launch := some launch0, owState := 2 })], engines := [(0, { cmd := some { op := .zero 4, slot := 35 } })] };
      ∃ k ∈ launchClusters s 0, Machine.settled s k = false) ∧
    (let x : Cluster := { launch := some launch0, owState := 3, clrst := true }; x.owState = 3 ∧ x.clrst = true ∧ ¬ (x.owState = 1 ∨ x.owState = 2)) ∧
    (({} : Cluster).owState = 0) := by
  decide +kernel

-- TaskEvents: an idle slot 35 of a running launch
def idle (l : Launch) (x : Core) (u : Cluster) : State := { clusters := [(0, { u with launch := some l, owState := 1 })], cores := smSet {} [] 2 x }
def det0 : Launch := { launch0 with place := 1, ntask := 5000, bsize := 1 }
theorem wit_idleSearch : (∀ s ∈ [idle det0 {} {}, idle launch0 {} {}, idle launch0 { classMap := 0x40 } {}, idle launch0 { heldSteal := some entry3 } {},
      idle launch0 { deque := [{ icnt := 1 }, entry3] } {}, idle launch0 {} { heads := [(2, 0x41)] }],
      isBursar (coreOf 35) = false ∧ ((s.cluster 0).launch = some launch0 ∨ (s.cluster 0).launch = some det0) ∧ coreOf 35 % 1024 / 16 < launch0.ng ∧
      (s.core 2).halt = false ∧ (s.core 2).closing = false ∧ (s.cluster 0).owState = 1 ∧ (s.slot 35).run = .idle ∧ FreshStart s 35) ∧
    bitOf det0.slotmask (slotIn 35) = true ∧ slotClass (idle launch0 {} {}) 35 = 0 ∧ slotClass (idle launch0 { classMap := 0x40 } {}) 35 ≠ 0 ∧
    ((2 * ((det0.ntask + 1023) / 1024) + (0 * rankOf det0 16 + rankOf det0 3) : Nat) < det0.ntask) := by unfold FreshStart; decide +kernel
theorem wit_readyQueue : (let s := idle launch0 {} { heads := [(2, 0x41)], tails := [(2, 0x41)], qlen := 1 };
    (s.cluster 0).launch = some launch0 ∧ unitOf (coreOf 35) = 0 ∧ (s.slot 35).run = .idle ∧ slotClass s 35 = 0 ∧ ¬ launch0.place = 1 ∧ FreshStart s 35 ∧
      smGet 0 (s.cluster 0).heads 2 = 0x40 + 1 ∧ (∀ q < 4, 2 < q → smGet 0 (s.cluster 0).heads q = 0) ∧ 0x40 % 64 = 0) := by
  unfold FreshStart; decide +kernel
theorem wit_release : (∀ v ∈ [(0x10 : Nat), 0x30], let s : State := { idle launch0 {} {} with vault := [(0x5C, BitVec.ofNat 8 v)] };
    0x40 % 64 = 0 ∧ (s.cluster 0).drainedSent = false ∧ (fieldOf (vWord s ((0 * 2 ^ 25 + 0x40) / 4 + 7)) 4 3 = 1 ↔ v = 0x10)) ∧
    (∀ tail ∈ [0, 0x81], let s := idle launch0 {} { released := [0x40], tails := [(0, tail)] };
      (s.cluster 0).released = [0x40] ∧ smGet 0 (s.cluster 0).tails (fieldOf (vWord s ((0 * 2 ^ 25 + 0x40) / 4 + 7)) 0 2) = tail ∧
        (tail = 0 ∨ tail = 0x80 + 1 ∧ 0x80 % 64 = 0)) ∧
    (let s := idle launch0 {} { released := [0x80, 0x40] };
      (s.cluster 0).released = [0x80, 0x40] ∧ 0x80 % 64 = 0 ∧ (0x40 + 20) / 4 % 2048 < (0x80 + 20) / 4 % 2048 ∧ smGet 0 (s.cluster 0).tails 0 = 0) := by
  decide +kernel
theorem wit_steals : (let s : State := { idle launch0 { mailbox := [(163, 0)] } {} with slots := [(35, sl0 [])] };
      (s.cluster 0).launch = some launch0 ∧ launch0.place ≠ 1 ∧ (s.core 2).mailbox.length < 4 ∧ (s.slot 35).run ≠ .idle ∧
        (s.core 2).mailbox = (163, 0) :: []) ∧ (∀ j < 16, ((idle launch0 {} {}).slot (16 * 2 + j)).run = .idle) ∧
    (let s := idle launch0 { heldSteal := some entry3, stealing := true } {};
      (s.core 2).heldSteal = some entry3 ∧ coreOf 32 = 2 ∧ (s.slot 32).run = .idle ∧ fieldOf (s.core 2).classMap (2 * slotIn 32) 2 = 0 ∧
        slotIn 32 = 0 ∧ FreshStart s 32) := by unfold FreshStart; decide +kernel

-- MessageAndBarrierEvents
def msg3 : Message := { typ := 3, sender := 9, seq := 5, words := [11], reply := true, caller := 147 }
def arriving (_ : Message) (x : Core) (v : List Host.Cell := []) (sl : Run := .idle) : State :=
  { idle launch0 { x with msgvec := 1 } {} with
    slots := if sl = .idle then [] else [(35, { sl0 [] with run := sl })], vault := v }
theorem wit_arrivals : (∀ m ∈ [msg3, { msg3 with typ := 0 }], ((arriving m {}).core 2).rxbuf.length < 64 ∧ ((arriving m {}).core 2).parkedRecv = []) ∧
    64 ≤ ((arriving msg3 { rxbuf := List.replicate 64 msg3 }).core 2).rxbuf.length ∧ isBursar 2 = false ∧ msg3.typ ≠ 0 ∧ msg3.reply = true ∧
    ((arriving msg3 {}).cluster (unitOf 2)).timers = [] ∧ ((arriving msg3 {}).cluster (unitOf 2)).drainedSent = false ∧
    bitOf ((arriving msg3 {}).core 2).msgvec 0 = true ∧ bitOf (vWord (arriving msg3 {}) (ownKeyOf 2 (24 + 4) / 4)) 31 = false ∧
    bitOf (vWord (arriving msg3 {} [(0x1F, 0x80)]) (ownKeyOf 2 (24 + 4) / 4)) 31 = true := by decide +kernel
theorem wit_arrivalReceives : (let m : Message := { sender := 9, seq := 5, caller := 147 };
    let s := arriving m { parkedRecv := [35] } [] (.parked (.mrecv 9 5 8 7 2 none));
    (s.core 2).parkedRecv = [35] ∧ coreOf 35 = 2 ∧ (s.slot 35).run = .parked (.mrecv m.sender m.seq 8 7 2 none) ∧ Unheld s 35) := by
  unfold Unheld; decide +kernel
theorem wit_handlerStart : (let m : Message := { msg3 with ctl := 0x80000000, pc := 0x400 };
    let s : State := idle launch0 { rxbuf := [m], msgvec := 1 } {};
    isBursar (coreOf 35) = false ∧ (s.slot 35).run = .idle ∧ (s.core 2).halt = false ∧ (s.cluster 0).owState = 1 ∧ (s.cluster 0).launch = some launch0 ∧
      FreshStart s 35 ∧ (s.core 2).rxbuf = [] ++ m :: [] ∧ m.typ ≠ 0 ∧ fieldOf m.ctl 4 2 = slotClass s 35) ∧
    ((idle launch0 {} {}).core 2).rxbuf = [] := by
  unfold FreshStart; decide +kernel
theorem wit_replies : (∀ w ∈ [Wait.mcall 7 8 7 2, .rspawn 5 7], let s : State := thr { sl0 [] with run := .parked w };
      (s.slot 35).run = .parked w ∧ Unheld s 35 ∧ HandlesAt (thr { sl0 [] with run := .parked w } { tvec := 1 }) 35) ∧
    (∀ op ∈ [(0x44 : Byte), 0x42, 0x41], ({ opcode := op, tag := 7, vn := true } : Packet).tag.toNat = 7) ∧ (8 : Nat) ≠ (7 : BitVec 16).toNat := by
  unfold Unheld HandlesAt; decide +kernel
theorem wit_relaxedReplies : (∀ r ∈ [({ id := 4, place := .vault 0 0x40 false, dst := 5 } : Relaxed), { id := 4, place := .vault 0 0x40 false, err := some 1 },
      { id := 4, place := .vault 0 0x40 false, store := true }, { id := 4, place := .home 5 0x40 }, { id := 4, place := .home 5 0x40, store := true }],
      let s : State := thr { sl0 [] with relaxed := [{ r with left := 0 }] };
    4 < 2 ^ 20 ∧ (s.slot 35).relaxed = [{ r with left := 0 }] ∧ r.id = 4 ∧ (s.core (coreOf 35)).queues = [] ∧ r.size = 4) := by decide +kernel
/-- An access to a resident line at slice 0, asked for at the same router: it is performed, but a core elsewhere waits. -/
theorem wit_relaxedHomes :
    (match placeRead { rqOf 2 0 resident with router := 5 } (.home 5 0x40) 4 resident with
      | .ok v u => decide (v = 0 ∧ (u.slot 35).relaxed = [] ∧ (u.core 2).queues = [])
      | .error _ _ => false) = true ∧
    (match placeRead (rqOf 2 0 (thr (sl0 []))) (.home 5 0x40) 4 (thr (sl0 [])) with
      | .ok _ _ => false
      | .error (.wait _) _ => true
      | _ => false) = true ∧
    (match placeWrite { rqOf 2 0 resident with router := 5 } (.home 5 0x40) 4 7 resident with
      | .ok _ u => decide ((u.slot 35).relaxed = [] ∧ (u.core 2).queues = [])
      | .error _ _ => false) = true := by decide +kernel
theorem wit_timeouts : (∀ w ∈ [Wait.mrecv 9 5 8 7 2 (some 9), .cond .sendReq, .cond .relaxed, .wait 9 5], let s := thr { sl0 [] with run := .parked w };
    (s.slot 35).run = .parked w ∧ Unheld s 35) ∧
    (let s := thr (sl0 []) {} { timers := [(3, { armed := true, owner := 35 })] };
      (smGet ({} : Timer) (s.cluster 0).timers 3).armed = true ∧ (smGet ({} : Timer) (s.cluster 0).timers 4).armed = false) := by
  unfold Unheld; decide +kernel
theorem wit_barrierArrivals : (∀ x ∈ [({} : Barrier), { arr0 := [36] }, { arr0 := [35] }, { arr0 := [35], arr1 := [35] }],
      let s := atBarrier x; let y := smGet ({} : Barrier) (s.cluster 0).barriers 2
      ((List.range 1024).countP fun i => bitOf y.cores i) * ((List.range 16).countP fun i => bitOf y.slots i) = 2 ∧
        bitOf y.cores (35 / 16) = true ∧ bitOf y.slots (35 % 16) = true ∧ smWf {} s.slots = true) ∧
    (let s := { atBarrier { arr0 := [36] } with slots := [(35, { sl0 [] with run := .parked (.barw 2 6 5) })] };
      (s.slot 35).run = .parked (.barw 2 6 5) ∧ Unheld s 35 ∧ bitOf ((6 : Word) - 6) 31 = false) := by unfold Unheld; decide +kernel

-- ThreadEvents
def fetching (sg : BitVec 128) (pc : Word) (leaf : Nat) (x : Cluster := {}) : State :=
  thr { sl0 [] with pc := pc, sg := [(0, sg)] } { tlb := [{ va := 0, size := 0, leaf := BitVec.ofNat 64 leaf }], tvec := 1 } x
theorem wit_fetchFailure : (let s := fetching (codeSegment 0 0x80) 0x100 0;
    Handles s ∧ Unheld s s.cur ∧ segTest (isBursar s.myCore) (s.seg 0) s.me.pc.toNat 2 2 { kind := .fetch, x := true } = some 3) := by
  unfold Handles Unheld; decide +kernel
theorem wit_fetchFaults : (let s := fetching (codeSegment 0 0x1000) 0x100 0x0C1;
    Unheld s s.cur ∧ isBursar s.myCore = false ∧ s.me.tcb = none ∧ 0x100 = segBase (s.seg 0) + s.me.pc.toNat ∧
      segTest false (s.seg 0) s.me.pc.toNat 2 2 { kind := .fetch, x := true } = none ∧ (s.core s.myCore).icache = [] ∧
      (tlbFind (s.core s.myCore) 0x100).map (fun e => leafAllows e.leaf { kind := .fetch, x := true }) = some false ∧
      ((s.cluster s.myUnit).fbHead - (s.cluster s.myUnit).fbTail).toNat < 256) := by unfold Unheld; decide +kernel
theorem wit_faultBuffer : (let x : Cluster := { fbHead := 256, fbHeld := [{}] };
      (x.fbHead - (1 : Word).setWidth 16).toNat < 256 ∧ x.fbHeld = [{}]) ∧ 256 < (({} : Cluster).fbHead - (1 : BitVec 16)).toNat ∧
    (∀ r ∈ [Run.faulted, .stopped, .ready], (thr { sl0 [] with run := r }).slot 35 = { sl0 [] with run := r } ∧ Unheld (thr { sl0 [] with run := r }) 35 ∧
      bitOf ({ sl0 [] with run := r } : Slot).dlstat 4 = false) ∧ ((thr {}).slot 35).run = .idle ∧ ((thr (sl0 []) { halt := true }).core 2).halt = true := by
  unfold Unheld; decide +kernel

-- TranslationEvents: a page whose home is slice 0, at the router of group 0
def page0 : TlbEntry := { va := 0, size := 0, leaf := BitVec.ofNat 64 (0x3C1 + 2 ^ 10) }
def filling (x : Slice) (fenced : BitVec 32) : State :=
  { thr { sl0 [] with run := .parked (.fill 0x40) } { tlb := [page0] } with routers := meshUp, slices := [(0, x)], ctls := [(0, { fenced := fenced })] }
/-- 0 for bytes, 1 for a wait, 2 for a fenced line, 3 for an error. -/
def lineOutcome (s : State) : Nat := match placeRead (rqOf 2 1 s) (.home 0 0x40) 64 s with
  | .ok _ _ => 0
  | .error (.wait _) _ => 1
  | .error .fenced _ => 2
  | .error (.err _) _ => 3
theorem wit_fills : (∀ s ∈ [filling { lines := [(1, { valid := true })] } 0, filling { misses := [(1, [])] } 0, filling {} 0xFFFFFFFF],
      ((tlbFind (s.core 2) 0x40).bind fun e => leafTarget s 0 e.leaf 0x40) = some (.home 0 0x40) ∧ isBursar 2 = false ∧
        (s.slot 35).run = .parked (.fill 0x40) ∧ Unheld s 35) ∧
    lineOutcome (filling { lines := [(1, { valid := true })] } 0) = 0 ∧ lineOutcome (filling { misses := [(1, [])] } 0) = 1 ∧
    lineOutcome (filling {} 0xFFFFFFFF) = 2 ∧ (tlbFind ((thr (sl0 [])).core 2) 0x40) = none := by unfold Unheld; decide +kernel
theorem wit_lookups : (∀ y ∈ ((thr (sl0 [])).cluster 0).tlb2, ¬ 0x40 / pageBytes y.size = y.va / pageBytes y.size) ∧
    (let x : Cluster := { tlb2 := [page] }; x.tlb2 = [] ++ page :: [] ∧ 0x40 / pageBytes page.size = page.va / pageBytes page.size ∧ x.tlb2.Nodup) ∧
    256 ≤ ({ walkQueue := List.replicate 256 {} } : Cluster).walkQueue.length ∧
    (let out : TlbEntry := { va := 0, size := 0, leaf := BitVec.ofNat 64 (0x1C1 + 2 * 2 ^ 22 + 0xF000000 * 2 ^ 28) }
     let s := thr { sl0 [] with run := .parked (.fill 0x40) } { tlb := [out], tvec := 1 }
     ((tlbFind (s.core 2) 0x40).bind fun e => leafTarget s 0 e.leaf 0x40) = some (.io 0xF000000040) ∧
       isMgmt 0xF000000040 = false ∧ s.cur = 35 ∧ s.me.run = .parked (.fill 0x40) ∧ Handles s ∧ Unheld s 35) := by
  unfold Handles Unheld; decide +kernel
/-- Tables of the walk of address 0: ROOT, three pointers and a leaf, each in the first entry of its table, all resident at slice 0. -/
def walking (root : BitVec 64) : State :=
  { thr { sl0 [] with run := .parked (.fill 0) } {} { walkQueue := [{ slot := 35 }], root := root } with
    parts := [(0, hashAll 1)]
    slices := [(0, { lines := [(0x100, { valid := true, data := 0x8003 }), (0x200, { valid := true, data := 0xC003 }), (0x300, { valid := true, data := 0x10003 }),
      (0x400, { valid := true, data := 0x57C1 })] })] }
def root0 : BitVec 64 := 0x4001
theorem wit_walks : ((walking root0).cluster 0).walkQueue = { slot := 35 } :: [] ∧ unitOf (coreOf 35) = 0 ∧ tlb2Find ((walking root0).cluster 0) 0 = none ∧
    bitOf root0 0 = true ∧ fieldOf root0 48 16 = 0 ∧ fieldOf root0 1 13 = 0 ∧ fieldOf root0 14 34 * 0x4000 = 0x4000 ∧
    ((walking root0).slot 35).run = .parked (.fill 0) ∧ Unheld (walking root0) 35 ∧ bitOf ((walking 0).cluster 0).root 0 = false ∧
    (match walkTree 0 2 0 { walking root0 with slices := [(0, { misses := [(0x100, [])] })] } with
      | .error (.wait _) _ => true
      | _ => false) = true := by
  unfold Unheld; decide +kernel
/-- Each table entry is read at its home: the entry, and the state with its line the last used. -/
def entryAt (ea : Nat) : Nat :=
  let d := (walking root0).modCluster 0 fun y => { y with walkQueue := [] }
  let rq := rqUnit (64 * 0) 0x53 false d
  match tableHome rq ea d with
  | .ok sl w => match overRoute rq.router rq.ep sl 1 ea rq.bulk (homeRead sl ea 8) w with
    | .ok v _ => v
    | .error _ _ => 0
  | .error _ _ => 0
theorem wit_walkEntries : entryAt 0x4000 = 0x8003 ∧ entryAt 0x8000 = 0xC003 ∧ entryAt 0xC000 = 0x10003 ∧ entryAt 0x10000 = 0x57C1 ∧
    (∀ e ∈ [0x8003, 0xC003, 0x10003], fieldOf (BitVec.ofNat 64 e) 0 2 = 3 ∧ fieldOf (BitVec.ofNat 64 e) 48 16 = 0 ∧ fieldOf (BitVec.ofNat 64 e) 2 12 = 0) ∧
    leafOk 4 0x57C1 = true ∧ leafPlaceMode 0x57C1 ≠ 2 ∧ leafAllows 0x57C1 { kind := .load } = true ∧
    leafAllows 0x57C1 { kind := .store, w := true } = true ∧ leafAllows 0x5741 { kind := .store, w := true } = false ∧
    leafTarget (walking root0) ((walking root0).partOf (dieOfCluster 0)) 0x57C1 0 ≠ none ∧
    leafTarget (walking root0) ((walking root0).partOf (dieOfCluster 0)) 0x43C1 0 = none ∧ bitOf (0x57C1 : BitVec 64) 0 = true ∧ bitOf (0x57C1 : BitVec 64) 1 = false := by
  decide +kernel

-- EngineAndCopyEvents
def ring (n : Nat) : State := { engines := (List.range 16).map fun i => (i, { arrivals := if i < n then 1 else 0, rsn := if i < n then 0 else 0 }) }
theorem wit_ring : (∀ i < 16, ((ring 16).engine (16 * 0 + i)).arrivals ≠ ((ring 16).engine (16 * 0 + i)).rsn) ∧
    ¬ (∀ i < 16, ((ring 15).engine (16 * 0 + i)).arrivals ≠ ((ring 15).engine (16 * 0 + i)).rsn) := by decide +kernel
theorem wit_matrixCommand : (let c : MCmd := { op := .zero 4, slot := 35 };
    let s := { thr { sl0 [] with run := .parked .matrix } with engines := [(0, { queue := [c], retiring := [(35, 1)] })] };
    (s.engine 0).queue = c :: [] ∧ (s.slot c.slot).run = .parked .matrix ∧ groupOf (coreOf c.slot) = 0 ∧ Unheld s c.slot ∧
      (s.engine 0).retiring = (35, 1) :: [] ∧ (1 : Word) ≠ 0xFFFFFFFF) := by unfold Unheld; decide +kernel

theorem wit_engineWaits : (∀ io ∈ [({ want := 1 } : LineIO), {}, { writing := true, puts := [{ word := 0, mask := 0xF }] }, { writing := true },
      { writing := true, err := some 1 }],
      let c : MCmd := { op := .zero 4, slot := 35 };
      let s : State := { thr { sl0 [] with run := .parked .matrix } { tvec := 1 } with engines := [(0, { cmd := some c, io := io })] };
      (s.engine 0).cmd = some c ∧ (s.engine 0).io = io ∧ (s.slot c.slot).run = .parked .matrix ∧ groupOf (coreOf c.slot) = 0 ∧
        Unmapped { s with cur := c.slot } ∧ HandlesAt s c.slot) ∧
    ((thr (sl0 [])).slot 35).run ≠ .parked .matrix := by unfold Unmapped HandlesAt; decide +kernel
/-- 0 for a unit done, 1 for words to be read, 2 for no room, 3 for a code. -/
def unitOutcome (c : Copy) : Nat := match copyUnit c { copying c with cur := 35 } with
  | .ok _ _ => 0
  | .error (.lines near far) _ => if near ≠ [] && far = [] then 1 else 4
  | .error .room _ => 2
  | .error (.code _) _ => 3
  | .error (.wait _) _ => 5
/-- A copy that has read `n` words, `v` each, from offset `a` of its source on. -/
def fed (fn a n : Nat) (v : Word) : Copy :=
  { copyWit fn with accepted := true, io := { got := (List.range n).map fun i => (vKey 0 (interleaved (a + 4 * i)) / 4, some v) } }
theorem wit_copyUnits : (∀ fn ∈ [0, 1, 3, 4], unitOutcome { copyWit fn with accepted := true } = 1) ∧ unitOutcome (fed 2 0 0 0) = 0 ∧
    unitOutcome (fed 0 0x400 2 7) = 0 ∧ unitOutcome (fed 1 0x400 2 7) = 0 ∧ unitOutcome (fed 3 0x600 1 0x7FFFFFFF) = 3 ∧
    (∀ fn ∈ [0, 1, 2, 3, 4], let c := fed fn 0x400 2 7; let s : State := { copying c with cur := 35 };
      c.slot = s.cur ∧ isBursar s.myCore = false ∧ c ∈ (s.bulkOf s.myGroup).copies ∧ ((s.bulkOf s.myGroup).copies.map (·.id)).Nodup ∧ c.before = [] ∧
        c.io.puts = [] ∧ segType c.dst = 3 ∧ segOwn c.dst = true ∧ segOwn c.src = true ∧ c.unit < c.units ∧ c.io.want = 0) ∧
    (fed 0 0x400 2 7).io.got.lookup (ownKey (copying (copyWit 0)) 0x400 / 4) = some (some 7) ∧
    (∀ c ∈ [{ copyWit 0 with accepted := true, ending := some 0 }, { copyWit 0 with accepted := true, stopCode := some 0x16 },
        { copyWit 0 with accepted := true, io := { writing := true } }, { copyWit 0 with accepted := true, io := { writing := true, err := some 1 } }],
      c ∈ ((copying c).bulkOf 0).copies ∧ c.id = 0 ∧ c.io.want = 0) := by decide +kernel

-- IssuedSlots, StepRunsDecoded: core 2 alone holds a thread
def issuing (rot : Bool) (pos : BitVec 4) : State :=
  { thr { sl0 [] with sg := [(0, codeSegment 0 0x1000)] } { icache := [{ va := 0x100, data := 0x00183285 }] } { rotmode := rot, rpos := pos } with cur := 0 }
theorem wit_issued : (∀ s ∈ [issuing false 3, issuing false 4, issuing true 1], s.due = [] ∧ s.mcDue = 0 ∧ s.sr.powered = true ∧ nextCore s = some 2 ∧
      (s.cluster (unitOf 2)).idleDue = false ∧ (s.cluster (unitOf 2)).owState ≠ 2 ∧ (s.core 2).halt = false) ∧
    eligible { issuing false 3 with turn := 3 } (16 * 2 + 3) = true ∧ eligible { issuing false 4 with turn := 3 } (16 * 2 + 4) = false ∧
    eligible { issuing true 1 with turn := 3 } (16 * 2 + (1 + 2) % 16) = true ∧
    (∀ i < 2, eligible { issuing true 1 with turn := 3 } (16 * 2 + (1 + i) % 16) = false) := by decide +kernel
theorem wit_stepRuns : (let s := issuing false 3;
    pickSlot { s with turn := 3 } 2 = some (35, false) ∧ coreOf 35 = 2 ∧ (s.slot 35).deferred = none ∧ (s.slot 35).deadline = none ∧
      (s.slot 35).stepDue = false ∧ segTest (isBursar 2) (smGet 0 (s.slot 35).sg 0) 0x100 2 2 { kind := .fetch, x := true } = none ∧
      segTest (isBursar 2) (smGet 0 (s.slot 35).sg 0) 0x102 2 2 { kind := .fetch, x := true } = none ∧
      icFind (s.core 2) 0x100 = some { va := 0x100, data := 0x00183285 } ∧ icFind (s.core 2) 0x102 = some { va := 0x100, data := 0x00183285 } ∧
      decode32 0x00183285 = some (.addi 5 3 12) ∧ decode16 0x0704 = some (.cLi 0 7)) := by decide +kernel
theorem wit_stepEvent : (let s : State := { due := [.hostRefresh 0 .refresh] };
    s.due = .hostRefresh 0 .refresh :: [] ∧ eventLost s (.hostRefresh 0 .refresh) = false) ∧
    (let s : State := { sr := { powered := false } }; s.due = [] ∧ s.sr.powered = false) := by decide +kernel

-- DecodeEncode, StepKeepsCanonical
theorem wit_decodeEncode : (Instr.lq 28 31 7 0x1FF).wf = true ∧ encode (.lq 28 31 7 0x1FF) ≠ .event ∧ decodeCode (encode (.lq 28 31 7 0x1FF)) = some (.lq 28 31 7 0x1FF) := by
  decide +kernel
theorem wit_canonical : Canonical mem0 ∧ Canonical State.reset := by unfold Canonical; decide +kernel
theorem wit_canonicalStep : (match step { issuing false 3 with vault := [(0x40, 1)] } with
    | .next t => t.reg 5 = 12
    | _ => false) = true := by decide +kernel

end

end Sys2Proof.Tests
end

section
/-! SUPPORT. Bits and fields of a word after a field was replaced. -/

namespace Sys2Proof.Machine

theorem testBit_fieldOf {w : Nat} (x : BitVec w) (lo n i : Nat) :
    (fieldOf x lo n).testBit i = (decide (i < n) && x.getLsbD (lo + i)) := by
  simp only [fieldOf, Nat.testBit_mod_two_pow, Nat.testBit_shiftRight]
  rfl

theorem getLsbD_putField {w : Nat} (x : BitVec w) (lo n v i : Nat) :
    (putField x lo n v).getLsbD i =
      if lo ≤ i ∧ i < lo + n then decide (i < w) && v.testBit (i - lo) else x.getLsbD i := by
  simp only [putField, BitVec.getLsbD_or, BitVec.getLsbD_and, BitVec.getLsbD_not, BitVec.getLsbD_shiftLeft,
    BitVec.getLsbD_ofNat, Nat.testBit_two_pow_sub_one, Nat.testBit_mod_two_pow]
  by_cases hw : i < w
  · by_cases h : lo ≤ i ∧ i < lo + n
    · have h1 : ¬ i < lo := by omega
      have h2 : i - lo < n := by omega
      have h3 : i - lo < w := by omega
      simp [h, hw, h1, h2, h3]
    · by_cases h1 : i < lo
      · simp [h, hw, h1]
      · have h2 : ¬ i - lo < n := by omega
        simp [h, hw, h1, h2]
  · simp [hw, BitVec.getLsbD_of_ge x i (by omega)]

theorem fieldOf_putField {w : Nat} (x : BitVec w) (lo n v : Nat) (h : lo + n ≤ w) :
    fieldOf (putField x lo n v) lo n = v % 2 ^ n := by
  apply Nat.eq_of_testBit_eq
  intro i
  rw [testBit_fieldOf, getLsbD_putField, Nat.testBit_mod_two_pow]
  by_cases hi : i < n
  · have : lo + i < w := by omega
    simp [hi, this]
  · simp [hi]

theorem fieldOf_putField_of_disjoint {w : Nat} (x : BitVec w) (lo n v lo' n' : Nat) (h : lo' + n' ≤ lo ∨ lo + n ≤ lo') :
    fieldOf (putField x lo n v) lo' n' = fieldOf x lo' n' := by
  apply Nat.eq_of_testBit_eq
  intro i
  rw [testBit_fieldOf, testBit_fieldOf, getLsbD_putField]
  by_cases hi : i < n'
  · rw [if_neg (by omega)]
  · simp [hi]

end Sys2Proof.Machine
end

section
/-! PROOFS. Traps (R192 to R195). -/

namespace Sys2Proof.Machine

/-! ### Putting a deadline, a deferred error or a step aside before the trap -/

theorem Unmapped.unheld {s : State} (h : Unmapped s) : Unheld s s.cur := ⟨h.2.1, h.2.2.1⟩

/-- A change of the slot in execution that leaves what it holds of queues leaves it unheld. -/
theorem Unheld.modMe {s : State} (h : Unheld s s.cur) (f : Slot → Slot) (hf : (f s.me).taken = s.me.taken) :
    Unheld (s.modMe f) (s.modMe f).cur := by
  obtain ⟨ht, hq⟩ := h
  refine ⟨?_, hq⟩
  rw [State.cur_modMe, State.slot_modMe, if_pos rfl, hf]
  exact ht

theorem Handles.modMe {s : State} (h : Handles s) (f : Slot → Slot) (hf : (f s.me).status = s.me.status) :
    Handles (s.modMe f) := by
  obtain ⟨hs, ht⟩ := h
  refine ⟨?_, ht⟩
  rw [State.me_modMe, hf]
  exact hs

/-- A trap taken with something of the slot put aside first enters the handler as one without. -/
theorem takeTrap_modMe_trapped {s : State} (hu : Unmapped s) (hh : Handles s) (cause : Nat) (eval : Word) (f : Slot → Slot)
    (ht : (f s.me).taken = s.me.taken) (hs : (f s.me).status = s.me.status) :
    Trapped (s.modMe f) (takeTrap cause eval (s.modMe f)) cause eval :=
  takeTrap_trapped (hu.unheld.modMe f ht) (hh.modMe f hs) cause eval

/-! ### A trap that stops the thread (R193) -/

theorem Counted.tvec {c : Nat} {s t : State} {n : Nat → Nat} (h : Counted c s t n) (m : Nat) :
    (t.core m).tvec = (s.core m).tvec := by
  obtain ⟨hmine, -, hcores, -⟩ := h
  by_cases hm : m = c
  · rw [hm, ← hmine]
  · rw [hcores m hm]

theorem errBit_cores (c : Nat) (b : Word) (s : State) : { errBit c b s with cores := s.cores } = s := by
  unfold errBit
  split <;> rfl

theorem errBit_tvec (c : Nat) (b : Word) (s : State) (m : Nat) : ((errBit c b s).core m).tvec = (s.core m).tvec := by
  unfold errBit
  split
  · rfl
  · rw [State.core_modCore]
    split
    next h => rw [h]
    · rfl

/-- A trap first touches counters and ERRBITS of cores alone; then it stops its thread or enters the handler. -/
theorem takeTrap_shape {s : State} (hq : Unheld s s.cur) (cause : Nat) (eval : Word) :
    ∃ u : State, { u with cores := s.cores } = s ∧
      takeTrap cause eval s =
        if bitOf s.me.status 0 || !bitOf (s.core s.myCore).tvec 0 then
          coreMessage s.myCore (s.cluster s.myUnit).stopmsg [word (s.cur % 16384), word cause, s.me.reportPc]
            (u.setSlot s.cur (s.me.stop cause eval))
        else u.setSlot s.cur (s.me.enter cause eval (s.core s.myCore).tvec) := by
  have hc := trap_counted s.myCore cause s
  dsimp only at hc
  unfold takeTrap takeTrapAt
  simp only [qAll_eq_self hq.2]
  rw [show coreOf s.cur = s.myCore from rfl]
  generalize (if cause = cDEADLINE then count s.myCore 14 (count s.myCore 15 s)
    else if cause = cOVERDRAFT then count s.myCore 13 (count s.myCore 15 s) else count s.myCore 15 s) = v at hc ⊢
  generalize (if cause = cMEMERR then (4 : Word) else _) = b
  have hu : { errBit s.myCore b v with cores := s.cores } = s :=
    (congrArg (fun x : State => { x with cores := s.cores }) (errBit_cores s.myCore b v)).trans hc.rest
  have htv : ((errBit s.myCore b v).core s.myCore).tvec = (s.core s.myCore).tvec := (errBit_tvec ..).trans (hc.tvec _)
  have hsl : (errBit s.myCore b v).slot s.cur = s.me := by
    have := congrArg (fun x : State => x.slot s.cur) hu
    exact this
  have hcl : (errBit s.myCore b v).cluster s.myUnit = s.cluster s.myUnit := by
    have := congrArg (fun x : State => x.cluster s.myUnit) hu
    exact this
  refine ⟨errBit s.myCore b v, hu, ?_⟩
  rw [hsl, htv, show unitOf s.myCore = s.myUnit from rfl, hcl]

/-- A message of a device block is the one event that becomes due, unless its type says that none is wanted. -/
theorem coreMessage_eq (core : Nat) (typ : Byte) (words : List Word) (s : State) :
    ∃ m : Message, m.typ = typ ∧ m.words = words ∧ coreMessage core typ words s =
      { s with due := s.due ++ if typ = 0 then [] else [.messageArrive (bursarCore (dieOfCluster (unitOf core))) m] } := by
  refine ⟨{ typ := typ, sender := word (2 ^ 31 + position (groupCol (groupOf core)) (groupRow (groupOf core)) (core % 16))
            words := words, cls := 1, device := true }, rfl, rfl, ?_⟩
  unfold coreMessage deviceMessage
  split
  · simp
  · rfl

/-- The stopped slot saves what a trap saves unless a handler was running, and stands at the start of its chain (R193, R307). -/
theorem Slot.stop_fields (sl : Slot) (cause : Nat) (eval : Word) :
    (sl.stop cause eval).run = .stopped ∧ (sl.stop cause eval).pc = sl.reportPc ∧ (sl.stop cause eval).g = sl.g ∧
    (sl.stop cause eval).taken = [] ∧
    (sl.stop cause eval).status = putField (if bitOf sl.status 0 then sl.status else putField sl.status 16 16 sl.pend.toNat) 1 1 0 ∧
    ((sl.stop cause eval).epc, (sl.stop cause eval).ecause, (sl.stop cause eval).eval) =
      if bitOf sl.status 0 then (sl.epc, sl.ecause, sl.eval) else (sl.pc, word cause, eval) := by
  unfold Slot.stop Slot.rewind Slot.reportPc
  cases bitOf sl.status 0 <;> cases hp : sl.pv <;> simp [hp, Slot.saveTrap]

/-- A trap that its thread does not handle stops it (R193). -/
theorem takeTrap_stopped {s : State} (hq : Unheld s s.cur) (hh : bitOf s.me.status 0 = true ∨ bitOf (s.core s.myCore).tvec 0 = false)
    (cause : Nat) (eval : Word) : Stopped s (takeTrap cause eval s) cause eval := by
  obtain ⟨u, hu, he⟩ := takeTrap_shape hq cause eval
  have hstop : (bitOf s.me.status 0 || !bitOf (s.core s.myCore).tvec 0) = true := by
    rcases hh with h | h <;> simp [h]
  rw [if_pos hstop] at he
  obtain ⟨m, htyp, hwords, hm⟩ := coreMessage_eq s.myCore (s.cluster s.myUnit).stopmsg
    [word (s.cur % 16384), word cause, s.me.reportPc] (u.setSlot s.cur (s.me.stop cause eval))
  rw [he, hm]
  obtain ⟨hrun, hpc, hg, htaken, hstatus, hsaved⟩ := Slot.stop_fields s.me cause eval
  have hcur : u.cur = s.cur := by
    have := congrArg State.cur hu
    exact this
  have hslot (k : Nat) : u.slot k = s.slot k := by
    have := congrArg (fun x : State => x.slot k) hu
    exact this
  have hdue : u.due = s.due := by
    have := congrArg State.due hu
    exact this
  generalize ht : ({ u.setSlot s.cur (s.me.stop cause eval) with due := _ } : State) = t
  have hslots (k : Nat) : t.slot k = if s.cur = k then s.me.stop cause eval else s.slot k := by
    rw [← hslot k, ← State.slot_setSlot, ← ht]
    rfl
  have htcur : t.cur = s.cur := by rw [← hcur, ← ht]; rfl
  have hme : t.me = s.me.stop cause eval := by rw [State.me, htcur, hslots, if_pos rfl]
  refine ⟨htcur, fun r => ?_, ?_, ?_, ?_, fun hs => ?_, fun hs => ?_, fun k hk => ?_, ⟨m, ?_, htyp, hwords⟩, ?_⟩
  · rw [reg_eq_of_taken (by rw [hme, htaken]), reg_eq_of_taken hq.1, hme, hg]
  · rw [hme, hrun]
  · rw [hme, hpc]
  · rw [hme, hstatus, bitOf, getLsbD_putField, if_neg (by omega)]
    split
    · rfl
    · rw [getLsbD_putField, if_neg (by omega)]
      rfl
  · simp only [hs, if_true, Prod.mk.injEq] at hsaved hstatus
    obtain ⟨h1, h2, h3⟩ := hsaved
    rw [hme, hstatus, fieldOf_putField_of_disjoint _ _ _ _ _ _ (.inr (by omega))]
    exact ⟨h1, h2, h3, rfl⟩
  · simp only [hs, Bool.false_eq_true, if_false, Prod.mk.injEq] at hsaved hstatus
    obtain ⟨h1, h2, h3⟩ := hsaved
    rw [hme, hstatus, fieldOf_putField_of_disjoint _ _ _ _ _ _ (.inr (by omega)), fieldOf_putField _ _ _ _ (by omega),
      Nat.mod_eq_of_lt s.me.pend.isLt]
    exact ⟨h1, h2, h3, rfl⟩
  · rw [hslots, if_neg (Ne.symm hk)]
  · rw [← hdue, ← ht]
    rfl
  · rw [← ht]
    exact (congrArg (fun x : State => { x with slots := s.slots, due := s.due }) hu)

/-! ### What traps -/

theorem exec_illegalEncoding (s : State) : exec .illegalEncoding s = .next (takeTrap cILLEGAL s.me.ir s) := rfl

theorem exec_deadlineTrap {s : State} {n : BitVec 4} (h : s.me.deadline = some n) :
    exec .deadlineTrap s = .next (takeTrap cDEADLINE (n.setWidth 32) (s.modMe fun sl => { sl with deadline := none })) := by
  show execDeadlineTrap s = _
  rw [execDeadlineTrap, h]

theorem exec_deferredMemerr {s : State} {c : BitVec 5} {more : Bool} (h : s.me.deferred = some (c, more)) :
    exec .deferredMemerr s = .next (takeTrap cMEMERR (BitVec.ofNat 32 (c.toNat + 256 + if more then 512 else 0))
      (s.modMe fun sl => { sl with deferred := none })) := by
  show execDeferredMemerr s = _
  rw [execDeferredMemerr, h]
  cases more <;> rfl

theorem exec_stepBreak {s : State} (h : s.me.stepDue = true) (hb : (s.core s.myCore).brkhalt = false) :
    exec .stepBreak s = .next (takeTrap cBREAK 1 (s.modMe fun sl => { sl with stepDue := false })) := by
  show execStepBreak s = _
  simp [execStepBreak, h, hb]

theorem exec_syscall {s : State} (h : Clear s) : exec .syscall s = .next (takeTrap cSYSCALL 0 s) :=
  Clear.instr (f := {}) h rfl rfl rfl

theorem exec_brk {s : State} (h : Clear s) (hb : (s.core s.myCore).brkhalt = false) :
    exec .brk s = .next (takeTrap cBREAK 0 s) := by
  refine (Clear.instr (f := {}) (body := fun s => if (s.core s.myCore).brkhalt then .ok .seq (haltAtBreak s)
    else .error (.trap cBREAK 0) s) h rfl rfl rfl).trans ?_
  rw [hb]
  rfl

theorem claim_trapsEnterTheHandler : Claim.TrapsEnterTheHandler := by
  intro s hu hh
  refine ⟨fun hp => ⟨_, exec_syscall ⟨hp, hu⟩, takeTrap_trapped hu.unheld hh _ _⟩,
    fun hp hb => ⟨_, exec_brk ⟨hp, hu⟩ hb, takeTrap_trapped hu.unheld hh _ _⟩,
    ⟨_, exec_illegalEncoding s, takeTrap_trapped hu.unheld hh _ _⟩,
    fun n hn => ⟨_, exec_deadlineTrap hn, takeTrap_modMe_trapped hu hh _ _ _ rfl rfl⟩,
    fun c more hc => ⟨_, exec_deferredMemerr hc, takeTrap_modMe_trapped hu hh _ _ _ rfl rfl⟩,
    fun hd hb => ⟨_, exec_stepBreak hd hb, takeTrap_modMe_trapped hu hh _ _ _ rfl rfl⟩⟩

theorem claim_trapsStopTheThread : Claim.TrapsStopTheThread := by
  intro s hu hh
  refine ⟨fun hp => ⟨_, exec_syscall ⟨hp, hu⟩, takeTrap_stopped hu.unheld hh _ _⟩,
    fun hp hb => ⟨_, exec_brk ⟨hp, hu⟩ hb, takeTrap_stopped hu.unheld hh _ _⟩,
    ⟨_, exec_illegalEncoding s, takeTrap_stopped hu.unheld hh _ _⟩⟩

/-- Settles O36: a trap enters the handler of its thread, or stops the thread. -/
theorem traps : Obligations.Traps := ⟨claim_trapsEnterTheHandler, claim_trapsStopTheThread⟩

end Sys2Proof.Machine
end

section
/-! PROOFS. The management region of a die: its pages, and what they hold at reset (R5, R107). -/

namespace Sys2Proof.Machine

/-! ### The pages of the region that arrays fill -/

theorem regionRead_router (s : State) (d n z : Nat) (hn : n < 256) (hz : z < 0x100) :
    regionRead s d (0x210000 + 0x100 * n + z) =
      let r := s.router (routerAt (16 * (d % 2) + n % 16) (16 * (d / 2) + n / 16))
      if z = 0 then rterr r
      else if z = 4 then r.routecfg.setWidth 32
      else if 0x40 ≤ z && z < 0x80 then word (fieldOf (smGet 0 r.tslot ((z - 0x40) / 8)) (32 * (z % 8 / 4)) 32)
      else 0 := by
  have hb : (0x210000 + 0x100 * n + z) / 0x10000 = 0x21 := by omega
  have hi : (0x210000 + 0x100 * n + z) % 0x10000 / 0x100 = n := by omega
  have ho : (0x210000 + 0x100 * n + z) % 0x10000 % 0x100 = z := by omega
  simp [regionRead, hb, hi, ho]

theorem regionRead_link (s : State) (d n : Nat) (hn : n < 35) :
    regionRead s d (0x220000 + 4 * n) = lnkstatOf (smGet {} (s.router (lnkPlace d n).1).links (lnkPlace d n).2) := by
  have hb : (0x220000 + 4 * n) / 0x10000 = 0x22 := by omega
  have hy : (0x220000 + 4 * n) % 0x10000 = 4 * n := by omega
  have hi : 4 * n / 4 = n := by omega
  have hlt : 4 * n < 4 * 35 := by omega
  simp [regionRead, hb, hy, hi, hlt]

theorem regionRead_sensor (s : State) (d n : Nat) (hn : n < 64) :
    regionRead s d (0x500000 + 4 * n) =
      word ((s.die d).therm.valid.toNat * 2 ^ 31 + (smGet 0 (s.die d).therm.sens n).toNat) := by
  have hb : (0x500000 + 4 * n) / 0x10000 = 0x50 := by omega
  have hy : (0x500000 + 4 * n) % 0x10000 = 4 * n := by omega
  have hi : 4 * n / 4 = n := by omega
  have hlt : 4 * n < 0x100 := by omega
  simp [regionRead, hb, hy, hi, hlt]

theorem regionRead_ctl (s : State) (d k y : Nat) (hk : k < 2) (hy : y < 0x10000) :
    regionRead s d (0x100000 + 0x10000 * k + y) = ctlRead (s.ctl (2 * d + k)) y := by
  have hb : (0x100000 + 0x10000 * k + y) / 0x10000 = 0x10 + k := by omega
  have ho : (0x100000 + 0x10000 * k + y) % 0x10000 = y := by omega
  have h0 : 0x10 + k ≠ 0 := by omega
  have h1 : 0x10 + k = 0x10 ∨ 0x10 + k = 0x11 := by omega
  simp only [regionRead, hb, ho, h0, h1, if_false, Bool.or_eq_true, decide_eq_true_eq, if_true]
  simp

/-! ### At reset every record has its reset value -/

theorem reset_router (n : Nat) : State.reset.router n = {} := rfl
theorem reset_ctl (n : Nat) : State.reset.ctl n = {} := rfl
theorem reset_die (n : Nat) : State.reset.die n = {} := rfl

/-- Settles O21: every page at reset shows its reset records. -/
theorem resetValues : Obligations.ResetValues := by
  intro d hd
  refine ⟨by simp [regionRead]; decide, fun k hk => ?_, by simp [regionRead, reset_die]; decide, fun n hn => ?_, fun n hn => ?_,
    fun n hn => ?_, ?_, ?_, by simp [regionRead, reset_die], ?_, by simp [regionRead, reset_die]⟩
  · have h (y : Nat) (hy : y < 0x10000) : regionRead State.reset d (0x100000 + 0x10000 * k + y) = ctlRead {} y :=
      (regionRead_ctl State.reset d k y hk hy).trans (by rw [reset_ctl])
    have h0 := h 0 (by omega)
    rw [Nat.add_zero] at h0
    dsimp only
    rw [h0, h _ (by omega), h _ (by omega), h _ (by omega), h _ (by omega), h _ (by omega), h _ (by omega), h _ (by omega)]
    decide
  · have h0 := regionRead_router State.reset d n 0 hn (by omega)
    have h (z : Nat) (hz : z < 0x100) := regionRead_router State.reset d n z hn hz
    rw [Nat.add_zero] at h0
    simp only [reset_router] at h0 h
    refine ⟨h0.trans (by decide), (h 4 (by omega)).trans (by decide), fun p hp => ⟨?_, ?_⟩⟩
    · rw [Nat.add_assoc, h _ (by omega)]
      interval_cases p <;> decide
    · rw [Nat.add_assoc, h _ (by omega)]
      interval_cases p <;> decide
  · rw [regionRead_link _ _ _ hn, reset_router]
    show lnkstatOf {} = 0
    decide
  · rw [regionRead_sensor _ _ _ hn, reset_die]
    show word (false.toNat * 2 ^ 31 + (0 : BitVec 16).toNat) = 0
    decide
  all_goals
    simp [regionRead, reset_die]
    decide

end Sys2Proof.Machine
end

section
/-! PROOFS. Words of the manual and the instructions they stand for (R6, R296 to R304). -/

namespace Sys2Proof.Machine

/-- Settles O24: the decoder evaluated on each word that the manual writes out. -/
theorem decodeWords : Obligations.DecodeWords := by
  refine ⟨?words, ?halfwords, ?reservedHalfwords, ?reservedWord⟩
  case words => decide +kernel
  case halfwords => decide +kernel
  case reservedHalfwords => decide +kernel
  case reservedWord => decide +kernel

end Sys2Proof.Machine
end

section
/-! PROOFS. What a step executes: the event that is due, or the instruction whose bytes stand at the pc (R6, R184, R201, R296). -/

namespace Sys2Proof.Machine

/-! ### Parts of an issue -/

/-- Clearing the mark of a stall touches no more than that mark of one launch. -/
theorem clearStall_only (c : Nat) (s : State) : { clearStall c s with clusters := s.clusters } = s ∧ ∀ d,
    ((clearStall c s).cluster d).launch.map (fun l => { l with stalled := false }) =
      (s.cluster d).launch.map (fun l => { l with stalled := false }) ∧
    { (clearStall c s).cluster d with launch := none } = { s.cluster d with launch := none } := by
  unfold clearStall
  dsimp only
  split
  next l hl =>
    split
    · refine ⟨rfl, fun d => ?_⟩
      rw [State.cluster_modCluster]
      split
      next hd => subst hd; simp [hl]
      · exact ⟨rfl, rfl⟩
    · exact ⟨rfl, fun _ => ⟨rfl, rfl⟩⟩
  · exact ⟨rfl, fun _ => ⟨rfl, rfl⟩⟩

/-- An issue counts once for an instruction that has not been counted, and again as lent in a lent cycle (R201). -/
theorem issue_counted (n : Nat) (counted lent : Bool) (s : State) :
    Counted n s (if counted then s else count n 7 (if lent then count n 9 s else s))
      fun j => if counted = false ∧ (j = 7 ∨ (j = 9 ∧ lent = true)) then 1 else 0 := by
  have h : Counted n s (count n 7 (if lent then count n 9 s else s)) _ := ((Counted.refl n s).ite 9 lent).countN 7 1
  cases counted
  · refine ⟨h.mine, fun j => (h.counters j).trans (congrArg _ ?_), h.cores, h.rest⟩
    cases lent <;> by_cases h7 : j = 7 <;> by_cases h9 : j = 9 <;> simp [h7, h9, eq_comm]
  · exact Counted.refl n s

/-- Marking the lines of an instruction used touches the core's order of use alone (R184). -/
theorem icTouch_only (n va len : Nat) (s : State) :
    (∀ m, m ≠ n → (icTouch n va len s).core m = s.core m) ∧
    { (icTouch n va len s).core n with icache := (s.core n).icache, stamp := (s.core n).stamp } = s.core n ∧
    ((icTouch n va len s).core n).icache.map (fun l => (l.va, l.data)) = (s.core n).icache.map (fun l => (l.va, l.data)) ∧
    { icTouch n va len s with cores := s.cores } = s := by
  unfold icTouch
  refine ⟨fun m hm => ?_, ?_, ?_, rfl⟩
  · rw [State.core_modCore, if_neg (Ne.symm hm)]
  · rw [State.core_modCore, if_pos rfl]
  · rw [State.core_modCore, if_pos rfl, List.map_map]
    refine List.map_congr_left fun l _ => ?_
    simp only [Function.comp]
    split <;> rfl

/-- Slot `k` of core `n` with the instruction `bits` of `len` bytes loaded, in the state `u` (R178, R179, R201): what its issue changes. -/
structure Loaded (s u : State) (k n : Nat) (lent : Bool) (bits : Word) (len : Nat) : Prop where
  cur : u.cur = s.cur
  slot : u.slot k = { s.slot k with
    ir := bits, irLen := len, busyUntil := (s.cluster (unitOf n)).cycle.toNat + 8, counted := true, run := .ready
    undo := some { issued := smGet 0 (s.core n).counters 7, lent := smGet 0 (s.core n).counters 9, step := (s.core n).step
                   busyUntil := (s.slot k).busyUntil, counted := (s.slot k).counted }
    reissue := (s.slot k).reissue || decide ((s.slot k).run ≠ .ready) }
  others : ∀ j, j ≠ k → u.slot j = s.slot j
  cores : ∀ m, m ≠ n → u.core m = s.core m
  mine : { u.core n with counters := (s.core n).counters, icache := (s.core n).icache, stamp := (s.core n).stamp } = s.core n
  counters : ∀ j, smGet 0 (u.core n).counters j =
    bump (smGet 0 (s.core n).counters j) (if (s.slot k).counted = false ∧ (j = 7 ∨ (j = 9 ∧ lent = true)) then 1 else 0)
  lines : (u.core n).icache.map (fun l => (l.va, l.data)) = (s.core n).icache.map (fun l => (l.va, l.data))
  clusters : ∀ c, (u.cluster c).launch.map (fun l => { l with stalled := false }) =
      (s.cluster c).launch.map (fun l => { l with stalled := false }) ∧
    { u.cluster c with launch := none } = { s.cluster c with launch := none }
  rest : { u with slots := s.slots, cores := s.cores, clusters := s.clusters } = s

theorem loadInstr_loaded {s : State} {k n : Nat} (hk : coreOf k = n) (hh : (s.core n).halt = false) (lent : Bool) (bits : Word)
    (len : Nat) : Loaded s (loadInstr k lent bits len s) k n lent bits len := by
  unfold loadInstr
  simp only [hk]
  generalize segBase (smGet 0 (s.slot k).sg 0) + (s.slot k).pc.toNat = va
  obtain ⟨tcores, tmine, tlines, trest⟩ := icTouch_only n va len s
  generalize icTouch n va len s = t at *
  have tslot (j : Nat) : t.slot j = s.slot j := by
    have := congrArg (fun x : State => x.slot j) trest
    exact this
  have hc := issue_counted n (t.slot k).counted lent t
  generalize (if (t.slot k).counted = true then t else count n 7 (if lent = true then count n 9 t else t)) = v at *
  have vslot := hc.slot
  obtain ⟨vmine, vcounters, vcores, vrest⟩ := hc
  have vhalt : (v.core n).halt = false := by
    have h1 := congrArg Core.halt vmine
    have h2 := congrArg Core.halt tmine
    exact h1.trans (h2.trans hh)
  rw [if_neg (by simp [vhalt])]
  have hrest : { v with cores := s.cores } = s := (congrArg (fun x : State => { x with cores := s.cores }) vrest).trans trest
  have hcluster (c : Nat) : v.cluster c = s.cluster c := by
    have := congrArg (fun x : State => x.cluster c) hrest
    exact this
  rw [hcluster]
  generalize hw : v.modSlot k _ = w
  obtain ⟨crest, cclusters⟩ := clearStall_only (unitOf n) w
  have cslot (j : Nat) : (clearStall (unitOf n) w).slot j = w.slot j := by
    have := congrArg (fun x : State => x.slot j) crest
    exact this
  have ccore (m : Nat) : (clearStall (unitOf n) w).core m = v.core m := by
    have := congrArg (fun x : State => x.core m) crest
    rw [← hw] at this ⊢
    exact this
  refine ⟨?_, ?_, fun j hj => ?_, fun m hm => ?_, ?_, fun j => ?_, ?_, fun c => ?_, ?_⟩
  · have h1 := congrArg State.cur crest
    have h2 := congrArg State.cur hrest
    rw [← hw] at h1 ⊢
    exact h1.trans h2
  · rw [cslot, ← hw, State.slot_modSlot, if_pos rfl, vslot, tslot]
  · rw [cslot, ← hw, State.slot_modSlot, if_neg (Ne.symm hj), vslot, tslot]
  · rw [ccore, vcores m hm, tcores m hm]
  · rw [ccore]
    have h1 := congrArg (fun x : Core =>
      { x with counters := (s.core n).counters, icache := (s.core n).icache, stamp := (s.core n).stamp }) vmine
    have h2 := congrArg (fun x : Core => { x with counters := (s.core n).counters }) tmine
    exact h1.trans h2
  · have h := congrArg Core.counters tmine
    rw [ccore, vcounters, tslot, show (t.core n).counters = (s.core n).counters from h]
  · have h := congrArg Core.icache vmine
    rw [ccore, show (v.core n).icache = (t.core n).icache from h, tlines]
  · rw [← hcluster c]
    have := cclusters c
    rw [← hw] at this ⊢
    exact this
  · have h1 := congrArg (fun x : State => { x with slots := s.slots, cores := s.cores, clusters := s.clusters }) crest
    have h2 := congrArg (fun x : State => { x with slots := s.slots, clusters := s.clusters }) hrest
    rw [← hw] at h1 ⊢
    exact h1.trans h2

/-! ### The fetch (R184, R231, R296) -/

/-- The halfword of a cached line at an address, when the tests of the code segment pass. -/
theorem fetchHalf_of_cached {s : State} {k : Nat} {o : Word} {l : ICLine}
    (ht : segTest (isBursar (coreOf k)) (smGet 0 (s.slot k).sg 0) o.toNat 2 2 aFetch = none)
    (hl : icFind (s.core (coreOf k)) (segBase (smGet 0 (s.slot k).sg 0) + o.toNat) = some l) :
    fetchHalf s k o =
      .ok (l.data.extractLsb' (8 * ((segBase (smGet 0 (s.slot k).sg 0) + o.toNat) % 64)) 16).toNat := by
  simp only [fetchHalf, ht, hl, fieldOf, BitVec.extractLsb'_toNat]

theorem toNat_mod_two {w : Nat} (h : BitVec w) : h.toNat % 2 = (h.getLsbD 0).toNat := by
  simp only [BitVec.getLsbD, Nat.testBit_zero]
  rcases Nat.mod_two_eq_zero_or_one h.toNat with h | h <;> simp [h]

/-- A fetch whose halfwords are cached gives their bits: two bytes when bit 0 is 0, four when it is 1. -/
theorem fetchAt_of_cached {s : State} {k : Nat} {h : BitVec 16} (hh : fetchHalf s k (s.slot k).pc = .ok h.toNat) :
    (h.getLsbD 0 = false → fetchAt s k = .code (h.setWidth 32) 2) ∧
    ∀ h2 : BitVec 16, h.getLsbD 0 = true → fetchHalf s k ((s.slot k).pc + 2) = .ok h2.toNat →
      fetchAt s k = .code (h2 ++ h) 4 := by
  refine ⟨fun hb => ?_, fun h2 hb hh2 => ?_⟩
  · simp only [fetchAt, hh, toNat_mod_two, hb]
    simp [word, BitVec.ofNat_toNat]
  · simp only [fetchAt, hh, hh2, toNat_mod_two, hb]
    have : word (h.toNat + 65536 * h2.toNat) = (h2 ++ h : BitVec (16 + 16)) := by
      apply BitVec.eq_of_toNat_eq
      have h1 := h.isLt
      have h2' := h2.isLt
      rw [BitVec.toNat_append, ← Nat.shiftLeft_add_eq_or_of_lt h1, word, BitVec.toNat_ofNat, Nat.shiftLeft_eq]
      omega
    simp [this]

/-! ### The step -/

theorem step_of_due {s : State} {e : Instr} {more : List Instr} (h : s.due = e :: more) (hl : eventLost s e = false) :
    step s = exec e { s with due := more } := by
  simp [step, stuck, nextOf, h, hl]

theorem step_of_no_clock {s : State} (h : s.due = []) (hp : s.sr.powered = false) : step s = .fault .clocksStopped := by
  simp [step, stuck, h, hp]

/-- With nothing else to do, a step is the issue of the slot that the next core picks. -/
theorem step_of_issue {s t : State} {n k : Nat} {lent : Bool} {i : Instr} (hd : s.due = []) (hm : s.mcDue = 0)
    (hp : s.sr.powered = true) (hn : nextCore s = some n) (hk : pickSlot { s with turn := n + 1 } n = some (k, lent))
    (hi : issueSlot k lent { s with turn := n + 1 } = (t, some i)) : step s = exec i t := by
  have hturn : coreTurn n s = (t, some i) := by
    unfold coreTurn
    simp only [hk, hi]
  have hnext : nextOf s = (t, some i) := by
    unfold nextOf
    split
    next h => simp [hd] at h
    · simp [hm, hn, hturn]
  simp [step, stuck, hp, hnext]

/-- A slot with no trap in waiting issues what its fetch finds. -/
theorem issueSlot_of_code {s : State} {k len : Nat} {lent : Bool} {bits : Word} (hd : (s.slot k).deferred = none)
    (ht : (s.slot k).deadline = none ∨ bitOf (s.slot k).status 0 = true) (hs : (s.slot k).stepDue = false)
    (hf : fetchAt { s with cur := k } k = .code bits len) :
    issueSlot k lent s = (loadInstr k lent bits len { s with cur := k }, some (instrOf bits len)) := by
  have hme : ({ s with cur := k } : State).me = s.slot k := rfl
  have ht' : ((s.slot k).deadline.isSome && !bitOf (s.slot k).status 0) = false := by
    rcases ht with h | h <;> simp [h]
  unfold issueSlot
  simp only [hme, hd, ht', hs, hf, Option.isSome_none, Bool.false_and]
  rfl

theorem instrOf_half (h : BitVec 16) : instrOf (h.setWidth 32) 2 = (decode16 h).getD .illegalEncoding := by
  simp [instrOf]

theorem instrOf_word (w : Word) : instrOf w 4 = (decode32 w).getD .illegalEncoding := by
  simp [instrOf]

/-- Settles O23: the event that is due, no clock, or the bits at the pc of the slot that issues. -/
theorem stepRunsDecoded : Obligations.StepRunsDecoded := by
  refine ⟨fun s e more h hl => step_of_due h hl, fun s h hp => step_of_no_clock h hp, ?_⟩
  intro s n k lent hdue hmc hpow hnext hpick hcore hhalt sl x d fetches line half va va2 runs hdef hdl hstep htest l hl
  subst hcore
  have issue (bits : Word) (len : Nat) (hf : fetchAt { s with turn := coreOf k + 1, cur := k } k = .code bits len) :
      runs (instrOf bits len) bits len := by
    refine ⟨_, step_of_issue hdue hmc hpow hnext hpick (issueSlot_of_code hdef hdl hstep hf), ?_⟩
    have h := loadInstr_loaded (s := { s with turn := coreOf k + 1, cur := k }) (k := k) rfl hhalt lent bits len
    generalize loadInstr k lent bits len _ = u at h
    obtain ⟨hcur, hslot, hothers, hcores, hmine, hcounters, hlines, hclusters, hrest⟩ := h
    refine ⟨hcur, ?_, hothers, hcores, hmine, hcounters, hlines, hclusters, ?_⟩
    · rw [State.me, hcur]
      exact hslot
    · exact congrArg (fun y : State => { y with cur := s.cur, turn := s.turn }) hrest
  have hhalf : fetchHalf { s with turn := coreOf k + 1, cur := k } k sl.pc = .ok (half l va).toNat := fetchHalf_of_cached htest hl
  obtain ⟨hshort, hlong⟩ := fetchAt_of_cached hhalf
  refine ⟨fun hb => ?_, fun hb htest2 m hm => ?_⟩
  · have h := issue _ _ (hshort hb)
    rw [instrOf_half] at h
    exact ⟨fun i hi => by rwa [hi] at h, fun hi => by rwa [hi] at h⟩
  · have hhalf2 : fetchHalf { s with turn := coreOf k + 1, cur := k } k (sl.pc + 2) = .ok (half m va2).toNat :=
      fetchHalf_of_cached htest2 hm
    have h := issue _ _ (hlong _ hb hhalf2)
    rw [instrOf_word] at h
    exact ⟨fun i hi => by rwa [hi] at h, fun hi => by rwa [hi] at h⟩

end Sys2Proof.Machine
end

section
/-! SUPPORT. The end of an instruction whose slot holds nothing of a queue, mapped registers or not (R187, R293, R306). -/

namespace Sys2Proof.Machine

/-! ### A slot that holds nothing of a queue -/

theorem regAt_of_unheld {s : State} {k : Nat} (h : Unheld s k) (r : Reg) :
    regAt k r s = if r = 0 then 0 else smGet 0 (s.slot k).g r.toNat := by
  simp only [regAt, h.1]
  rfl

theorem setRegAt_of_unheld {s : State} {k : Nat} (h : Unheld s k) (r : Reg) (v : Word) :
    setRegAt k r v s = if r = 0 then s else s.modSlot k fun sl => { sl with g := smSet 0 sl.g r.toNat v } := by
  simp only [setRegAt, setRegOwned]
  split
  · rfl
  · split
    · rfl
    · rw [qFill_eq_none (not_owned h.2 _)]

theorem completeAt_of_unheld {s : State} {k : Nat} (h : Unheld s k) :
    completeAt k .seq s = s.modSlot k fun sl => sl.went (sl.pc + word sl.irLen) := by
  simp only [completeAt, qAll_eq_self h.2]
  rfl

theorem setRegAt_unheld {s : State} {k : Nat} (h : Unheld s k) (r : Reg) (v : Word) : Unheld (setRegAt k r v s) k := by
  rw [setRegAt_of_unheld h]
  split
  · exact h
  · refine ⟨?_, h.2⟩
    rw [State.slot_modSlot, if_pos rfl]
    exact h.1

/-- What a write of a register changes. -/
theorem setRegAt_effect {s : State} {k : Nat} (h : Unheld s k) (d : Reg) (v : Word) :
    (∀ r, regAt k r (setRegAt k d v s) = if r = 0 then 0 else if r = d then v else regAt k r s) ∧
    { (setRegAt k d v s).slot k with g := (s.slot k).g } = s.slot k ∧
    (∀ j, j ≠ k → (setRegAt k d v s).slot j = s.slot j) ∧ { setRegAt k d v s with slots := s.slots } = s := by
  have hregs (r : Reg) : regAt k r (setRegAt k d v s) = if r = 0 then 0 else if r = d then v else regAt k r s := by
    rw [regAt_of_unheld (setRegAt_unheld h d v), regAt_of_unheld h, setRegAt_of_unheld h]
    by_cases hr : r = 0
    · rw [if_pos hr, if_pos hr]
    by_cases hd : d = 0
    · rw [if_pos hd, if_neg hr, if_neg hr, if_neg (hd ▸ hr)]
    · rw [if_neg hr, if_neg hr, if_neg hr, if_neg hd, State.slot_modSlot, if_pos rfl, smGet_smSet]
      simp only [BitVec.toNat_inj, eq_comm]
  rw [setRegAt_of_unheld h] at hregs ⊢
  split
  next hd =>
    rw [if_pos hd] at hregs
    exact ⟨hregs, rfl, fun _ _ => rfl, rfl⟩
  next hd =>
    rw [if_neg hd] at hregs
    refine ⟨hregs, ?_, fun j hj => ?_, rfl⟩
    · rw [State.slot_modSlot, if_pos rfl]
    · rw [State.slot_modSlot, if_neg (Ne.symm hj)]

/-- A parked or issuing instruction ends without a result. -/
theorem answered_complete {s : State} {k : Nat} (h : Unheld s k) :
    Answered s (completeAt k .seq s) k [] ∧ { completeAt k .seq s with slots := s.slots } = s := by
  rw [completeAt_of_unheld h]
  have hun : Unheld (s.modSlot k fun sl => sl.went (sl.pc + word sl.irLen)) k := by
    refine ⟨?_, h.2⟩
    rw [State.slot_modSlot, if_pos rfl]
    exact h.1
  refine ⟨⟨rfl, fun r => ?_, ?_, fun j hj => ?_⟩, rfl⟩
  · rw [regAt_of_unheld hun, regAt_of_unheld h, State.slot_modSlot, if_pos rfl]
    split <;> rfl
  · rw [State.slot_modSlot, if_pos rfl]
    rfl
  · rw [State.slot_modSlot, if_neg (Ne.symm hj)]

/-- It ends with a result in a register. -/
theorem answered_complete_write {s : State} {k : Nat} (h : Unheld s k) (d : Reg) (v : Word) :
    Answered s (completeAt k .seq (setRegAt k d v s)) k [(d, v)] ∧
      { completeAt k .seq (setRegAt k d v s) with slots := s.slots } = s := by
  obtain ⟨⟨hcur, hregs, hslot, hothers⟩, hrest⟩ := answered_complete (setRegAt_unheld h d v)
  obtain ⟨uregs, uslot, uothers, urest⟩ := setRegAt_effect h d v
  generalize completeAt k .seq (setRegAt k d v s) = t at *
  generalize setRegAt k d v s = u at *
  have ucur := congrArg State.cur urest
  refine ⟨⟨hcur.trans ucur, fun r => ?_, ?_, fun j hj => (hothers j hj).trans (uothers j hj)⟩, ?_⟩
  · rw [hregs r]
    by_cases hr : r = 0
    · simp [hr]
    · rw [uregs, if_neg hr, if_neg hr, if_neg hr]
      by_cases hd : r = d
      · rw [if_pos hd, hd]
        simp
      · rw [if_neg hd]
        simp [List.lookup, beq_eq_false_iff_ne.2 hd]
  · have h1 := congrArg (fun x : Slot => { x with g := (s.slot k).g }) hslot
    rw [← uslot]
    exact h1
  · exact (congrArg (fun x : State => { x with slots := s.slots }) hrest).trans urest

/-- The same of the slot in execution, without a result and with one. -/
theorem wroteTo_complete {s : State} (h : Unheld s s.cur) : WroteTo s (completeAt s.cur .seq s) [] s.npc := by
  obtain ⟨⟨hcur, hregs, hslot, hothers⟩, hrest⟩ := answered_complete h
  refine ⟨hcur, fun r => ?_, ?_, hothers, hrest⟩
  · rw [State.reg, hcur]
    exact hregs r
  · rw [State.me, hcur]
    exact hslot

theorem wroteTo_complete_write {s : State} (h : Unheld s s.cur) (d : Reg) (v : Word) :
    WroteTo s (completeAt s.cur .seq (s.setReg d v)) [(d, v)] s.npc := by
  obtain ⟨⟨hcur, hregs, hslot, hothers⟩, hrest⟩ := answered_complete_write h d v
  refine ⟨hcur, fun r => ?_, ?_, hothers, hrest⟩
  · rw [State.reg]
    exact (congrArg (fun k => regAt k r _) hcur).trans (hregs r)
  · exact (congrArg (fun k => { State.slot _ k with g := s.me.g }) hcur).trans hslot

end Sys2Proof.Machine
end

section
/-! PROOFS. Reads and writes of the CSRs (R399 to R405). -/

namespace Sys2Proof.Machine

/-! ### Computations of an instruction -/

theorem bind_of_ok {α β : Type} {x : M α} {s u : State} {a : α} (h : x s = .ok a u) (f : α → M β) : (x >>= f) s = f a u := by
  show EStateM.bind x f s = _
  simp only [EStateM.bind, h]

theorem bind_of_error {α β : Type} {x : M α} {s u : State} {e : Stop} (h : x s = .error e u) (f : α → M β) :
    (x >>= f) s = .error e u := by
  show EStateM.bind x f s = _
  simp only [EStateM.bind, h]

/-! ### The common part of the four instructions -/

/-- What lets a CSR instruction on number `c` reach its body: the number exists, the level allows it, nothing is to be waited for. -/
structure CsrOpen (s : State) (c : BitVec 12) : Prop where
  clear : Clear s
  exist : csrExists (isBursar s.myCore) c.toNat = true
  level : c.toNat < 0x100 ∨ s.prv ≠ 0
  ready : csrAwait c.toNat s = .ok () s

theorem CsrOpen.instr {s : State} {c : BitVec 12} (h : CsrOpen s c) (src dst : List Reg) (body : M Next) :
    instr (csrForm s c src dst) body s = .next (finish s.cur (body s)) := by
  refine h.clear.instr ?_ rfl ?_
  · simp [csrForm, h.exist]
  · rcases h.level with hl | hl
    · simp [csrForm, Nat.not_le.2 hl]
    · simp [csrForm, hl]

theorem CsrOpen.csrr {s : State} {c : BitVec 12} (h : CsrOpen s c) (d : Reg) :
    exec (.csrr d c) s = .next (completeAt s.cur .seq ((csrReadStep c.toNat s).setReg d (csrValue s c.toNat))) := by
  refine (h.instr [] [d] _).trans ?_
  rw [bind_of_ok h.ready]
  rfl

theorem CsrOpen.csrw {s : State} {c : BitVec 12} (h : CsrOpen s c) (a : Reg) :
    exec (.csrw a c) s = .next (finish s.cur ((do csrWrite c.toNat (s.reg a) none; pure .seq : M Next) s)) := by
  refine (h.instr [a] [] _).trans ?_
  rw [bind_of_ok h.ready]
  rfl

theorem CsrOpen.csrx {s : State} {c : BitVec 12} (h : CsrOpen s c) (d a : Reg) :
    exec (.csrx d a c) s = .next (finish s.cur ((do
      csrWrite c.toNat (s.reg a) (some (d, csrValue s c.toNat))
      upd fun u => u.setReg d (csrValue s c.toNat)
      pure .seq : M Next) (csrReadStep c.toNat s))) := by
  refine (h.instr [a] [d] _).trans ?_
  rw [bind_of_ok h.ready]
  rfl

/-- CSRM's merge of the old value with the bits that the mask names. -/
def csrMerged (old v m : Word) : Word := (old &&& ~~~m) ||| (v &&& m)

theorem CsrOpen.csrm {s : State} {c : BitVec 12} (h : CsrOpen s c) (a b : Reg) (hb : s.reg b ≠ 0) :
    exec (.csrm a b c) s = .next (finish s.cur ((do
      csrWrite c.toNat (csrMerged (csrValue s c.toNat) (s.reg a) (s.reg b)) none
      pure .seq : M Next) s)) := by
  refine (h.instr [a, b] [] _).trans ?_
  rw [bind_of_ok h.ready]
  show Host.Outcome.next (finish s.cur ((if s.reg b = 0 then (do pure (); pure .seq) else (do csrWrite c.toNat _ none; pure .seq) : M Next) s)) = _
  rw [if_neg hb]
  rfl

theorem CsrOpen.csrm_zero {s : State} {c : BitVec 12} (h : CsrOpen s c) (a b : Reg) (hb : s.reg b = 0) :
    exec (.csrm a b c) s = .next (completeAt s.cur .seq s) := by
  refine (h.instr [a, b] [] _).trans ?_
  rw [bind_of_ok h.ready]
  show Host.Outcome.next (finish s.cur ((if s.reg b = 0 then (do pure (); pure .seq) else (do csrWrite c.toNat _ none; pure .seq) : M Next) s)) = _
  rw [if_pos hb]
  rfl

/-- What the three writing instructions do with a CSR whose old value is `old`: each writes the value it forms, `wrote` says how. -/
def CsrAll (s : State) (d a b : Reg) (c : BitVec 12) (old : Word) (wrote : State → List (Reg × Word) → Word → Prop) : Prop :=
  (∃ t, exec (.csrw a c) s = .next t ∧ wrote t [] (s.reg a)) ∧
  (∃ t, exec (.csrx d a c) s = .next t ∧ wrote t [(d, old)] (s.reg a)) ∧
  (s.reg b ≠ 0 → ∃ t, exec (.csrm a b c) s = .next t ∧ wrote t [] (csrMerged old (s.reg a) (s.reg b))) ∧
  (s.reg b = 0 → ∃ t, exec (.csrm a b c) s = .next t ∧ WroteTo s t [] s.npc)

theorem wroteTo_complete_of_cur {s u : State} (hcur : u.cur = s.cur) (hun : Unheld u s.cur) :
    WroteTo u (completeAt s.cur .seq u) [] u.npc := by
  have := wroteTo_complete (s := u) (by rw [hcur]; exact hun)
  rwa [hcur] at this

/-- CSRW whose write leads to `u` completes in it. -/
theorem CsrOpen.csrw_ok {s u : State} {c : BitVec 12} (h : CsrOpen s c) {a : Reg}
    (hw : csrWrite c.toNat (s.reg a) none s = .ok () u) (hcur : u.cur = s.cur) (hun : Unheld u s.cur) :
    ∃ t, exec (.csrw a c) s = .next t ∧ WroteTo u t [] u.npc := by
  refine ⟨_, h.csrw a, ?_⟩
  rw [bind_of_ok hw]
  exact wroteTo_complete_of_cur hcur hun

/-- CSRX gives the old value as well. -/
theorem CsrOpen.csrx_ok {s u : State} {c : BitVec 12} (h : CsrOpen s c) (hread : csrReadStep c.toNat s = s) (d : Reg) {a : Reg}
    (hw : csrWrite c.toNat (s.reg a) (some (d, csrValue s c.toNat)) s = .ok () u) (hcur : u.cur = s.cur) (hun : Unheld u s.cur) :
    ∃ t, exec (.csrx d a c) s = .next t ∧ WroteTo u t [(d, csrValue s c.toNat)] u.npc := by
  refine ⟨_, h.csrx d a, ?_⟩
  rw [hread, bind_of_ok hw]
  have := wroteTo_complete_write (s := u) (by rw [hcur]; exact hun) d (csrValue s c.toNat)
  rw [hcur] at this
  exact this

/-- CSRM with a mask writes the merged value. -/
theorem CsrOpen.csrm_ok {s u : State} {c : BitVec 12} (h : CsrOpen s c) {a b : Reg} (hb : s.reg b ≠ 0)
    (hw : csrWrite c.toNat (csrMerged (csrValue s c.toNat) (s.reg a) (s.reg b)) none s = .ok () u) (hcur : u.cur = s.cur)
    (hun : Unheld u s.cur) : ∃ t, exec (.csrm a b c) s = .next t ∧ WroteTo u t [] u.npc := by
  refine ⟨_, h.csrm a b hb, ?_⟩
  rw [bind_of_ok hw]
  exact wroteTo_complete_of_cur hcur hun

/-- A CSR whose write by value `v` leads to the state `f v`, in which the instruction completes. -/
theorem CsrOpen.all {s : State} {c : BitVec 12} (h : CsrOpen s c) (hread : csrReadStep c.toNat s = s) {f : Word → State}
    (hw : ∀ v old, csrWrite c.toNat v old s = .ok () (f v)) (hcur : ∀ v, (f v).cur = s.cur) (hun : ∀ v, Unheld (f v) s.cur)
    {wrote : State → List (Reg × Word) → Word → Prop} (hwrote : ∀ v t ws, WroteTo (f v) t ws (f v).npc → wrote t ws v)
    (d a b : Reg) {old : Word} (hold : csrValue s c.toNat = old) : CsrAll s d a b c old wrote := by
  subst hold
  have lift {v : Word} {ws : List (Reg × Word)} {i : Instr} (hi : ∃ t, exec i s = .next t ∧ WroteTo (f v) t ws (f v).npc) :
      ∃ t, exec i s = .next t ∧ wrote t ws v := hi.imp fun t ht => ⟨ht.1, hwrote v t ws ht.2⟩
  exact ⟨lift (h.csrw_ok (hw _ _) (hcur _) (hun _)), lift (h.csrx_ok hread d (hw _ _) (hcur _) (hun _)),
    fun hb => lift (h.csrm_ok hb (hw _ _) (hcur _) (hun _)), fun hb => ⟨_, h.csrm_zero a b hb, wroteTo_complete h.clear.2.unheld⟩⟩

/-! ### Where a CSR stands: in the slot, in the core, or nowhere -/

/-- `t` is `s` after an instruction that made its own slot `sl` before it went on. -/
def WroteSlot (s t : State) (ws : List (Reg × Word)) (sl : Slot) : Prop :=
  t.cur = s.cur ∧ Registers s t ws ∧ { t.me with g := s.me.g } = sl.went s.npc ∧
    (∀ k, k ≠ s.cur → t.slot k = s.slot k) ∧ { t with slots := s.slots } = s

/-- `t` is `s` after an instruction that made its core `y`. -/
def WroteCore (s t : State) (ws : List (Reg × Word)) (y : Core) : Prop :=
  t.cur = s.cur ∧ Registers s t ws ∧ { t.me with g := s.me.g } = s.me.went s.npc ∧
    (∀ k, k ≠ s.cur → t.slot k = s.slot k) ∧ t.core s.myCore = y ∧ (∀ n, n ≠ s.myCore → t.core n = s.core n) ∧
    { t with slots := s.slots, cores := s.cores } = s

theorem wroteSlot_of_modMe {s t : State} {f : Slot → Slot} {ws : List (Reg × Word)} (hs : Unheld s s.cur)
    (hg : (f s.me).g = s.me.g) (htaken : (f s.me).taken = s.me.taken)
    (hnpc : ((f s.me).pc, (f s.me).irLen) = (s.me.pc, s.me.irLen)) (h : WroteTo (s.modMe f) t ws (s.modMe f).npc) :
    WroteSlot s t ws (f s.me) := by
  obtain ⟨hcur, hregs, hslot, hothers, hrest⟩ := h
  have hreg (r : Reg) : (s.modMe f).reg r = s.reg r := by
    rw [reg_eq_of_taken hs.1, reg_eq_of_taken (by rw [State.me_modMe, htaken]; exact hs.1), State.me_modMe, hg]
  simp only [Prod.mk.injEq] at hnpc
  have hn : (s.modMe f).npc = s.npc := by
    simp only [State.npc, State.me_modMe, hnpc]
  rw [State.me_modMe, hg, hn] at hslot
  refine ⟨hcur, fun r => ?_, hslot, fun k hk => ?_, ?_⟩
  · rw [hregs r, hreg]
  · rw [hothers k hk, State.slot_modMe, if_neg (Ne.symm hk)]
  · exact congrArg (fun x : State => { x with slots := s.slots }) hrest

theorem wroteCore_of_modCore {s t : State} {f : Core → Core} {ws : List (Reg × Word)}
    (h : WroteTo (s.modCore s.myCore f) t ws s.npc) : WroteCore s t ws (f (s.core s.myCore)) := by
  obtain ⟨hcur, hregs, hslot, hothers, hrest⟩ := h
  have hcore (n : Nat) : t.core n = (s.modCore s.myCore f).core n := by
    have := congrArg (fun x : State => x.core n) hrest
    exact this
  refine ⟨hcur, hregs, hslot, hothers, ?_, fun n hn => ?_, ?_⟩
  · rw [hcore, State.core_modCore, if_pos rfl]
  · rw [hcore, State.core_modCore, if_neg (Ne.symm hn)]
  · exact congrArg (fun x : State => { x with cores := s.cores }) hrest

theorem Unheld.modCore {s : State} {k : Nat} (h : Unheld s k) (n : Nat) (f : Core → Core)
    (hf : (f (s.core n)).queues = (s.core n).queues) : Unheld (s.modCore n f) k := by
  refine ⟨h.1, ?_⟩
  have hq := h.2
  rw [State.core_modCore]
  split
  next hn =>
    subst hn
    simp only [qOwned] at hq ⊢
    rw [hf]
    exact hq
  · exact hq

/-- A CSR of the slot. -/
theorem CsrOpen.all_slot {s : State} {c : BitVec 12} (h : CsrOpen s c) (hread : csrReadStep c.toNat s = s) {f : Word → Slot → Slot}
    (hw : ∀ v old, csrWrite c.toNat v old s = .ok () (s.modMe (f v))) (hf : ∀ v, ((f v s.me).g, (f v s.me).taken, (f v s.me).pc,
      (f v s.me).irLen) = (s.me.g, s.me.taken, s.me.pc, s.me.irLen)) (d a b : Reg) {old : Word}
    (hold : csrValue s c.toNat = old) : CsrAll s d a b c old fun t ws v => WroteSlot s t ws (f v s.me) := by
  have hun := h.clear.2.unheld
  simp only [Prod.mk.injEq] at hf
  exact h.all hread hw (fun _ => rfl) (fun v => hun.modMe (f v) (hf v).2.1)
    (fun v t ws => wroteSlot_of_modMe hun (hf v).1 (hf v).2.1 (by simp [hf])) d a b hold

/-- A CSR of the core. -/
theorem CsrOpen.all_core {s : State} {c : BitVec 12} (h : CsrOpen s c) (hread : csrReadStep c.toNat s = s) {f : Word → Core → Core}
    (hw : ∀ v old, csrWrite c.toNat v old s = .ok () (s.modCore s.myCore (f v)))
    (hf : ∀ v, (f v (s.core s.myCore)).queues = (s.core s.myCore).queues) (d a b : Reg) {old : Word}
    (hold : csrValue s c.toNat = old) :
    CsrAll s d a b c old fun t ws v => WroteCore s t ws (f v (s.core s.myCore)) :=
  h.all hread hw (fun _ => rfl) (fun v => h.clear.2.unheld.modCore _ _ (hf v)) (fun _ _ _ => wroteCore_of_modCore) d a b hold

/-- A read-only CSR. -/
theorem CsrOpen.all_keeps {s : State} {c : BitVec 12} (h : CsrOpen s c) (hread : csrReadStep c.toNat s = s)
    (hw : ∀ v old, csrWrite c.toNat v old s = .ok () s) (d a b : Reg) {old : Word} (hold : csrValue s c.toNat = old) :
    CsrAll s d a b c old fun t ws _ => WroteTo s t ws s.npc :=
  h.all hread hw (fun _ => rfl) (fun _ => h.clear.2.unheld) (fun _ _ _ h => h) d a b hold

/-- A read gives the CSR's value. -/
theorem CsrOpen.gives {s : State} {c : BitVec 12} (h : CsrOpen s c) (hread : csrReadStep c.toNat s = s) (d : Reg) {v : Word}
    (hv : csrValue s c.toNat = v) : Gives s (.csrr d c) d v := by
  refine ⟨_, h.csrr d, ?_⟩
  rw [hread, hv]
  exact wroteTo_complete_write h.clear.2.unheld d v

end Sys2Proof.Machine
end

section
namespace Sys2Proof.Machine

/-! ### The budget timer in WB (R189, R190, R363) -/

/-- DLSTAT when its timer expires: EXPIRED set, ARMED, MSGWAIT and WAITX clear. -/
theorem expired_dlstat (w : Word) : putField (putField (w &&& 0xFFFFFF6F) 5 1 1) 6 1 0 = w &&& 0xFFFFFF2F ||| 0x20 := by
  unfold putField
  apply BitVec.eq_of_getLsbD_eq
  intro i hi
  interval_cases i <;> simp

theorem atWb_eq (s : State) : (smGet {} (s.cluster s.myUnit).timers (s.me.dlstat.toNat % 2 ^ 4)).atWb (nowAt s s.myCore) =
    (smGet {} (s.cluster s.myUnit).timers (s.me.dlstat.toNat % 2 ^ 4)).count.toNat - timerTaken s := rfl

theorem timer_of_held {sl : Slot} (h : bitOf sl.dlstat 4 = true) : sl.timer = some (sl.dlstat.toNat % 2 ^ 4) := by
  rw [Slot.timer, if_pos h]
  rfl

theorem timer_of_free {sl : Slot} (h : bitOf sl.dlstat 4 = false) : sl.timer = none := by
  rw [Slot.timer, if_neg (by simp [h])]

/-- Settling the timer changes the state only when the timer is gone; then it has expired. -/
theorem settleTimer_eq (s : State) : settleTimer s =
    if timerGone s then expireTimer s.myUnit (s.me.dlstat.toNat % 2 ^ 4) s.cur s else s := by
  unfold settleTimer timerGone
  cases h4 : bitOf s.me.dlstat 4
  · simp [timer_of_free h4]
  · rw [timer_of_held h4]
    dsimp only
    simp only [atWb_eq, Nat.sub_eq_zero_iff_le, Bool.true_and]

theorem me_expireTimer (s : State) (c t : Nat) : (expireTimer c t s.cur s).me =
    { s.me with dlstat := s.me.dlstat &&& 0xFFFFFF2F ||| 0x20, deadline := some (BitVec.ofNat 4 t) } := by
  rw [← expired_dlstat]
  exact (State.slot_modSlot _ s.cur s.cur _).trans (if_pos rfl)

theorem settleTimer_dlstat (s : State) : (settleTimer s).me.dlstat = timerStatus s := by
  rw [settleTimer_eq, timerStatus]
  split
  · rw [me_expireTimer]
  · rfl

theorem settleTimer_left (s : State) : timerLeft (settleTimer s) = timerCount s := by
  rw [settleTimer_eq, timerCount, timerHeld]
  cases hg : timerGone s
  · rw [if_neg (by simp), timerLeft]
    cases h4 : bitOf s.me.dlstat 4
    · simp [timer_of_free h4]
    · rw [timer_of_held h4]
      dsimp only
      rw [atWb_eq]
      rfl
  · have hfree : bitOf (expireTimer s.myUnit (s.me.dlstat.toNat % 2 ^ 4) s.cur s).me.dlstat 4 = false := by
      rw [me_expireTimer]
      simp [bitOf]
    rw [if_pos rfl, timerLeft, timer_of_free hfree]
    simp

/-! ### Reads -/

/-- A CSR below 0x100 other than FFLAGS is open to every thread. -/
theorem csrOpen_low {s : State} {c : BitVec 12} (h : Clear s) (hc : csrExists true c.toNat = true) (hl : c.toNat < 0x100)
    (hf : c ≠ 0x043) : CsrOpen s c := by
  refine ⟨h, ?_, .inl hl, ?_⟩
  · cases isBursar s.myCore
    · simp only [csrExists, Bool.not_true, Bool.false_and, Bool.or_false] at hc
      simp only [csrExists, hc, Bool.true_or]
    · exact hc
  · have : c.toNat ≠ 0x043 := fun e => hf (BitVec.eq_of_toNat_eq e)
    rw [csrAwait, if_neg this]
    rfl

/-- FFLAGS is open when nothing of the thread's is in its engine (R268). -/
theorem csrOpen_fflags {s : State} (h : Clear s) (hq : ∀ c ∈ (s.engine (groupOf s.myCore)).queue, c.slot ≠ s.cur)
    (hc : ∀ c ∈ (s.engine (groupOf s.myCore)).cmd, c.slot ≠ s.cur)
    (hr : ∀ c ∈ (s.engine (groupOf s.myCore)).retiring, c.1 ≠ s.cur) : CsrOpen s 0x043 := by
  refine ⟨h, ?_, .inl (by decide), ?_⟩
  · cases isBursar s.myCore <;> rfl
  · have h1 : ((s.engine (groupOf s.myCore)).queue.any fun x => x.slot = s.cur) = false := by simpa using hq
    have h2 : ((s.engine (groupOf s.myCore)).cmd.any fun x => x.slot = s.cur) = false := by
      cases hcmd : (s.engine (groupOf s.myCore)).cmd with
      | none => rfl
      | some x => simpa using hc x hcmd
    have h3 : ((s.engine (groupOf s.myCore)).retiring.any fun x => x.1 = s.cur) = false := by simpa using hr
    refine if_pos ?_
    simp only [h1, h2, h3, Bool.not_false, Bool.and_self]

theorem le_of_csrSuper {c : Nat} (h : csrSuper c = true) : 0x100 ≤ c := by
  simp only [csrSuper, Bool.or_eq_true, Bool.and_eq_true, decide_eq_true_eq] at h
  omega

/-- A CSR of the map at or above 0x100 is open to S on a cluster core. -/
theorem csrOpen_super {s : State} {c : BitVec 12} (h : Clear s) (hb : isBursar s.myCore = false) (hp : s.prv ≠ 0)
    (hc : csrSuper c.toNat = true) : CsrOpen s c := by
  have h100 := le_of_csrSuper hc
  refine ⟨h, by simp [csrExists, hb, hc], .inr hp, ?_⟩
  rw [csrAwait, if_neg (by omega)]
  rfl

/-- The map's numbers of counters. -/
theorem csrValue_counter (s : State) (i : Nat) (hi : i < 16) : csrValue s (0x060 + i) = smGet 0 (s.core s.myCore).counters i := by
  interval_cases i <;> rfl

theorem csrValue_mint (s : State) (i : Nat) (hi : i < 384) : csrValue s (0x180 + i) = mintBlockWord (s.cluster s.myUnit) i := by
  unfold csrValue
  split <;> try omega
  dsimp only
  rw [if_neg (by omega), if_pos (by omega), Nat.add_sub_cancel_left]

end Sys2Proof.Machine
end

section
namespace Sys2Proof.Machine

/-! ### Numbers that trap -/

/-- A number that the map does not have (R400). -/
theorem csrr_illegal {s : State} {c : BitVec 12} (h : Clear s) (hh : Handles s) (hc : csrExists (isBursar s.myCore) c.toNat = false)
    (d : Reg) : Traps s (.csrr d c) 1 s.me.ir := by
  have hg : gate (csrForm s c [] [d]) s = .trap cILLEGAL s.me.ir := by
    rw [gate, if_pos (by simp [csrForm, hc])]
  refine ⟨takeTrap cILLEGAL s.me.ir s, ?_, takeTrap_trapped h.2.unheld hh _ _⟩
  show execCsrr d c s = _
  rw [execCsrr, instr, hg]

/-- A number that needs S (R111, R400). -/
theorem csrr_privilege {s : State} {c : BitVec 12} (h : Clear s) (hh : Handles s) (hb : isBursar s.myCore = false)
    (hp : s.prv = 0) (hc : csrSuper c.toNat = true) (d : Reg) : Traps s (.csrr d c) 2 (c.setWidth 32) := by
  have hg : gate (csrForm s c [] [d]) s = .trap cPRIVILEGE (c.setWidth 32) := by
    rw [gate, if_neg, if_pos]
    · rfl
    · simp [csrForm, hp, le_of_csrSuper hc]
    · simp [csrForm, csrExists, hb, hc, h.1, Form.refuses, bitOf]
  refine ⟨takeTrap cPRIVILEGE (c.setWidth 32) s, ?_, takeTrap_trapped h.2.unheld hh _ _⟩
  show execCsrr d c s = _
  rw [execCsrr, instr, hg]

/-! ### What the reads give -/

theorem now_eq (s : State) : s.now = (s.cluster s.myUnit).cycle.toNat := rfl

/-- A read of CYCLE latches its upper half (R403). -/
theorem csrr_cycle {s : State} (h : Clear s) (d : Reg) :
    ∃ t, exec (.csrr d 0x070) s = .next t ∧ WroteSlot s t [(d, BitVec.ofNat 32 (s.now + 7))]
      { s.me with cyclehLatch := BitVec.ofNat 32 ((s.now + 7) / 2 ^ 32) } := by
  refine ⟨_, (csrOpen_low h ?_ (by decide) (by decide)).csrr d, ?_⟩
  · cases isBursar s.myCore <;> decide
  · have hun := h.2.unheld
    exact wroteSlot_of_modMe (f := fun sl => { sl with cyclehLatch := BitVec.ofNat 32 ((s.now + 7) / 2 ^ 32) }) hun rfl rfl rfl
      (wroteTo_complete_write (s := s.modMe fun sl => { sl with cyclehLatch := BitVec.ofNat 32 ((s.now + 7) / 2 ^ 32) })
        (hun.modMe _ rfl) d _)

/-- The numbers that every thread of every core can read, and what they give. -/
theorem csrReads_open {s : State} (h : Clear s) (d : Reg) : ∀ p ∈
    [((0x000 : Nat), s.me.status &&& 0xFFFF0307), (0x001, s.me.epc), (0x002, s.me.ecause &&& 0xFF), (0x003, s.me.eval),
      (0x004, (s.core s.myCore).tvec), (0x005, s.me.escratch), (0x011, s.me.widLo), (0x012, s.me.widHi),
      (0x013, (s.core s.myCore).widshape), (0x021, s.me.qmap), (0x030, (s.core s.myCore).segtab), (0x031, (s.core s.myCore).msgvec),
      (0x040, s.me.fmtdef), (0x041, (s.core s.myCore).srkeyLo), (0x042, (s.core s.myCore).srkeyHi), (0x050, timerCount s),
      (0x051, timerStatus s), (0x071, s.me.cyclehLatch)],
    Gives s (.csrr d (BitVec.ofNat 12 p.1)) d p.2 := by
  have gives (c : BitVec 12) (v : Word) (hc : csrExists true c.toNat = true) (hl : c.toNat < 0x100) (hf : c ≠ 0x043)
      (hr : csrReadStep c.toNat s = s) (hv : csrValue s c.toNat = v) : Gives s (.csrr d c) d v :=
    (csrOpen_low h hc hl hf).gives hr d hv
  simp only [List.forall_mem_cons, List.not_mem_nil, false_imp_iff, implies_true, and_true]
  refine ⟨gives _ _ ?_ ?_ ?_ rfl rfl, gives _ _ ?_ ?_ ?_ rfl rfl, gives _ _ ?_ ?_ ?_ rfl rfl, gives _ _ ?_ ?_ ?_ rfl rfl,
    gives _ _ ?_ ?_ ?_ rfl rfl, gives _ _ ?_ ?_ ?_ rfl rfl, gives _ _ ?_ ?_ ?_ rfl rfl, gives _ _ ?_ ?_ ?_ rfl rfl,
    gives _ _ ?_ ?_ ?_ rfl rfl, gives _ _ ?_ ?_ ?_ rfl rfl, gives _ _ ?_ ?_ ?_ rfl rfl, gives _ _ ?_ ?_ ?_ rfl rfl,
    gives _ _ ?_ ?_ ?_ rfl rfl, gives _ _ ?_ ?_ ?_ rfl rfl, gives _ _ ?_ ?_ ?_ rfl rfl,
    gives _ _ ?_ ?_ ?_ rfl (settleTimer_left s), gives _ _ ?_ ?_ ?_ rfl (settleTimer_dlstat s), gives _ _ ?_ ?_ ?_ rfl rfl⟩ <;> decide

theorem word_toNat {n : Nat} (h : n < 0x1000) : (BitVec.ofNat 12 n).toNat = n := Nat.mod_eq_of_lt h

theorem csrReadStep_eq_self {s : State} {c : Nat} (h : c ≠ 0x070) (h' : c ≠ 0x010) : csrReadStep c s = s := by
  simp [csrReadStep, h, h']

/-- The numbers of the counters are open to every thread. -/
theorem csrOpen_counter {s : State} (h : Clear s) {i : Nat} (hi : i < 16) : CsrOpen s (BitVec.ofNat 12 (0x060 + i)) := by
  refine csrOpen_low h ?_ ?_ ?_ <;> interval_cases i <;> decide

/-- The numbers of the mint block are open to S (R111, R220). -/
theorem csrOpen_mint {s : State} (h : Clear s) (hb : isBursar s.myCore = false) (hp : s.prv ≠ 0) {i : Nat} (hi : i < 384) :
    CsrOpen s (BitVec.ofNat 12 (0x180 + i)) := by
  refine csrOpen_super h hb hp ?_
  rw [word_toNat (by omega)]
  simp only [csrSuper, Bool.or_eq_true, Bool.and_eq_true, decide_eq_true_eq]
  omega

theorem csrr_mint {s : State} (h : Clear s) (hb : isBursar s.myCore = false) (hp : s.prv ≠ 0) (d : Reg) {i : Nat} (hi : i < 384) :
    Gives s (.csrr d (BitVec.ofNat 12 (0x180 + i))) d (mintBlockWord (s.cluster s.myUnit) i) := by
  have hn := word_toNat (n := 0x180 + i) (by omega)
  refine (csrOpen_mint h hb hp hi).gives ?_ d ?_
  · rw [hn]
    exact csrReadStep_eq_self (by omega) (by omega)
  · rw [hn]
    exact csrValue_mint s i hi

/-- SLOTID on a core of a cluster (R402). -/
theorem slotId_eq {s : State} (hb : isBursar s.myCore = false) : slotId s = BitVec.ofNat 32 (s.cur % 16 + s.myCore % 1024 * 2 ^ 4 +
    ((launchOf s s.myCore).map (·.vc)).getD 0 * 2 ^ 14 + if s.prv = 0 then 0 else s.myUnit * 2 ^ 18) := by
  rw [slotId]
  simp only [hb, Bool.false_eq_true, if_false]
  rfl

theorem csrReadStep_slotId {s : State} (hb : isBursar s.myCore = false) : csrReadStep (0x010 : BitVec 12).toNat s = s := by
  simp [csrReadStep, hb]

theorem claim_csrReads : Claim.CsrReads := by
  intro s d h
  refine ⟨csrReads_open h d, fun i hi => ?_, fun hq hc hr => (csrOpen_fflags h hq hc hr).gives rfl d rfl, csrr_cycle h d,
    fun hb => ⟨?_, fun hp => ⟨(csrOpen_super h hb hp (by decide)).gives rfl d ?_, (csrOpen_super h hb hp (by decide)).gives rfl d rfl,
      fun i hi => ?_, fun i hi => ?_⟩, fun hp hh c hc => ?_⟩, fun hh c hc => ?_⟩
  · have hn := word_toNat (n := 0x060 + i) (by omega)
    refine (csrOpen_counter h hi).gives ?_ d ?_
    · rw [hn]
      exact csrReadStep_eq_self (by omega) (by omega)
    · rw [hn]
      exact csrValue_counter s i hi
  · exact (csrOpen_low h (by decide) (by decide) (by decide)).gives (csrReadStep_slotId hb) d (slotId_eq hb)
  · show ofBit 32 (rotWritten _) = _
    rw [ofBit]
    rfl
  · have := csrr_mint h hb hp d (i := i) (by omega)
    rwa [mintBlockWord, if_pos hi] at this
  · have := csrr_mint h hb hp d (i := 128 + i) (by omega)
    rwa [mintBlockWord, if_neg (by omega), ← Nat.add_assoc, Nat.add_sub_cancel_left] at this
  · have hl : ∀ c ∈ [0x120, 0x122, 0x180, 0x1FF, 0x200, 0x2FF],
      csrSuper (BitVec.ofNat 12 c).toNat = true ∧ (BitVec.ofNat 12 c).setWidth 32 = BitVec.ofNat 32 c := by decide
    obtain ⟨hs, he⟩ := hl c hc
    rw [← he]
    exact csrr_privilege h hh hb hp hs d
  · have hl : ∀ c ∈ [0x006, 0x014, 0x020, 0x044, 0x052, 0x072, 0x100, 0x121, 0x123, 0x300, 0xFFF],
      ∀ b, csrExists b (BitVec.ofNat 12 c).toNat = false := by decide
    exact csrr_illegal h hh (hl c hc _) d

end Sys2Proof.Machine
end

section
namespace Sys2Proof.Machine

/-! ### Writes that complete at once -/

/-- With nothing mapped and no mark, QMAP reads 0 and any write of it is accepted (R187). -/
theorem csrWrite_qmap {s : State} (h : s.me.marks = 0) (v : Word) (old : Option (Reg × Word)) :
    csrWrite 0x021 v old s = .ok () (s.modMe fun sl => { sl with qmap := v &&& 0xF }) := by
  have hm : ∀ n, bitOf s.me.marks n = false := by simp [h, bitOf]
  have hf : (List.range 4).find? (fun i => bitOf v i && bitOf s.me.marks (28 + i)) = none := by simp [hm]
  refine (bind_of_ok (x := look fun s => s.me.marks) (u := s) (a := s.me.marks) rfl _).trans ?_
  rw [hf]
  rfl

section
variable {s : State} (h : Clear s) (d a b : Reg)
include h

theorem all_slot_low {c : BitVec 12} (f : Word → Slot → Slot)
    (hc : csrExists true c.toNat = true ∧ c.toNat < 0x100 ∧ c ≠ 0x043) (hread : csrReadStep c.toNat s = s)
    (hw : ∀ v old, csrWrite c.toNat v old s = .ok () (s.modMe (f v)))
    (hf : ∀ v, ((f v s.me).g, (f v s.me).taken, (f v s.me).pc, (f v s.me).irLen) = (s.me.g, s.me.taken, s.me.pc, s.me.irLen)) :
    CsrAll s d a b c (csrValue s c.toNat) fun t ws v => WroteSlot s t ws (f v s.me) :=
  (csrOpen_low h hc.1 hc.2.1 hc.2.2).all_slot hread hw hf d a b rfl

theorem all_core_low {c : BitVec 12} (f : Word → Core → Core)
    (hc : csrExists true c.toNat = true ∧ c.toNat < 0x100 ∧ c ≠ 0x043) (hread : csrReadStep c.toNat s = s)
    (hw : ∀ v old, csrWrite c.toNat v old s = .ok () (s.modCore s.myCore (f v)))
    (hf : ∀ v, (f v (s.core s.myCore)).queues = (s.core s.myCore).queues) :
    CsrAll s d a b c (csrValue s c.toNat) fun t ws v => WroteCore s t ws (f v (s.core s.myCore)) :=
  (csrOpen_low h hc.1 hc.2.1 hc.2.2).all_core hread hw hf d a b rfl

theorem all_keeps_low {c : BitVec 12} {v : Word} (hc : csrExists true c.toNat = true ∧ c.toNat < 0x100 ∧ c ≠ 0x043)
    (hread : csrReadStep c.toNat s = s) (hw : ∀ v old, csrWrite c.toNat v old s = .ok () s) (hv : csrValue s c.toNat = v) :
    CsrAll s d a b c v fun t ws _ => WroteTo s t ws s.npc :=
  (csrOpen_low h hc.1 hc.2.1 hc.2.2).all_keeps hread hw d a b hv

theorem all_qmap : CsrAll s d a b 0x021 0 fun t ws v => WroteSlot s t ws { s.me with qmap := v &&& 0xF } := by
  have ⟨_, hq, _, _, hm⟩ := h
  have := all_slot_low h d a b (c := 0x021) (fun v sl => { sl with qmap := v &&& 0xF }) (by decide) rfl
    (fun v old => csrWrite_qmap hm v old) (fun _ => rfl)
  rwa [show csrValue s (0x021 : BitVec 12).toNat = 0 from hq] at this

theorem all_counter {i : Nat} (hi : i < 16) : CsrAll s d a b (BitVec.ofNat 12 (0x060 + i)) (smGet 0 (s.core s.myCore).counters i)
    fun t ws v => WroteCore s t ws { s.core s.myCore with counters := smSet 0 (s.core s.myCore).counters i v } := by
  refine (csrOpen_counter h hi).all_core ?_
    (f := fun v y => { y with counters := smSet 0 y.counters i v }) (fun v old => ?_) (fun _ => rfl) d a b ?_
  · interval_cases i <;> rfl
  · interval_cases i <;> rfl
  · interval_cases i <;> rfl

theorem all_fflags (hq : ∀ c ∈ (s.engine (groupOf s.myCore)).queue, c.slot ≠ s.cur)
    (hc : ∀ c ∈ (s.engine (groupOf s.myCore)).cmd, c.slot ≠ s.cur)
    (hr : ∀ c ∈ (s.engine (groupOf s.myCore)).retiring, c.1 ≠ s.cur) :
    CsrAll s d a b 0x043 s.me.fflags fun t ws v => WroteSlot s t ws { s.me with fflags := v &&& 0x3F } :=
  (csrOpen_fflags h hq hc hr).all_slot rfl (f := fun v sl => { sl with fflags := v &&& 0x3F }) (fun _ _ => rfl) (fun _ => rfl) d a b rfl

/-- SEGTAB keeps its value in U (R402). -/
theorem keeps_segtab (hp : s.prv = 0) : CsrAll s d a b 0x030 (s.core s.myCore).segtab fun t ws _ => WroteTo s t ws s.npc := by
  refine all_keeps_low h d a b (by decide) rfl (fun v old => ?_) rfl
  refine (bind_of_ok (x := look fun s => decide (s.prv = 0)) (u := s) (a := decide (s.prv = 0)) rfl _).trans ?_
  simp only [hp]
  rfl

theorem all_segtab (hp : s.prv ≠ 0) : CsrAll s d a b 0x030 (s.core s.myCore).segtab fun t ws v =>
    WroteCore s t ws { s.core s.myCore with segtab := v &&& 0xFF1FFFFF } := by
  refine all_core_low h d a b (c := 0x030) (fun v y => { y with segtab := v &&& 0xFF1FFFFF }) (by decide) rfl (fun v old => ?_) fun _ => rfl
  refine (bind_of_ok (x := look fun s => decide (s.prv = 0)) (u := s) (a := decide (s.prv = 0)) rfl _).trans ?_
  simp only [hp]
  rfl

/-- A write of ROTMODE waits for its rotation (R404, R5). -/
theorem all_rotmode (hb : isBursar s.myCore = false) (hp : s.prv ≠ 0) :
    CsrAll s d a b 0x120 (ofBit 32 (rotWritten (s.cluster s.myUnit))) fun t ws v =>
      t.cur = s.cur ∧ Registers s t ws ∧ { t.me with g := s.me.g } = s.me.went s.npc ∧ (∀ k, k ≠ s.cur → t.slot k = s.slot k) ∧
      t.cluster s.myUnit = { s.cluster s.myUnit with rotNext := (s.cluster s.myUnit).rotNext ++ [(s.now + 7 + 32, v.getLsbD 0)] } ∧
      (∀ c, c ≠ s.myUnit → t.cluster c = s.cluster c) ∧ { t with slots := s.slots, clusters := s.clusters } = s := by
  refine (csrOpen_super h hb hp (by decide)).all rfl
    (f := fun v => s.modCluster s.myUnit fun x => { x with rotNext := x.rotNext ++ [(s.now + 7 + 32, v.getLsbD 0)] })
    (fun _ _ => rfl) (fun _ => rfl) (fun _ => h.2.unheld) (fun v t ws hw => ?_) d a b rfl
  obtain ⟨hcur, hregs, hslot, hothers, hrest⟩ := hw
  have hcl (c : Nat) : t.cluster c =
      (s.modCluster s.myUnit fun x => { x with rotNext := x.rotNext ++ [(s.now + 7 + 32, v.getLsbD 0)] }).cluster c := by
    have := congrArg (fun x : State => x.cluster c) hrest
    exact this
  refine ⟨hcur, hregs, hslot, hothers, ?_, fun c hc => ?_, ?_⟩
  · rw [hcl, State.cluster_modCluster, if_pos rfl]
  · rw [hcl, State.cluster_modCluster, if_neg (Ne.symm hc)]
  · exact congrArg (fun x : State => { x with clusters := s.clusters }) hrest

/-- A write of THROTTLE goes to CLTHR (R404). -/
theorem all_throttle (hb : isBursar s.myCore = false) (hp : s.prv ≠ 0) : CsrAll s d a b 0x122 (clthr s s.myUnit) fun t ws v =>
    WroteTo { s with due := s.due ++ [.clthrWrite s.myUnit none (some v)] } t ws s.npc :=
  (csrOpen_super h hb hp (by decide)).all rfl (f := fun v => { s with due := s.due ++ [.clthrWrite s.myUnit none (some v)] })
    (fun _ _ => rfl) (fun _ => rfl) (fun _ => h.2.unheld) (fun _ _ _ hw => hw) d a b rfl

end

end Sys2Proof.Machine
end

section
namespace Sys2Proof.Machine

/-! ### Writes that park at their own core (R185, R201) -/

/-- The thread of `s` went on from a state `u` that differs from `s` outside its slots, its parks counted. -/
theorem threadWent_of_wroteTo {s u t : State} {ws : List (Reg × Word)} {parks : Nat} (hs : Unheld s s.cur)
    (hcur : u.cur = s.cur) (hslot : ∀ k, u.slot k = s.slot k)
    (mine : { u.core s.myCore with counters := (s.core s.myCore).counters } = s.core s.myCore)
    (counters : ∀ i, smGet 0 (u.core s.myCore).counters i =
      bump (smGet 0 (s.core s.myCore).counters i) (if i = 5 then parks else 0))
    (cores : ∀ n, n ≠ s.myCore → u.core n = s.core n) (h : WroteTo u t ws u.npc) : ThreadWent s t ws s.npc parks := by
  obtain ⟨tcur, tregs, tslot, tothers, trest⟩ := h
  have hcore (n : Nat) : t.core n = u.core n := by
    have := congrArg (fun x : State => x.core n) trest
    exact this
  have hme : u.me = s.me := by rw [State.me, hcur, hslot, State.me]
  have hreg (r : Reg) : u.reg r = s.reg r := by
    rw [reg_eq_of_taken hs.1, reg_eq_of_taken (by rw [hme]; exact hs.1), hme]
  have hn : u.npc = s.npc := by rw [State.npc, hme, State.npc]
  refine ⟨tcur.trans hcur, fun r => ?_, ?_, fun k hk => ?_, ?_, fun i => ?_, fun n hn => ?_⟩
  · rw [tregs r, hreg]
  · rw [hme, hn] at tslot
    exact tslot
  · rw [tothers k (by rwa [hcur]), hslot]
  · rw [hcore]
    exact mine
  · rw [hcore]
    exact counters i
  · rw [hcore]
    exact cores n hn

theorem count_counted (c i : Nat) (s : State) : Counted c s (count c i s) fun j => if j = i then 1 else 0 := by
  obtain ⟨mine, counters, cores, rest⟩ := (Counted.refl c s).countN i 1
  refine ⟨mine, fun j => (counters j).trans (congrArg _ ?_), cores, rest⟩
  simp only [eq_comm, Nat.zero_add]

/-- What a core counts stays counted when another part of it changes. -/
theorem Counted.modCore {c : Nat} {s t : State} {n : Nat → Nat} (h : Counted c s t n) (f : Core → Core)
    (hf : ∀ y l, { f y with counters := l } = f { y with counters := l }) (hc : ∀ y, (f y).counters = y.counters) :
    Counted c (s.modCore c f) (t.modCore c f) n := by
  obtain ⟨mine, counters, cores, rest⟩ := h
  refine ⟨?_, fun i => ?_, fun m hm => ?_, ?_⟩
  · simp only [State.core_modCore, if_pos]
    rw [hc]
    exact (hf _ _).trans (congrArg f mine)
  · simp only [State.core_modCore, if_pos]
    rw [hc, hc]
    exact counters i
  · rw [State.core_modCore, if_neg (Ne.symm hm), State.core_modCore, if_neg (Ne.symm hm)]
    exact cores m hm
  · exact congrArg (fun x : State => { x with cores := (s.modCore c f).cores }) rest

/-- A write of the mint block waits for the thread's order, then parks its thread once (R111, R404). -/
theorem csrWrite_mint {s : State} {i : Nat} (hi : i < 128) (hr : s.me.relaxed = []) (v : Word) (old : Option (Reg × Word)) :
    csrWrite (0x180 + i) v old s =
      .ok () ((count s.myCore 5 s).modCluster s.myUnit fun x => { x with mint := smSet 0 x.mint i v }) := by
  have hf : csrWrite (0x180 + i) v old = (do
      awaitOrder
      notePark
      upd fun s => s.modCluster s.myUnit fun x => { x with mint := smSet 0 x.mint i v } : M Unit) := by
    unfold csrWrite
    split <;> try omega
    dsimp only
    rw [if_neg (by omega), if_pos (by omega), Nat.add_sub_cancel_left]
  have ho : awaitOrder s = .ok () s := by
    refine if_pos ?_
    rw [orderClear, hr]
    rfl
  rw [hf, bind_of_ok ho]
  rfl

/-- The map of the slot classes is cleared by a write of MSGVEC with EN = 0 (R165). -/
theorem csrWrite_msgvec_clear {s : State} {v : Word} (hv : v.getLsbD 0 = false) (old : Option (Reg × Word)) :
    csrWrite 0x031 v old s =
      .ok () ((count s.myCore 5 s).modCore s.myCore fun y => { y with msgvec := v &&& 0x01FFF801, classMap := 0 }) := by
  refine (bind_of_ok (x := look fun s => isBursar s.myCore) (u := s) (a := isBursar s.myCore) rfl _).trans ?_
  rw [show bitOf v 0 = false from hv]
  rfl

/-- A write of a word of the mint (R220, R404). -/
theorem csrw_mint {s : State} (h : Clear s) (hb : isBursar s.myCore = false) (hp : s.prv ≠ 0) (hr : s.me.relaxed = []) (a : Reg)
    {i : Nat} (hi : i < 128) :
    ∃ t, exec (.csrw a (BitVec.ofNat 12 (0x180 + i))) s = .next t ∧ ThreadWent s t [] s.npc 1 ∧
      (∀ j, smGet 0 (t.cluster s.myUnit).mint j = if j = i then s.reg a else smGet 0 (s.cluster s.myUnit).mint j) ∧
      { t.cluster s.myUnit with mint := (s.cluster s.myUnit).mint } = s.cluster s.myUnit ∧
      (∀ c, c ≠ s.myUnit → t.cluster c = s.cluster c) ∧
      { t with slots := s.slots, cores := s.cores, clusters := s.clusters } = s := by
  obtain ⟨mine, counters, cores, rest⟩ := count_counted s.myCore 5 s
  have hun : Unheld (count s.myCore 5 s) s.cur := h.2.unheld.modCore _ _ rfl
  have hw := csrWrite_mint hi hr (s.reg a) none
  rw [← word_toNat (n := 0x180 + i) (by omega)] at hw
  obtain ⟨t, ht, hwrote⟩ := (csrOpen_mint h hb hp (i := i) (by omega)).csrw_ok hw rfl hun
  have hcl (c : Nat) : t.cluster c =
      (s.modCluster s.myUnit fun x => { x with mint := smSet 0 x.mint i (s.reg a) }).cluster c := by
    have := congrArg (fun x : State => x.cluster c) hwrote.rest
    exact this
  refine ⟨t, ht, threadWent_of_wroteTo h.2.unheld (u := (count s.myCore 5 s).modCluster s.myUnit _) rfl (fun _ => rfl)
    mine counters cores hwrote, fun j => ?_, ?_, fun c hc => ?_, ?_⟩
  · rw [hcl, State.cluster_modCluster, if_pos rfl, smGet_smSet]
    simp only [eq_comm]
  · rw [hcl, State.cluster_modCluster, if_pos rfl]
  · rw [hcl, State.cluster_modCluster, if_neg (Ne.symm hc)]
  · exact (congrArg (fun x : State => { x with cores := s.cores, slots := s.slots, clusters := s.clusters }) hwrote.rest)

/-- A write of MSGVEC with EN = 0, by any instruction that completes after it (R165). -/
theorem threadWent_msgvec {s t : State} (h : Clear s) {v : Word} {ws : List (Reg × Word)}
    (hw : WroteTo ((count s.myCore 5 s).modCore s.myCore fun y => { y with msgvec := v &&& 0x01FFF801, classMap := 0 }) t ws s.npc) :
    ThreadWent (s.modCore s.myCore fun y => { y with msgvec := v &&& 0x01FFF801, classMap := 0 }) t ws s.npc 1 ∧
      { t with slots := s.slots, cores := s.cores } = s := by
  obtain ⟨mine, counters, cores, rest⟩ := (count_counted s.myCore 5 s).modCore
    (fun y => { y with msgvec := v &&& 0x01FFF801, classMap := 0 }) (fun _ _ => rfl) (fun _ => rfl)
  exact ⟨threadWent_of_wroteTo (s := s.modCore s.myCore _) (u := (count s.myCore 5 s).modCore s.myCore _)
      (h.2.unheld.modCore _ _ rfl) rfl (fun _ => rfl) mine counters cores hw,
    congrArg (fun x : State => { x with cores := s.cores, slots := s.slots }) hw.rest⟩

end Sys2Proof.Machine
end

section
namespace Sys2Proof.Machine

/-! ### Accesses of the own vault (R208, R210, R211) -/

/-- A request on its way is held at its bank alone (R209). -/
theorem hold_asks (r : BankReq) (s : State) : Asks s (hold r s) [r] ∧ { hold r s with banks := s.banks, hot := s.hot } = s := by
  have hheat (b n : Nat) (s : State) : (heat b s).bank n = s.bank n ∧ (n ∈ (heat b s).hot ↔ n ∈ s.hot ∨ b = n) ∧
      { heat b s with hot := s.hot } = s := by
    unfold heat
    split
    next hc =>
      refine ⟨rfl, ⟨.inl, fun hn => hn.elim id fun hn => ?_⟩, rfl⟩
      rw [← hn]
      simpa using hc
    · refine ⟨rfl, ?_, rfl⟩
      simp [eq_comm]
  refine ⟨⟨fun b => ?_, fun b => ?_⟩, ?_⟩
  · rw [hold, (hheat ..).1, State.bank_modBank, List.filter_singleton]
    split
    next hb => simp [hb]
    next hb => simp [hb]
  · rw [hold, (hheat _ b _).2.1]
    simp
  · have := (hheat (bankOf r.word) 0 (s.modBank (bankOf r.word) fun x => { x with held := x.held ++ [r] })).2.2
    exact congrArg (fun x : State => { x with banks := s.banks }) this

/-- When a request of a cluster's core reaches a bank (R208). -/
theorem reachAt_eq {s : State} (hb : isBursar s.myCore = false) (b : Nat) :
    nowAt s s.myCore + (vaultPath s.myCore b).1 = reachAt s b := by
  have hg : s.myCore % 1024 / 16 = s.myCore / 16 % 64 := by omega
  simp only [vaultPath, reachAt, hb, hg, Bool.false_or, decide_eq_true_eq]
  split
  · rfl
  · split <;> rfl

/-- A word-aligned offset of the own vault stays word-aligned in the interleaved order (R205). -/
theorem interleaved_mod_four {a : Nat} (h : a % 4 = 0) : interleaved a % 4 = 0 := by
  unfold interleaved
  split
  · exact h
  · dsimp only
    rw [h, Nat.add_zero, Nat.mul_mod_right]

theorem wordsOf_word {k : Nat} (h : k % 4 = 0) : wordsOf k 4 = [k / 4] := by
  simp [wordsOf, h]

/-- A vault access in the own vault sends its words and waits for them (R208, R210). -/
theorem vaultAccess_near {α : Type} (rq : Rq) (u off : Nat) (acc : AccessKind) (va code : Nat) (x : VaultAccess) (n : Nat)
    (op : Nat → WordOp) (s : State) :
    (vaultAccess rq (.vault u off false) acc va code x n op : M α) s =
      let busy := decide (code = 1) || decide (code = 2)
      let v := sendWords (Asker.access s.cur) s.cur u off n false op s
      .error (if busy then .busy else .park .vault) (v.modMe fun sl => { sl with access := some { x with
        size := n, lane := off % 4, left := (wordsOf (vKey u off) n).length, ready := nowAt v v.myCore
        issued := if busy then some (nowAt v v.myCore) else none } }) := rfl

/-- The request of the core in execution for the word of its own vault at offset `v`. -/
def wordRequest (s : State) (v : Nat) (op : WordOp) : BankReq :=
  { requester := s.myCore % 1024, word := ownKey s v / 4, op := op, asker := .access s.cur 0
    arrive := reachAt s (bankOf (ownKey s v / 4)) }

theorem sendWords_word {s : State} (hb : isBursar s.myCore = false) {v : Nat} (hk : ownKey s v % 4 = 0) (op : Nat → WordOp) :
    sendWords (Asker.access s.cur) s.cur s.myUnit (interleaved v) 4 false op s = hold (wordRequest s v (op 0)) s := by
  rw [wordRequest, ← reachAt_eq hb]
  unfold sendWords
  rw [show vKey s.myUnit (interleaved v) = ownKey s v from rfl, wordsOf_word hk]
  rfl

/-- The access of a thread to one word of its own vault. -/
def wordAccess (s : State) (x : VaultAccess) : VaultAccess :=
  { x with size := 4, lane := 0, left := 1, ready := (s.cluster s.myUnit).cycle.toNat, issued := none }

/-- A thread's access to one word of its own vault that is neither a load nor a store: it parks until the word's bank has answered
(R185, R210, R211). -/
theorem vaultAccess_word {α : Type} {s : State} (hb : isBursar s.myCore = false) {v : Nat} (hv : v % 4 = 0) (rq : Rq)
    (acc : AccessKind) (op : Nat → WordOp) (x : VaultAccess) {code : Nat} (hc : code ≠ 1 ∧ code ≠ 2) :
    (vaultAccess rq (ownPlace s v) acc v code x 4 op : M α) s =
      .error (.park .vault) ((hold (wordRequest s v (op 0)) s).modMe fun sl => { sl with access := some (wordAccess s x) }) := by
  have hi := interleaved_mod_four hv
  have hk : ownKey s v % 4 = 0 := by
    rw [ownKey, vKey]
    omega
  have rest := (hold_asks (wordRequest s v (op 0)) s).2
  have hnow : nowAt (hold (wordRequest s v (op 0)) s) (hold (wordRequest s v (op 0)) s).myCore = (s.cluster s.myUnit).cycle.toNat := by
    have := congrArg (fun x : State => nowAt x x.myCore) rest
    exact this
  rw [ownPlace, if_neg (by simp [hb]), vaultAccess_near, sendWords_word hb hk]
  simp only [hc.1, hc.2, decide_false, Bool.or_false, Bool.false_eq_true, if_false, hnow, hi,
    show vKey s.myUnit (interleaved v) = ownKey s v from rfl, wordsOf_word hk]
  rfl

/-- The thread of the slot in execution parks on its access, which counts as one park (R185, R201). -/
theorem parkAt_vault (u : State) :
    (parkAt u.cur .vault u).me = { u.me with run := .parked .vault } ∧
    (∀ k, k ≠ u.cur → (parkAt u.cur .vault u).slot k = u.slot k) ∧
    { (parkAt u.cur .vault u).core u.myCore with counters := (u.core u.myCore).counters } = u.core u.myCore ∧
    (∀ i, smGet 0 ((parkAt u.cur .vault u).core u.myCore).counters i =
      bump (smGet 0 (u.core u.myCore).counters i) (if i = 5 then 1 else 0)) ∧
    (∀ n, n ≠ u.myCore → (parkAt u.cur .vault u).core n = u.core n) ∧
    { parkAt u.cur .vault u with slots := u.slots, cores := u.cores } = u := by
  obtain ⟨mine, counters, cores, rest⟩ := count_counted u.myCore 5 (u.modSlot u.cur fun sl => { sl with run := .parked .vault })
  have hslot (k : Nat) : (parkAt u.cur .vault u).slot k = (u.modSlot u.cur fun sl => { sl with run := .parked .vault }).slot k := rfl
  refine ⟨?_, fun k hk => ?_, mine, counters, cores, congrArg (fun x : State => { x with slots := u.slots }) rest⟩
  · rw [show (parkAt u.cur .vault u).me = (parkAt u.cur .vault u).slot u.cur from rfl, hslot, State.slot_modSlot, if_pos rfl]
    rfl
  · rw [hslot, State.slot_modSlot, if_neg (Ne.symm hk)]

theorem ownRequests_word (s : State) (v : Nat) (op : Nat → WordOp) :
    ownRequests s (ownKey s v / 4) 1 op (.access s.cur) = [wordRequest s v (op 0)] := by
  simp [ownRequests, wordRequest]

/-- The instruction that has sent the request of such an access is parked on it (R185). -/
theorem sentAccess_word (s : State) (v : Nat) (op : Nat → WordOp) (x : VaultAccess) :
    SentAccess s (parkAt s.cur .vault
        ((hold (wordRequest s v (op 0)) s).modMe fun sl => { sl with access := some (wordAccess s x) }))
      (.parked .vault) (some (wordAccess s x)) (ownRequests s (ownKey s v / 4) 1 op (.access s.cur)) 1 := by
  rw [ownRequests_word]
  generalize wordRequest s v (op 0) = r
  obtain ⟨⟨banks, hot⟩, rest⟩ := hold_asks r s
  generalize hold r s = u at banks hot rest
  have ucur : u.cur = s.cur := by
    have := congrArg State.cur rest
    exact this
  have uslot (k : Nat) : u.slot k = s.slot k := by
    have := congrArg (fun x : State => x.slot k) rest
    exact this
  have ucore (n : Nat) : u.core n = s.core n := by
    have := congrArg (fun x : State => x.core n) rest
    exact this
  have hu : (u.modMe fun sl => { sl with access := some (wordAccess s x) }).cur = s.cur := ucur
  obtain ⟨hme, hothers, mine, counters, cores, prest⟩ := parkAt_vault (u.modMe fun sl => { sl with access := some (wordAccess s x) })
  have hcore : (u.modMe fun sl => { sl with access := some (wordAccess s x) }).myCore = s.myCore := congrArg coreOf hu
  rw [hu] at hme hothers mine counters cores prest
  rw [hcore] at mine counters cores
  refine ⟨ucur, ?_, fun k hk => ?_, ?_, fun i => ?_, fun n hn => ?_, ?_, ?_⟩
  · rw [hme, State.me_modMe, State.me, ucur, uslot, State.me]
  · rw [hothers k hk, State.slot_modMe, ucur, if_neg (Ne.symm hk), uslot]
  · rw [← ucore]
    exact mine
  · rw [← ucore]
    exact counters i
  · rw [← ucore]
    exact cores n hn
  · generalize parkAt s.cur .vault (u.modMe fun sl => { sl with access := some (wordAccess s x) }) = t at prest
    refine ⟨fun b => ?_, fun b => ?_⟩
    · have := congrArg (fun x : State => x.bank b) prest
      exact Eq.trans this (banks b)
    · have := congrArg (fun x : State => x.hot) prest
      exact (iff_of_eq (congrArg (b ∈ ·) this)).trans (hot b)
  · exact (congrArg (fun x : State => { x with slots := s.slots, cores := s.cores, banks := s.banks, hot := s.hot }) prest).trans
      ((congrArg (fun x : State => { x with slots := s.slots, cores := s.cores }) rest))

end Sys2Proof.Machine
end

section
namespace Sys2Proof.Machine

/-! ### MSGVEC with EN = 1: the core loads its slot-class map (R165) -/

/-- A CSR instruction whose write stops does what the stop says. -/
theorem CsrOpen.csrw_error {s u : State} {c : BitVec 12} (h : CsrOpen s c) {a : Reg} {e : Stop}
    (hw : csrWrite c.toNat (s.reg a) none s = .error e u) : exec (.csrw a c) s = .next (finish s.cur (.error e u)) := by
  rw [h.csrw a, bind_of_error hw]

theorem CsrOpen.csrx_error {s u : State} {c : BitVec 12} (h : CsrOpen s c) (hread : csrReadStep c.toNat s = s) {d a : Reg} {e : Stop}
    (hw : csrWrite c.toNat (s.reg a) (some (d, csrValue s c.toNat)) s = .error e u) :
    exec (.csrx d a c) s = .next (finish s.cur (.error e u)) := by
  rw [h.csrx d a, hread, bind_of_error hw]

theorem CsrOpen.csrm_error {s u : State} {c : BitVec 12} (h : CsrOpen s c) {a b : Reg} (hb : s.reg b ≠ 0) {e : Stop}
    (hw : csrWrite c.toNat (csrMerged (csrValue s c.toNat) (s.reg a) (s.reg b)) none s = .error e u) :
    exec (.csrm a b c) s = .next (finish s.cur (.error e u)) := by
  rw [h.csrm a b hb, bind_of_error hw]

theorem csrWrite_msgvec_load {s : State} (hb : isBursar s.myCore = false) (hr : s.me.relaxed = []) {v : Word}
    (hv : v.getLsbD 0 = true) (old : Option (Reg × Word)) :
    csrWrite 0x031 v old s = .error (.park .vault)
      ((hold (wordRequest s (v.toNat / 2 ^ 11 % 2 ^ 14 * 2048) .read) s).modMe fun sl =>
        { sl with access := some (wordAccess s { use_ := .classMap (v &&& 0x01FFF801) old }) }) := by
  have ho : awaitOrder s = .ok () s := by
    refine if_pos ?_
    rw [orderClear, hr]
    rfl
  refine (bind_of_ok (x := look fun s => isBursar s.myCore) (u := s) (a := isBursar s.myCore) rfl _).trans ?_
  rw [show bitOf v 0 = true from hv, hb]
  refine (bind_of_ok ho _).trans ?_
  refine (bind_of_ok (x := look fun s => rqOf s.myCore 1 s) (u := s) rfl _).trans ?_
  refine (bind_of_ok (x := look fun s => ownPlace s _) (u := s) rfl _).trans ?_
  rw [show fieldOf v 11 14 = v.toNat / 2 ^ 11 % 2 ^ 14 by rw [fieldOf, Nat.shiftRight_eq_div_pow]]
  exact vaultAccess_word hb (by omega) _ _ _ _ ⟨by decide, by decide⟩

/-- The write parks on the read of the map. -/
theorem sentAccess_msgvec {s : State} (v : Word) (old : Option (Reg × Word)) {i : Instr}
    (hi : exec i s = .next (finish s.cur (.error (.park .vault)
      ((hold (wordRequest s (v.toNat / 2 ^ 11 % 2 ^ 14 * 2048) .read) s).modMe fun sl =>
        { sl with access := some (wordAccess s { use_ := .classMap (v &&& 0x01FFF801) old }) })))) :
    ∃ t, exec i s = .next t ∧ SentAccess s t (.parked .vault) (some (.begun s (.classMap (v &&& 0x01FFF801) old) 4 0 1 false))
      (ownRequests s (ownKey s (v.toNat / 2 ^ 11 % 2 ^ 14 * 2048) / 4) 1 (fun _ => .read) (.access s.cur)) 1 :=
  ⟨_, hi, sentAccess_word s _ (fun _ => .read) _⟩

end Sys2Proof.Machine
end

section
namespace Sys2Proof.Machine

/-! ### The answer of a vault access (R210, R211) -/

theorem noteMiss_counted (c : Nat) (issued : Option Nat) (ready : Nat) (s : State) :
    Counted c s (noteMiss c issued ready s) fun i => if i = 4 ∧ issued.any (fun x => x + 16 < ready) then 1 else 0 := by
  cases issued with
  | none => simpa [noteMiss] using Counted.refl c s
  | some x =>
    by_cases hx : x + 16 < ready
    · simpa [noteMiss, hx] using count_counted c 4 s
    · simpa [noteMiss, hx] using Counted.refl c s

/-- The state in which the access `a` of slot `k` has been answered, before its instruction ends. -/
def accessEnded (k : Nat) (a : VaultAccess) (s : State) : State :=
  noteMiss (coreOf k) a.issued a.ready (s.modSlot k fun sl => { sl with access := none, run := .ready, busyUntil := a.ready })

theorem accessEnded_counted (k : Nat) (a : VaultAccess) (s : State) :
    Counted (coreOf k) (s.modSlot k fun sl => { sl with access := none, run := .ready, busyUntil := a.ready }) (accessEnded k a s)
      fun i => if i = 4 ∧ a.issued.any (fun x => x + 16 < a.ready) then 1 else 0 := noteMiss_counted ..

theorem Counted.queues {c : Nat} {s t : State} {n : Nat → Nat} (h : Counted c s t n) (m : Nat) :
    (t.core m).queues = (s.core m).queues := by
  obtain ⟨hmine, -, hcores, -⟩ := h
  by_cases hm : m = c
  · rw [hm, ← hmine]
  · rw [hcores m hm]

theorem accessEnded_slot (k : Nat) (a : VaultAccess) (s : State) (j : Nat) : (accessEnded k a s).slot j =
    if k = j then { s.slot k with access := none, run := .ready, busyUntil := a.ready } else s.slot j := by
  rw [(accessEnded_counted k a s).slot, State.slot_modSlot]

theorem accessEnded_unheld {k : Nat} {a : VaultAccess} {s : State} (h : Unheld s k) : Unheld (accessEnded k a s) k := by
  refine ⟨?_, ?_⟩
  · rw [accessEnded_slot, if_pos rfl]
    exact h.1
  · have hq := h.2
    simp only [qOwned] at hq ⊢
    rw [(accessEnded_counted k a s).queues]
    exact hq

/-- The instruction of the access ends with the results `ws`. -/
theorem replied_of_answered {s u : State} {k : Nat} {a : VaultAccess} {ws : List (Reg × Word)} (h : Unheld s k)
    (hu : Answered (accessEnded k a s) u k ws ∧ { u with slots := (accessEnded k a s).slots } = accessEnded k a s) :
    Replied s u k a ws := by
  obtain ⟨⟨cur, regs, slot, others⟩, rest⟩ := hu
  obtain ⟨mine, counters, cores, crest⟩ := accessEnded_counted k a s
  have ucore (n : Nat) : u.core n = (accessEnded k a s).core n := by
    have := congrArg (fun x : State => x.core n) rest
    exact this
  have hs : Unheld (s.modSlot k fun sl => { sl with access := none, busyUntil := a.ready }) k := by
    refine ⟨?_, h.2⟩
    rw [State.slot_modSlot, if_pos rfl]
    exact h.1
  refine ⟨⟨cur.trans (accessEnded_counted k a s).cur, fun r => ?_, ?_, fun j hj => ?_⟩, ?_, fun i => ?_, fun n hn => ?_, ?_⟩
  · rw [regs, regAt_of_unheld (accessEnded_unheld h), regAt_of_unheld hs, accessEnded_slot, if_pos rfl, State.slot_modSlot, if_pos rfl]
  · rw [State.slot_modSlot, if_pos rfl]
    rw [accessEnded_slot, if_pos rfl] at slot
    exact slot
  · rw [others j hj, accessEnded_slot, if_neg (Ne.symm hj), State.slot_modSlot, if_neg (Ne.symm hj)]
  · rw [ucore]
    exact mine
  · rw [ucore]
    exact counters i
  · rw [ucore]
    exact cores n hn
  · exact (congrArg (fun x : State => { x with slots := s.slots, cores := s.cores }) rest).trans
      (congrArg (fun x : State => { x with slots := s.slots }) crest)

/-- An instruction ends with a result, or with none. -/
def answerWith (k : Nat) (old : Option (Reg × Word)) (s : State) : State :=
  completeAt k .seq (match old with
    | some (d, x) => setRegAt k d x s
    | none => s)

theorem answered_answerWith {s : State} {k : Nat} (h : Unheld s k) (old : Option (Reg × Word)) :
    Answered s (answerWith k old s) k old.toList ∧ { answerWith k old s with slots := s.slots } = s := by
  cases old with
  | none => exact answered_complete h
  | some p => exact answered_complete_write h p.1 p.2

/-- The end does not read what another part of the core is. -/
theorem answerWith_modCore {s : State} {k : Nat} (h : Unheld s k) (old : Option (Reg × Word)) (c : Nat) (f : Core → Core)
    (hf : (f (s.core c)).queues = (s.core c).queues) : answerWith k old (s.modCore c f) = (answerWith k old s).modCore c f := by
  have hm := h.modCore c f hf
  cases old with
  | none =>
    simp only [answerWith]
    rw [completeAt_of_unheld h, completeAt_of_unheld hm]
    rfl
  | some p =>
    simp only [answerWith]
    rw [completeAt_of_unheld (setRegAt_unheld h ..), completeAt_of_unheld (setRegAt_unheld hm ..), setRegAt_of_unheld h,
      setRegAt_of_unheld hm]
    split <;> rfl

/-- The map has come: MSGVEC and the core's map are written, and the instruction ends (R165). -/
theorem replyArrival_classMap {s : State} {k : Nat} {a : VaultAccess} {w : Word} {old : Option (Reg × Word)} (h : Performed s k a)
    (hu : a.use_ = .classMap w old) : exec (.replyArrival k accessId none) s =
      .next (answerWith k old ((accessEnded k a s).modCore (coreOf k) fun c =>
        { c with msgvec := w, classMap := a.data.setWidth 32 })) := by
  obtain ⟨hacc, hleft, herr, -⟩ := h
  show execReplyArrival k accessId s none = _
  rw [execReplyArrival, hacc]
  simp only [ne_eq, not_true_eq_false, if_false, hleft, if_true, accessReply, herr, hu, accessGo]
  rfl

end Sys2Proof.Machine
end

section
namespace Sys2Proof.Machine

theorem csrWrites_classMap (s : State) (k : Nat) (v : VaultAccess) (w : Word) (old : Option (Reg × Word)) (h : Performed s k v)
    (hu : v.use_ = .classMap w old) :
    ∃ u t, exec (.replyArrival k accessId none) s = .next t ∧ Replied s u k v old.toList ∧
      t.core (coreOf k) = { u.core (coreOf k) with msgvec := w, classMap := v.data.setWidth 32 } ∧
      (∀ n, n ≠ coreOf k → t.core n = u.core n) ∧ { t with cores := u.cores } = u := by
  have hun : Unheld (accessEnded k v s) k := accessEnded_unheld h.2.2.2
  have hr := replied_of_answered h.2.2.2 (answered_answerWith hun old)
  have ht := replyArrival_classMap h hu
  rw [answerWith_modCore hun old (coreOf k) _ rfl] at ht
  generalize answerWith k old (accessEnded k v s) = u at hr ht
  refine ⟨u, _, ht, hr, ?_, fun n hn => ?_, rfl⟩
  · rw [State.core_modCore, if_pos rfl]
  · rw [State.core_modCore, if_neg (Ne.symm hn)]

/-- The writes of the registers of the slot, and of those of the core, that complete at once. -/
theorem csrWrites_slot {s : State} (h : Clear s) (d a b : Reg) :
    CsrAll s d a b 0x000 (s.me.status &&& 0xFFFF0307)
      (fun t ws v => WroteSlot s t ws { s.me with status := (s.me.status &&& 0x0000FFFA) ||| (v &&& 0xFFFF0005) }) ∧
    CsrAll s d a b 0x001 s.me.epc (fun t ws v => WroteSlot s t ws { s.me with epc := v }) ∧
    CsrAll s d a b 0x002 (s.me.ecause &&& 0xFF) (fun t ws v => WroteSlot s t ws { s.me with ecause := v &&& 0xFF }) ∧
    CsrAll s d a b 0x003 s.me.eval (fun t ws v => WroteSlot s t ws { s.me with eval := v }) ∧
    CsrAll s d a b 0x005 s.me.escratch (fun t ws v => WroteSlot s t ws { s.me with escratch := v }) ∧
    CsrAll s d a b 0x040 s.me.fmtdef (fun t ws v => WroteSlot s t ws { s.me with fmtdef := v &&& 0x7FF }) := by
  have slot {c : BitVec 12} (f : Word → Slot → Slot) := all_slot_low h d a b (c := c) f
  exact ⟨slot (fun v sl => { sl with status := (sl.status &&& 0x0000FFFA) ||| (v &&& 0xFFFF0005) }) (by decide) rfl (fun _ _ => rfl)
      fun _ => rfl,
    slot (fun v sl => { sl with epc := v }) (by decide) rfl (fun _ _ => rfl) fun _ => rfl,
    slot (fun v sl => { sl with ecause := v &&& 0xFF }) (by decide) rfl (fun _ _ => rfl) fun _ => rfl,
    slot (fun v sl => { sl with eval := v }) (by decide) rfl (fun _ _ => rfl) fun _ => rfl,
    slot (fun v sl => { sl with escratch := v }) (by decide) rfl (fun _ _ => rfl) fun _ => rfl,
    slot (fun v sl => { sl with fmtdef := v &&& 0x7FF }) (by decide) rfl (fun _ _ => rfl) fun _ => rfl⟩

theorem csrWrites_core {s : State} (h : Clear s) (d a b : Reg) :
    CsrAll s d a b 0x004 (s.core s.myCore).tvec (fun t ws v => WroteCore s t ws { s.core s.myCore with tvec := v }) ∧
    CsrAll s d a b 0x041 (s.core s.myCore).srkeyLo (fun t ws v => WroteCore s t ws { s.core s.myCore with srkeyLo := v }) ∧
    CsrAll s d a b 0x042 (s.core s.myCore).srkeyHi (fun t ws v => WroteCore s t ws { s.core s.myCore with srkeyHi := v }) := by
  have core {c : BitVec 12} (f : Word → Core → Core) := all_core_low h d a b (c := c) f
  exact ⟨core (fun v y => { y with tvec := v }) (by decide) rfl (fun _ _ => rfl) fun _ => rfl,
    core (fun v y => { y with srkeyLo := v }) (by decide) rfl (fun _ _ => rfl) fun _ => rfl,
    core (fun v y => { y with srkeyHi := v }) (by decide) rfl (fun _ _ => rfl) fun _ => rfl⟩

theorem CsrAll.imp {s : State} {d a b : Reg} {c : BitVec 12} {old : Word} {p q : State → List (Reg × Word) → Word → Prop}
    (h : CsrAll s d a b c old p) (hpq : ∀ t ws v, p t ws v → q t ws v) : CsrAll s d a b c old q := by
  obtain ⟨hw, hx, hm, h0⟩ := h
  exact ⟨hw.imp fun t ht => ⟨ht.1, hpq _ _ _ ht.2⟩, hx.imp fun t ht => ⟨ht.1, hpq _ _ _ ht.2⟩,
    fun hb => (hm hb).imp fun t ht => ⟨ht.1, hpq _ _ _ ht.2⟩, h0⟩

theorem csrOpen_msgvec {s : State} (h : Clear s) : CsrOpen s 0x031 := csrOpen_low h (by decide) (by decide) (by decide)

/-- A write of MSGVEC with EN = 1 sends the read of the map. -/
def LoadsMap (s : State) (i : Instr) (v : Word) (old : Option (Reg × Word)) : Prop :=
  v.getLsbD 0 = true → ∃ t, exec i s = .next t ∧
    SentAccess s t (.parked .vault) (some (.begun s (.classMap (v &&& 0x01FFF801) old) 4 0 1 false))
      (ownRequests s (ownKey s (v.toNat / 2 ^ 11 % 2 ^ 14 * 2048) / 4) 1 (fun _ => .read) (.access s.cur)) 1

/-- One with EN = 0 clears the map. -/
def ClearsMap (s : State) (i : Instr) (v : Word) (ws : List (Reg × Word)) : Prop :=
  v.getLsbD 0 = false → ∃ t, exec i s = .next t ∧
    ThreadWent (s.modCore s.myCore fun y => { y with msgvec := v &&& 0x01FFF801, classMap := 0 }) t ws s.npc 1 ∧
    { t with slots := s.slots, cores := s.cores } = s

theorem loadsMap_msgvec {s : State} (h : Clear s) (d a b : Reg) (hr : s.me.relaxed = []) (hb : isBursar s.myCore = false) :
    LoadsMap s (.csrw a 0x031) (s.reg a) none ∧ LoadsMap s (.csrx d a 0x031) (s.reg a) (some (d, (s.core s.myCore).msgvec)) ∧
    (s.reg b ≠ 0 → LoadsMap s (.csrm a b 0x031) (csrMerged (s.core s.myCore).msgvec (s.reg a) (s.reg b)) none) := by
  have o := csrOpen_msgvec h
  exact ⟨fun hv => sentAccess_msgvec _ none (o.csrw_error (csrWrite_msgvec_load hb hr hv _)),
    fun hv => sentAccess_msgvec _ (some (d, _)) (o.csrx_error rfl (csrWrite_msgvec_load hb hr hv _)),
    fun hm hv => sentAccess_msgvec _ none (o.csrm_error hm (csrWrite_msgvec_load hb hr hv _))⟩

theorem clearsMap_msgvec {s : State} (h : Clear s) (d a b : Reg) :
    ClearsMap s (.csrw a 0x031) (s.reg a) [] ∧ ClearsMap s (.csrx d a 0x031) (s.reg a) [(d, (s.core s.myCore).msgvec)] ∧
    (s.reg b ≠ 0 → ClearsMap s (.csrm a b 0x031) (csrMerged (s.core s.myCore).msgvec (s.reg a) (s.reg b)) []) := by
  have o := csrOpen_msgvec h
  have hun (v : Word) : Unheld ((count s.myCore 5 s).modCore s.myCore fun y =>
      { y with msgvec := v &&& 0x01FFF801, classMap := 0 }) s.cur := Unheld.modCore (h.2.unheld.modCore _ _ rfl) _ _ rfl
  have went {i : Instr} {v : Word} {ws : List (Reg × Word)} (hi : ∃ t, exec i s = .next t ∧ WroteTo
      ((count s.myCore 5 s).modCore s.myCore fun y => { y with msgvec := v &&& 0x01FFF801, classMap := 0 }) t ws s.npc) :=
    hi.imp fun t ht => And.intro ht.1 (threadWent_msgvec h ht.2)
  exact ⟨fun hv => went (o.csrw_ok (csrWrite_msgvec_clear hv _) rfl (hun _)),
    fun hv => went (o.csrx_ok rfl d (csrWrite_msgvec_clear hv _) rfl (hun _)),
    fun hm hv => went (o.csrm_ok hm (csrWrite_msgvec_clear hv _) rfl (hun _))⟩

/-- The counters read as written. -/
theorem all_counter_reads {s : State} (h : Clear s) (d a b : Reg) {i : Nat} (hi : i < 16) :
    CsrAll s d a b (BitVec.ofNat 12 (0x060 + i)) (smGet 0 (s.core s.myCore).counters i) fun t ws v =>
      WroteCore s t ws { s.core s.myCore with counters := (t.core s.myCore).counters } ∧
      ∀ j, smGet 0 (t.core s.myCore).counters j = if j = i then v else smGet 0 (s.core s.myCore).counters j := by
  refine (all_counter h d a b hi).imp fun t ws v hw => ?_
  obtain ⟨hcur, hregs, hslot, hothers, hcore, hcores, hrest⟩ := hw
  refine ⟨⟨hcur, hregs, hslot, hothers, ?_, hcores, hrest⟩, fun j => ?_⟩
  · rw [hcore]
  · rw [hcore, smGet_smSet]
    simp only [eq_comm]

theorem claim_csrWrites : Claim.CsrWrites := by
  intro s d a b h
  obtain ⟨w0, w1, w2, w3, w5, w40⟩ := csrWrites_slot h d a b
  obtain ⟨w4, w41, w42⟩ := csrWrites_core h d a b
  have keeps {c : BitVec 12} {v : Word} := all_keeps_low h d a b (c := c) (v := v)
  refine ⟨w0, w1, w2, w3, w5, all_qmap h d a b, w40, all_fflags h d a b, w4, w41, w42, all_segtab h d a b, keeps_segtab h d a b,
    fun i hi => all_counter_reads h d a b hi, fun hr hb => ?_, csrWrites_classMap s,
    fun hb hp => ⟨all_rotmode h d a b hb hp, all_throttle h d a b hb hp⟩,
    keeps (by decide) rfl (fun _ _ => rfl) rfl, keeps (by decide) rfl (fun _ _ => rfl) rfl, keeps (by decide) rfl (fun _ _ => rfl) rfl,
    keeps (by decide) rfl (fun _ _ => rfl) (settleTimer_dlstat s), keeps (by decide) rfl (fun _ _ => rfl) rfl,
    fun hb hp hr i hi => csrw_mint h hb hp hr a hi⟩
  obtain ⟨loadsW, loadsX, loadsM⟩ := loadsMap_msgvec h d a b hr hb
  obtain ⟨clearsW, clearsX, clearsM⟩ := clearsMap_msgvec h d a b
  exact ⟨loadsW, loadsX, loadsM, clearsW, clearsX, clearsM⟩

/-- Settles O41: what a read of each CSR gives, and what a write of it changes. -/
theorem csrAccess : Obligations.CsrAccess := ⟨claim_csrReads, claim_csrWrites⟩

end Sys2Proof.Machine
end

section
/-! SUPPORT. An event that changes one unit and lets others be due: the frame that the statements about events share. -/

namespace Sys2Proof.Machine

section
variable (s : State)

theorem onlyDieAt_modDie (d : Nat) (f : Die → Die) (es : List Instr) :
    OnlyDieAt s ((s.modDie d f).pushAll es) d (f (s.die d)) es :=
  ⟨(State.die_modDie ..).trans (if_pos rfl), fun _ hn => (State.die_modDie ..).trans (if_neg (Ne.symm hn)), rfl, rfl⟩

theorem onlyCtlAt_modCtl (k : Nat) (f : Ctl → Ctl) (es : List Instr) :
    OnlyCtlAt s ((s.modCtl k f).pushAll es) k (f (s.ctl k)) es :=
  ⟨(State.ctl_modCtl ..).trans (if_pos rfl), fun _ hn => (State.ctl_modCtl ..).trans (if_neg (Ne.symm hn)), rfl, rfl⟩

theorem onlyRouterAt_modRouter (k : Nat) (f : Router → Router) (es : List Instr) :
    OnlyRouterAt s ((s.modRouter k f).pushAll es) k (f (s.router k)) es :=
  ⟨(State.router_modRouter ..).trans (if_pos rfl), fun _ hn => (State.router_modRouter ..).trans (if_neg (Ne.symm hn)), rfl, rfl⟩

theorem onlyClusterAt_modCluster (k : Nat) (f : Cluster → Cluster) (es : List Instr) :
    OnlyClusterAt s ((s.modCluster k f).pushAll es) k (f (s.cluster k)) es :=
  ⟨(State.cluster_modCluster ..).trans (if_pos rfl), fun _ hn => (State.cluster_modCluster ..).trans (if_neg (Ne.symm hn)), rfl, rfl⟩

theorem onlyCoreAt_modCore (k : Nat) (f : Core → Core) (es : List Instr) :
    OnlyCoreAt s ((s.modCore k f).pushAll es) k (f (s.core k)) es :=
  ⟨(State.core_modCore ..).trans (if_pos rfl), fun _ hn => (State.core_modCore ..).trans (if_neg (Ne.symm hn)), rfl, rfl⟩

theorem onlyPartAt_modPart (k : Nat) (f : Part → Part) (es : List Instr) :
    OnlyPartAt s ((s.modPart k f).pushAll es) k (f (s.part k)) es :=
  ⟨(State.part_modPart ..).trans (if_pos rfl), fun _ hn => (State.part_modPart ..).trans (if_neg (Ne.symm hn)), rfl, rfl⟩

theorem onlySliceAt_modSlice (k : Nat) (f : Slice → Slice) (es : List Instr) :
    OnlySliceAt s ((s.modSlice k f).pushAll es) k (f (s.slice k)) es :=
  ⟨(State.slice_modSlice ..).trans (if_pos rfl), fun _ hn => (State.slice_modSlice ..).trans (if_neg (Ne.symm hn)), rfl, rfl⟩

theorem pushAll_nil : s.pushAll [] = s := by
  rw [State.pushAll, List.append_nil]

end

/-! ### The same of what an event does -/

section
variable {s : State} {e : Instr} {k : Nat} {es more : List Instr}

theorem dieBecomes_of_mod {f : Die → Die} {x : Die} (h : exec e s = .next (s.modDie k f)) (hx : f (s.die k) = x) :
    DieBecomes s e k x [] := by
  refine ⟨_, h, ?_⟩
  rw [← hx, ← pushAll_nil (s.modDie k f)]
  exact onlyDieAt_modDie s k f []

theorem dieBecomes_of_push {f : Die → Die} {x : Die} (h : exec e s = .next ((s.modDie k f).pushAll es)) (hx : f (s.die k) = x) (he : es = more) :
    DieBecomes s e k x more :=
  ⟨_, h, hx ▸ he ▸ onlyDieAt_modDie s k f es⟩

theorem ctlBecomes_of_mod {f : Ctl → Ctl} {x : Ctl} (h : exec e s = .next (s.modCtl k f)) (hx : f (s.ctl k) = x) :
    CtlBecomes s e k x [] := by
  refine ⟨_, h, ?_⟩
  rw [← hx, ← pushAll_nil (s.modCtl k f)]
  exact onlyCtlAt_modCtl s k f []

theorem ctlBecomes_of_push {f : Ctl → Ctl} {x : Ctl} (h : exec e s = .next ((s.modCtl k f).pushAll es)) (hx : f (s.ctl k) = x) (he : es = more) :
    CtlBecomes s e k x more :=
  ⟨_, h, hx ▸ he ▸ onlyCtlAt_modCtl s k f es⟩

theorem routerBecomes_of_mod {f : Router → Router} {x : Router} (h : exec e s = .next (s.modRouter k f)) (hx : f (s.router k) = x) :
    RouterBecomes s e k x [] := by
  refine ⟨_, h, ?_⟩
  rw [← hx, ← pushAll_nil (s.modRouter k f)]
  exact onlyRouterAt_modRouter s k f []

theorem routerBecomes_of_push {f : Router → Router} {x : Router} (h : exec e s = .next ((s.modRouter k f).pushAll es)) (hx : f (s.router k) = x) (he : es = more) :
    RouterBecomes s e k x more :=
  ⟨_, h, hx ▸ he ▸ onlyRouterAt_modRouter s k f es⟩

theorem clusterBecomes_of_mod {f : Cluster → Cluster} {x : Cluster} (h : exec e s = .next (s.modCluster k f)) (hx : f (s.cluster k) = x) :
    ClusterBecomes s e k x [] := by
  refine ⟨_, h, ?_⟩
  rw [← hx, ← pushAll_nil (s.modCluster k f)]
  exact onlyClusterAt_modCluster s k f []

theorem clusterBecomes_of_push {f : Cluster → Cluster} {x : Cluster} (h : exec e s = .next ((s.modCluster k f).pushAll es)) (hx : f (s.cluster k) = x) (he : es = more) :
    ClusterBecomes s e k x more :=
  ⟨_, h, hx ▸ he ▸ onlyClusterAt_modCluster s k f es⟩

theorem coreBecomes_of_mod {f : Core → Core} {x : Core} (h : exec e s = .next (s.modCore k f)) (hx : f (s.core k) = x) :
    CoreBecomes s e k x [] := by
  refine ⟨_, h, ?_⟩
  rw [← hx, ← pushAll_nil (s.modCore k f)]
  exact onlyCoreAt_modCore s k f []

theorem coreBecomes_of_push {f : Core → Core} {x : Core} (h : exec e s = .next ((s.modCore k f).pushAll es)) (hx : f (s.core k) = x) (he : es = more) :
    CoreBecomes s e k x more :=
  ⟨_, h, hx ▸ he ▸ onlyCoreAt_modCore s k f es⟩

theorem partBecomes_of_mod {f : Part → Part} {x : Part} (h : exec e s = .next (s.modPart k f)) (hx : f (s.part k) = x) :
    PartBecomes s e k x [] := by
  refine ⟨_, h, ?_⟩
  rw [← hx, ← pushAll_nil (s.modPart k f)]
  exact onlyPartAt_modPart s k f []

theorem partBecomes_of_push {f : Part → Part} {x : Part} (h : exec e s = .next ((s.modPart k f).pushAll es)) (hx : f (s.part k) = x) (he : es = more) :
    PartBecomes s e k x more :=
  ⟨_, h, hx ▸ he ▸ onlyPartAt_modPart s k f es⟩

theorem sliceBecomes_of_mod {f : Slice → Slice} {x : Slice} (h : exec e s = .next (s.modSlice k f)) (hx : f (s.slice k) = x) :
    SliceBecomes s e k x [] := by
  refine ⟨_, h, ?_⟩
  rw [← hx, ← pushAll_nil (s.modSlice k f)]
  exact onlySliceAt_modSlice s k f []

theorem sliceBecomes_of_push {f : Slice → Slice} {x : Slice} (h : exec e s = .next ((s.modSlice k f).pushAll es)) (hx : f (s.slice k) = x) (he : es = more) :
    SliceBecomes s e k x more :=
  ⟨_, h, hx ▸ he ▸ onlySliceAt_modSlice s k f es⟩

end

/-! ### Two changes in a row -/

section
variable {s t u : State} {k : Nat} {a b : List Instr}

theorem OnlyDieAt.trans {x y : Die} (h : OnlyDieAt s t k x a) (h' : OnlyDieAt t u k y b) : OnlyDieAt s u k y (a ++ b) where
  it := h'.it
  others n hn := (h'.others n hn).trans (h.others n hn)
  due := by rw [h'.due, h.due, List.append_assoc]
  rest := (congrArg (fun v : State => { v with dies := s.dies, due := s.due }) h'.rest).trans h.rest

theorem OnlyCtlAt.trans {x y : Ctl} (h : OnlyCtlAt s t k x a) (h' : OnlyCtlAt t u k y b) : OnlyCtlAt s u k y (a ++ b) where
  it := h'.it
  others n hn := (h'.others n hn).trans (h.others n hn)
  due := by rw [h'.due, h.due, List.append_assoc]
  rest := (congrArg (fun v : State => { v with ctls := s.ctls, due := s.due }) h'.rest).trans h.rest

theorem OnlyRouterAt.trans {x y : Router} (h : OnlyRouterAt s t k x a) (h' : OnlyRouterAt t u k y b) : OnlyRouterAt s u k y (a ++ b) where
  it := h'.it
  others n hn := (h'.others n hn).trans (h.others n hn)
  due := by rw [h'.due, h.due, List.append_assoc]
  rest := (congrArg (fun v : State => { v with routers := s.routers, due := s.due }) h'.rest).trans h.rest

theorem OnlyClusterAt.trans {x y : Cluster} (h : OnlyClusterAt s t k x a) (h' : OnlyClusterAt t u k y b) : OnlyClusterAt s u k y (a ++ b) where
  it := h'.it
  others n hn := (h'.others n hn).trans (h.others n hn)
  due := by rw [h'.due, h.due, List.append_assoc]
  rest := (congrArg (fun v : State => { v with clusters := s.clusters, due := s.due }) h'.rest).trans h.rest

end

end Sys2Proof.Machine
end

section
/-! PROOFS. Word stores at the management port (R5, R46, R74, R81, R101, R107, R110, R122, R125, R129, R203). -/

namespace Sys2Proof.Machine

/-! ### Fields and bits of a word -/

theorem fieldOf_eq {w : Nat} (v : BitVec w) (lo n : Nat) : fieldOf v lo n = v.toNat / 2 ^ lo % 2 ^ n := by
  rw [fieldOf, Nat.shiftRight_eq_div_pow]

theorem bitOf_eq {w : Nat} (v : BitVec w) (i : Nat) : bitOf v i = decide (v.toNat / 2 ^ i % 2 ^ 1 = 1) := by
  rw [bitOf, BitVec.getLsbD, Nat.testBit_eq_decide_div_mod_eq, Nat.pow_one]

theorem not_bitOf_eq {w : Nat} (v : BitVec w) (i : Nat) : (!bitOf v i) = decide (v.toNat / 2 ^ i % 2 ^ 1 = 0) := by
  rw [bitOf_eq, ← decide_not, decide_eq_decide]
  omega

/-! ### The store reaches the region of its die -/

theorem exec_registerWrite {d off : Nat} (hd : d < 4) (ho : off < 0x4000000) (h4 : off % 4 = 0) (v : Word) (src : Nat) (s : State) :
    exec (.registerWrite (0xFF00000000 + 0x4000000 * d + off) v src) s = .next (regionWrite src d off v s) := by
  have hm : isMgmt (0xFF00000000 + 0x4000000 * d + off) = true := by
    simp only [isMgmt, Bool.and_eq_true, decide_eq_true_eq]
    omega
  have h1 : mgmtDie (0xFF00000000 + 0x4000000 * d + off) = d := by
    rw [mgmtDie]
    omega
  have h2 : mgmtOff (0xFF00000000 + 0x4000000 * d + off) = off := by
    rw [mgmtOff]
    omega
  have h3 : (0xFF00000000 + 0x4000000 * d + off) % 4 = 0 := by omega
  show Host.Outcome.next (mgmtWrite src _ v s) = _
  rw [mgmtWrite, hm, h1, h2, h3]
  rfl

/-! ### The pages of the region that arrays fill -/

section
variable (src d : Nat) (v : Word) (s : State)

theorem regionWrite_ctl {j y : Nat} (hj : j < 2) (hy : y < 0x10000) :
    regionWrite src d (0x100000 + 0x10000 * j + y) v s = ctlRegWrite (2 * d + j) y v s := by
  have hb : (0x100000 + 0x10000 * j + y) / 0x10000 = 0x10 + j := by omega
  have ho : (0x100000 + 0x10000 * j + y) % 0x10000 = y := by omega
  have h1 : 0x10 + j = 0x10 ∨ 0x10 + j = 0x11 := by omega
  simp only [regionWrite, hb, ho, Bool.or_eq_true, decide_eq_true_eq, h1, if_true, Nat.add_sub_cancel_left]

/-- The router of place `n` in the die (R81). -/
theorem regionWrite_rterr {n : Nat} (hn : n < 256) : regionWrite src d (0x210000 + 0x100 * n) v s =
    s.modRouter (routerAt (16 * (d % 2) + n % 16) (16 * (d / 2) + n / 16)) fun x =>
      { x with unroute := x.unroute && !bitOf v 7, firewall := x.firewall && !bitOf v 6, proto := x.proto && !bitOf v 5
               replayed := x.replayed && !bitOf v 4 } := by
  have hb : (0x210000 + 0x100 * n) / 0x10000 = 0x21 := by omega
  have hi : (0x210000 + 0x100 * n) % 0x10000 / 0x100 = n := by omega
  have ho : (0x210000 + 0x100 * n) % 0x10000 % 0x100 = 0 := by omega
  simp [regionWrite, hb, hi]

theorem regionWrite_routecfg {n : Nat} (hn : n < 256) : regionWrite src d (0x210000 + 0x100 * n + 4) v s =
    s.modRouter (routerAt (16 * (d % 2) + n % 16) (16 * (d / 2) + n / 16)) fun x => { x with routecfg := BitVec.ofNat 20 v.toNat } := by
  have hb : (0x210000 + 0x100 * n + 4) / 0x10000 = 0x21 := by omega
  have hi : (0x210000 + 0x100 * n + 4) % 0x10000 / 0x100 = n := by omega
  have ho : (0x210000 + 0x100 * n + 4) % 0x100 = 4 := by omega
  simp [regionWrite, hb, hi, ho]

theorem regionWrite_queue {n w : Nat} (hn : n < 2048) (hw : w < 4) :
    regionWrite src d (0x300000 + 16 * n + 4 * w) v s =
      s.modSlice (256 * d + n / 8) fun c => { c with queues := smMod {} c.queues (n % 8) fun q => sqWrite q w v } := by
  have hb : (0x300000 + 16 * n + 4 * w) / 0x10000 = 0x30 := by omega
  have hi : (0x300000 + 16 * n + 4 * w) % 0x10000 / 16 = n := by omega
  have ho : (0x300000 + 16 * n + 4 * w) % 16 / 4 = w := by omega
  simp [regionWrite, hb, hi, ho, hn]

theorem regionWrite_cluster {j y : Nat} (hj : j < 4) (hy : y < 0x10000) :
    regionWrite src d (0x900000 + 0x10000 * j + y) v s = clusterWrite (4 * d + j) y v s := by
  have hb : (0x900000 + 0x10000 * j + y) / 0x10000 = 0x90 + j := by omega
  have ho : (0x900000 + 0x10000 * j + y) % 0x10000 = y := by omega
  have hl : 0x90 + j < 0x94 := by omega
  have hne (n : Nat) (hn : n < 0x90) : 0x90 + j ≠ n := by omega
  simp [regionWrite, hb, ho, hl, hne]

end

/-! ### Registers of a die -/

/-- A store at an offset of the region does what the region does with it. -/
theorem exec_die {d : Nat} (hd : d < 4) (off : Nat) (v : Word) (src : Nat) (s t : State) (ho : off < 0x4000000 ∧ off % 4 = 0)
    (h : regionWrite src d off v s = t) : exec (.registerWrite (0xFF00000000 + 0x4000000 * d + off) v src) s = .next t :=
  (exec_registerWrite hd ho.1 ho.2 v src s).trans (congrArg _ h)

theorem ite_push (c : Prop) [Decidable c] (u : State) (e : Instr) :
    (if c then u.push e else u) = u.pushAll (if c then [e] else []) := by
  split
  · rfl
  · rw [pushAll_nil]

theorem ite_push_not (c : Prop) [Decidable c] (u : State) (e : Instr) :
    (if c then u else u.push e) = u.pushAll (if c then [] else [e]) := by
  split
  · rw [pushAll_nil]
  · rfl

theorem pushAll_pushAll (u : State) (a b : List Instr) : (u.pushAll a).pushAll b = u.pushAll (a ++ b) := by
  simp only [State.pushAll, List.append_assoc]

/-- The registers of a memory controller (R46). -/
theorem ctlRegWrite_mcmap (st : Nat) (v : Word) (s : State) : ctlRegWrite st 0 v s =
    (s.modCtl st fun c => { c with target := BitVec.ofNat 5 (fieldOf v 8 5), refused := c.refused && !bitOf v 2 }).pushAll
      ((if bitOf v 0 then [.mcmapRetire st] else []) ++ if bitOf v 1 then [.mcmapFence st] else []) := by
  rw [← pushAll_pushAll, ← ite_push, ← ite_push]
  rfl

section
variable (src d : Nat) (v : Word) (s : State)

theorem regionWrite_ethcfg : regionWrite src d 0x400000 v s =
    (s.modDie d fun D => { D with eth := { D.eth with
      en := bitOf v 31, pauseen := bitOf v 30, pfcen := BitVec.ofNat 8 (fieldOf v 16 8), xoff := BitVec.ofNat 8 (fieldOf v 8 8)
      xon := BitVec.ofNat 8 (fieldOf v 0 8) } }).pushAll (if bitOf v 31 then [] else [.ethLinkDown d]) := ite_push_not ..

theorem regionWrite_mailbox : regionWrite src d 0x700000 v s =
    (s.modDie d fun D => { D with host := { D.host with mbtype := BitVec.ofNat 8 v.toNat } }).pushAll
      (if bitOf v 8 then [.mbset d] else []) := ite_push ..

theorem regionWrite_clthr {j : Nat} (hj : j < 4) :
    regionWrite src d (0x500200 + 4 * j) v s = s.push (.clthrWrite (4 * d + j) (some v) none) := by
  interval_cases j <;> rfl

theorem regionWrite_mbout {j : Nat} (hj : j < 16) : regionWrite src d (0x700200 + 4 * j) v s =
    s.modDie d fun D => { D with host := { D.host with store := wrBytes D.host.store (apKey 255 (0x200 + 4 * j)) v.toNat 4 } } := by
  interval_cases j <;> rfl

theorem regionWrite_vibind {a w : Nat} (ha : a < 128) (hw : w < 4) :
    regionWrite src d (0x701000 + 16 * a + 4 * w) v s = s.push (.vibindWrite d a w v src) := by
  have hb : (0x701000 + 16 * a + 4 * w) / 0x10000 = 0x70 := by omega
  have hy : (0x701000 + 16 * a + 4 * w) % 0x10000 = 0x1000 + 16 * a + 4 * w := by omega
  have hi : (0x1000 + 16 * a + 4 * w - 0x1000) / 16 = a := by omega
  have ho : (0x1000 + 16 * a + 4 * w) % 16 / 4 = w := by omega
  have h0 : 0x1000 + 16 * a + 4 * w ≠ 0 := by omega
  have h1 : ¬ 0x1000 + 16 * a + 4 * w < 0x240 := by omega
  have h2 : 0x1000 ≤ 0x1000 + 16 * a + 4 * w ∧ 0x1000 + 16 * a + 4 * w < 0x1800 := by omega
  simp only [regionWrite, hb, hy, hi, ho, h0, h1, h2, Bool.and_eq_true, decide_eq_true_eq, and_false, and_self, if_true, if_false,
    Bool.or_eq_true, or_self, Nat.reduceEqDiff]

/-- The words of a queue descriptor (R74). -/
theorem smGet_queue {n w : Nat} (hn : n < 2048) (hw : w < 4) (q : SQueue)
    (hq : sqWrite (smGet {} (s.slice (256 * d + n / 8)).queues (n % 8)) w v = q) :
    ∃ t, regionWrite src d (0x300000 + 16 * n + 4 * w) v s = t ∧
      OnlySliceAt s t (256 * d + n / 8) { s.slice (256 * d + n / 8) with queues := (t.slice (256 * d + n / 8)).queues } [] ∧
      ∀ k, smGet {} (t.slice (256 * d + n / 8)).queues k =
        if k = n % 8 then q else smGet {} (s.slice (256 * d + n / 8)).queues k := by
  refine ⟨_, regionWrite_queue src d v s hn hw, ?_, fun k => ?_⟩
  · have := onlySliceAt_modSlice s (256 * d + n / 8) (fun c => { c with queues := smMod {} c.queues (n % 8) fun q => sqWrite q w v }) []
    rw [pushAll_nil] at this
    rw [State.slice_modSlice, if_pos rfl]
    exact this
  · rw [State.slice_modSlice, if_pos rfl, smGet_smMod, hq]
    simp only [eq_comm]

end

/-- The field at the bottom of a number replaced. -/
theorem putField_low {w : Nat} (x : BitVec w) (n v : Nat) (hv : v < 2 ^ n) :
    putField x 0 n v = BitVec.ofNat w (x.toNat / 2 ^ n * 2 ^ n + v) := by
  apply BitVec.eq_of_getLsbD_eq
  intro i hi
  rw [getLsbD_putField, BitVec.getLsbD_ofNat, Nat.mul_comm, Nat.testBit_two_pow_mul_add _ hv, BitVec.getLsbD, Nat.testBit_div_two_pow]
  by_cases h : i < n
  · simp [h, hi]
  · simp [h, hi, Nat.not_lt.1 h]

/-- The field at the top replaced. -/
theorem putField_high {w : Nat} (x : BitVec w) (lo n v : Nat) (hw : lo + n = w) :
    putField x lo n v = BitVec.ofNat w (v * 2 ^ lo + x.toNat % 2 ^ lo) := by
  apply BitVec.eq_of_getLsbD_eq
  intro i hi
  rw [getLsbD_putField, BitVec.getLsbD_ofNat, Nat.mul_comm, Nat.testBit_two_pow_mul_add _ (Nat.mod_lt _ (by positivity)),
    BitVec.getLsbD, Nat.testBit_mod_two_pow]
  by_cases h : i < lo
  · simp [h, hi, Nat.not_le.2 h]
  · simp [h, hi, hw, Nat.not_lt.1 h]

/-- The word at place `n` of a cluster's cores: halt, resume and step of its core (R199, R200). -/
theorem clusterWrite_core (c n : Nat) (hn : n < 1024) (v : Word) (s : State) : clusterWrite c (16 * n) v s =
    (s.modCore (1024 * c + n) fun k =>
      { k with brkhalt := bitOf v 29, sslot := BitVec.ofNat 4 v.toNat, step := k.step && bitOf v 30 }).pushAll
      ((if bitOf v 31 = (s.core (1024 * c + n)).halt then [] else
          [if bitOf v 31 then .coreHalt (1024 * c + n) else .coreResume (1024 * c + n)]) ++
        if bitOf v 30 && bitOf v 31 then [.coreStep (1024 * c + n)] else []) := by
  have hl : 16 * n < 0x4000 := by omega
  have hi : 16 * n / 16 = n := by omega
  have h0 : 16 * n % 16 = 0 := by omega
  have hh : ((s.modCore (1024 * c + n) fun k =>
      { k with brkhalt := bitOf v 29, sslot := BitVec.ofNat 4 v.toNat, step := k.step && bitOf v 30 }).core (1024 * c + n)).halt =
      (s.core (1024 * c + n)).halt := by
    rw [State.core_modCore, if_pos rfl]
  unfold clusterWrite
  simp only [hl, hi, h0, if_true]
  rw [hh, ite_push_not, ite_push, pushAll_pushAll]
theorem clusterWrite_fbwake (c : Nat) (v : Word) (s : State) :
    clusterWrite c 0x6010 v s = match fieldOf v 30 2 with
      | 0 => s.push (.fbwakeRetry c (16384 * c + fieldOf v 0 14))
      | 1 => s.push (.fbwakeKill c (16384 * c + fieldOf v 0 14) (BitVec.ofNat 8 (fieldOf v 22 8)))
      | _ => s.modCluster c fun k => { k with badwake := true } := rfl

/-- The top two bits of a word. -/
theorem top_bits (v : Word) : v.toNat / 2 ^ 30 % 2 ^ 2 = (bitOf v 30).toNat + 2 * (bitOf v 31).toNat := by
  have := v.isLt
  rw [bitOf_eq, bitOf_eq]
  by_cases h0 : v.toNat / 2 ^ 30 % 2 ^ 1 = 1
  · by_cases h1 : v.toNat / 2 ^ 31 % 2 ^ 1 = 1
    · simp only [h0, h1, decide_true, Bool.toNat_true]
      omega
    · simp only [h0, h1, decide_true, decide_false, Bool.toNat_true, Bool.toNat_false]
      omega
  · by_cases h1 : v.toNat / 2 ^ 31 % 2 ^ 1 = 1
    · simp only [h0, h1, decide_true, decide_false, Bool.toNat_true, Bool.toNat_false]
      omega
    · simp only [h0, h1, decide_false, Bool.toNat_false]
      omega

theorem top_bits_eq_three (v : Word) : v.toNat / 2 ^ 30 % 2 ^ 2 = 3 ↔ (bitOf v 30 && bitOf v 31) = true := by
  rw [top_bits]
  cases bitOf v 30 <;> cases bitOf v 31 <;> simp

/-- A store to the controller of the I3C block: GO wins over REL (R129). -/
theorem regionWrite_i3c (src d : Nat) (v : Word) (s : State) : regionWrite src d 0xA00000 v s =
    let u := s.modDie d fun D => { D with i3c := { D.i3c with ctl := v &&& 0x3FFFE00F } }
    if (s.die d).i3c.busy then u
    else if bitOf v 31 then u.push (.i3cGo d)
    else if bitOf v 30 then s.modDie d fun D => { D with i3c := { D.i3c with ctl := v &&& 0x3FFFE00F, rel := true, busy := true } }
    else u := rfl

theorem claim_registerWrites : Claim.RegisterWrites := by
  intro s d src v hd
  have page {off : Nat} {t : State} (ho : off < 0x4000000 ∧ off % 4 = 0) (h : regionWrite src d off v s = t) :=
    exec_die hd off v src s t ho h
  refine ⟨page (by decide) rfl, ?_, dieBecomes_of_mod (page (by decide) rfl) (by simp only [fieldOf_eq, bitOf_eq]), fun j hj => ⟨?_, ?_, ?_⟩,
    fun n hn => ⟨?_, ?_⟩, ?_, ?_, ?_, ?_, ?_, ?_, ?_, ?_, ?_, ?_, ?_, ?_, ?_, ?_, ?_⟩
  · show Host.Outcome.next (mgmtWrite src _ v s) = _
    rw [mgmtWrite, if_neg]
    simp only [Bool.and_eq_true, decide_eq_true_eq]
    omega
  · refine ctlBecomes_of_push (page (off := 0x100000 + 0x10000 * j + 0) (by omega)
      ((regionWrite_ctl src d v s hj (by omega)).trans (ctlRegWrite_mcmap _ v s))) ?_ ?_
    · simp only [fieldOf_eq, not_bitOf_eq]
    · simp only [bitOf_eq, decide_eq_true_eq]
  · exact ctlBecomes_of_mod (page (off := 0x100000 + 0x10000 * j + 0x10) (by omega) (regionWrite_ctl src d v s hj (by omega)))
      (by simp only [fieldOf_eq])
  · exact ctlBecomes_of_mod (page (off := 0x100000 + 0x10000 * j + 0x20) (by omega) (regionWrite_ctl src d v s hj (by omega)))
      (by simp only [not_bitOf_eq])
  · exact routerBecomes_of_mod (page (off := 0x210000 + 0x100 * n) (by omega) (regionWrite_rterr src d v s hn))
      (by simp only [not_bitOf_eq])
  · exact routerBecomes_of_mod (page (off := 0x210000 + 0x100 * n + 4) (by omega) (regionWrite_routecfg src d v s hn)) rfl
  · intro n hn
    have descriptor {w : Nat} {q : SQueue} (hw : w < 4) (hq : sqWrite (smGet {} (s.slice (256 * d + n / 8)).queues (n % 8)) w v = q) :=
      (smGet_queue src d v s hn hw q hq).imp fun t ht =>
        And.intro (page (off := 0x300000 + 16 * n + 4 * w) (by omega) ht.1) ht.2
    refine ⟨descriptor (w := 0) (by omega) ?_, descriptor (w := 1) (by omega) ?_, descriptor (w := 2) (by omega) ?_⟩
    · simp only [sqWrite, fieldOf_eq]
    · simp only [sqWrite, fieldOf_eq, bitOf_eq, decide_eq_true_eq]
      rw [putField_low _ 16 _ (Nat.mod_lt _ (by decide))]
      split <;> rfl
    · simp only [sqWrite, putField_high _ 16 26 _ rfl, fieldOf_eq]
  · exact dieBecomes_of_push (page (off := 0x400000) (by decide) (regionWrite_ethcfg src d v s))
      (by simp only [fieldOf_eq, bitOf_eq]) (by simp only [bitOf_eq, decide_eq_true_eq])
  · exact dieBecomes_of_mod (page (off := 0x500100) (by decide) rfl) (by simp only [fieldOf_eq, bitOf_eq])
  · exact page (off := 0x500104) (by decide) rfl
  · exact fun j hj => page (off := 0x500200 + 4 * j) (by omega) (regionWrite_clthr src d v s hj)
  · intro hl
    refine dieBecomes_of_mod (f := fun D => { D with log := { D.log with base := v } }) (page (off := 0x600000) (by decide) ?_) rfl
    exact if_neg (by simp [hl])
  · intro hl
    exact page (off := 0x600000) (by decide) (if_pos hl)
  · exact page (off := 0x600004) (by decide) rfl
  · exact dieBecomes_of_mod (page (off := 0x60000C) (by decide) rfl) rfl
  · exact page (off := 0x60005C) (by decide) rfl
  · exact dieBecomes_of_push (page (off := 0x700000) (by decide) (regionWrite_mailbox src d v s)) rfl
      (by simp only [bitOf_eq, decide_eq_true_eq])
  · intro j hj
    refine ⟨_, page (off := 0x700200 + 4 * j) (by omega) (regionWrite_mbout src d v s hj), ?_, fun a => ?_⟩
    · have := onlyDieAt_modDie s d (fun D => { D with host := { D.host with
        store := wrBytes D.host.store (apKey 255 (0x200 + 4 * j)) v.toNat 4 } }) []
      rw [pushAll_nil] at this
      rw [State.die_modDie, if_pos rfl]
      exact this
    · rw [State.die_modDie, if_pos rfl]
      refine (smGet_wrBytes ..).trans ?_
      split
      · show _ = BitVec.ofNat 8 (v.toNat / 2 ^ (8 * (a - apKey 255 (0x200 + 4 * j))) % 2 ^ 8)
        rw [Nat.pow_mul]
        apply BitVec.eq_of_toNat_eq
        simp
      · rfl
  · exact fun a ha w hw => page (off := 0x701000 + 16 * a + 4 * w) (by omega) (regionWrite_vibind src d v s ha hw)
  · have ht := top_bits v
    have hi3c := page (off := 0xA00000) (by decide) (regionWrite_i3c src d v s)
    refine ⟨fun hx => ?_, fun hb hx => ?_, fun hb hx => ?_, dieBecomes_of_mod (page (off := 0xA00004) (by decide) rfl) ?_⟩
    · refine dieBecomes_of_mod (f := fun D => { D with i3c := { D.i3c with ctl := v &&& 0x3FFFE00F } }) (hi3c.trans ?_) rfl
      rcases hx with hx | hx
      · simp only [hx, if_true]
      · rw [show v.toNat / 2 ^ 30 % 2 ^ 2 = 0 from hx] at ht
        obtain ⟨h30, h31⟩ : bitOf v 30 = false ∧ bitOf v 31 = false := by
          revert ht
          cases bitOf v 30 <;> cases bitOf v 31 <;> simp
        simp only [h30, h31, Bool.false_eq_true, if_false, ite_self]
    · refine dieBecomes_of_push (f := fun D => { D with i3c := { D.i3c with ctl := v &&& 0x3FFFE00F } }) (es := [.i3cGo d])
        (hi3c.trans ?_) rfl rfl
      have h31 : bitOf v 31 = true := (bitOf_eq v 31).trans (decide_eq_true hx)
      simp only [hb, h31, Bool.false_eq_true, if_false, if_true]
      rfl
    · refine dieBecomes_of_mod (f := fun D => { D with i3c := { D.i3c with ctl := v &&& 0x3FFFE00F, rel := true, busy := true } })
        (hi3c.trans ?_) rfl
      rw [show v.toNat / 2 ^ 30 % 2 ^ 2 = 1 from hx] at ht
      obtain ⟨h30, h31⟩ : bitOf v 30 = true ∧ bitOf v 31 = false := by
        revert ht
        cases bitOf v 30 <;> cases bitOf v 31 <;> simp
      simp only [hb, h30, h31, Bool.false_eq_true, if_false, if_true]
    · simp only [not_bitOf_eq]
  · intro j hj
    have at_ {y : Nat} (hy : y < 0x10000 ∧ y % 4 = 0) {t : State} (h : clusterWrite (4 * d + j) y v s = t) :=
      page (off := 0x900000 + 0x10000 * j + y) (by omega) ((regionWrite_cluster src d v s hj hy.1).trans h)
    have wake {n : Nat} (hv : v.toNat / 2 ^ 30 % 2 ^ 2 = n) : fieldOf v 30 2 = n := (fieldOf_eq v 30 2).trans hv
    refine ⟨fun n hn => ?_, at_ (by decide) rfl, fun hv => ?_, fun hv => ?_, fun hv => ?_, at_ (by decide) rfl,
      clusterBecomes_of_mod (f := fun k => { k with lsave := BitVec.ofNat 22 v.toNat }) (at_ (y := 0x8010) (by decide) rfl) rfl, ?_,
      fun hv => ?_, ?_⟩
    · refine coreBecomes_of_push (at_ (y := 16 * n) (by omega) (clusterWrite_core (4 * d + j) n hn v s)) ?_ ?_
      · have h4 : BitVec.ofNat 4 v.toNat = BitVec.ofNat 4 (v.toNat / 2 ^ 0 % 2 ^ 4) := by
          apply BitVec.eq_of_toNat_eq
          simp
        simp only [bitOf_eq, h4]
      · have h31 : v.toNat / 2 ^ 31 % 2 ^ 1 = 1 ↔ bitOf v 31 = true := by rw [bitOf_eq, decide_eq_true_eq]
        simp only [top_bits_eq_three, h31, Bool.decide_eq_true]
        congr 2
        split <;> rfl
    · refine at_ (y := 0x6010) (by decide) ((clusterWrite_fbwake ..).trans ?_)
      rw [wake hv, fieldOf_eq]
      rfl
    · refine at_ (y := 0x6010) (by decide) ((clusterWrite_fbwake ..).trans ?_)
      rw [wake hv, fieldOf_eq, fieldOf_eq]
      rfl
    · refine clusterBecomes_of_mod (f := fun k => { k with badwake := true }) (at_ (y := 0x6010) (by decide)
        ((clusterWrite_fbwake ..).trans ?_)) rfl
      have hf : 2 ≤ fieldOf v 30 2 := (fieldOf_eq v 30 2).symm ▸ hv
      split
      · omega
      · omega
      · rfl
    · exact clusterBecomes_of_push (f := fun k => { k with lbrecHi := BitVec.ofNat 16 v.toNat })
        (at_ (y := 0x8024) (by decide) rfl) rfl rfl
    · refine at_ (y := 0x8030) (by decide) ?_
      exact if_pos (by rw [bitOf_eq]; exact decide_eq_true hv)
    · exact clusterBecomes_of_mod (f := fun k => { k with stall := k.stall && !bitOf v 31 }) (at_ (y := 0x8104) (by decide) rfl)
        (by simp only [not_bitOf_eq])

end Sys2Proof.Machine
end

section
/-! PROOFS. Throttle, power alert and temperatures (R13, R15, R16, R20, R121 to R124). -/

namespace Sys2Proof.Machine

theorem fieldOf_zero {w : Nat} (v : BitVec w) (n : Nat) : fieldOf v 0 n = v.toNat % 2 ^ n := by
  rw [fieldOf_eq, Nat.pow_zero, Nat.div_one]

/-! ### Throttle values (R13, R123) -/

/-- Cluster `c` with the throttle value `v` stored, to be applied from `wait` work cycles on while PWRALERTN is high. -/
def throttled (s : State) (c : Nat) (v : Word) (wait : Nat) : Cluster :=
  let x := s.cluster c
  let now := x.cycle.toNat
  let k := BitVec.ofNat 4 (Nat.min 8 (v.toNat % 16))
  { x with
    k := k
    applies := if s.sr.pwralertn then x.applies.filter (fun a => a.1 < now + wait) ++ [(now + wait, k)] else x.applies }

theorem onlyClusterAt_throttled (s : State) (c : Nat) (v : Word) (wait : Nat) :
    let u := s.modCluster c fun x => { x with k := BitVec.ofNat 4 (Nat.min 8 (fieldOf v 0 4)) }
    OnlyClusterAt s (if u.sr.pwralertn then applyAfter c wait (·.k) u else u) c (throttled s c v wait) [] := by
  intro u
  have hu := onlyClusterAt_modCluster s c (fun x => { x with k := BitVec.ofNat 4 (Nat.min 8 (fieldOf v 0 4)) }) []
  rw [pushAll_nil] at hu
  have hk : u.sr.pwralertn = s.sr.pwralertn := rfl
  unfold throttled
  rw [hk, show v.toNat % 16 = fieldOf v 0 4 from (fieldOf_zero v 4).symm]
  cases s.sr.pwralertn
  case false => exact hu
  case true =>
    have ha := onlyClusterAt_modCluster u c (fun x =>
      { x with applies := (x.applies.filter fun a => decide (a.1 < x.cycle.toNat + wait)) ++ [(x.cycle.toNat + wait, x.k)] }) []
    rw [pushAll_nil, show u.cluster c = _ from hu.it] at ha
    exact hu.trans ha

/-- The values whose rotation has begun leave; the youngest of them is applied. -/
def rotated (x : Cluster) : Cluster :=
  let due := fun (a : Nat × BitVec 4) => decide (a.1 ≤ x.cycle.toNat)
  { x with applied := (((x.applies.filter due).getLast?).map (·.2)).getD x.applied, applies := x.applies.filter fun a => !due a }

theorem rotated_of_none {x : Cluster} (h : ∀ a ∈ x.applies, x.cycle.toNat < a.1) : rotated x = x := by
  have h1 : x.applies.filter (fun a => decide (a.1 ≤ x.cycle.toNat)) = [] := by
    rw [List.filter_eq_nil_iff]
    intro a ha
    simpa using h a ha
  have h2 : (x.applies.filter fun a => !decide (a.1 ≤ x.cycle.toNat)) = x.applies := by
    rw [List.filter_eq_self]
    intro a ha
    simpa using h a ha
  simp only [rotated, h1, h2]
  rfl

theorem rotated_of_due {x : Cluster} {older newer : List (Nat × BitVec 4)} {a : Nat × BitVec 4} (h : x.applies = older ++ a :: newer)
    (ha : a.1 ≤ x.cycle.toNat) (hn : ∀ b ∈ newer, x.cycle.toNat < b.1) :
    rotated x = { x with applied := a.2, applies := x.applies.filter fun b => x.cycle.toNat < b.1 } := by
  have h1 : newer.filter (fun a => decide (a.1 ≤ x.cycle.toNat)) = [] := by
    rw [List.filter_eq_nil_iff]
    intro b hb
    simpa using hn b hb
  have h2 : (x.applies.filter fun a => decide (a.1 ≤ x.cycle.toNat)).getLast? = some a := by
    rw [h, List.filter_append, List.filter_cons_of_pos (by simpa using ha), h1]
    simp
  simp only [rotated, h2]
  congr 1
  exact List.filter_congr fun b _ => by rw [← decide_not, decide_eq_decide, Nat.not_le]

theorem claim_throttle (s : State) (c : Nat) (v w : Word) :
    ClusterBecomes s (.clthrWrite c (some v) (some w)) c (throttled s c v 32) [] ∧
    ClusterBecomes s (.clthrWrite c none (some w)) c (throttled s c w 39) [] ∧
    ((∀ a ∈ (s.cluster c).applies, (s.cluster c).cycle.toNat < a.1) → ClusterBecomes s (.throttleApply c) c (s.cluster c) []) ∧
    ∀ older a newer, (s.cluster c).applies = older ++ a :: newer → a.1 ≤ (s.cluster c).cycle.toNat →
      (∀ b ∈ newer, (s.cluster c).cycle.toNat < b.1) →
      ClusterBecomes s (.throttleApply c) c { s.cluster c with
        applied := a.2, applies := (s.cluster c).applies.filter fun b => (s.cluster c).cycle.toNat < b.1 } [] := by
  have apply_ {x : Cluster} (hx : rotated (s.cluster c) = x) : ClusterBecomes s (.throttleApply c) c x [] :=
    clusterBecomes_of_mod (f := rotated) rfl hx
  exact ⟨⟨_, rfl, onlyClusterAt_throttled s c v 32⟩, ⟨_, rfl, onlyClusterAt_throttled s c w 39⟩, fun h => apply_ (rotated_of_none h),
    fun older a newer h ha hn => apply_ (rotated_of_due h ha hn)⟩

/-! ### Power alert (R13, R20) -/

/-- A change of each of the first `n` clusters. -/
theorem foldl_modCluster (f : Cluster → Cluster) (s : State) (n : Nat) :
    let t := (List.range n).foldl (fun a c => a.modCluster c f) s
    (∀ c, t.cluster c = if c < n then f (s.cluster c) else s.cluster c) ∧ { t with clusters := s.clusters } = s := by
  induction n with
  | zero => exact ⟨fun c => (if_neg (Nat.not_lt_zero c)).symm, rfl⟩
  | succ n ih =>
    obtain ⟨hc, hr⟩ := ih
    simp only [List.range_succ, List.foldl_append, List.foldl_cons, List.foldl_nil]
    refine ⟨fun c => ?_, hr⟩
    rw [State.cluster_modCluster]
    by_cases h : n = c
    · subst h
      simp [hc]
    · have hlt : c < n + 1 ↔ c < n := by omega
      rw [if_neg h, hc]
      simp only [hlt]

theorem execPwralertnEdge_eq (s : State) (level : Bool) (cause : BitVec 3) (cool : Word)
    (hc : (if level = false ∧ Config.module = true then s.sr.kzmcool ||| cause.setWidth 32 <<< 29 else s.sr.kzmcool) = cool) :
    exec (.pwralertnEdge level cause) s = .next (
      let u := { s with sr := { s.sr with kzmcool := cool } }
      if s.sr.pwralertn = level || (level && Config.module && fieldOf cool 29 3 ≠ 0) then u
      else (List.range 4).foldl (fun s d => logRecord d 0x21 0xC1 (cornerPos d) 0 (!level).toNat s)
        ((List.range 16).foldl (fun s c => applyAfter c 32 (fun x => if level then x.k else 8) s)
          { u with sr := { u.sr with pwralertn := level } })) := by
  subst hc
  show execPwralertnEdge level s cause = _
  unfold execPwralertnEdge
  cases level
  case false => cases Config.module <;> rfl
  case true => rfl

theorem claim_pwralert (s : State) (level : Bool) (cause : BitVec 3) :
    let cool : Word := if level = false ∧ Config.module = true then s.sr.kzmcool ||| cause.setWidth 32 <<< 29 else s.sr.kzmcool
    let held := level = true ∧ Config.module = true ∧ s.sr.kzmcool.toNat / 2 ^ 29 ≠ 0
    (s.sr.pwralertn = level ∨ held →
      exec (.pwralertnEdge level cause) s = .next { s with sr := { s.sr with kzmcool := cool } }) ∧
    (s.sr.pwralertn ≠ level → ¬ held → ∃ u,
      (∀ c, let x := s.cluster c
        let now := x.cycle.toNat
        u.cluster c = if c < 16 then
          { x with applies := x.applies.filter (fun a => a.1 < now + 32) ++ [(now + 32, if level then x.k else 8)] } else x) ∧
      { u with clusters := s.clusters } = { s with sr := { s.sr with kzmcool := cool, pwralertn := level } } ∧
      exec (.pwralertnEdge level cause) s = .next ((List.range 4).foldl
        (fun a d => logRecord d 0x21 0xC1 (cornerPos d) 0 (if level then 0 else 1) a) u)) := by
  intro cool held
  have hexec := execPwralertnEdge_eq s level cause cool rfl
  have hheld : (level && Config.module && decide (fieldOf cool 29 3 ≠ 0)) = true ↔ held := by
    have hlt := s.sr.kzmcool.isLt
    have hfield : fieldOf s.sr.kzmcool 29 3 = s.sr.kzmcool.toNat / 2 ^ 29 := by
      rw [fieldOf_eq]
      omega
    cases level
    case false => simp [held]
    case true => simp [held, cool, hfield]
  have hbit : (!level).toNat = if level then 0 else 1 := by cases level <;> rfl
  refine ⟨fun h => ?_, fun hne hn => ?_⟩
  · rw [hexec, if_pos]
    rcases h with h | h
    · simp [h]
    · rw [hheld.2 h, Bool.or_true]
  · rw [if_neg (by rw [Bool.or_eq_true, hheld, decide_eq_true_eq]; exact not_or.2 ⟨hne, hn⟩), hbit] at hexec
    obtain ⟨hcl, hr⟩ := foldl_modCluster (fun x : Cluster =>
      { x with applies := x.applies.filter (fun a => decide (a.1 < x.cycle.toNat + 32)) ++ [(x.cycle.toNat + 32, if level then x.k else 8)] })
      { s with sr := { s.sr with kzmcool := cool, pwralertn := level } } 16
    exact ⟨_, hcl, hr, hexec⟩

/-! ### Temperatures (R16, R122, R124) -/

/-- The bridges of a die that has stopped, by their ends at the neighbours. -/
def lostBridges (d : Nat) : List Instr :=
  (List.range 256).flatMap fun i => (List.range 4).filterMap fun p =>
    match neighbour (256 * d + i) p with
    | some n => if dieOfRouter n ≠ d then some (Instr.linkLost n (oppPort p)) else none
    | none => none

theorem mem_lostBridges (d : Nat) (e : Instr) :
    e ∈ lostBridges d ↔ ∃ r p n, r / 256 = d ∧ p < 4 ∧ neighbour r p = some n ∧ dieOfRouter n ≠ d ∧ e = .linkLost n (oppPort p) := by
  have hone (r p : Nat) : (match neighbour r p with
      | some n => if dieOfRouter n ≠ d then some (Instr.linkLost n (oppPort p)) else none
      | none => none) = some e ↔ ∃ n, neighbour r p = some n ∧ dieOfRouter n ≠ d ∧ e = .linkLost n (oppPort p) := by
    cases neighbour r p with
    | none => simp
    | some n => simp [eq_comm]
  unfold lostBridges
  simp only [List.mem_flatMap, List.mem_filterMap, List.mem_range, hone]
  constructor
  · rintro ⟨i, hi, p, hp, n, h⟩
    exact ⟨256 * d + i, p, n, by omega, hp, h⟩
  · rintro ⟨r, p, n, hr, hp, h⟩
    refine ⟨r % 256, by omega, p, hp, n, ?_⟩
    rw [show 256 * d + r % 256 = r by omega]
    exact h

theorem claim_dieThermalTrip (s : State) (d : Nat) : ∃ t, ∃ lost : List Instr, exec (.dieThermalTrip d) s = .next t ∧
    t.die d = { s.die d with stopped := true, trip := true } ∧ (∀ k, k ≠ d → t.die k = s.die k) ∧ t.due = s.due ++ lost ∧
    (∀ e, e ∈ lost ↔ ∃ r p n, r / 256 = d ∧ p < 4 ∧ neighbour r p = some n ∧ dieOfRouter n ≠ d ∧ e = .linkLost n (oppPort p)) ∧
    { t with dies := s.dies, due := s.due } = { s with sr := { s.sr with thermtrip := true } } := by
  have h := onlyDieAt_modDie s d (fun D => { D with stopped := true, trip := true }) []
  rw [pushAll_nil] at h
  exact ⟨_, lostBridges d, rfl, h.it, h.others, rfl, mem_lostBridges d, rfl⟩

/-- The first of the highest of `n` readings, with its place. -/
def hottest (temp : Nat → BitVec 16) (n : Nat) : BitVec 16 × Nat :=
  (List.range n).foldl (fun a i => if a.1.toInt < (temp i).toInt then (temp i, i) else a) (temp 0, 0)

theorem hottest_spec (temp : Nat → BitVec 16) (n : Nat) :
    (hottest temp n).2 < max 1 n ∧ (hottest temp n).1 = temp (hottest temp n).2 ∧
    ∀ i < n, (temp i).toInt ≤ (hottest temp n).1.toInt ∧ (i < (hottest temp n).2 → (temp i).toInt < (hottest temp n).1.toInt) := by
  induction n with
  | zero => exact ⟨Nat.zero_lt_one, rfl, fun i hi => absurd hi (Nat.not_lt_zero i)⟩
  | succ n ih =>
    obtain ⟨hlt, heq, hall⟩ := ih
    have hstep : hottest temp (n + 1) = if (hottest temp n).1.toInt < (temp n).toInt then (temp n, n) else hottest temp n := by
      rw [hottest, List.range_succ, List.foldl_append]
      rfl
    rw [hstep]
    split
    next h =>
      refine ⟨by simp, rfl, fun i hi => ?_⟩
      rcases Nat.lt_succ_iff_lt_or_eq.1 hi with hi | rfl
      · have := (hall i hi).1
        exact ⟨by simp only; omega, fun _ => by simp only; omega⟩
      · exact ⟨le_refl _, fun h => absurd h (Nat.lt_irrefl _)⟩
    next h =>
      refine ⟨by omega, heq, fun i hi => ?_⟩
      rcases Nat.lt_succ_iff_lt_or_eq.1 hi with hi | rfl
      · exact hall i hi
      · exact ⟨by omega, fun h => by omega⟩

theorem smGet_foldl_range {β : Type} [DecidableEq β] (z : β) (f : Nat → β) (n i : Nat) :
    smGet z ((List.range n).foldl (fun m k => smSet z m k (f k)) []) i = if i < n then f i else z := by
  induction n with
  | zero => rfl
  | succ n ih =>
    simp only [List.range_succ, List.foldl_append, List.foldl_cons, List.foldl_nil]
    rw [smGet_smSet, ih]
    by_cases h : n = i
    · subst h
      simp
    · have hlt : i < n + 1 ↔ i < n := by omega
      simp only [hlt, h, if_false]

theorem foldl_zipIdx {β : Type} (f : β → BitVec 16 × Nat → β) (g : Nat → BitVec 16) (n : Nat) (b : β) :
    ((List.range n).map g).zipIdx.foldl f b = (List.range n).foldl (fun a i => f a (g i, i)) b := by
  have h : ((List.range n).map g).zipIdx = (List.range n).map fun i => (g i, i) := by
    apply List.ext_getElem <;> simp
  rw [h, List.foldl_map]

theorem dieMessage_eq (d ep : Nat) (typ : Byte) (words : List Word) (s : State) :
    dieMessage d ep typ words s = s.pushAll (noticeOf d ep typ words) := by
  unfold dieMessage deviceMessage noticeOf
  split
  · rw [pushAll_nil]
  · rfl

theorem ite_pushAll (c : Prop) [Decidable c] (u : State) (es : List Instr) :
    (if c then u.pushAll es else u) = u.pushAll (if c then es else []) := by
  split
  · rfl
  · rw [pushAll_nil]

/-- What a sample makes of the thermal block: the readings, the highest with its place, and the bits that it raises. -/
def sampled (T : Thermal) (sens : SMap (BitVec 16)) (best : BitVec 16 × Nat) : Thermal :=
  let t : Thermal := { T with sens := sens, valid := true, maxidx := BitVec.ofNat 6 best.2, maxtemp := best.1 }
  { t with hot := T.hot || (T.en && hotNow t), cool := T.cool || (T.en && coolNow t) }

theorem sampled_eq (T : Thermal) (sens : SMap (BitVec 16)) (best : BitVec 16 × Nat) :
    let t : Thermal := { T with sens := sens, valid := true, maxidx := BitVec.ofNat 6 best.2, maxtemp := best.1 }
    (if t.en then { t with hot := t.hot || hotNow t, cool := t.cool || coolNow t } else t) = sampled T sens best := by
  unfold sampled
  cases T.en <;> simp

/-- What the events of a sample do when the thermal block becomes `U` and the highest reading is `top`. -/
def afterSample (s : State) (d : Nat) (top : BitVec 16) (U : Thermal) : State :=
  let t := s.modDie d fun D => { D with therm := U }
  let t := if (U.hot && !(s.die d).therm.hot) || (U.cool && !(s.die d).therm.cool) then dieMessage d 0xC1 U.msgtype [talstat U] t else t
  if 920 ≤ top.toInt then t.push (.dieThermalTrip d) else t

theorem exec_thermalSample (s : State) (d : Nat) (temps : List (BitVec 16)) :
    let temp := fun i : Nat => temps.getD i 0
    exec (.thermalSample d temps) s = .next (afterSample s d (hottest temp 64).1
      (sampled (s.die d).therm ((List.range 64).foldl (fun m i => smSet 0 m i (temp i)) []) (hottest temp 64))) := by
  intro temp
  have hb : ((List.range 64).map temp).zipIdx.foldl
      (fun (a : BitVec 16 × Nat) x => if a.1.toInt < x.1.toInt then x else a) (((List.range 64).map temp).headD 0, 0) = hottest temp 64 :=
    foldl_zipIdx _ temp 64 _
  have hs : ((List.range 64).map temp).zipIdx.foldl (fun m x => smSet 0 m x.2 x.1) [] =
      (List.range 64).foldl (fun m i => smSet 0 m i (temp i)) [] := foldl_zipIdx (fun m x => smSet 0 m x.2 x.1) temp 64 []
  rw [← sampled_eq, ← hb, ← hs]
  rfl

theorem afterSample_eq (s : State) (d : Nat) (sens : SMap (BitVec 16)) (best : BitVec 16 × Nat) :
    let T := (s.die d).therm
    let U := sampled T sens best
    afterSample s d best.1 U = (s.modDie d fun D => { D with therm := U }).pushAll
      ((if U.hot ≠ T.hot ∨ U.cool ≠ T.cool then noticeOf d 0xC1 T.msgtype [talstat U] else []) ++
        if 8 * 115 ≤ U.maxtemp.toInt then [.dieThermalTrip d] else []) := by
  intro T U
  have hnew (old now : Bool) : ((old || now) && !old) = true ↔ (old || now) ≠ old := by cases old <;> cases now <;> simp
  have hor : ((U.hot && !(s.die d).therm.hot) || (U.cool && !(s.die d).therm.cool)) = true ↔ U.hot ≠ T.hot ∨ U.cool ≠ T.cool := by
    rw [Bool.or_eq_true]
    exact or_congr (hnew ..) (hnew ..)
  have hmsg : U.msgtype = T.msgtype := rfl
  unfold afterSample
  simp only [hor, hmsg, dieMessage_eq]
  rw [← pushAll_pushAll, ← ite_push, ite_pushAll]
  rfl

theorem claim_thermalSample (s : State) (d : Nat) (temps : List (BitVec 16)) :
    let T := (s.die d).therm
    let temp := fun i : Nat => temps.getD i 0
    ∃ t hot cool, exec (.thermalSample d temps) s = .next t ∧
      let U := (t.die d).therm
      (∀ i, smGet 0 U.sens i = if i < 64 then temp i else 0) ∧ U.maxtemp = temp U.maxidx.toNat ∧
      (∀ i < 64, (temp i).toInt ≤ U.maxtemp.toInt ∧ (i < U.maxidx.toNat → (temp i).toInt < U.maxtemp.toInt)) ∧
      let low : Int := if T.high ≤ T.low then (T.high.toNat : Int) - 1 else T.low.toNat
      hot = (T.hot || (T.en && decide ((8 * T.high.toNat : Int) ≤ U.maxtemp.toInt))) ∧
      cool = (T.cool || (T.en && decide (U.maxtemp.toInt < 8 * low))) ∧
      OnlyDieAt s t d
        { s.die d with therm := { T with
          sens := U.sens, valid := true, maxidx := U.maxidx, maxtemp := U.maxtemp, hot := hot, cool := cool } }
        ((if hot ≠ T.hot ∨ cool ≠ T.cool then noticeOf d 0xC1 T.msgtype [BitVec.ofNat 32
            (hot.toNat * 2 ^ 31 + cool.toNat * 2 ^ 30 + U.maxidx.toNat * 2 ^ 16 + U.maxtemp.toNat)] else []) ++
          if 8 * 115 ≤ U.maxtemp.toInt then [.dieThermalTrip d] else []) := by
  intro T temp
  obtain ⟨hlt, heq, hall⟩ := hottest_spec temp 64
  have hidx : (BitVec.ofNat 6 (hottest temp 64).2).toNat = (hottest temp 64).2 := by
    rw [BitVec.toNat_ofNat]
    omega
  have hbe := onlyDieAt_modDie s d
    (fun D => { D with therm := sampled T ((List.range 64).foldl (fun m i => smSet 0 m i (temp i)) []) (hottest temp 64) })
  let U := sampled T ((List.range 64).foldl (fun m i => smSet 0 m i (temp i)) []) (hottest temp 64)
  refine ⟨_, U.hot, U.cool, (exec_thermalSample s d temps).trans (congrArg _ (afterSample_eq ..)), ?_⟩
  rw [(hbe _).it]
  exact ⟨smGet_foldl_range 0 temp 64, heq.trans (congrArg temp hidx.symm), fun i hi => hidx.symm ▸ hall i hi, rfl, rfl, hbe _⟩

theorem claim_thermal :
  (∀ (s : State) (d : Nat) (v : Word),
    let T := (s.die d).therm
    let low : Int := if T.high ≤ T.low then (T.high.toNat : Int) - 1 else T.low.toNat
    let stillHot := T.valid = true ∧ (8 * T.high.toNat : Int) ≤ T.maxtemp.toInt
    let stillCool := T.valid = true ∧ T.maxtemp.toInt < 8 * low
    DieBecomes s (.talstatClear d v) d
      { s.die d with therm := { T with
        hot := T.hot && !(bitOf v 31 && decide ¬ stillHot), cool := T.cool && !(bitOf v 30 && decide ¬ stillCool) } } []) ∧
  ∀ (s : State) (d i : Nat) (temp : Byte), i < 2 →
    CtlBecomes s (.stackTempUpdate d i temp) (2 * d + i) { s.ctl (2 * d + i) with stkTemp := temp, stkHot := decide (85 < temp.toNat) } [] := by
  refine ⟨fun s d v => ?_, fun s d i temp hi => ctlBecomes_of_mod (f := fun c => { c with stkTemp := temp, stkHot := decide (85 < temp.toNat) }) ?_ rfl⟩
  · intro T low stillHot stillCool
    have hhot : (decide ¬ stillHot) = !(T.valid && hotNow T) := Bool.eq_iff_iff.2 (by simp [stillHot, hotNow])
    have hcool : (decide ¬ stillCool) = !(T.valid && coolNow T) := Bool.eq_iff_iff.2 (by simp [stillCool, coolNow, low])
    refine dieBecomes_of_mod rfl ?_
    rw [hhot, hcool]
  · have h2 : i % 2 = i := Nat.mod_eq_of_lt hi
    show Host.Outcome.next (s.modCtl (2 * d + i % 2) _) = _
    rw [h2]

theorem claim_throttleAndThermal : Claim.ThrottleAndThermal :=
  ⟨claim_throttle, claim_pwralert, claim_dieThermalTrip, claim_thermalSample, claim_thermal⟩

end Sys2Proof.Machine
end

section
/-! PROOFS. The log unit and its ring in main memory (R125 to R127). -/

namespace Sys2Proof.Machine

/-! ### A write into a line that its slice holds (R70) -/

/-- The resident line `e` after a write of `n` bytes at `pa`. -/
def lineWritten (e : SliceLine) (pa n v stamp : Nat) : SliceLine :=
  { e with used := stamp, data := putField e.data (8 * (pa % 64)) (8 * n) v, dirty := true }

theorem homeWrite_resident {s : State} {sl pa : Nat} (n v : Nat) (h : (sliceLine s sl (pa / 64)).valid = true) :
    ∃ t, homeWrite sl pa n v s = .ok () t ∧
      (∀ sl' line, sliceLine t sl' line = if sl' = sl ∧ line = pa / 64 then
        lineWritten (sliceLine s sl (pa / 64)) pa n v ((s.slice sl).stamp + 1) else sliceLine s sl' line) ∧
      { t with slices := s.slices } = s := by
  have hensure : sliceEnsure sl (pa / 64) s = .ok () (s.modSlice sl fun c => { c with
      stamp := c.stamp + 1
      lines := smSet {} c.lines (pa / 64) { sliceLine s sl (pa / 64) with used := c.stamp + 1 } }) := if_pos h
  have hwrite : homeWrite sl pa n v s = .ok () (sliceMod sl (pa / 64)
      (fun e => { e with data := putField e.data (8 * (pa % 64)) (8 * n) v, dirty := true }) (s.modSlice sl fun c => { c with
        stamp := c.stamp + 1
        lines := smSet {} c.lines (pa / 64) { sliceLine s sl (pa / 64) with used := c.stamp + 1 } })) := by
    simp only [homeWrite, h, hensure, Bool.not_true, Bool.and_false, Bool.false_and, Bool.false_eq_true, if_false]
  refine ⟨_, hwrite, fun sl' line => ?_, rfl⟩
  unfold sliceMod
  rw [sliceLine, State.slice_modSlice]
  by_cases hsl : sl = sl'
  · subst hsl
    rw [if_pos rfl, State.slice_modSlice, if_pos rfl, smGet_smMod]
    by_cases hl : pa / 64 = line
    · subst hl
      rw [if_pos rfl, if_pos ⟨rfl, rfl⟩, smGet_smSet, if_pos rfl]
      rfl
    · rw [if_neg hl, smGet_smSet, if_neg hl, if_neg fun hx => hl hx.2.symm]
      rfl
  · rw [if_neg hsl, State.slice_modSlice, if_neg hsl, if_neg fun hx => hsl hx.1.symm]
    rfl

theorem lineWrote_of_homeWrite {s t : State} {sl pa n v : Nat} (h : (sliceLine s sl (pa / 64)).valid = true)
    (hn : pa % 64 + n ≤ 64) (ht : homeWrite sl pa n v s = .ok () t) :
    LineWrote s t sl pa n (v % 2 ^ (8 * n)) (sliceLine s sl (pa / 64)).full ∧ { t with slices := s.slices } = s := by
  obtain ⟨u, hu, hlines, hrest⟩ := homeWrite_resident n v h
  obtain rfl : u = t := by
    rw [hu] at ht
    injection ht
  have hit : sliceLine u sl (pa / 64) = lineWritten (sliceLine s sl (pa / 64)) pa n v ((s.slice sl).stamp + 1) := by
    rw [hlines, if_pos ⟨rfl, rfl⟩]
  refine ⟨?_, hrest⟩
  constructor
  case valid => rw [hit]; exact h
  case field =>
    rw [hit]
    exact fieldOf_putField _ _ _ _ (by omega)
  case full => rw [hit]; rfl
  case bits =>
    intro b _ hb
    rw [hit]
    refine (getLsbD_putField ..).trans (if_neg ?_)
    omega
  case others =>
    intro sl' line hne
    rw [hlines, if_neg hne]

/-! ### A route that takes no detour -/

theorem overRoute_straight {α : Type} {s : State} {src ep dst opcode pa : Nat} {bulk : Bool} {x : HM α}
    (h : src = dst ∨ (routeOf s src dst bulk = .there [] ∧ routeOf s dst src = .there [])) :
    overRoute src ep dst opcode pa bulk x s = x s := by
  unfold overRoute
  by_cases hd : src = dst
  · rw [if_pos hd]
  · obtain ⟨h1, h2⟩ := h.resolve_left hd
    rw [if_neg hd, h1, h2]
    rfl

theorem placeWrite_home {s : State} {rq : Rq} {sl pa n v : Nat}
    (h : rq.router = sl ∨ (routeOf s rq.router sl rq.bulk = .there [] ∧ routeOf s sl rq.router = .there [])) :
    placeWrite rq (.home sl pa) n v s = homeWrite sl pa n v s := overRoute_straight h

/-! ### The ring -/

theorem logDrop_onlyDieAt (d : Nat) (s : State) :
    OnlyDieAt s (logDrop d s) d { s.die d with log := { (s.die d).log with drop := bump (s.die d).log.drop 1, dropped := true } } [] := by
  have h := onlyDieAt_modDie s d (fun e => { e with log := { e.log with
    drop := if e.log.drop = 0xFFFFFFFF then e.log.drop else e.log.drop + 1, dropped := true } }) []
  rw [pushAll_nil] at h
  have hb (x : Word) : (if x = 0xFFFFFFFF then x else x + 1) = bump x 1 := by
    apply BitVec.eq_of_toNat_eq
    have := x.isLt
    split
    next hx =>
      subst hx
      rfl
    next hx =>
      have hne : x.toNat ≠ 0xFFFFFFFF := fun hn => hx (BitVec.eq_of_toNat_eq hn)
      have hmin : Nat.min (x.toNat + 1) 0xFFFFFFFF = x.toNat + 1 := Nat.min_eq_left (by omega)
      rw [bump, word, hmin, BitVec.toNat_ofNat, BitVec.toNat_add]
      rfl
  rw [← hb]
  exact h

/-- Where the next record of a die's log goes (R125). -/
def ringAddr (l : ErrLog) : Nat :=
  l.base.toNat * 4096 + l.basehi.toNat * 2 ^ 44 + 32 * (l.head.toNat % 2 ^ l.log2n.toNat)

section
variable {d : Nat} {r : Nat × Nat} {s : State}

/-- The ring has no room for a record, or is outside the memory of its partition (log entry 13). -/
def RingShut (s : State) (d : Nat) : Prop :=
  ((s.die d).log.head - (s.die d).log.tail).toNat = 2 ^ (s.die d).log.log2n.toNat ∨
    ¬ (ringAddr (s.die d).log < 2 ^ 39 ∧ s.partOf (ringAddr (s.die d).log / 2 ^ 37) = s.partOf d)

theorem ringShut_iff : (decide (((s.die d).log.head - (s.die d).log.tail).toNat = 2 ^ (s.die d).log.log2n.toNat) ||
    decide (2 ^ 39 ≤ ringAddr (s.die d).log) || decide (s.partOf (ringAddr (s.die d).log / 2 ^ 36 / 2) ≠ s.partOf d)) = true ↔
    RingShut s d := by
  rw [Nat.div_div_eq_div_mul]
  simp only [Bool.or_eq_true, decide_eq_true_eq, RingShut, not_and_or, Nat.not_lt, or_assoc]
  rfl

theorem logPut_off (h : (s.die d).log.en = false) : logPut d r s = some s :=
  if_pos (congrArg (!·) h)

theorem logPut_shut (hen : (s.die d).log.en = true) (h : RingShut s d) : logPut d r s = some (logDrop d s) :=
  (if_neg (by simp [hen])).trans (if_pos (ringShut_iff.2 h))

/-- The head advances past a record that has been written (R125, R126). -/
def headAdvanced (l : ErrLog) (e : Die) : Die :=
  { e with log := { e.log with
    head := l.head + 1, dropped := false
    wrap := if l.head.toNat % 2 ^ l.log2n.toNat + 1 = 2 ^ l.log2n.toNat then !l.wrap else l.wrap } }

theorem logPut_written {sl : Nat} {t : State} (hen : (s.die d).log.en = true) (h : ¬ RingShut s d)
    (hhome : hashHome (s.part (s.partOf d)).place 63 (ringAddr (s.die d).log) = some sl)
    (hw : placeWrite (rqUnit (cornerRouter d) 0xC1 false s) (.home sl (ringAddr (s.die d).log)) 32
      ((if (s.die d).log.wrap then 0 else 2 ^ 31) + (if (s.die d).log.dropped then 2 ^ 30 else 0) + r.1 + r.2 % 2 ^ 224 * 2 ^ 32) s = .ok () t) :
    logPut d r s = some ((t.modDie d (headAdvanced (s.die d).log)).pushAll
      (if (s.die d).log.head = (s.die d).log.tail then noticeOf d 0xC1 (s.die d).log.msgtype [] else [])) := by
  refine (if_neg (by simp [hen])).trans ((if_neg (mt ringShut_iff.1 h)).trans ?_)
  simp only [ringAddr] at hhome hw
  simp only [hhome, hw]
  rw [dieMessage_eq, ite_pushAll]
  rfl

end

theorem claim_logRing : Claim.LogRing := by
  intro s d w0 rest D l size ix pa full ours
  refine ⟨fun hen => logPut_off hen, fun hen hdrop => ⟨_, logPut_shut hen hdrop, logDrop_onlyDieAt d s⟩,
    fun sl hen hfull hours hhome hvalid hroute => ?_⟩
  have hopen : ¬ RingShut s d := not_or.2 ⟨hfull, not_not.2 hours⟩
  obtain ⟨t, ht, -⟩ := homeWrite_resident 32 ((if l.wrap then 0 else 2 ^ 31) + (if l.dropped then 2 ^ 30 else 0) + w0 + rest % 2 ^ 224 * 2 ^ 32) hvalid
  have hput := logPut_written (r := (w0, rest)) hen hopen hhome ((placeWrite_home hroute).trans ht)
  obtain ⟨hline, hrest⟩ := lineWrote_of_homeWrite hvalid (by omega) ht
  have hdie (k : Nat) : t.die k = s.die k := by
    have := congrArg (fun v : State => v.die k) hrest
    exact this
  have hdue : t.due = s.due := by
    have := congrArg State.due hrest
    exact this
  have hv : ((if l.wrap then 0 else 2 ^ 31) + (if l.dropped then 2 ^ 30 else 0) + w0 + rest % 2 ^ 224 * 2 ^ 32) % 2 ^ (8 * 32) =
      (w0 + (if l.dropped then 2 ^ 30 else 0) + (if l.wrap then 0 else 2 ^ 31) + rest % 2 ^ 224 * 2 ^ 32) % 2 ^ 256 := by
    congr 2
    omega
  have hbe := onlyDieAt_modDie t d (headAdvanced l) (if l.head = l.tail then noticeOf d 0xC1 l.msgtype [] else [])
  refine ⟨_, hput, ?_, ?_, fun k hk => ?_, ?_, ?_⟩
  · rw [hv] at hline
    exact ⟨hline.valid, hline.field, hline.full, hline.bits, hline.others⟩
  · exact hbe.it.trans (congrArg (headAdvanced l) (hdie d))
  · exact (hbe.others k hk).trans (hdie k)
  · exact hbe.due.trans (congrArg (· ++ _) hdue)
  · exact congrArg (fun v : State => { v with dies := s.dies, due := s.due }) hrest

end Sys2Proof.Machine
end

section
/-! PROOFS. The error log's registers, the I3C blocks and the requests to reset a partition (R17, R20, R125 to R129). -/

namespace Sys2Proof.Machine

/-! ### The error log's registers (R125, R126) -/

theorem ofNat_fieldOf {w : Nat} (v : BitVec w) (lo n : Nat) : BitVec.ofNat n (fieldOf v lo n) = BitVec.ofNat n (v.toNat / 2 ^ lo) := by
  apply BitVec.eq_of_toNat_eq
  rw [fieldOf_eq, BitVec.toNat_ofNat, BitVec.toNat_ofNat, Nat.mod_mod]

theorem claim_elctl (s : State) (d : Nat) (v : Word) :
    let D := s.die d
    let l := D.log
    (l.en = true → DieBecomes s (.elctlWrite d v) d { D with log := { l with en := bitOf v 31 } } []) ∧
    (l.en = false → DieBecomes s (.elctlWrite d v) d
      { D with log := { l with
        en := bitOf v 31, basehi := BitVec.ofNat 4 (v.toNat / 2 ^ 24), log2n := BitVec.ofNat 4 (Nat.max 7 (v.toNat / 2 ^ 20 % 16))
        msgtype := BitVec.ofNat 8 v.toNat, wrap := if bitOf v 31 then false else l.wrap } } []) := by
  intro D l
  refine ⟨fun hen => dieBecomes_of_mod rfl (if_pos hen), fun hen => dieBecomes_of_mod rfl ((if_neg ?_).trans ?_)⟩
  · rw [show (s.die d).log.en = false from hen]
    decide
  · rw [ofNat_fieldOf, fieldOf_eq]
    rfl

theorem onlyDieAt_logWords (d w0 rest : Nat) (s : State) (c : Prop) [Decidable c] :
    OnlyDieAt s (if c then logWords d w0 rest s else s) d
      { s.die d with log := { (s.die d).log with
        pend := if (s.die d).log.en = true ∧ c then (s.die d).log.pend ++ [(w0, rest)] else (s.die d).log.pend } } [] := by
  have h := onlyDieAt_modDie s d (fun e => if e.log.en then { e with log := { e.log with pend := e.log.pend ++ [(w0, rest)] } } else e) []
  rw [pushAll_nil] at h
  by_cases hc : c
  · simp only [hc, and_true, if_true]
    by_cases hen : (s.die d).log.en = true
    · rw [if_pos hen] at h ⊢
      exact h
    · rw [if_neg hen] at h ⊢
      exact h
  · simp only [hc, and_false, if_false]
    exact ⟨rfl, fun _ _ => rfl, (List.append_nil _).symm, rfl⟩

theorem claim_elpost (s : State) (d : Nat) (v : Word) :
    let D := s.die d
    let l := D.log
    let w := fun i : Nat => if i = 7 then v else smGet 0 l.post i
    let code := (w 0).toNat / 2 ^ 16 % 256
    let rest := ((List.range 7).map fun i => (w (i + 1)).toNat * 2 ^ (32 * i)).sum
    ∃ t, exec (.elpost d v) s = .next t ∧ (∀ k, smGet 0 (t.die d).log.post k = w k) ∧
      OnlyDieAt s t d { D with log := { l with
        post := (t.die d).log.post
        pend := if l.en = true ∧ (code = 0x30 ∨ 0x80 ≤ code) then l.pend ++ [((w 0).toNat % 2 ^ 30, rest)] else l.pend } } [] := by
  intro D l w code rest
  have hpost := onlyDieAt_modDie s d (fun D => { D with log := { D.log with post := smSet 0 D.log.post 7 v } }) []
  rw [pushAll_nil] at hpost
  have hw (i : Nat) : smGet 0 (smSet 0 (s.die d).log.post 7 v) i = w i := by
    rw [smGet_smSet]
    simp only [w, l, D, eq_comm]
  have hit : ((s.modDie d fun D => { D with log := { D.log with post := smSet 0 D.log.post 7 v } }).die d) = _ := hpost.it
  have hexec : exec (.elpost d v) s = .next (
      let u := s.modDie d fun D => { D with log := { D.log with post := smSet 0 D.log.post 7 v } }
      if code = 0x30 ∨ 0x80 ≤ code then logWords d ((w 0).toNat % 2 ^ 30) rest u else u) := by
    show execElpost d v s = _
    unfold execElpost
    simp only [hit, hw, fieldOf_eq, Bool.or_eq_true, decide_eq_true_eq]
    have hsum : (List.range 7).foldl (fun a i => a + (w (i + 1)).toNat * 2 ^ (32 * i)) 0 = rest := by
      simp only [rest, List.sum_eq_foldl, List.foldl_map]
    rw [hsum]
    rfl
  have hlog := onlyDieAt_logWords d ((w 0).toNat % 2 ^ 30) rest
    (s.modDie d fun D => { D with log := { D.log with post := smSet 0 D.log.post 7 v } }) (code = 0x30 ∨ 0x80 ≤ code)
  have hall := hpost.trans hlog
  rw [hit] at hall
  refine ⟨_, hexec, fun k => ?_, ?_⟩
  · rw [hall.it]
    exact hw k
  · have hp := congrArg (fun D : Die => D.log.post) hall.it
    dsimp only at hp ⊢
    rw [hp]
    exact hall

/-! ### A reset is requested (R17, R128) -/

theorem partUsed_iff (s : State) (p : Nat) :
    partUsed s p = true ↔ (s.sr.pcfg.getD []) ≠ [] ∧ pcfgDies (s.sr.pcfg.getD []) p ≠ [] := by
  simp [partUsed]

theorem requestReset_first {s : State} {p : Nat} {e : Instr} (h : (s.part p).requested = false)
    (he : exec e s = .next (requestReset p s)) : PartBecomes s e p { s.part p with requested := true } [.partitionReset p] :=
  partBecomes_of_push (f := fun x => { x with requested := true }) (es := [.partitionReset p])
    (he.trans (congrArg _ (if_neg (by simp [h])))) rfl rfl

theorem requestReset_again {s : State} {p : Nat} {e : Instr} (h : (s.part p).requested = true)
    (he : exec e s = .next (requestReset p s)) : NoEffect s e :=
  he.trans (congrArg _ (if_pos h))

theorem claim_mprstReq (s : State) (p : Nat) :
    let used := (s.sr.pcfg.getD []) ≠ [] ∧ pcfgDies (s.sr.pcfg.getD []) p ≠ []
    (used → (s.part p).requested = false →
      PartBecomes s (.mprstReq p) p { s.part p with requested := true } [.partitionReset p]) ∧
    (used → (s.part p).requested = true → NoEffect s (.mprstReq p)) ∧
    (¬ used → NoEffect s (.mprstReq p)) := by
  intro used
  have hused (h : used) : exec (.mprstReq p) s = .next (requestReset p s) := congrArg Host.Outcome.next (if_pos ((partUsed_iff s p).2 h))
  exact ⟨fun hu h => requestReset_first h (hused hu), fun hu h => requestReset_again h (hused hu),
    fun hu => congrArg Host.Outcome.next (if_neg (mt (partUsed_iff s p).1 hu))⟩

theorem claim_preset (s : State) (d : Nat) (v : Word) :
    let p := v.toNat % 4
    let used := (s.sr.pcfg.getD []) ≠ [] ∧ pcfgDies (s.sr.pcfg.getD []) p ≠ []
    let allowed := v.toNat / 2 ^ 8 % 256 = 0xA5 ∧ bitOf ((s.sr.pcfg.getD []).getD 3 0) 0 = true
    (used → allowed → (s.part p).requested = false →
      PartBecomes s (.preset d v) p { s.part p with requested := true } [.partitionReset p]) ∧
    (used → allowed → (s.part p).requested = true → NoEffect s (.preset d v)) ∧
    (used → ¬ allowed → exec (.preset d v) s = .next (logRecord (s.primaryDie p) 0x10 0xC1 (cornerPos d) 0 0 s)) ∧
    (¬ used → NoEffect s (.preset d v)) := by
  intro p used allowed
  have hp : fieldOf v 0 2 = p := fieldOf_zero v 2
  have ha : (decide (fieldOf v 8 8 = 0xA5) && bitOf ((s.sr.pcfg.getD []).getD 3 0) 0) = true ↔ allowed := by
    rw [Bool.and_eq_true, decide_eq_true_eq, fieldOf_eq]
    rfl
  have hexec : exec (.preset d v) s = .next (
      if allowed ∧ used then requestReset p s
      else if used then logRecord (s.primaryDie p) 0x10 0xC1 (cornerPos d) 0 0 s else s) := by
    show execPreset d v s = _
    unfold execPreset
    simp only [hp, Bool.and_eq_true (_ && _), ha, partUsed_iff]
    rfl
  have hreset (hu : used) (h : allowed) : exec (.preset d v) s = .next (requestReset p s) := hexec.trans (congrArg _ (if_pos ⟨h, hu⟩))
  refine ⟨fun hu h hr => requestReset_first hr (hreset hu h), fun hu h hr => requestReset_again hr (hreset hu h), fun hu h => ?_, fun hu => ?_⟩
  · exact hexec.trans (congrArg _ ((if_neg fun hx => h hx.1).trans (if_pos hu)))
  · exact hexec.trans (congrArg _ ((if_neg fun hx => hu hx.2).trans (if_neg hu)))

/-! ### The I3C target (R128) -/

theorem claim_i3cTarget (s : State) (d : Nat) :
    let D := s.die d
    let x := D.i3c
    let i3c := fun (e : Instr) (y : I3c) (more : List Instr) => DieBecomes s e d { D with i3c := y } more
    (∀ a, i3c (.i3cDynamicAddress d a) { x with dyn := some a } []) ∧
    (∀ (addr : BitVec 7) (index : Byte) value,
      let mine := addr.toNat = 0x30 + d ∨ x.dyn = some addr
      let listed := index = 0 ∨ index = 4 ∨ index = 8 ∨ index = 12 ∨ index = 16
      (¬ mine → NoEffect s (.i3cPrivateWrite d index value addr)) ∧
      (mine → ¬ listed → i3c (.i3cPrivateWrite d index value addr) { x with nack := true } []) ∧
      (mine → listed → i3c (.i3cPrivateWrite d index value addr) { x with index := index, nack := false }
        (if index = 16 then value.toList.map fun v => .preset d v else []))) := by
  intro D x i3c
  refine ⟨fun a => dieBecomes_of_mod (f := fun D => { D with i3c := { D.i3c with dyn := some a } }) rfl rfl, fun addr index value => ?_⟩
  intro mine listed
  have hmine : i3cAnswers s d addr = true ↔ mine := by simp [i3cAnswers, mine, x, D]
  have hlisted : i3cListed index.toNat = true ↔ listed := by
    simp [i3cListed, listed, ← BitVec.toNat_inj]
  have hexec : exec (.i3cPrivateWrite d index value addr) s = .next (
      let i3 := fun (f : I3c → I3c) => s.modDie d fun D => { D with i3c := f D.i3c }
      if !i3cAnswers s d addr then s
      else if !i3cListed index.toNat then i3 fun x => { x with nack := true }
      else (i3 fun x => { x with index := index, nack := false }).pushAll
        (if index = 16 then value.toList.map fun v => .preset d v else [])) := by
    show execI3cPrivateWrite d index value s addr = _
    unfold execI3cPrivateWrite
    cases value with
    | none =>
      simp only [Option.toList_none, List.map_nil, ite_self, pushAll_nil]
    | some v =>
      simp only [ite_push, Option.toList_some, List.map_cons, List.map_nil]
  refine ⟨fun hm => hexec.trans (congrArg _ (if_pos ?_)), fun hm hl => ?_, fun hm hl => ?_⟩
  · simpa [← hmine] using hm
  · exact dieBecomes_of_mod (f := fun D => { D with i3c := { D.i3c with nack := true } })
      (hexec.trans (congrArg _ ((if_neg (by simpa [← hmine] using hm)).trans (if_pos (by simpa [← hlisted] using hl))))) rfl
  · exact dieBecomes_of_push (f := fun D => { D with i3c := { D.i3c with index := index, nack := false } })
      (hexec.trans (congrArg _ ((if_neg (by simpa [← hmine] using hm)).trans (if_neg (by simpa [← hlisted] using hl))))) rfl rfl

end Sys2Proof.Machine
end

section
/-! PROOFS. The I3C controller of a die and the carrier's register behind it (R20, R129). -/

namespace Sys2Proof.Machine

/-! ### The bytes that a read places -/

/-- A data register after a read of `n` bytes: its bytes from place `lo` of the data on. -/
def placedBytes (n : Nat) (data : List Byte) (old : Word) (lo : Nat) : Word :=
  (List.range 4).foldl (fun (a : Word) i => if lo + i < n then putField a (8 * i) 8 (data.getD (lo + i) 0).toNat else a) old

theorem placedBytes_beyond {n lo : Nat} (data : List Byte) (old : Word) (h : n ≤ lo) : placedBytes n data old lo = old := by
  have hi (i : Nat) : ¬ lo + i < n := by omega
  simp only [placedBytes, hi, if_false]
  rfl

theorem putField_bytes (old : Word) (b0 b1 b2 b3 : Byte) :
    putField (putField (putField (putField old 0 8 b0.toNat) 8 8 b1.toNat) 16 8 b2.toNat) 24 8 b3.toNat = b3 ++ b2 ++ b1 ++ b0 := by
  apply BitVec.eq_of_getLsbD_eq
  intro i hi
  simp only [getLsbD_putField, BitVec.getLsbD_append, BitVec.testBit_toNat, hi, decide_true, Bool.true_and]
  by_cases h0 : i < 8
  · simp [h0, show ¬ 8 ≤ i by omega, show ¬ 16 ≤ i by omega, show ¬ 24 ≤ i by omega]
  · by_cases h1 : i < 16
    · simp [h0, h1, show 8 ≤ i by omega, show ¬ 16 ≤ i by omega, show ¬ 24 ≤ i by omega, show i - 8 < 8 by omega]
    · by_cases h2 : i < 24
      · simp [h0, h2, show 16 ≤ i by omega, show ¬ 24 ≤ i by omega, show ¬ i - 8 < 8 by omega, show i - 8 - 8 = i - 16 by omega,
          show i - 16 < 8 by omega]
      · simp [h0, show 24 ≤ i by omega, show ¬ i - 8 < 8 by omega, show i - 8 - 8 = i - 16 by omega,
          show ¬ i - 16 < 8 by omega, show i - 16 - 8 = i - 24 by omega]

theorem placedBytes_all {n lo : Nat} (data : List Byte) (old : Word) (h : lo + 4 ≤ n) :
    placedBytes n data old lo = data.getD (lo + 3) 0 ++ data.getD (lo + 2) 0 ++ data.getD (lo + 1) 0 ++ data.getD lo 0 := by
  have h0 : lo + 0 < n := by omega
  have h1 : lo + 1 < n := by omega
  have h2 : lo + 2 < n := by omega
  have h3 : lo + 3 < n := by omega
  have hr : List.range 4 = [0, 1, 2, 3] := rfl
  simp only [placedBytes, hr, List.foldl_cons, List.foldl_nil, h0, h1, h2, h3, if_true]
  exact putField_bytes ..

theorem natBytes_word (k : Word) (rest : List Byte) :
    (natBytes k.toNat 4 ++ rest).getD 3 0 ++ (natBytes k.toNat 4 ++ rest).getD 2 0 ++ (natBytes k.toNat 4 ++ rest).getD 1 0 ++
      (natBytes k.toNat 4 ++ rest).getD 0 0 = k := by
  have hbytes : (natBytes k.toNat 4 ++ rest) = [BitVec.ofNat 8 k.toNat, BitVec.ofNat 8 (k.toNat / 2 ^ 8), BitVec.ofNat 8 (k.toNat / 2 ^ 16),
      BitVec.ofNat 8 (k.toNat / 2 ^ 24)] ++ rest := by
    simp only [natBytes, Nat.div_div_eq_div_mul]
    rfl
  rw [hbytes]
  show BitVec.ofNat 8 (k.toNat / 2 ^ 24) ++ BitVec.ofNat 8 (k.toNat / 2 ^ 16) ++ BitVec.ofNat 8 (k.toNat / 2 ^ 8) ++
    BitVec.ofNat 8 k.toNat = k
  apply BitVec.eq_of_getLsbD_eq
  intro i hi
  simp only [BitVec.getLsbD_append, BitVec.getLsbD_ofNat, Nat.testBit_div_two_pow, BitVec.testBit_toNat]
  by_cases h0 : i < 8
  · simp [h0]
  · by_cases h1 : i < 16
    · simp [h0, show i - 8 < 8 by omega, show i - 8 + 8 = i by omega]
    · by_cases h2 : i < 24
      · simp [h0, show ¬ i - 8 < 8 by omega, show i - 8 - 8 < 8 by omega, show i - 8 - 8 + 16 = i by omega]
      · simp [h0, show ¬ i - 8 < 8 by omega, show ¬ i - 8 - 8 < 8 by omega, show i - 8 - 8 - 8 < 8 by omega,
          show i - 8 - 8 - 8 + 24 = i by omega]

/-! ### The end of a transfer (R129) -/

/-- The controller's block after a transfer. -/
def i3cEnded (y : I3c) (nack err : Bool) : I3c :=
  { y with go := false, busy := false, done := true, nackS := y.nackS || nack, err := y.err || err }

theorem onlyDieAt_modI3c (s : State) (d : Nat) (f : I3c → I3c) :
    OnlyDieAt s (modI3c d f s) d { s.die d with i3c := f (s.die d).i3c } [] := by
  have h := onlyDieAt_modDie s d (fun D => { D with i3c := f D.i3c }) []
  rw [pushAll_nil] at h
  exact h

theorem onlyDieAt_i3cEnd {s u : State} {d : Nat} {y : I3c} {a : List Instr} (nack err : Bool)
    (h : OnlyDieAt s u d { s.die d with i3c := y } a) :
    OnlyDieAt s (i3cEnd d nack err u) d { s.die d with i3c := i3cEnded y nack err } (a ++ noticeOf d 0xC1 y.msgtype []) := by
  have hend := onlyDieAt_modDie u d (fun D => { D with i3c := i3cEnded D.i3c nack err }) (noticeOf d 0xC1 (u.die d).i3c.msgtype [])
  have heq : i3cEnd d nack err u = (u.modDie d fun D => { D with i3c := i3cEnded D.i3c nack err }).pushAll
      (noticeOf d 0xC1 (u.die d).i3c.msgtype []) := dieMessage_eq ..
  rw [← heq, h.it] at hend
  exact h.trans hend

theorem onlyDieAt_self (s : State) (d : Nat) : OnlyDieAt s s d (s.die d) [] :=
  ⟨rfl, fun _ _ => rfl, (List.append_nil _).symm, rfl⟩

/-- The transfer of a die that has asked for it and holds the role, in the model's order: the carrier, the data, the end. -/
theorem exec_transferDone {s : State} {d : Nat} (hgo : (s.die d).i3c.go = true) (hrole : (s.die d).i3c.role = true)
    (nack err : Bool) (data : List Byte) (cool : Word) :
    let x := (s.die d).i3c
    let carrier := decide (fieldOf x.ctl 23 7 = 0x52)
    let nack' := nack || (carrier && !Config.module)
    let u := if carrier && !nack' && !err then carrierTurn cool ((coolWrite x).getD 0) s else s
    let data' := if carrier && bitOf x.ctl 21 && fieldOf x.ctl 13 8 = 0x10 then natBytes u.sr.kzmcool.toNat 4 ++ data.drop 4 else data
    exec (.i3cTransferDone d nack err data cool) s = .next (i3cEnd d nack' err (if bitOf x.ctl 22 && !nack' && !err then
      modI3c d (fun x => { x with
        data0 := placedBytes (i3cLen (s.die d).i3c.ctl) data' x.data0 0, data1 := placedBytes (i3cLen (s.die d).i3c.ctl) data' x.data1 4 }) u
      else u)) :=
  congrArg Host.Outcome.next (if_neg (by simp [hgo, hrole]))

section
variable {s : State} {d : Nat} {nack err : Bool} {data : List Byte} {cool : Word}

/-- No data is placed: a write, or a transfer that was not acknowledged or failed. -/
theorem transfer_without_data (hgo : (s.die d).i3c.go = true) (hrole : (s.die d).i3c.role = true)
    (hc : fieldOf (s.die d).i3c.ctl 23 7 ≠ 0x52) (h : bitOf (s.die d).i3c.ctl 22 = false ∨ nack = true ∨ err = true) :
    exec (.i3cTransferDone d nack err data cool) s = .next (i3cEnd d nack err s) := by
  refine (exec_transferDone hgo hrole nack err data cool).trans ?_
  have hread : (bitOf (s.die d).i3c.ctl 22 && !nack && !err) = false := by
    rcases h with h | h | h <;> simp [h]
  simp [hc, hread]

/-- A read from a target of the bus places its bytes. -/
theorem transfer_read (hgo : (s.die d).i3c.go = true) (hrole : (s.die d).i3c.role = true)
    (hc : fieldOf (s.die d).i3c.ctl 23 7 ≠ 0x52) (h : bitOf (s.die d).i3c.ctl 22 = true) :
    exec (.i3cTransferDone d false false data cool) s = .next (i3cEnd d false false (modI3c d (fun x => { x with
        data0 := placedBytes (i3cLen (s.die d).i3c.ctl) data x.data0 0, data1 := placedBytes (i3cLen (s.die d).i3c.ctl) data x.data1 4 }) s)) := by
  refine (exec_transferDone hgo hrole false false data cool).trans ?_
  simp [hc, h]

/-- Nothing answers at 0x52 on a KZ-4P (R20). -/
theorem transfer_no_carrier (hgo : (s.die d).i3c.go = true) (hrole : (s.die d).i3c.role = true)
    (hc : fieldOf (s.die d).i3c.ctl 23 7 = 0x52) (hm : Config.module = false) :
    exec (.i3cTransferDone d false err data cool) s = .next (i3cEnd d true err s) := by
  refine (exec_transferDone hgo hrole false err data cool).trans ?_
  simp [hc, hm]

/-- The carrier takes its turn before the data is placed. -/
theorem transfer_carrier (hgo : (s.die d).i3c.go = true) (hrole : (s.die d).i3c.role = true)
    (hc : fieldOf (s.die d).i3c.ctl 23 7 = 0x52) (hm : Config.module = true) :
    let u := carrierTurn cool ((coolWrite (s.die d).i3c).getD 0) s
    let data' := if bitOf (s.die d).i3c.ctl 21 && fieldOf (s.die d).i3c.ctl 13 8 = 0x10 then natBytes u.sr.kzmcool.toNat 4 ++ data.drop 4 else data
    exec (.i3cTransferDone d false false data cool) s = .next (i3cEnd d false false (if bitOf (s.die d).i3c.ctl 22 then
      modI3c d (fun x => { x with
        data0 := placedBytes (i3cLen (s.die d).i3c.ctl) data' x.data0 0, data1 := placedBytes (i3cLen (s.die d).i3c.ctl) data' x.data1 4 }) u
      else u)) := by
  refine (exec_transferDone hgo hrole false false data cool).trans ?_
  simp [hc, hm]

end

theorem i3cLen_eq {ctl : Word} {n : Nat} (h : ctl.toNat % 16 = n) (h0 : 0 < n) (h8 : n ≤ 8) : i3cLen ctl = n := by
  have hf : fieldOf ctl 0 4 = n := (fieldOf_zero ctl 4).trans h
  unfold i3cLen
  rw [hf, if_neg]
  simp only [Bool.or_eq_true, decide_eq_true_eq]
  omega

/-! ### The carrier's KZMCOOL (R20) -/

/-- KZMCOOL after the carrier has measured `cool` and `w1c` has been written to it. -/
def coolAfter (old w1c cool : Word) : Word :=
  (old &&& ~~~w1c ||| cool) &&& 0xE0000000 ||| cool &&& 0xFFFFFF

/-- The power alert that follows while a condition of `k` stands and the line is high. -/
def coolAlert (s : State) (k : Word) : List Instr :=
  if k.toNat / 2 ^ 29 ≠ 0 ∧ s.sr.pwralertn = true then [.pwralertnEdge false 0] else []

def withCool (s : State) (k : Word) : State := { s with sr := { s.sr with kzmcool := k } }

theorem carrierTurn_eq (cool w1c : Word) (s : State) :
    carrierTurn cool w1c s =
      (withCool s (coolAfter s.sr.kzmcool w1c cool)).pushAll (coolAlert s (coolAfter s.sr.kzmcool w1c cool)) := by
  unfold coolAlert
  rw [← ite_push]
  have hf (k : Word) : fieldOf k 29 3 = k.toNat / 2 ^ 29 := by
    have := k.isLt
    rw [fieldOf_eq]
    omega
  simp only [← hf]
  have hiff (k : Word) (b : Bool) : (fieldOf k 29 3 ≠ 0 ∧ b = true) = ((decide (fieldOf k 29 3 ≠ 0) && b) = true) := by
    simp
  simp only [hiff]
  rfl

theorem onlyDieAt_carrierTurn (cool w1c : Word) (s : State) (d : Nat) :
    OnlyDieAt (withCool s (coolAfter s.sr.kzmcool w1c cool)) (carrierTurn cool w1c s) d (s.die d)
      (coolAlert s (coolAfter s.sr.kzmcool w1c cool)) := by
  rw [carrierTurn_eq]
  exact ⟨rfl, fun _ _ => rfl, rfl, rfl⟩

theorem coolWrite_of_read {x : I3c} (h : bitOf x.ctl 22 = true) : coolWrite x = none := by
  simp [coolWrite, h]

theorem coolWrite_of_write {x : I3c} (h : bitOf x.ctl 22 = false) (h5 : x.ctl.toNat % 16 = 5) (h0 : fieldOf x.data0 0 8 = 0x10) :
    coolWrite x = some (word (fieldOf x.data0 8 24 + fieldOf x.data1 0 8 * 2 ^ 24)) := by
  simp [coolWrite, h, h0, i3cLen_eq h5]

/-! ### The controller's events -/

section
variable (s : State) (d : Nat)

/-- The controller of die `d` becomes `y` in the event, and the bursar is told. -/
def I3cEnds (e : Instr) (y : I3c) (nack err : Bool) : Prop :=
  DieBecomes s e d { s.die d with i3c := i3cEnded y nack err } (noticeOf d 0xC1 (s.die d).i3c.msgtype [])

theorem i3cEnds_of_end {e : Instr} {nack err : Bool} (h : exec e s = .next (i3cEnd d nack err s)) :
    I3cEnds s d e (s.die d).i3c nack err :=
  ⟨_, h, onlyDieAt_i3cEnd nack err (onlyDieAt_self s d)⟩

theorem claim_i3cController :
    let D := s.die d
    let x := D.i3c
    let i3c := fun (e : Instr) (y : I3c) (more : List Instr) => DieBecomes s e d { D with i3c := y } more
    (x.busy = false → i3c (.i3cGo d) { x with go := true, busy := true } []) ∧
    (x.busy = true → NoEffect s (.i3cGo d)) ∧
    (x.rel = true → i3c (.i3cRel d) { x with rel := false, role := false, busy := false } []) ∧
    (x.rel = false → NoEffect s (.i3cRel d)) ∧
    (x.go = true → i3c (.i3cRoleGrant d) { x with role := true } []) ∧
    (x.go = true → x.role = false → I3cEnds s d (.i3cRoleTimeout d) x false true) := by
  intro D x i3c
  have change {e : Instr} (f : I3c → I3c) (h : exec e s = .next (modI3c d f s)) : i3c e (f x) [] := ⟨_, h, onlyDieAt_modI3c s d f⟩
  have hne {b : Bool} (h : b = false) : ¬ b = true := by simp [h]
  refine ⟨fun h => change (fun x => { x with go := true, busy := true }) (congrArg _ (if_neg (hne h))), fun h => congrArg Host.Outcome.next (if_pos h),
    fun h => change (fun x => { x with rel := false, role := false, busy := false }) (congrArg _ (if_pos h)),
    fun h => congrArg Host.Outcome.next (if_neg (hne h)), fun h => change (fun x => { x with role := true }) (congrArg _ (if_pos h)), fun hgo hrole => ?_⟩
  exact i3cEnds_of_end s d (congrArg _ (if_pos (by simp [show (s.die d).i3c.go = true from hgo, show (s.die d).i3c.role = false from hrole])))

theorem claim_transferDone (nack err : Bool) (data : List Byte) (cool : Word) :
    let x := (s.die d).i3c
    x.go = true → x.role = true → fieldOf x.ctl 23 7 ≠ 0x52 →
      (bitOf x.ctl 22 = false ∨ nack = true ∨ err = true → I3cEnds s d (.i3cTransferDone d nack err data cool) x nack err) ∧
      (bitOf x.ctl 22 = true → x.ctl.toNat % 16 = 8 → ∀ b : Nat → Byte, data = (List.range 8).map b →
        I3cEnds s d (.i3cTransferDone d false false data cool)
          { x with data0 := b 3 ++ b 2 ++ b 1 ++ b 0, data1 := b 7 ++ b 6 ++ b 5 ++ b 4 } false false) := by
  intro x hgo hrole hc
  refine ⟨fun h => i3cEnds_of_end s d (transfer_without_data hgo hrole hc h), fun hread h8 b hb => ⟨_, transfer_read hgo hrole hc hread, ?_⟩⟩
  have hend := onlyDieAt_i3cEnd false false (onlyDieAt_modI3c s d fun y => { y with
    data0 := placedBytes (i3cLen x.ctl) data y.data0 0, data1 := placedBytes (i3cLen x.ctl) data y.data1 4 })
  have hlen : i3cLen x.ctl = 8 := i3cLen_eq h8 (by omega) (by omega)
  rw [hlen, placedBytes_all data _ (by omega), placedBytes_all data _ (by omega), hb] at hend
  rw [hlen, hb]
  exact hend

/-- The answer to a transfer that the carrier's turn precedes. -/
def CarrierEnds (data : List Byte) (cool k : Word) (y : I3c) : Prop :=
  ∃ t, exec (.i3cTransferDone d false false data cool) s = .next t ∧
    OnlyDieAt (withCool s k) t d { s.die d with i3c := i3cEnded y false false } (coolAlert s k ++ noticeOf d 0xC1 (s.die d).i3c.msgtype [])

theorem carrierEnds_read {data : List Byte} {cool : Word} (hgo : (s.die d).i3c.go = true) (hrole : (s.die d).i3c.role = true)
    (hc : fieldOf (s.die d).i3c.ctl 23 7 = 0x52) (hm : Config.module = true) (hread : bitOf (s.die d).i3c.ctl 22 = true)
    (h21 : bitOf (s.die d).i3c.ctl 21 = true) (hix : fieldOf (s.die d).i3c.ctl 13 8 = 0x10) (h4 : (s.die d).i3c.ctl.toNat % 16 = 4) :
    let k := coolAfter s.sr.kzmcool 0 cool
    CarrierEnds s d data cool k { (s.die d).i3c with data0 := k } := by
  intro k
  have hexec := transfer_carrier (data := data) (cool := cool) hgo hrole hc hm
  have hk : (carrierTurn cool 0 s).sr.kzmcool = k := by
    rw [carrierTurn_eq]
    rfl
  have hlen : i3cLen (s.die d).i3c.ctl = 4 := i3cLen_eq h4 (by omega) (by omega)
  simp only [coolWrite_of_read hread, Option.getD_none, hread, h21, hix, hlen, hk, decide_true, Bool.and_self, if_true] at hexec
  refine ⟨_, hexec, ?_⟩
  have hturn := onlyDieAt_carrierTurn cool 0 s d
  have hdie : (carrierTurn cool 0 s).die d = s.die d := hturn.it
  have hmod := onlyDieAt_modI3c (carrierTurn cool 0 s) d fun x => { x with
    data0 := placedBytes 4 (natBytes k.toNat 4 ++ data.drop 4) x.data0 0, data1 := placedBytes 4 (natBytes k.toNat 4 ++ data.drop 4) x.data1 4 }
  have hboth := hturn.trans hmod
  rw [hdie, placedBytes_beyond _ _ (le_refl 4), placedBytes_all _ _ (by omega), natBytes_word, List.append_nil] at hboth
  exact onlyDieAt_i3cEnd (s := withCool s k) false false hboth

theorem carrierEnds_write {data : List Byte} {cool w1c : Word} (hgo : (s.die d).i3c.go = true) (hrole : (s.die d).i3c.role = true)
    (hc : fieldOf (s.die d).i3c.ctl 23 7 = 0x52) (hm : Config.module = true) (hread : bitOf (s.die d).i3c.ctl 22 = false)
    (h5 : (s.die d).i3c.ctl.toNat % 16 = 5) (h0 : fieldOf (s.die d).i3c.data0 0 8 = 0x10)
    (hw : w1c.toNat = fieldOf (s.die d).i3c.data0 8 24 + fieldOf (s.die d).i3c.data1 0 8 * 2 ^ 24) :
    CarrierEnds s d data cool (coolAfter s.sr.kzmcool w1c cool) (s.die d).i3c := by
  have hexec := transfer_carrier (data := data) (cool := cool) hgo hrole hc hm
  have hword : word (fieldOf (s.die d).i3c.data0 8 24 + fieldOf (s.die d).i3c.data1 0 8 * 2 ^ 24) = w1c := by
    rw [← hw, word, BitVec.ofNat_toNat, BitVec.setWidth_eq]
  simp only [coolWrite_of_write hread h5 h0, hword, Option.getD_some, hread, Bool.false_eq_true, if_false] at hexec
  exact ⟨_, hexec, onlyDieAt_i3cEnd (s := withCool s _) false false (onlyDieAt_carrierTurn cool w1c s d)⟩

end

theorem claim_logAndI3c : Claim.LogAndI3c := by
  refine ⟨fun s d v => ?_, fun s d => ?_⟩
  · obtain ⟨h1, h2⟩ := claim_elctl s d v
    exact ⟨h1, h2, claim_elpost s d v⟩
  · obtain ⟨hgo, hbusy, hrel, hnorel, hgrant, htimeout⟩ := claim_i3cController s d
    obtain ⟨hdyn, hwrite⟩ := claim_i3cTarget s d
    refine ⟨hgo, hbusy, hrel, hnorel, hgrant, htimeout, fun nack err data cool => claim_transferDone s d nack err data cool,
      fun go role hc err data cool => ⟨fun hm => i3cEnds_of_end s d (transfer_no_carrier go role hc hm), fun hm w1c => ⟨?_, ?_⟩⟩,
      hdyn, hwrite, claim_preset s d, claim_mprstReq s⟩
    · rintro hread h21 hix h4 rfl
      exact carrierEnds_read s d go role hc hm hread h21 hix h4
    · intro hread _ h5 h0 hw
      exact carrierEnds_write s d go role hc hm hread h5 h0 hw

end Sys2Proof.Machine
end

section
/-! SUPPORT. What an operation of the mesh leaves alone: everything but routers, the records that wait for the log units, the list of busy
routers, and events that become due. -/

namespace Sys2Proof.Machine

/-- From `s` to `t` only routers, dies and the list of busy routers have changed, and events have become due. -/
structure MeshOnly (s t : State) : Prop where
  due : ∀ e ∈ s.due, e ∈ t.due
  rest : { t with routers := s.routers, dies := s.dies, busy := s.busy, due := s.due } = s

namespace MeshOnly
variable {s t u : State}

theorem refl (s : State) : MeshOnly s s := ⟨fun _ h => h, rfl⟩

theorem trans (h : MeshOnly s t) (h' : MeshOnly t u) : MeshOnly s u where
  due e he := h'.due e (h.due e he)
  rest := (congrArg (fun v : State => { v with routers := s.routers, dies := s.dies, busy := s.busy, due := s.due }) h'.rest).trans h.rest

theorem foldl {α : Type} (f : State → α → State) (h : ∀ s a, MeshOnly s (f s a)) (l : List α) (s : State) :
    MeshOnly s (l.foldl f s) := by
  induction l generalizing s with
  | nil => exact refl s
  | cons a l ih => exact (h s a).trans (ih (f s a))

theorem ite {c : Prop} [Decidable c] (h : c → MeshOnly s t) (h' : ¬ c → MeshOnly s u) : MeshOnly s (if c then t else u) := by
  split
  · exact h ‹_›
  · exact h' ‹_›

theorem modRouter (s : State) (r : Nat) (f : Router → Router) : MeshOnly s (s.modRouter r f) := ⟨fun _ h => h, rfl⟩

theorem modDie (s : State) (d : Nat) (f : Die → Die) : MeshOnly s (s.modDie d f) := ⟨fun _ h => h, rfl⟩

theorem push (s : State) (e : Instr) : MeshOnly s (s.push e) := ⟨fun _ h => List.mem_append_left _ h, rfl⟩

theorem modIn (s : State) (r k : Nat) (f : InBuf → InBuf) : MeshOnly s (modIn r k f s) := modRouter ..

theorem modLink (s : State) (r p : Nat) (f : Link → Link) : MeshOnly s (modLink r p f s) := modRouter ..

theorem wake (s : State) (r : Nat) : MeshOnly s (wake r s) := by
  unfold Machine.wake
  exact ite (fun _ => refl s) fun _ => ⟨fun _ h => h, rfl⟩

theorem logLink (s : State) (r p : Nat) : MeshOnly s (logLink r p s) := by
  unfold Machine.logLink
  exact ite (fun _ => modDie ..) fun _ => refl s

theorem enterLocal (s : State) (r inp : Nat) (fs : List Flit) : MeshOnly s (enterLocal r inp fs s) :=
  (modRouter ..).trans (wake ..)

theorem lossNotice (s : State) (r : Nat) (p : Packet) (req : BitVec 5) : MeshOnly s (lossNotice r p req s) := by
  unfold Machine.lossNotice
  exact ite (fun _ => enterLocal ..) fun _ => enterLocal ..

theorem endLost (s : State) (r p : Nat) : MeshOnly s (endLost r p s) := by
  unfold Machine.endLost
  refine trans ?_ (foldl _ (fun s _ => lossNotice ..) _ _)
  refine trans ?_ (foldl _ (fun s _ => ite (fun _ => ?_) fun _ => modIn ..) _ _)
  · exact (((modLink ..).trans (wake ..)).trans (modRouter ..)).trans (logLink ..)
  · exact ((modIn ..).trans (modRouter ..)).trans (lossNotice ..)

theorem bridgeClose (s : State) (r p : Nat) : MeshOnly s (bridgeClose r p s) := by
  unfold Machine.bridgeClose
  refine trans ?_ ((modLink ..).trans (modRouter ..))
  exact ite (fun _ => endLost ..) fun _ => refl s

theorem routersUp (b : List Byte) (d : Nat) (s : State) : MeshOnly s (routersUp b d s) :=
  foldl _ (fun _ _ => modRouter ..) _ _

/-- What the start of a link's training does. -/
def trainingStarted (r p : Nat) (s : State) : State :=
  let l := linkOf s r p
  if l.st = .down || l.st = .up || (l.st = .lost && l.restart && 5 ≤ p) then
    (linkEnds r p).foldl (fun s e => Machine.logLink e.1 e.2 (Machine.modLink e.1 e.2 (fun l =>
      { l with st := .training, naks := 0, retrains := oneMore l.retrains }) s)) s
  else s

theorem trainingStarted_meshOnly (r p : Nat) (s : State) : MeshOnly s (trainingStarted r p s) :=
  ite (fun _ => foldl _ (fun _ _ => (modLink ..).trans (logLink ..)) _ _) fun _ => refl s

theorem linksUp (ds : List Nat) (s : State) : MeshOnly s (linksUp ds s) := by
  unfold Machine.linksUp
  refine trans ?_ (foldl _ (fun s _ => trainingStarted_meshOnly ..) _ _)
  refine foldl _ (fun _ e => ite (fun _ => ite (fun _ => refl _) fun _ => ?_) fun _ => ite (fun _ => ?_) fun _ => refl _) _ _
  · exact foldl _ (fun s _ => endLost ..) _ _
  · exact (trainingStarted_meshOnly e.1 e.2 _).trans (push ..)

theorem sr_eq (h : MeshOnly s t) : t.sr = s.sr := by
  have := congrArg State.sr h.rest
  exact this

theorem parts_eq (h : MeshOnly s t) : t.parts = s.parts := by
  have := congrArg State.parts h.rest
  exact this

theorem clusters_eq (h : MeshOnly s t) : t.clusters = s.clusters := by
  have := congrArg State.clusters h.rest
  exact this

theorem cores_eq (h : MeshOnly s t) : t.cores = s.cores := by
  have := congrArg State.cores h.rest
  exact this

theorem slots_eq (h : MeshOnly s t) : t.slots = s.slots := by
  have := congrArg State.slots h.rest
  exact this

theorem ctls_eq (h : MeshOnly s t) : t.ctls = s.ctls := by
  have := congrArg State.ctls h.rest
  exact this

theorem engines_eq (h : MeshOnly s t) : t.engines = s.engines := by
  have := congrArg State.engines h.rest
  exact this

theorem bulk_eq (h : MeshOnly s t) : t.bulk = s.bulk := by
  have := congrArg State.bulk h.rest
  exact this

theorem slices_eq (h : MeshOnly s t) : t.slices = s.slices := by
  have := congrArg State.slices h.rest
  exact this

end MeshOnly
end Sys2Proof.Machine
end

section
/-! PROOFS. Power, the boot and the start of a bursar (R11, R13, R17 to R19, R41, R86, R102, R103, R116 to R118, R425). -/

namespace Sys2Proof.Machine

theorem smGet_filter {α : Type} (z : α) (m : SMap α) (p : Nat → Bool) (j : Nat) :
    smGet z (m.filter fun e => p e.1) j = if p j then smGet z m j else z := by
  induction m with
  | nil => simp
  | cons e m ih =>
    obtain ⟨k, v⟩ := e
    by_cases hp : p k
    · rw [List.filter_cons_of_pos (by simpa using hp)]
      simp only [smGet, ih]
      by_cases hk : k = j
      · subst hk
        simp [hp]
      · simp [hk]
    · rw [List.filter_cons_of_neg (by simpa using hp), ih]
      simp only [smGet]
      by_cases hk : k = j
      · subst hk
        simp [hp]
      · simp [hk]

/-! ### Power (R11, R13, R17) -/

/-- Clusters to which 8 is applied. -/
theorem foldl_applied (l : List Nat) (s : State) (c : Nat) :
    (l.foldl (fun s c => s.modCluster c fun x => { x with applied := 8, applies := [] }) s).cluster c =
      if c ∈ l then { s.cluster c with applied := 8, applies := [] } else s.cluster c := by
  induction l generalizing s with
  | nil => rfl
  | cons a l ih =>
    rw [List.foldl_cons, ih, State.cluster_modCluster]
    by_cases ha : a = c
    · subst ha
      simp
    · simp [ha, Ne.symm ha]

theorem foldl_applied_rest (l : List Nat) (s : State) :
    { l.foldl (fun s c => s.modCluster c fun x => { x with applied := 8, applies := [] }) s with clusters := s.clusters } = s := by
  induction l generalizing s with
  | nil => rfl
  | cons a l ih =>
    have h := congrArg (fun v : State => { v with clusters := s.clusters })
      (ih (s.modCluster a fun x => { x with applied := 8, applies := [] }))
    exact h

theorem alertApplied_cluster (ds : List Nat) (s : State) (c : Nat) :
    (alertApplied ds s).cluster c =
      if s.sr.pwralertn = false ∧ c / 4 ∈ ds then { s.cluster c with applied := 8, applies := [] } else s.cluster c := by
  have hmem : c ∈ (ds.flatMap fun d => (List.range 4).map (4 * d + ·)) ↔ c / 4 ∈ ds := by
    simp only [List.mem_flatMap, List.mem_map, List.mem_range]
    constructor
    · rintro ⟨d, hd, j, hj, rfl⟩
      rwa [show (4 * d + j) / 4 = d by omega]
    · intro h
      exact ⟨c / 4, h, c % 4, by omega, by omega⟩
  unfold alertApplied
  cases hp : s.sr.pwralertn
  · simp only [Bool.false_eq_true, if_false, true_and]
    rw [foldl_applied]
    simp only [hmem]
  · simp

theorem alertApplied_rest (ds : List Nat) (s : State) : { alertApplied ds s with clusters := s.clusters } = s := by
  unfold alertApplied
  split
  · rfl
  · exact foldl_applied_rest _ s

theorem claim_porstnAssert (s : State) (cycled : Bool) :
    (s.sr.powered = false → cycled = false → NoEffect s (.porstnAssert cycled)) ∧
    (s.sr.powered = true ∨ cycled = true → ∃ t, exec (.porstnAssert cycled) s = .next t ∧
      (∀ c, t.cluster c = if c < 16 then { applied := if s.sr.pwralertn then 0 else 8 } else {}) ∧
      { t with clusters := [] } =
        { sr := { porstn := false, pwralertn := s.sr.pwralertn, flash := s.sr.flash, stacksTrained := s.sr.stacksTrained
                  selfTested := s.sr.selfTested, releaseFails := s.sr.releaseFails, fuses := s.sr.fuses, kzmcool := s.sr.kzmcool }
          fresh := s.fresh }) := by
  refine ⟨fun hp hc => congrArg Host.Outcome.next (if_pos (by simp [hp, hc])), fun h =>
    ⟨_, congrArg Host.Outcome.next (if_neg (by rcases h with h | h <;> simp [h])), fun c => ?_, alertApplied_rest _ _⟩⟩
  have hmem : c / 4 ∈ [0, 1, 2, 3] ↔ c < 16 := by
    simp only [List.mem_cons, List.not_mem_nil, or_false]
    omega
  rw [alertApplied_cluster]
  simp only [hmem]
  cases s.sr.pwralertn
  · simp only [true_and]
    rfl
  · simp only [Bool.true_eq_false, false_and, if_false, if_true]
    exact (ite_self _).symm

theorem claim_railFault (s : State) :
    (s.sr.porstn = true → exec .railFault s = .next
      { s with sr := { s.sr with powered := false, thermtrip := true }, due := [], later := [], mcDue := 0 }) ∧
    (s.sr.porstn = false → NoEffect s .railFault) :=
  ⟨fun h => congrArg Host.Outcome.next (if_pos h), fun h => congrArg Host.Outcome.next (if_neg (by simp [h]))⟩

/-! ### The start of a bursar (R18, R41, R86, R425) -/

/-- Core `c` and unit `u` at their reset values, but for slot 0 of the core. -/
def freshCore (c u : Nat) (x : Slot) (s : State) : State :=
  { s with cores := smDel s.cores c, clusters := smDel s.clusters u, slots := s.slots.filter fun e => coreOf e.1 ≠ c }.setSlot (16 * c) x

section
variable (c u : Nat) (x : Slot) (s : State)

theorem freshCore_core (m : Nat) : (freshCore c u x s).core m = if c = m then {} else s.core m := smGet_smDel ..

theorem freshCore_cluster (m : Nat) : (freshCore c u x s).cluster m = if u = m then {} else s.cluster m := smGet_smDel ..

theorem freshCore_slot (k : Nat) :
    (freshCore c u x s).slot k = if 16 * c = k then x else if coreOf k ≠ c then s.slot k else {} := by
  refine (smGet_smSet ..).trans ?_
  rw [smGet_filter _ _ (fun k => decide (coreOf k ≠ c))]
  simp only [decide_eq_true_eq]
  rfl

theorem freshCore_rest : { freshCore c u x s with cores := s.cores, clusters := s.clusters, slots := s.slots } = s := rfl

end

theorem exec_bursarStart (s : State) (d : Nat) : exec (.bursarStart d) s = .next (freshCore (16384 + d) (16 + d)
    { pc := vWord s (((16 + d) * 2 ^ 25 + 0x10) / 4), status := 0x100, run := .ready
      sg := smSet 0 [] 0 (codeSegment 0x1000 (vWord s (((16 + d) * 2 ^ 25 + 0xC) / 4)).toNat) } s) := rfl

theorem claim_bursarStart (s : State) (d : Nat) :
    let n := 16384 + d
    let sram := fun o : Nat => vWord s (((16 + d) * 2 ^ 25 + o) / 4)
    ∃ t, exec (.bursarStart d) s = .next t ∧ t.core n = {} ∧ t.cluster (16 + d) = {} ∧
      t.slot (16 * n) = { pc := sram 0x10, status := 0x100, run := .ready, sg := (t.slot (16 * n)).sg } ∧
      (∀ k, smGet 0 (t.slot (16 * n)).sg k = if k = 0 then codeSegment 0x1000 (sram 0xC).toNat else 0) ∧
      (∀ k, coreOf k = n → k ≠ 16 * n → t.slot k = {}) ∧ (∀ k, coreOf k ≠ n → t.slot k = s.slot k) ∧
      (∀ m, m ≠ n → t.core m = s.core m) ∧ (∀ c, c ≠ 16 + d → t.cluster c = s.cluster c) ∧
      { t with cores := s.cores, clusters := s.clusters, slots := s.slots } = s := by
  intro n sram
  have hexec : exec (.bursarStart d) s = .next (freshCore n (16 + d) _ s) := exec_bursarStart s d
  clear_value n
  refine ⟨_, hexec, ?_, ?_, ?_, fun k => ?_, fun k hk hne => ?_, fun k hk => ?_, fun m hm => ?_, fun m hm => ?_, freshCore_rest ..⟩
  · rw [freshCore_core, if_pos rfl]
  · rw [freshCore_cluster, if_pos rfl]
  · rw [freshCore_slot, if_pos rfl]
  · rw [freshCore_slot, if_pos rfl]
    dsimp only
    rw [smGet_smSet, smGet_nil]
    simp only [eq_comm (a := 0), sram]
  · rw [freshCore_slot, if_neg hne.symm, if_neg (not_not.2 hk)]
  · rw [freshCore_slot, if_neg, if_pos hk]
    rintro rfl
    exact hk (by rw [coreOf]; omega)
  · rw [freshCore_core, if_neg hm.symm]
  · rw [freshCore_cluster, if_neg hm.symm]

theorem claim_bursarInit (s : State) (d : Nat) :
    let mine := fun line : Nat => line / 2 ^ 30 % 8 / 2 = d
    ∃ t, exec (.bursarInit d) s = .next t ∧ (∀ a, smGet 0 t.mem a = if mine (a / 64) then 0 else smGet 0 s.mem a) ∧
      (∀ l, memFullOf t l = if mine l then 0xFFFF else memFullOf s l) ∧
      (∀ l, smGet [] t.flips l = if mine l then [] else smGet [] s.flips l) ∧
      (∀ n, t.slice n = if n / 256 = d then {} else s.slice n) ∧
      t.die d = { s.die d with host := { (s.die d).host with open_ := true, store := [] } } ∧ (∀ k, k ≠ d → t.die k = s.die k) ∧
      { t with mem := s.mem, memFull := s.memFull, flips := s.flips, slices := s.slices, dies := s.dies } = s := by
  intro mine
  have hget {α : Type} (z : α) (m : SMap α) (p : Nat → Prop) [DecidablePred p] (j : Nat) :
      smGet z (m.filter fun e => !decide (p e.1)) j = if p j then z else smGet z m j := by
    rw [smGet_filter z m (fun j => !decide (p j))]
    by_cases h : p j <;> simp [h]
  have hne {α : Type} (z : α) (m : SMap α) (j : Nat) :
      smGet z (m.filter fun e => decide (e.1 / 256 ≠ d)) j = if j / 256 = d then z else smGet z m j := by
    rw [smGet_filter z m (fun j => decide (j / 256 ≠ d))]
    by_cases h : j / 256 = d <;> simp [h]
  have hdie (k : Nat) : (smGet {} (smMod {} s.dies d fun x => { x with host := { x.host with open_ := true, store := [] } }) k : Die) = _ :=
    smGet_smMod ..
  exact ⟨_, rfl, fun a => hget 0 s.mem (fun a => mine (a / 64)) a, fun l => hget 0xFFFF s.memFull mine l, fun l => hget [] s.flips mine l,
    fun n => hne ({} : Slice) s.slices n, (hdie d).trans (if_pos rfl), fun k hk => (hdie k).trans (if_neg hk.symm), rfl⟩

end Sys2Proof.Machine
end

section
/-! PROOFS. The boot (R18, R102, R103, R106, R116 to R118). -/

namespace Sys2Proof.Machine

/-! ### Sets of dies as bits -/

theorem getLsbD_bitsOf (w : Nat) (l : List Nat) (i : Nat) (hi : i < w) : bitOf (bitsOf w l) i = decide (i ∈ l) := by
  have key (m : BitVec w) : (l.foldl (fun m n => m ||| BitVec.ofNat w (2 ^ n)) m).getLsbD i = (m.getLsbD i || decide (i ∈ l)) := by
    induction l generalizing m with
    | nil => simp
    | cons n l ih =>
      rw [List.foldl_cons, ih, BitVec.getLsbD_or, BitVec.getLsbD_ofNat, Nat.testBit_two_pow]
      by_cases h : n = i
      · simp [h, hi]
      · simp [h, Ne.symm h]
  exact (key 0).trans (by simp)

/-! ### What a verification reads (R116) -/

theorem verifyContainer_congr {r r' : Strongroom} {kind base : Nat} (hflash : r.flash = r'.flash)
    (hfuses : kind = 3 ∨ smGet 0 r.fuses kind = smGet 0 r'.fuses kind) : verifyContainer r kind base = verifyContainer r' kind base := by
  have hfb : flashBytes r = flashBytes r' := by
    unfold flashBytes
    rw [hflash]
  unfold verifyContainer
  rw [hfb]
  rcases hfuses with h | h
  · subst h
    simp only [ne_eq, not_true_eq_false, decide_false, Bool.false_and]
  · rw [h]

/-! ### Steps 5 and 6 of a partition (R18) -/

/-- The verification of a partition's container. -/
def partitionImage (s : State) (p : Nat) : Option Image :=
  verifyContainer s.sr 2 (0x100000 + ((s.sr.pcfg.getD []).getD (4 + p) 0).toNat * 0x800000)

/-- Its dies. -/
def partitionDies (s : State) (p : Nat) : List Nat := pcfgDies (s.sr.pcfg.getD []) p

/-- Steps 5 and 6 succeed for it. -/
def released (s : State) (p : Nat) : Bool := (partitionImage s p).isSome && !bitOf s.sr.releaseFails p

/-- What step 5 stores of a partition's container. -/
def measured (s : State) (p : Nat) (im : Image) (x : Part) : Part :=
  { x with mp := extend 0 im.digest, svn := word im.svn, imageLen := im.body.length, resetting := bitOf s.sr.releaseFails p }

/-- A partition's dies out of reset, with `f` done to it and `bytes` in its bursars' vaults. -/
def diesUp (p : Nat) (f : Part → Part) (bytes : List Byte) (s : State) : State :=
  { s.modPart p f with
    vault := (partitionDies s p).foldl (fun v d => smBlock (vKey (16 + d) 0) bytes v) s.vault
    sr := { s.sr with dieup := s.sr.dieup ||| bitsOf 4 (partitionDies s p) } }

/-- Step 6 for a partition of which step 5 stores `f`. -/
def stepSix (p : Nat) (f : Part → Part) (bytes : List Byte) (s : State) : State :=
  if bitOf s.sr.releaseFails p then partFail p 6 (s.modPart p f)
  else (linksUp (partitionDies s p) (diesUp p f bytes s)).pushAll ((partitionDies s p).flatMap fun d => [.bursarStart d, .bursarInit d])

section
variable {s : State} {p : Nat} {im : Image}

/-- The shape of steps 5 and 6, whatever step 5 stores: the kernel would evaluate the digest that it stores in fact. -/
theorem bootPartition_shape (s : State) (p : Nat) (v : Option Image) (f : Image → Part → Part) (u : State) :
    (match v with
    | none => u
    | some im =>
      let t := s.modPart p (f im)
      if bitOf t.sr.releaseFails p then partFail p 6 t
      else
        let ds := pcfgDies (s.sr.pcfg.getD []) p
        let t := { t with
          vault := ds.foldl (fun v d => smBlock (vKey (16 + d) 0) im.bytes v) t.vault
          sr := { t.sr with dieup := t.sr.dieup ||| bitsOf 4 ds } }
        (linksUp ds t).pushAll (ds.flatMap fun d => [.bursarStart d, .bursarInit d])) =
    (v.map fun im => stepSix p (f im) im.bytes s).getD u := by
  cases v <;> rfl

theorem bootPartition_eq (s : State) (p : Nat) : bootPartition p s =
    ((partitionImage s p).map fun im => stepSix p (measured s p im) im.bytes s).getD
      (partFail p 5 (s.modPart p fun x => { x with resetting := true })) := by
  rw [← bootPartition_shape, bootPartition, partitionImage]
  generalize verifyContainer s.sr 2 (0x100000 + ((s.sr.pcfg.getD []).getD (4 + p) 0).toNat * 0x800000) = im
  cases im <;> rfl

theorem bootPartition_refused (h : partitionImage s p = none) :
    bootPartition p s = partFail p 5 (s.modPart p fun x => { x with resetting := true }) := by
  rw [bootPartition_eq, h]
  rfl

theorem bootPartition_held (h : partitionImage s p = some im) (hf : bitOf s.sr.releaseFails p = true) :
    bootPartition p s = partFail p 6 (s.modPart p (measured s p im)) := by
  rw [bootPartition_eq, h]
  exact if_pos hf

theorem bootPartition_released (h : partitionImage s p = some im) (hf : bitOf s.sr.releaseFails p = false) :
    bootPartition p s = (linksUp (partitionDies s p) (diesUp p (measured s p im) im.bytes s)).pushAll
      ((partitionDies s p).flatMap fun d => [.bursarStart d, .bursarInit d]) := by
  rw [bootPartition_eq, h]
  exact if_neg (Bool.eq_false_iff.1 hf)

end

/-- From `s` to `t` steps 5 and 6 have run for some partitions. -/
structure Booted (s t : State) : Prop where
  due : ∀ e ∈ s.due, e ∈ t.due
  sr : { t.sr with dieup := s.sr.dieup, failp := s.sr.failp, fail := s.sr.fail } = s.sr
  rest : { t with routers := s.routers, dies := s.dies, busy := s.busy, due := s.due, sr := s.sr, parts := s.parts, vault := s.vault } = s

namespace Booted
variable {s t u : State}

theorem refl (s : State) : Booted s s := ⟨fun _ h => h, rfl, rfl⟩

theorem trans (h : Booted s t) (h' : Booted t u) : Booted s u where
  due e he := h'.due e (h.due e he)
  sr := (congrArg (fun r : Strongroom => { r with dieup := s.sr.dieup, failp := s.sr.failp, fail := s.sr.fail }) h'.sr).trans h.sr
  rest := (congrArg (fun v : State => { v with
    routers := s.routers, dies := s.dies, busy := s.busy, due := s.due, sr := s.sr, parts := s.parts, vault := s.vault }) h'.rest).trans h.rest

theorem of_meshOnly (h : MeshOnly s t) : Booted s t where
  due := h.due
  sr := by
    rw [h.sr_eq]
  rest := congrArg (fun v : State => { v with sr := s.sr, parts := s.parts, vault := s.vault }) h.rest

theorem flash (h : Booted s t) : t.sr.flash = s.sr.flash := by
  have := congrArg Strongroom.flash h.sr
  exact this

theorem fuses (h : Booted s t) : t.sr.fuses = s.sr.fuses := by
  have := congrArg Strongroom.fuses h.sr
  exact this

theorem pcfg (h : Booted s t) : t.sr.pcfg = s.sr.pcfg := by
  have := congrArg Strongroom.pcfg h.sr
  exact this

theorem releaseFails (h : Booted s t) : t.sr.releaseFails = s.sr.releaseFails := by
  have := congrArg Strongroom.releaseFails h.sr
  exact this

theorem image (h : Booted s t) (p : Nat) : partitionImage t p = partitionImage s p := by
  unfold partitionImage
  rw [h.pcfg]
  exact verifyContainer_congr h.flash (.inr (by rw [h.fuses]))

theorem dies (h : Booted s t) (p : Nat) : partitionDies t p = partitionDies s p := by
  unfold partitionDies
  rw [h.pcfg]

theorem released (h : Booted s t) (p : Nat) : released t p = released s p := by
  unfold Machine.released
  rw [h.image, h.releaseFails]

end Booted

theorem sr_pushAll (s : State) (es : List Instr) : (s.pushAll es).sr = s.sr := rfl

theorem dieup_diesUp (s : State) (p : Nat) (f : Part → Part) (bytes : List Byte) :
    (diesUp p f bytes s).sr.dieup = s.sr.dieup ||| bitsOf 4 (partitionDies s p) := rfl

theorem dieup_partFail (s : State) (p : Nat) (code : BitVec 4) (f : Part → Part) :
    (partFail p code (s.modPart p f)).sr.dieup = s.sr.dieup := rfl

theorem booted_partFail (s : State) (p : Nat) (code : BitVec 4) (f : Part → Part) : Booted s (partFail p code (s.modPart p f)) :=
  ⟨fun _ h => h, rfl, rfl⟩

theorem booted_diesUp (s : State) (p : Nat) (f : Part → Part) (bytes : List Byte) : Booted s (diesUp p f bytes s) := ⟨fun _ h => h, rfl, rfl⟩

theorem booted_pushAll (s : State) (es : List Instr) : Booted s (s.pushAll es) :=
  ⟨fun _ h => List.mem_append_left _ h, rfl, rfl⟩

theorem booted_bootPartition (s : State) (p : Nat) : Booted s (bootPartition p s) := by
  cases him : partitionImage s p with
  | none =>
    rw [bootPartition_refused him]
    exact booted_partFail ..
  | some im =>
    by_cases hf : bitOf s.sr.releaseFails p = true
    · rw [bootPartition_held him hf]
      exact booted_partFail ..
    · rw [bootPartition_released him (Bool.eq_false_iff.2 hf)]
      exact ((booted_diesUp s p _ _).trans (.of_meshOnly (.linksUp ..))).trans (booted_pushAll ..)

theorem mem_pcfgDies {b : List Byte} {p d : Nat} : d ∈ pcfgDies b p ↔ d < 4 ∧ pcfgPart b d = p := by
  simp [pcfgDies]

/-- The dies of a partition that is released leave reset; no other does. -/
theorem bootPartition_dieup (s : State) (p d : Nat) (hd : d < 4) :
    bitOf (bootPartition p s).sr.dieup d = (bitOf s.sr.dieup d || (decide (d ∈ partitionDies s p) && released s p)) := by
  unfold released
  cases him : partitionImage s p with
  | none =>
    rw [bootPartition_refused him, dieup_partFail]
    simp
  | some im =>
    by_cases hf : bitOf s.sr.releaseFails p = true
    · rw [bootPartition_held him hf, dieup_partFail]
      simp [hf]
    · rw [bootPartition_released him (Bool.eq_false_iff.2 hf)]
      rw [sr_pushAll, (MeshOnly.linksUp ..).sr_eq, dieup_diesUp, bitOf, BitVec.getLsbD_or]
      show (bitOf s.sr.dieup d || bitOf (bitsOf 4 (partitionDies s p)) d) = _
      rw [getLsbD_bitsOf 4 _ d hd]
      simp [hf]

theorem mem_bursarEvents {ds : List Nat} {d : Nat} (h : d ∈ ds) :
    Instr.bursarStart d ∈ ds.flatMap (fun d => [Instr.bursarStart d, .bursarInit d]) ∧
    Instr.bursarInit d ∈ ds.flatMap (fun d => [Instr.bursarStart d, .bursarInit d]) := by
  simp [h]

theorem bootPartition_due {s : State} {p d : Nat} (hr : released s p = true) (hd : d ∈ partitionDies s p) :
    Instr.bursarStart d ∈ (bootPartition p s).due ∧ Instr.bursarInit d ∈ (bootPartition p s).due := by
  unfold released at hr
  rw [Bool.and_eq_true, Option.isSome_iff_exists, Bool.not_eq_true'] at hr
  obtain ⟨⟨im, him⟩, hf⟩ := hr
  rw [bootPartition_released him hf]
  exact (mem_bursarEvents hd).imp (List.mem_append_right _) (List.mem_append_right _)

/-! ### All partitions (R18) -/

/-- Steps 5 and 6 for the partitions of a list, in its order. -/
def bootAll (l : List Nat) (s : State) : State := l.foldl (fun s p => bootPartition p s) s

theorem booted_bootAll (l : List Nat) (s : State) : Booted s (bootAll l s) := by
  induction l generalizing s with
  | nil => exact .refl s
  | cons p l ih => exact (booted_bootPartition s p).trans (ih _)

theorem bootAll_dieup (l : List Nat) (s : State) (d : Nat) (hd : d < 4) :
    bitOf (bootAll l s).sr.dieup d = (bitOf s.sr.dieup d || l.any fun p => decide (d ∈ partitionDies s p) && released s p) := by
  induction l generalizing s with
  | nil => simp [bootAll]
  | cons p l ih =>
    have hb := booted_bootPartition s p
    refine (ih (bootPartition p s)).trans ?_
    rw [bootPartition_dieup s p d hd, List.any_cons, Bool.or_assoc]
    simp only [hb.dies, hb.released]

theorem bootAll_due (l : List Nat) (s : State) {p d : Nat} (hp : p ∈ l) (hr : released s p = true) (hd : d ∈ partitionDies s p) :
    Instr.bursarStart d ∈ (bootAll l s).due ∧ Instr.bursarInit d ∈ (bootAll l s).due := by
  induction l generalizing s with
  | nil => exact absurd hp List.not_mem_nil
  | cons q l ih =>
    have hb := booted_bootPartition s q
    rcases List.mem_cons.1 hp with rfl | hp
    · have hmore := (booted_bootAll l (bootPartition p s)).due
      exact (bootPartition_due hr hd).imp (hmore _) (hmore _)
    · exact ih (bootPartition q s) hp (by rw [hb.released]; exact hr) (by rw [hb.dies]; exact hd)

/-- Every die's partition has its turn. -/
theorem pcfgPart_mem_bootOrder (b : List Byte) {d : Nat} (hd : d < 4) : pcfgPart b d ∈ bootOrder b := by
  have key (l r : List Nat) (x : Nat) (hx : x ∈ l ∨ x ∈ r) : x ∈ r.foldl (fun l p => if l.contains p then l else l ++ [p]) l := by
    induction r generalizing l with
    | nil => exact hx.resolve_right List.not_mem_nil
    | cons a r ih =>
      refine ih _ ?_
      rcases hx with hx | hx
      · left
        dsimp only
        split
        · exact hx
        · exact List.mem_append_left _ hx
      · rcases List.mem_cons.1 hx with rfl | hx
        · left
          dsimp only
          split
          next h => simpa using h
          next h => simp
        · exact .inr hx
  exact key _ _ _ (.inr (List.mem_map.2 ⟨d, List.mem_range.2 hd, rfl⟩))

/-- A die leaves reset in the boot when its partition is released. -/
theorem bootAll_bootOrder_dieup (s : State) (b : List Byte) (hb : s.sr.pcfg = some b) {d : Nat} (hd : d < 4) :
    bitOf (bootAll (bootOrder b) s).sr.dieup d = (bitOf s.sr.dieup d || released s (pcfgPart b d)) := by
  have hdies (p : Nat) : d ∈ partitionDies s p ↔ pcfgPart b d = p := by
    unfold partitionDies
    rw [hb, Option.getD_some, mem_pcfgDies]
    exact and_iff_right hd
  rw [bootAll_dieup _ _ _ hd]
  congr 1
  rw [Bool.eq_iff_iff, List.any_eq_true]
  simp only [hdies, Bool.and_eq_true, decide_eq_true_eq]
  constructor
  · rintro ⟨p, _, rfl, hr⟩
    exact hr
  · exact fun hr => ⟨_, pcfgPart_mem_bootOrder b hd, rfl, hr⟩

end Sys2Proof.Machine
end

section
/-! PROOFS. The boot as a whole: its failures and where it ends (R18). -/

namespace Sys2Proof.Machine

/-- The strongroom's firmware measured and its fuses burnt (step 3). -/
def withMeasure (ms : BitVec 384) (fuses : SMap (BitVec 64)) (u : State) : State :=
  { u with sr := { u.sr with ms := ms, fuses := fuses } }

/-- The partition configuration taken and the certificate of its key made (step 4). -/
def withConfig (b id : List Byte) (ms key : BitVec 384) (cert : List Byte) (u : State) : State :=
  { u with sr := { u.sr with
      pcfg := some b, ms := ms, devnum := BitVec.ofNat 6 (b.getD 2 0).toNat, idcert := id, aliasKey := some key, aliascert := cert } }

/-- Steps 5 and 6 for every partition; then the boot has ended. -/
def lastSteps (b : List Byte) (u : State) : State :=
  let v := bootAll (bootOrder b) ((List.range 4).foldl (fun s d => routersUp b d s) u)
  { v with sr := { v.sr with stage := 8, booted := true } }

/-- The fuses after the requests of the firmware. -/
def burnt (fw : Image) (fuses : SMap (BitVec 64)) : SMap (BitVec 64) :=
  [1, 2].foldl (fun f k => smMod 0 f k (· ||| Config.svnRequest fw.body k)) fuses

theorem smGet_burnt (fw : Image) (fuses : SMap (BitVec 64)) (k : Nat) :
    smGet 0 (burnt fw fuses) k = smGet 0 fuses k ||| if k = 1 ∨ k = 2 then Config.svnRequest fw.body k else 0 := by
  simp only [burnt, List.foldl_cons, List.foldl_nil, smGet_smMod]
  by_cases h1 : k = 1
  · subst h1
    simp
  · by_cases h2 : k = 2
    · subst h2
      simp
    · simp [h1, h2, Ne.symm h1, Ne.symm h2]

/-- The shape of step 4 to the end, whatever key is derived: the kernel would evaluate its digests. -/
theorem bootConfig_shape (b id : List Byte) (u : State) (ms1 ms2 key : BitVec 384) (fuses : SMap (BitVec 64)) :
    (let body := Config.aliasCertBody key ms2
      let s := { u with sr := { u.sr with ms := ms1, fuses := fuses } }
      let s := { s with
        sr := { s.sr with
          pcfg := some b, ms := ms2, devnum := BitVec.ofNat 6 (b.getD 2 0).toNat, idcert := id, aliasKey := some key
          aliascert := body ++ Config.ecdsaSign Config.identityKey body } }
      if !s.sr.stacksTrained then bootStop 4 s
      else
        let s := (List.range 4).foldl (fun s d => routersUp b d s) s
        let s := (bootOrder b).foldl (fun s p => bootPartition p s) s
        { s with sr := { s.sr with stage := 8, booted := true } }) =
    let body := Config.aliasCertBody key ms2
    let v := withConfig b id ms2 key (body ++ Config.ecdsaSign Config.identityKey body) (withMeasure ms1 fuses u)
    if u.sr.stacksTrained then lastSteps b v else bootStop 4 v := by
  by_cases h : u.sr.stacksTrained = true
  · rw [if_pos h]
    exact if_neg (by simp [h])
  · rw [if_neg h]
    exact if_pos (by simp [h])

section
variable {fw : Image} {u : State} {b : List Byte}

/-- Steps 3 to 6, by what the configuration and the identity certificate are found to be. -/
def bootConfig (fw : Image) (b : List Byte) (u : State) (id : Image) : State :=
  let ms := extend (extend 0 fw.digest) (sha384 b)
  let key := deriveAlias Config.deviceSecret ms
  let body := Config.aliasCertBody key ms
  withConfig b id.bytes ms key (body ++ Config.ecdsaSign Config.identityKey body)
    (withMeasure (extend 0 fw.digest) (burnt fw u.sr.fuses) u)

theorem bootFirmware_eq (hb : flashBytes u.sr 0x1000 16 = b) : bootFirmware fw u =
    match pcfgOk b, verifyContainer u.sr 3 0x4000 with
    | true, some id => if u.sr.stacksTrained then lastSteps b (bootConfig fw b u id) else bootStop 4 (bootConfig fw b u id)
    | _, _ => bootStop 3 (withMeasure (extend 0 fw.digest) (burnt fw u.sr.fuses) u) := by
  obtain ⟨v, hv⟩ : ∃ v, verifyContainer u.sr 3 0x4000 = v := ⟨_, rfl⟩
  have hid (ms : BitVec 384) (fuses : SMap (BitVec 64)) :
      verifyContainer { u with sr := { u.sr with ms := ms, fuses := fuses } }.sr 3 0x4000 = v :=
    (verifyContainer_congr rfl (.inl rfl)).trans hv
  rw [bootFirmware, hb, hv, hid]
  unfold bootConfig burnt
  -- variables for the digests and the configuration's check: the kernel would evaluate them
  generalize pcfgOk b = ok
  generalize extend 0 fw.digest = ms1
  generalize extend ms1 (sha384 b) = ms2
  cases ok with
  | false => rfl
  | true =>
    cases v with
    | none => rfl
    | some id =>
      exact bootConfig_shape b id.bytes u ms1 ms2 (deriveAlias Config.deviceSecret ms2) _

theorem bootFirmware_config {id : Image} (hb : flashBytes u.sr 0x1000 16 = b) (hok : pcfgOk b = true)
    (hid : verifyContainer u.sr 3 0x4000 = some id) : bootFirmware fw u =
    if u.sr.stacksTrained then lastSteps b (bootConfig fw b u id) else bootStop 4 (bootConfig fw b u id) := by
  rw [bootFirmware_eq hb, hok, hid]

theorem bootFirmware_refused (hb : flashBytes u.sr 0x1000 16 = b)
    (h : ∀ id, pcfgOk b = true → verifyContainer u.sr 3 0x4000 = some id → False) :
    bootFirmware fw u = bootStop 3 (withMeasure (extend 0 fw.digest) (burnt fw u.sr.fuses) u) := by
  rw [bootFirmware_eq hb]
  split
  next hok hid => exact (h _ hok hid).elim
  next => rfl

end

/-! ### Where the boot ends -/

section
variable {b : List Byte} {u : State}

theorem booted_routersUp (b : List Byte) (u : State) : MeshOnly u ((List.range 4).foldl (fun s d => routersUp b d s) u) :=
  .foldl _ (fun s d => .routersUp b d s) _ _

theorem booted_lastSteps (b : List Byte) (u : State) :
    Booted u (bootAll (bootOrder b) ((List.range 4).foldl (fun s d => routersUp b d s) u)) :=
  (Booted.of_meshOnly (booted_routersUp b u)).trans (booted_bootAll _ _)

/-- The strongroom but for where the boot stands and which dies and partitions have come up is as before the last steps. -/
theorem lastSteps_sr (b : List Byte) (u : State) :
    { (lastSteps b u).sr with
      stage := u.sr.stage, booted := u.sr.booted, dieup := u.sr.dieup, failp := u.sr.failp, fail := u.sr.fail } = u.sr := by
  have h := (booted_lastSteps b u).sr
  unfold lastSteps
  generalize bootAll (bootOrder b) ((List.range 4).foldl (fun s d => routersUp b d s) u) = v at h ⊢
  exact congrArg (fun r : Strongroom => { r with stage := u.sr.stage, booted := u.sr.booted }) h

theorem lastSteps_dieup (hb : u.sr.pcfg = some b) {d : Nat} (hd : d < 4) :
    bitOf (lastSteps b u).sr.dieup d = (bitOf u.sr.dieup d || released u (pcfgPart b d)) := by
  have hup := booted_routersUp b u
  have hpcfg : ((List.range 4).foldl (fun s d => routersUp b d s) u).sr.pcfg = some b := by rw [hup.sr_eq, hb]
  have h := bootAll_bootOrder_dieup _ b hpcfg hd
  rw [(Booted.of_meshOnly hup).released, hup.sr_eq] at h
  exact h

theorem lastSteps_due (hb : u.sr.pcfg = some b) {d : Nat} (hd : d < 4) (hr : released u (pcfgPart b d) = true) :
    Instr.bursarStart d ∈ (lastSteps b u).due ∧ Instr.bursarInit d ∈ (lastSteps b u).due := by
  have hup := Booted.of_meshOnly (booted_routersUp b u)
  refine bootAll_due (bootOrder b) ((List.range 4).foldl (fun s d => routersUp b d s) u) (pcfgPart_mem_bootOrder b hd) ?_ ?_
  · rw [hup.released, hr]
  · rw [hup.dies, partitionDies, hb, Option.getD_some, mem_pcfgDies]
    exact ⟨hd, rfl⟩

end

/-! ### The claim -/

def porstnHigh (s : State) : State := { s with sr := { s.sr with porstn := true } }

theorem exec_boot {s : State} (hp : s.sr.powered = true) (hst : s.sr.stage = 0) : exec .boot s = .next (
    if !(porstnHigh s).sr.selfTested then bootStop 1 (porstnHigh s)
    else match verifyContainer (porstnHigh s).sr 1 0x10000 with
      | none => bootStop 2 (porstnHigh s)
      | some fw => bootFirmware fw (porstnHigh s)) :=
  congrArg Host.Outcome.next (if_neg (by simp [hp, hst]))

/-- The boot stops with a code: what the statement says of a failure. -/
theorem bootStop_fails {s : State} {code : BitVec 4} {ms : BitVec 384} {map : SMap (BitVec 64)} {fuses : Nat → BitVec 64}
    (he : exec .boot s = .next (bootStop code (withMeasure ms map (porstnHigh s)))) (hf : ∀ k, smGet 0 map k = fuses k) :
    ∃ t, exec .boot s = .next t ∧ (∀ k, smGet 0 t.sr.fuses k = fuses k) ∧
      t = { s with sr := { s.sr with porstn := true, ms := ms, stage := 0xF, fail := code, fuses := t.sr.fuses } } :=
  ⟨_, he, hf, rfl⟩

/-- What step 4 has stored in the strongroom: the configuration, the measurement, the certificate and the derived key. -/
structure ConfigStored (s t : State) (b id : List Byte) (ms key : BitVec 384) (fuses : SMap (BitVec 64)) : Prop where
  fuses : t.sr.fuses = fuses
  flash : t.sr.flash = s.sr.flash
  pcfg : t.sr.pcfg = some b
  idcert : t.sr.idcert = id
  ms : t.sr.ms = ms
  devnum : t.sr.devnum = BitVec.ofNat 6 (b.getD 2 0).toNat
  aliasKey : t.sr.aliasKey = some key

section
variable (s : State) (b id : List Byte) (ms1 ms2 key : BitVec 384) (cert : List Byte) (fuses : SMap (BitVec 64))

/-- The state after step 4. -/
def afterConfig : State := withConfig b id ms2 key cert (withMeasure ms1 fuses (porstnHigh s))

theorem configStored_bootStop :
    ConfigStored s (bootStop 4 (afterConfig s b id ms1 ms2 key cert fuses)) b id ms2 key fuses :=
  ⟨rfl, rfl, rfl, rfl, rfl, rfl, rfl⟩

theorem configStored_lastSteps :
    ConfigStored s (lastSteps b (afterConfig s b id ms1 ms2 key cert fuses)) b id ms2 key fuses := by
  have hsr := lastSteps_sr b (afterConfig s b id ms1 ms2 key cert fuses)
  generalize lastSteps b (afterConfig s b id ms1 ms2 key cert fuses) = t at hsr ⊢
  obtain ⟨r, hr⟩ : ∃ r, r = (afterConfig s b id ms1 ms2 key cert fuses).sr := ⟨_, rfl⟩
  rw [← hr] at hsr
  have hfield {α : Type} (f : Strongroom → α) (h : f { t.sr with
      stage := r.stage, booted := r.booted, dieup := r.dieup, failp := r.failp, fail := r.fail } = f t.sr) : f t.sr = f r :=
    h.symm.trans (congrArg f hsr)
  constructor
  case fuses => exact (hfield (·.fuses) rfl).trans (congrArg (·.fuses) hr)
  case flash => exact (hfield (·.flash) rfl).trans (congrArg (·.flash) hr)
  case pcfg => exact (hfield (·.pcfg) rfl).trans (congrArg (·.pcfg) hr)
  case idcert => exact (hfield (·.idcert) rfl).trans (congrArg (·.idcert) hr)
  case ms => exact (hfield (·.ms) rfl).trans (congrArg (·.ms) hr)
  case devnum => exact (hfield (·.devnum) rfl).trans (congrArg (·.devnum) hr)
  case aliasKey => exact (hfield (·.aliasKey) rfl).trans (congrArg (·.aliasKey) hr)

theorem lastSteps_afterConfig (d : Nat) (hd : d < 4) :
    let t := lastSteps b (afterConfig s b id ms1 ms2 key cert fuses)
    let im := verifyContainer t.sr 2 (0x100000 + (b.getD (4 + pcfgPart b d) 0).toNat * 0x800000)
    let released := im.isSome && !bitOf s.sr.releaseFails (pcfgPart b d)
    (released = true → Instr.bursarStart d ∈ t.due ∧ Instr.bursarInit d ∈ t.due) ∧
    bitOf t.sr.dieup d = (bitOf s.sr.dieup d || released) := by
  have hstored := configStored_lastSteps s b id ms1 ms2 key cert fuses
  obtain ⟨u, hu⟩ : ∃ u, u = afterConfig s b id ms1 ms2 key cert fuses := ⟨_, rfl⟩
  have hpcfg : u.sr.pcfg = some b := congrArg (·.sr.pcfg) hu
  have hflash : u.sr.flash = s.sr.flash := congrArg (·.sr.flash) hu
  have hfuses : u.sr.fuses = fuses := congrArg (·.sr.fuses) hu
  have hfails : u.sr.releaseFails = s.sr.releaseFails := congrArg (·.sr.releaseFails) hu
  have hdieup : u.sr.dieup = s.sr.dieup := congrArg (·.sr.dieup) hu
  rw [← hu] at hstored ⊢
  intro t im rel
  have hrel : Machine.released u (pcfgPart b d) = rel := by
    unfold Machine.released partitionImage
    rw [hpcfg, Option.getD_some, hfails,
      verifyContainer_congr (hflash.trans hstored.flash.symm) (.inr (by rw [hfuses, hstored.fuses]))]
  refine ⟨fun h => lastSteps_due hpcfg hd (hrel.trans h), ?_⟩
  rw [← hrel, ← hdieup]
  exact lastSteps_dieup hpcfg hd

end

theorem claim_boot (s : State) (hp : s.sr.powered = true) (hst : s.sr.stage = 0) :
    let b := flashBytes s.sr 0x1000 16
    let old := smGet 0 s.sr.fuses
    let fails := fun (code : BitVec 4) (ms : BitVec 384) (fuses : Nat → BitVec 64) => ∃ t, exec .boot s = .next t ∧
      (∀ k, smGet 0 t.sr.fuses k = fuses k) ∧
      t = { s with sr := { s.sr with porstn := true, ms := ms, stage := 0xF, fail := code, fuses := t.sr.fuses } }
    if s.sr.selfTested = false then fails 1 s.sr.ms old
    else match verifyContainer s.sr 1 0x10000 with
      | none => fails 2 s.sr.ms old
      | some fw =>
        let burnt := fun k => old k ||| if k = 1 ∨ k = 2 then Config.svnRequest fw.body k else 0
        match pcfgOk b, verifyContainer s.sr 3 0x4000 with
        | true, some id => ∃ t, exec .boot s = .next t ∧ (∀ k, smGet 0 t.sr.fuses k = burnt k) ∧
            t.sr.flash = s.sr.flash ∧ t.sr.pcfg = some b ∧ t.sr.idcert = id.bytes ∧
            t.sr.ms = extend (extend 0 fw.digest) (sha384 b) ∧ t.sr.devnum = BitVec.ofNat 6 (b.getD 2 0).toNat ∧
            t.sr.aliasKey = some (deriveAlias Config.deviceSecret t.sr.ms) ∧
            (s.sr.stacksTrained = false → t.sr.stage = 0xF ∧ t.sr.fail = 4 ∧ t.sr.booted = s.sr.booted) ∧
            (s.sr.stacksTrained = true → t.sr.stage = 8 ∧ t.sr.booted = true ∧ ∀ d < 4,
              let im := verifyContainer t.sr 2 (0x100000 + (b.getD (4 + pcfgPart b d) 0).toNat * 0x800000)
              let released := im.isSome && !bitOf s.sr.releaseFails (pcfgPart b d)
              (released = true → Instr.bursarStart d ∈ t.due ∧ Instr.bursarInit d ∈ t.due) ∧
              bitOf t.sr.dieup d = (bitOf s.sr.dieup d || released))
        | _, _ => fails 3 (extend 0 fw.digest) burnt := by
  intro b old fails
  have hexec := exec_boot hp hst
  have hsame : withMeasure s.sr.ms s.sr.fuses (porstnHigh s) = porstnHigh s := rfl
  split
  next hself =>
    refine bootStop_fails ?_ fun _ => rfl
    rw [hexec, if_pos (by simp [porstnHigh, hself]), hsame]
  next hself =>
    rw [if_neg (by simpa [porstnHigh] using hself)] at hexec
    have hverify : verifyContainer (porstnHigh s).sr 1 0x10000 = verifyContainer s.sr 1 0x10000 := verifyContainer_congr rfl (.inr rfl)
    have hid3 : verifyContainer (porstnHigh s).sr 3 0x4000 = verifyContainer s.sr 3 0x4000 := verifyContainer_congr rfl (.inr rfl)
    have hb : flashBytes (porstnHigh s).sr 0x1000 16 = b := rfl
    split
    next hfw =>
      refine bootStop_fails ?_ fun _ => rfl
      rw [hexec, hverify, hfw, hsame]
    next fw hfw =>
      rw [hverify, hfw] at hexec
      intro fuses
      have hfuses (k : Nat) : smGet 0 (burnt fw s.sr.fuses) k = fuses k := smGet_burnt fw s.sr.fuses k
      split
      next id hok hid =>
        have hcfg := hexec.trans (congrArg _ (bootFirmware_config (fw := fw) hb hok (hid3.trans hid)))
        obtain ⟨ms1, hms1⟩ : ∃ ms1, ms1 = extend 0 fw.digest := ⟨_, rfl⟩
        obtain ⟨ms2, hms2⟩ : ∃ ms2, ms2 = extend ms1 (sha384 b) := ⟨_, rfl⟩
        obtain ⟨key, hkey⟩ : ∃ key, key = deriveAlias Config.deviceSecret ms2 := ⟨_, rfl⟩
        have hafter : bootConfig fw b (porstnHigh s) id = afterConfig s b id.bytes ms1 ms2 key
            (Config.aliasCertBody key ms2 ++ Config.ecdsaSign Config.identityKey (Config.aliasCertBody key ms2)) (burnt fw s.sr.fuses) := by
          rw [hkey, hms2, hms1]
          rfl
        rw [hafter, show (porstnHigh s).sr.stacksTrained = s.sr.stacksTrained from rfl] at hcfg
        rw [← hms1, ← hms2]
        by_cases htrained : s.sr.stacksTrained = true
        · rw [if_pos htrained] at hcfg
          obtain ⟨h1, h2, h3, h4, h5, h6, h7⟩ := configStored_lastSteps s b id.bytes ms1 ms2 key
            (Config.aliasCertBody key ms2 ++ Config.ecdsaSign Config.identityKey (Config.aliasCertBody key ms2)) (burnt fw s.sr.fuses)
          refine ⟨_, hcfg, fun k => by rw [h1]; exact hfuses k, h2, h3, h4, h5, h6, by rw [h7, h5, hkey],
            fun h => absurd htrained (by simp [h]), fun _ => ⟨rfl, rfl, lastSteps_afterConfig s b id.bytes ms1 ms2 key _ _⟩⟩
        · rw [if_neg htrained] at hcfg
          obtain ⟨h1, h2, h3, h4, h5, h6, h7⟩ := configStored_bootStop s b id.bytes ms1 ms2 key
            (Config.aliasCertBody key ms2 ++ Config.ecdsaSign Config.identityKey (Config.aliasCertBody key ms2)) (burnt fw s.sr.fuses)
          refine ⟨_, hcfg, fun k => by rw [h1]; exact hfuses k, h2, h3, h4, h5, h6, by rw [h7, h5, hkey],
            fun _ => ⟨rfl, rfl, rfl⟩, fun h => absurd h htrained⟩
      next hno =>
        exact bootStop_fails (hexec.trans (congrArg _ (bootFirmware_refused hb fun id hok hid => hno id hok (hid3.symm.trans hid)))) hfuses

theorem claim_boot_never (s : State) (h : s.sr.powered = false ∨ s.sr.stage ≠ 0) : NoEffect s .boot :=
  congrArg Host.Outcome.next (if_pos (by simpa only [Bool.or_eq_true, Bool.not_eq_true', decide_eq_true_eq] using h))

end Sys2Proof.Machine
end

section
/-! PROOFS. The reset of a partition (R17, R106). -/

namespace Sys2Proof.Machine

theorem smGet_outDie {α : Type} (z : α) (d : Nat) (f : Nat → Nat) (m : SMap α) (j : Nat) :
    smGet z (outDie d f m) j = if f j = d then z else smGet z m j := by
  unfold outDie
  rw [smGet_filter z m (fun j => decide (f j ≠ d))]
  by_cases h : f j = d <;> simp [h]

/-- A cluster at its reset values; 8 is applied to it while PWRALERTN is low (R13). -/
def resetCluster (s : State) (c : Nat) : Cluster := { applied := if s.sr.pwralertn = false ∧ c < 16 then 8 else 0 }

/-- The units that a reset reaches are as before. -/
structure SameUnits (s t : State) : Prop where
  clusters : t.clusters = s.clusters
  cores : t.cores = s.cores
  slots : t.slots = s.slots
  ctls : t.ctls = s.ctls
  engines : t.engines = s.engines
  bulk : t.bulk = s.bulk
  slices : t.slices = s.slices

theorem MeshOnly.sameUnits {s t : State} (h : MeshOnly s t) : SameUnits s t :=
  ⟨h.clusters_eq, h.cores_eq, h.slots_eq, h.ctls_eq, h.engines_eq, h.bulk_eq, h.slices_eq⟩

theorem Booted.sameUnits {s t : State} (h : Booted s t) : SameUnits s t := by
  have hrest := h.rest
  constructor
  case clusters => have := congrArg State.clusters hrest; exact this
  case cores => have := congrArg State.cores hrest; exact this
  case slots => have := congrArg State.slots hrest; exact this
  case ctls => have := congrArg State.ctls hrest; exact this
  case engines => have := congrArg State.engines hrest; exact this
  case bulk => have := congrArg State.bulk hrest; exact this
  case slices => have := congrArg State.slices hrest; exact this

/-- From `s` to `t` the units of the dies `ds` have been reset. -/
structure UnitsReset (ds : List Nat) (s t : State) : Prop where
  cluster : ∀ c, t.cluster c = if dieOfCluster c ∈ ds then resetCluster s c else s.cluster c
  core : ∀ n, t.core n = if dieOfCluster (unitOf n) ∈ ds then {} else s.core n
  slot : ∀ k, t.slot k = if dieOfCluster (unitOf (coreOf k)) ∈ ds then {} else s.slot k
  ctl : ∀ n, t.ctl n = if n / 2 ∈ ds then {} else s.ctl n
  engine : ∀ g, t.engine g = if g / 256 ∈ ds then {} else s.engine g
  bulk : ∀ g, t.bulkOf g = if g / 256 ∈ ds then {} else s.bulkOf g
  slice : ∀ g, t.slice g = if g / 256 ∈ ds then {} else s.slice g

theorem UnitsReset.of_same {ds : List Nat} {s s' t t' : State} (hs : SameUnits s s') (hsr : s'.sr = s.sr) (h : UnitsReset ds s' t)
    (ht : SameUnits t t') : UnitsReset ds s t' := by
  constructor
  case cluster =>
    intro c
    have := h.cluster c
    unfold State.cluster resetCluster at *
    rwa [ht.clusters, ← hs.clusters, ← hsr]
  case core =>
    intro n
    have := h.core n
    unfold State.core at *
    rwa [ht.cores, ← hs.cores]
  case slot =>
    intro n
    have := h.slot n
    unfold State.slot at *
    rwa [ht.slots, ← hs.slots]
  case ctl =>
    intro n
    have := h.ctl n
    unfold State.ctl at *
    rwa [ht.ctls, ← hs.ctls]
  case engine =>
    intro n
    have := h.engine n
    unfold State.engine at *
    rwa [ht.engines, ← hs.engines]
  case bulk =>
    intro n
    have := h.bulk n
    unfold State.bulkOf at *
    rwa [ht.bulk, ← hs.bulk]
  case slice =>
    intro n
    have := h.slice n
    unfold State.slice at *
    rwa [ht.slices, ← hs.slices]

/-- From `s` to `t` the dies `ds` have been reset, and neither the strongroom nor a partition has changed. -/
structure DiesReset (ds : List Nat) (s t : State) : Prop extends UnitsReset ds s t where
  sr : t.sr = s.sr
  parts : t.parts = s.parts

theorem DiesReset.nil (s : State) : DiesReset [] s s where
  sr := rfl
  parts := rfl
  toUnitsReset := ⟨fun _ => rfl, fun _ => rfl, fun _ => rfl, fun _ => rfl, fun _ => rfl, fun _ => rfl, fun _ => rfl⟩

/-- A die's clusters at their reset values, and 8 applied to the four of them while PWRALERTN is low. -/
theorem alertApplied_reset {d : Nat} (hd : d < 4) {s x : State} (hsr : x.sr = s.sr)
    (hcl : x.clusters = outDie d (fun u => dieOfCluster u) s.clusters) (c : Nat) :
    (alertApplied [d] x).cluster c = if dieOfCluster c ∈ [d] then resetCluster s c else s.cluster c := by
  have hx : x.cluster c = if dieOfCluster c = d then {} else s.cluster c := by
    rw [State.cluster, hcl]
    exact smGet_outDie ..
  rw [alertApplied_cluster, hx, hsr]
  simp only [List.mem_singleton]
  have hc : dieOfCluster c = if c < 16 then c / 4 else c - 16 := rfl
  by_cases h16 : c < 16
  · rw [hc, if_pos h16]
    by_cases h : c / 4 = d
    · simp [h, h16, resetCluster]
      split <;> rfl
    · simp [h]
  · rw [hc, if_neg h16, if_neg (show ¬ (s.sr.pwralertn = false ∧ c / 4 = d) by omega)]
    simp [h16, resetCluster]

theorem diesReset_dieReset {d : Nat} (hd : d < 4) (s : State) : DiesReset [d] s (dieReset d s) := by
  obtain ⟨x, hx, hsr, hparts, hcl, hco, hsl, hct, hen, hbu, hsc⟩ : ∃ x : State, dieReset d s = alertApplied [d] x ∧
      x.sr = s.sr ∧ x.parts = s.parts ∧ x.clusters = outDie d (fun u => dieOfCluster u) s.clusters ∧
      x.cores = outDie d (fun c => dieOfCluster (unitOf c)) s.cores ∧
      x.slots = outDie d (fun k => dieOfCluster (unitOf (coreOf k))) s.slots ∧ x.ctls = outDie d (· / 2) s.ctls ∧
      x.engines = outDie d (· / 256) s.engines ∧ x.bulk = outDie d (· / 256) s.bulk ∧ x.slices = outDie d (· / 256) s.slices :=
    ⟨_, rfl, rfl, rfl, rfl, rfl, rfl, rfl, rfl, rfl, rfl⟩
  rw [hx]
  have hrest := alertApplied_rest [d] x
  have hfield {α : Type} (f : State → α) (h : f { alertApplied [d] x with clusters := x.clusters } = f (alertApplied [d] x)) :
      f (alertApplied [d] x) = f x := h.symm.trans (congrArg f hrest)
  refine { sr := (hfield (·.sr) rfl).trans hsr, parts := (hfield (·.parts) rfl).trans hparts, toUnitsReset := ?_ }
  constructor
  case cluster => exact alertApplied_reset hd hsr hcl
  all_goals
    intro n
    simp only [List.mem_singleton]
  case core => exact (congrArg (smGet {} · n) ((hfield (·.cores) rfl).trans hco)).trans (smGet_outDie ..)
  case slot => exact (congrArg (smGet {} · n) ((hfield (·.slots) rfl).trans hsl)).trans (smGet_outDie ..)
  case ctl => exact (congrArg (smGet {} · n) ((hfield (·.ctls) rfl).trans hct)).trans (smGet_outDie ..)
  case engine => exact (congrArg (smGet {} · n) ((hfield (·.engines) rfl).trans hen)).trans (smGet_outDie ..)
  case bulk => exact (congrArg (smGet {} · n) ((hfield (·.bulk) rfl).trans hbu)).trans (smGet_outDie ..)
  case slice => exact (congrArg (smGet {} · n) ((hfield (·.slices) rfl).trans hsc)).trans (smGet_outDie ..)

theorem DiesReset.cons {d : Nat} {ds : List Nat} {s t u : State} (h : DiesReset [d] s t) (h' : DiesReset ds t u) :
    DiesReset (d :: ds) s u := by
  have hmem {α : Type} (a : Nat) (x y : α) : (if a ∈ ds then x else if a ∈ [d] then x else y) = if a ∈ d :: ds then x else y := by
    by_cases h1 : a ∈ ds
    · simp [h1]
    · by_cases h2 : a = d <;> simp [h1, h2]
  refine { sr := h'.sr.trans h.sr, parts := h'.parts.trans h.parts, toUnitsReset := ?_ }
  constructor
  case cluster =>
    intro c
    rw [h'.cluster, h.cluster, ← hmem]
    unfold resetCluster
    rw [h.sr]
  all_goals
    intro n
    rw [← hmem]
  case core => rw [h'.core, h.core]
  case slot => rw [h'.slot, h.slot]
  case ctl => rw [h'.ctl, h.ctl]
  case engine => rw [h'.engine, h.engine]
  case bulk => rw [h'.bulk, h.bulk]
  case slice => rw [h'.slice, h.slice]

theorem diesReset_foldl (ds : List Nat) (hds : ∀ d ∈ ds, d < 4) (s : State) : DiesReset ds s (ds.foldl (fun s d => dieReset d s) s) := by
  induction ds generalizing s with
  | nil => exact .nil s
  | cons d ds ih =>
    rw [List.forall_mem_cons] at hds
    exact (diesReset_dieReset hds.1 s).cons (ih hds.2 _)

/-! ### The reset up to its steps 5 and 6 -/

/-- The dies of a partition in reset, and nothing of an earlier failure left. -/
def partitionDown (p : Nat) (ds : List Nat) (s : State) : State :=
  { s with
    sr := { s.sr with dieup := s.sr.dieup &&& ~~~(bitsOf 4 ds), failp := s.sr.failp &&& ~~~(BitVec.ofNat 3 (2 ^ p)) }
    parts := smSet {} s.parts p { resetting := true } }

/-- The state in which steps 5 and 6 of a partition's reset begin. -/
def beforeBoot (b : List Byte) (p : Nat) (s : State) : State :=
  let ds := pcfgDies b p
  let s := (ds.flatMap fun d => bridgeEnds s d).foldl (fun s e => bridgeClose e.1 e.2 s) s
  ds.foldl (fun s d => routersUp b d s) (partitionDown p ds (ds.foldl (fun s d => dieReset d s) s))

section
variable {s : State} {p : Nat} {b : List Byte}

theorem exec_partitionReset (hb : s.sr.booted = true) (hp : s.sr.pcfg = some b) (hds : pcfgDies b p ≠ []) :
    exec (.partitionReset p) s = .next (bootPartition p (beforeBoot b p s)) := by
  show execPartitionReset p s = _
  rw [execPartitionReset, hp]
  exact congrArg Host.Outcome.next (if_neg (by simp [hb, hds]))

theorem beforeBoot_facts (b : List Byte) (p : Nat) (s : State) :
    UnitsReset (pcfgDies b p) s (beforeBoot b p s) ∧ (beforeBoot b p s).sr = (partitionDown p (pcfgDies b p) s).sr ∧
      (beforeBoot b p s).parts = (partitionDown p (pcfgDies b p) s).parts := by
  have hclose : MeshOnly s (((pcfgDies b p).flatMap fun d => bridgeEnds s d).foldl (fun s e => bridgeClose e.1 e.2 s) s) :=
    .foldl _ (fun s (e : Nat × Nat) => .bridgeClose s e.1 e.2) _ _
  unfold beforeBoot
  dsimp only
  generalize ((pcfgDies b p).flatMap fun d => bridgeEnds s d).foldl (fun s e => bridgeClose e.1 e.2 s) s = s1 at hclose ⊢
  have hreset := diesReset_foldl (pcfgDies b p) (fun d hd => (mem_pcfgDies.1 hd).1) s1
  generalize (pcfgDies b p).foldl (fun s d => dieReset d s) s1 = s2 at hreset ⊢
  have hup : MeshOnly (partitionDown p (pcfgDies b p) s2)
      ((pcfgDies b p).foldl (fun s d => routersUp b d s) (partitionDown p (pcfgDies b p) s2)) :=
    .foldl _ (fun s d => .routersUp b d s) _ _
  have hsr : s2.sr = s.sr := hreset.sr.trans hclose.sr_eq
  have hparts : s2.parts = s.parts := hreset.parts.trans hclose.parts_eq
  refine ⟨UnitsReset.of_same hclose.sameUnits hclose.sr_eq hreset.toUnitsReset ?_, ?_, ?_⟩
  · obtain ⟨h1, h2, h3, h4, h5, h6, h7⟩ := hup.sameUnits
    exact ⟨h1, h2, h3, h4, h5, h6, h7⟩
  · rw [hup.sr_eq]
    unfold partitionDown
    rw [hsr]
  · rw [hup.parts_eq]
    unfold partitionDown
    rw [hparts]

end

/-! ### What steps 5 and 6 leave of a partition -/

section
variable (s : State) (p : Nat) (f : Part → Part)

theorem part_partFail (code : BitVec 4) (q : Nat) :
    (partFail p code (s.modPart p f)).part q = if p = q then f (s.part p) else s.part q := State.part_modPart ..

theorem failp_partFail (code : BitVec 4) : (partFail p code (s.modPart p f)).sr.failp = s.sr.failp ||| BitVec.ofNat 3 (2 ^ p) := rfl

theorem parts_diesUp (bytes : List Byte) : (diesUp p f bytes s).parts = (s.modPart p f).parts := rfl

theorem failp_diesUp (bytes : List Byte) : (diesUp p f bytes s).sr.failp = s.sr.failp := rfl

theorem parts_pushAll (es : List Instr) : (s.pushAll es).parts = s.parts := rfl

theorem part_released (bytes : List Byte) (ds : List Nat) (es : List Instr) (q : Nat) :
    ((linksUp ds (diesUp p f bytes s)).pushAll es).part q = if p = q then f (s.part p) else s.part q := by
  have h : ((linksUp ds (diesUp p f bytes s)).pushAll es).part q = (s.modPart p f).part q := by
    rw [State.part, parts_pushAll, (MeshOnly.linksUp ..).parts_eq, parts_diesUp, State.part]
  rw [h, State.part_modPart]

theorem failp_released (bytes : List Byte) (ds : List Nat) (es : List Instr) :
    ((linksUp ds (diesUp p f bytes s)).pushAll es).sr.failp = s.sr.failp := by
  rw [sr_pushAll, (MeshOnly.linksUp ..).sr_eq, failp_diesUp]

end

theorem bitOf_failp_set (x : BitVec 3) (p : Nat) : bitOf (x &&& ~~~(BitVec.ofNat 3 (2 ^ p)) ||| BitVec.ofNat 3 (2 ^ p)) p = decide (p < 3) := by
  simp only [bitOf, BitVec.getLsbD_or, BitVec.getLsbD_and, BitVec.getLsbD_not, BitVec.getLsbD_ofNat, Nat.testBit_two_pow_self]
  by_cases h : p < 3
  · simp [h]
  · simp [h]

theorem bitOf_failp_clear (x : BitVec 3) (p : Nat) : bitOf (x &&& ~~~(BitVec.ofNat 3 (2 ^ p))) p = false := by
  simp only [bitOf, BitVec.getLsbD_and, BitVec.getLsbD_not, BitVec.getLsbD_ofNat, Nat.testBit_two_pow_self]
  by_cases h : p < 3 <;> simp [h]

theorem claim_partitionReset (s : State) (p : Nat) (b : List Byte) (hbooted : s.sr.booted = true) (hpcfg : s.sr.pcfg = some b)
    (hds : pcfgDies b p ≠ []) :
    let mine := fun d => d < 4 ∧ pcfgPart b d = p
    let im := verifyContainer s.sr 2 (0x100000 + (b.getD (4 + p) 0).toNat * 0x800000)
    ∃ t, exec (.partitionReset p) s = .next t ∧
      (∀ c, mine (dieOfCluster c) → t.cluster c = { applied := if s.sr.pwralertn = false ∧ c < 16 then 8 else 0 }) ∧
      (∀ c, ¬ mine (dieOfCluster c) → t.cluster c = s.cluster c) ∧
      (∀ n, mine (dieOfCluster (unitOf n)) → t.core n = {}) ∧ (∀ n, ¬ mine (dieOfCluster (unitOf n)) → t.core n = s.core n) ∧
      (∀ k, mine (dieOfCluster (unitOf (coreOf k))) → t.slot k = {}) ∧
      (∀ k, ¬ mine (dieOfCluster (unitOf (coreOf k))) → t.slot k = s.slot k) ∧
      (∀ n, mine (n / 2) → t.ctl n = {}) ∧ (∀ n, ¬ mine (n / 2) → t.ctl n = s.ctl n) ∧
      (∀ g, mine (g / 256) → t.engine g = {} ∧ t.bulkOf g = {} ∧ t.slice g = {}) ∧
      (∀ g, ¬ mine (g / 256) → t.engine g = s.engine g ∧ t.bulkOf g = s.bulkOf g ∧ t.slice g = s.slice g) ∧
      (t.part p).requested = false ∧ (∀ q, q ≠ p → t.part q = s.part q) ∧
      -- where step 5 or 6 fails the dies stay in reset
      let down := (t.part p).resetting = true ∧ bitOf t.sr.failp p = decide (p < 3) ∧ ∀ d, mine d → bitOf t.sr.dieup d = false
      match im with
      | none => down
      | some i => (t.part p).mp = extend 0 i.digest ∧ (t.part p).svn = BitVec.ofNat 32 i.svn ∧
          (bitOf s.sr.releaseFails p = true → down) ∧
          (bitOf s.sr.releaseFails p = false → (t.part p).resetting = false ∧ bitOf t.sr.failp p = false ∧
            ∀ d, mine d → bitOf t.sr.dieup d = true ∧ Instr.bursarStart d ∈ t.due ∧ Instr.bursarInit d ∈ t.due) := by
  intro mine im
  have hmine (d : Nat) : mine d ↔ d ∈ pcfgDies b p := mem_pcfgDies.symm
  obtain ⟨hunits, hsr, hparts⟩ := beforeBoot_facts b p s
  have hexec := exec_partitionReset hbooted hpcfg hds
  generalize beforeBoot b p s = u at hunits hsr hparts hexec
  have hbootd := booted_bootPartition u p
  obtain ⟨hcl, hco, hsl, hct, hen, hbu, hsc⟩ := UnitsReset.of_same ⟨rfl, rfl, rfl, rfl, rfl, rfl, rfl⟩ rfl hunits hbootd.sameUnits
  simp only [← hmine] at hcl hco hsl hct hen hbu hsc
  have hdies : partitionDies u p = pcfgDies b p := by
    rw [partitionDies, hsr]
    exact congrArg (fun o : Option (List Byte) => pcfgDies (o.getD []) p) hpcfg
  have himage : partitionImage u p = im := by
    rw [partitionImage, hsr, show (partitionDown p (pcfgDies b p) s).sr.pcfg = some b from hpcfg]
    exact verifyContainer_congr rfl (.inr rfl)
  refine ⟨_, hexec, fun c h => (hcl c).trans (if_pos h), fun c h => (hcl c).trans (if_neg h), fun n h => (hco n).trans (if_pos h),
    fun n h => (hco n).trans (if_neg h), fun n h => (hsl n).trans (if_pos h), fun n h => (hsl n).trans (if_neg h),
    fun n h => (hct n).trans (if_pos h), fun n h => (hct n).trans (if_neg h),
    fun g h => ⟨(hen g).trans (if_pos h), (hbu g).trans (if_pos h), (hsc g).trans (if_pos h)⟩,
    fun g h => ⟨(hen g).trans (if_neg h), (hbu g).trans (if_neg h), (hsc g).trans (if_neg h)⟩, ?_⟩
  have hpart (q : Nat) : u.part q = if p = q then { resetting := true } else s.part q := by
    rw [State.part, hparts, partitionDown, State.part, smGet_smSet]
  have hfails : u.sr.releaseFails = s.sr.releaseFails := by rw [hsr, partitionDown]
  have hfailp : u.sr.failp = s.sr.failp &&& ~~~(BitVec.ofNat 3 (2 ^ p)) := by rw [hsr, partitionDown]
  have hdieup (d : Nat) (h : mine d) : bitOf (bootPartition p u).sr.dieup d = released u p := by
    have h0 : bitOf u.sr.dieup d = false := by
      rw [hsr]
      show (s.sr.dieup &&& ~~~(bitsOf 4 (pcfgDies b p))).getLsbD d = false
      rw [BitVec.getLsbD_and, BitVec.getLsbD_not]
      have hset : (bitsOf 4 (pcfgDies b p)).getLsbD d = true :=
        (getLsbD_bitsOf 4 _ d h.1).trans (decide_eq_true ((hmine d).1 h))
      simp [hset]
    rw [bootPartition_dieup u p d h.1, h0, hdies, decide_eq_true ((hmine d).1 h), Bool.false_or, Bool.true_and]
  -- a partition that has failed, whatever step 5 has stored
  have hdown {code : BitVec 4} {f : Part → Part} (hf : (f { resetting := true }).resetting = true)
      (h : bootPartition p u = partFail p code (u.modPart p f)) (hrel : released u p = false) :
      ((bootPartition p u).part p).resetting = true ∧ bitOf (bootPartition p u).sr.failp p = decide (p < 3) ∧
        ∀ d, mine d → bitOf (bootPartition p u).sr.dieup d = false := by
    refine ⟨?_, ?_, fun d hd => (hdieup d hd).trans hrel⟩
    · rw [h, part_partFail, if_pos rfl, hpart, if_pos rfl, hf]
    · rw [h, failp_partFail, hfailp, bitOf_failp_set]
  have hothers {q : Nat} (hq : q ≠ p) {f : Part → Part} (h : (bootPartition p u).part q = if p = q then f (u.part p) else u.part q) :
      (bootPartition p u).part q = s.part q := by
    rw [h, if_neg hq.symm, hpart, if_neg hq.symm]
  cases him : im with
  | none =>
    have hboot := bootPartition_refused (himage.trans him)
    have hall (q : Nat) := (congrArg (fun v : State => v.part q) hboot).trans (part_partFail ..)
    have hrel : released u p = false := by rw [released, himage, him]; rfl
    refine ⟨?_, fun q hq => hothers hq (f := fun x => { x with resetting := true }) (hall q), hdown rfl hboot hrel⟩
    rw [hall, if_pos rfl, hpart, if_pos rfl]
  | some i =>
    obtain ⟨f, hf⟩ : ∃ f, f = measured u p i := ⟨_, rfl⟩
    have hstored : (f { resetting := true }).requested = false ∧ (f { resetting := true }).mp = extend 0 i.digest ∧
        (f { resetting := true }).svn = BitVec.ofNat 32 i.svn ∧ (f { resetting := true }).resetting = bitOf s.sr.releaseFails p := by
      rw [hf, ← hfails]
      exact ⟨rfl, rfl, rfl, rfl⟩
    obtain ⟨hreq, hmp, hsvn, hresetting⟩ := hstored
    have hfrom (h : ∀ q, (bootPartition p u).part q = if p = q then f (u.part p) else u.part q) :
        (bootPartition p u).part p = f { resetting := true } := by
      rw [h, if_pos rfl, hpart, if_pos rfl]
    by_cases hfail : bitOf s.sr.releaseFails p = true
    · have hboot := bootPartition_held (himage.trans him) (hfails ▸ hfail)
      rw [← hf] at hboot
      have hall (q : Nat) := (congrArg (fun v : State => v.part q) hboot).trans (part_partFail ..)
      have hrel : released u p = false := by
        rw [released, hfails, hfail]
        simp
      refine ⟨?_, fun q hq => hothers hq (hall q), ?_, ?_, fun _ => hdown (hresetting.trans hfail) hboot hrel,
        fun h => absurd (hfail.symm.trans h) (by decide)⟩
      · rw [hfrom hall, hreq]
      · rw [hfrom hall, hmp]
      · rw [hfrom hall, hsvn]
    · have hfail' := Bool.eq_false_iff.2 hfail
      have hboot := bootPartition_released (himage.trans him) (hfails ▸ hfail')
      rw [← hf] at hboot
      have hall (q : Nat) := (congrArg (fun v : State => v.part q) hboot).trans (part_released ..)
      have hrel : released u p = true := by
        rw [released, himage, him, hfails, hfail']
        rfl
      refine ⟨?_, fun q hq => hothers hq (hall q), ?_, ?_, fun h => absurd h hfail, fun _ => ⟨?_, ?_, fun d hd =>
        ⟨(hdieup d hd).trans hrel, bootPartition_due hrel (by rw [hdies]; exact (hmine d).1 hd)⟩⟩⟩
      · rw [hfrom hall, hreq]
      · rw [hfrom hall, hmp]
      · rw [hfrom hall, hsvn]
      · rw [hfrom hall, hresetting, hfail']
      · rw [hboot, failp_released, hfailp, bitOf_failp_clear]

/-! ### The obligation -/

theorem claim_bootAndReset : Claim.BootAndReset :=
  ⟨claim_porstnAssert, claim_railFault, claim_boot, claim_boot_never, claim_partitionReset, claim_bursarStart, claim_bursarInit⟩

/-- Settles O54: register stores, throttle and temperatures, the log unit and its ring, the I3C blocks, the boot and the resets, each by
what its event does to the one unit that it changes. -/
theorem managementEvents : Obligations.ManagementEvents :=
  ⟨claim_registerWrites, claim_throttleAndThermal, claim_logRing, claim_logAndI3c, claim_bootAndReset⟩

end Sys2Proof.Machine
end

section
/-! SUPPORT. Links and buffers of a router: what a change of one leaves of the others (R51, R58, R62 to R64). -/

namespace Sys2Proof.Machine

section
variable (s : State) (r k n : Nat)

theorem inBuf_modIn (f : InBuf → InBuf) (j : Nat) : inBuf (modIn r k f s) n j = if r = n ∧ k = j then f (inBuf s r k) else inBuf s n j := by
  unfold inBuf modIn
  rw [State.router_modRouter]
  by_cases hr : r = n
  · subst hr
    rw [if_pos rfl, smGet_smMod]
    simp only [true_and]
  · rw [if_neg hr, if_neg fun h => hr h.1]

theorem linkOf_modLink (f : Link → Link) (n q : Nat) :
    linkOf (modLink r k f s) n q = if r = n ∧ k = q then f (linkOf s r k) else linkOf s n q := by
  unfold linkOf modLink
  rw [State.router_modRouter]
  by_cases hr : r = n
  · subst hr
    rw [if_pos rfl, smGet_smMod]
    simp only [true_and]
  · rw [if_neg hr, if_neg fun h => hr h.1]

theorem mem_busy_wake : n ∈ (wake r s).busy ↔ n ∈ s.busy ∨ n = r := by
  unfold wake
  split
  next h =>
    simp only [List.contains_iff_mem] at h
    constructor
    · exact .inl
    · rintro (hn | rfl)
      · exact hn
      · exact h
  next => simp

theorem wake_eq : wake r s = { s with busy := (wake r s).busy } := by
  unfold wake
  split <;> rfl

theorem bufferIs_modIn (f : InBuf → InBuf) : BufferIs s (modIn r k f s) r k (f (inBuf s r k)) where
  it j := by
    rw [inBuf_modIn]
    simp only [true_and, eq_comm]
  router := by
    rw [modIn, State.router_modRouter, if_pos rfl]
  others n hn := by
    rw [modIn, State.router_modRouter, if_neg hn.symm]
  rest := rfl

end

section
variable {s t u : State} {r k : Nat}

/-- A change of a buffer by what the buffer holds. -/
theorem bufferIs_of_modIn {f : InBuf → InBuf} {b : InBuf} (h : f (inBuf s r k) = b) : BufferIs s (modIn r k f s) r k b :=
  h ▸ bufferIs_modIn s r k f

/-- A change of a link; the router is looked at again if the state that follows says so. -/
theorem linkIs_modLink (s : State) (r port : Nat) (f : Link → Link) : LinkIs s (modLink r port f s) r port (f (linkOf s r port)) [] false where
  it k := by
    rw [linkOf_modLink]
    simp only [true_and, eq_comm]
  router := by
    rw [modLink, State.router_modRouter, if_pos rfl]
  others n hn := by
    rw [modLink, State.router_modRouter, if_neg hn.symm]
  due := (List.append_nil _).symm
  busy n := by simp [modLink, State.modRouter]
  rest := rfl

theorem linkIs_wake (s : State) (r port : Nat) : LinkIs s (wake r s) r port (linkOf s r port) [] true := by
  have hr (n : Nat) : (wake r s).router n = s.router n := by
    rw [wake_eq]
    rfl
  constructor
  case it =>
    intro k
    unfold linkOf
    rw [hr]
    split
    next h => rw [h]
    next => rfl
  case router => rw [hr]
  case others => exact fun n _ => hr n
  case due =>
    rw [wake_eq, List.append_nil]
  case busy =>
    intro n
    rw [mem_busy_wake]
    simp
  case rest =>
    rw [wake_eq]

theorem linkIs_pushAll (s : State) (r port : Nat) (es : List Instr) : LinkIs s (s.pushAll es) r port (linkOf s r port) es false where
  it k := by
    split
    next h => rw [h]; rfl
    next => rfl
  router := rfl
  others _ _ := rfl
  due := rfl
  busy n := by simp [State.pushAll]
  rest := rfl

theorem LinkIs.trans {port : Nat} {l l' : Link} {a b : List Instr} {w w' : Bool} (h : LinkIs s t r port l a w) (h' : LinkIs t u r port l' b w') :
    LinkIs s u r port l' (a ++ b) (w || w') where
  it k := by
    rw [h'.it, h.it]
    split <;> rfl
  router := (congrArg (fun x : Router => { x with links := (s.router r).links }) h'.router).trans h.router
  others n hn := (h'.others n hn).trans (h.others n hn)
  due := by rw [h'.due, h.due, List.append_assoc]
  busy n := by
    rw [h'.busy, h.busy]
    cases w <;> cases w' <;> simp
  rest := (congrArg (fun v : State => { v with routers := s.routers, due := s.due, busy := s.busy }) h'.rest).trans h.rest

end

end Sys2Proof.Machine
end

section
/-! PROOFS. Which inputs have a flit ready for an output (R49, R57, R60, R62, R163). -/

namespace Sys2Proof.Machine

/-- The flit at the front of a buffer may be sent: it has been in the router for two mesh cycles, and an endpoint takes it. -/
def ripe (s : State) (r port : Nat) (b : InBuf) : Bool :=
  match b.flits with
  | f :: _ => decide (f.2 + 2 ≤ mcAt s r) && (port ≠ 4 || endpointTakes s r b.pkt f.1)
  | [] => false

/-- The receiver of an output holds flits of a network's class. -/
def outputHeld (s : State) (r port : Nat) (vn : Bool) (c : Nat) : Prop := c < 2 ∧ port ≠ 4 ∧ stopped s r port vn c = true

section
variable {s : State} {r port c : Nat} {vn : Bool}

theorem pairIx_lt (hc : c < 3) : pairIx vn c < 6 := by
  cases vn <;> simp [pairIx] <;> omega

theorem pairIx_not : pairIx (!vn) c ≠ pairIx vn c := by
  cases vn <;> simp [pairIx]

theorem smGet_ins_of_ne {ins : SMap InBuf} {n : Nat} (h : ∀ e ∈ ins, e.1 ≠ n) : smGet {} ins n = ({} : InBuf) := by
  induction ins with
  | nil => rfl
  | cons e ins ih =>
    rw [List.forall_mem_cons] at h
    simp only [smGet, h.1, if_false]
    exact ih h.2

theorem readyKeys_held (h : outputHeld s r port vn c) : readyKeys s r port vn c = [] := by
  obtain ⟨h1, h2, h3⟩ := h
  exact if_pos (by simp [h1, h2, h3])

theorem readyKeys_eq (h : ¬ outputHeld s r port vn c) : readyKeys s r port vn c =
    match smGet 0 (s.router r).owner (6 * port + pairIx vn c) with
    | i + 1 => if ripe s r port (smGet {} (s.router r).ins (inKey i (pairIx vn c))) then [inKey i (pairIx vn c)] else []
    | 0 => ((s.router r).ins.filter fun e =>
        e.1 % 6 = pairIx vn c && e.2.out = some port && !e.2.started && ripe s r port e.2).map (·.1) :=
  if_neg (by simpa [outputHeld, and_assoc] using h)

/-- No input holds a flit of the pair. -/
theorem readyKeys_of_no_input (hc : c < 3) (h : ∀ e ∈ (s.router r).ins, e.1 % 6 ≠ pairIx vn c) : readyKeys s r port vn c = [] := by
  by_cases hh : outputHeld s r port vn c
  · exact readyKeys_held hh
  · rw [readyKeys_eq hh]
    split
    next i _ =>
      rw [smGet_ins_of_ne]
      · rfl
      · intro e he hk
        refine h e he ?_
        have := pairIx_lt (vn := vn) hc
        rw [hk, inKey]
        omega
    next =>
      rw [List.filter_eq_nil_iff.2]
      · rfl
      · intro e he
        simp [h e he]

theorem pickKey_nil (h : readyKeys s r port vn c = []) : pickKey s r port vn c = none := by
  rw [pickKey, h]
  rfl

theorem pickKey_single {k : Nat} (h : readyKeys s r port vn c = [k]) : pickKey s r port vn c = some k := by
  rw [pickKey, h]
  rfl

theorem pickKey_pair {i j : Nat} (h : readyKeys s r port vn c = [i, j]) : pickKey s r port vn c =
    if before s r (c = 2) (smGet 0 (s.router r).lastWin (8 * port + pairIx vn c)) j i then some j else some i := by
  rw [pickKey, h]
  rfl

/-- One network has no flit ready: the other's goes. -/
theorem readyOf_of_other (h : pickKey s r port (!vn) c = none) : readyOf s r port c = (pickKey s r port vn c).map fun k => (vn, k) := by
  unfold readyOf
  cases vn
  · rw [show (!false) = true from rfl] at h
    rw [h]
    cases pickKey s r port false c <;> rfl
  · rw [show (!true) = false from rfl] at h
    rw [h]
    cases pickKey s r port true c <;> rfl

theorem readyOf_of_both {i j : Nat} (hi : pickKey s r port false c = some i) (hj : pickKey s r port true c = some j) :
    readyOf s r port c = some (if (if c = 2 then !before s r true 0 j i else smGet true (s.router r).lastVn (4 * port + c))
      then (false, i) else (true, j)) := by
  rw [readyOf, hi, hj]

end

/-! ### One input with a packet -/

section
variable {s : State} {r port c : Nat} {vn : Bool} {k : Nat} {b : InBuf}

theorem inKey_self {p : Nat} (hk : k % 6 = p) : inKey (k / 6) p = k := by
  rw [inKey]
  omega

/-- The other network has no flit ready when every input holds packets of this one. -/
theorem pickKey_other (hc : c < 3)
    (h : ∀ e ∈ (s.router r).ins, e.1 % 6 = pairIx vn c) : pickKey s r port (!vn) c = none :=
  pickKey_nil (readyKeys_of_no_input hc fun e he hx => pairIx_not (hx.symm.trans (h e he)))

theorem readyOf_none (h : ∀ vn, readyKeys s r port vn c = []) : readyOf s r port c = none := by
  rw [readyOf_of_other (vn := true) (pickKey_nil (h _)), pickKey_nil (h _)]
  rfl

/-- No input holds a flit that may be sent. -/
theorem readyKeys_of_not_ripe (h : ∀ e ∈ (s.router r).ins, ripe s r port e.2 = false) : readyKeys s r port vn c = [] := by
  have hget (ins : SMap InBuf) (hi : ∀ e ∈ ins, ripe s r port e.2 = false) (n : Nat) : ripe s r port (smGet {} ins n) = false := by
    induction ins with
    | nil => rfl
    | cons e ins ih =>
      rw [List.forall_mem_cons] at hi
      simp only [smGet]
      split
      · exact hi.1
      · exact ih hi.2
  by_cases hh : outputHeld s r port vn c
  · exact readyKeys_held hh
  · rw [readyKeys_eq hh]
    split
    next => rw [hget _ h]; rfl
    next =>
      rw [List.filter_eq_nil_iff.2]
      · rfl
      · intro e he
        simp [h e he]

variable (hh : ¬ outputHeld s r port vn c)
include hh

/-- The input whose packet is open at the output. -/
theorem readyKeys_of_owner (hk : k % 6 = pairIx vn c) (hget : smGet {} (s.router r).ins k = b) (hripe : ripe s r port b = true)
    (hown : smGet 0 (s.router r).owner (6 * port + pairIx vn c) = k / 6 + 1) : readyKeys s r port vn c = [k] := by
  rw [readyKeys_eq hh, hown]
  simp only [inKey_self hk, hget, hripe, if_true]

/-- Another input's packet is open at the output. -/
theorem readyKeys_of_other_owner (hc : c < 3) (hins : (s.router r).ins = [(k, b)])
    (h0 : smGet 0 (s.router r).owner (6 * port + pairIx vn c) ≠ 0)
    (hown : smGet 0 (s.router r).owner (6 * port + pairIx vn c) ≠ k / 6 + 1) : readyKeys s r port vn c = [] := by
  rw [readyKeys_eq hh]
  split
  next i hi =>
    rw [smGet_ins_of_ne]
    · rfl
    · rw [hins]
      intro e he hx
      have := pairIx_lt (vn := vn) hc
      rw [List.mem_singleton.1 he, inKey] at hx
      dsimp only at hx
      omega
  next hi => exact absurd hi h0

/-- New packets at an output that no packet has open. -/
theorem readyKeys_of_free (hown : smGet 0 (s.router r).owner (6 * port + pairIx vn c) = 0) : readyKeys s r port vn c =
    ((s.router r).ins.filter fun e =>
      e.1 % 6 = pairIx vn c && e.2.out = some port && !e.2.started && ripe s r port e.2).map (·.1) := by
  rw [readyKeys_eq hh, hown]

end

/-! ### Two inputs with packets -/

section
variable {s : State} {r port c : Nat} {vn vn' : Bool} {i j : Nat} {b d : InBuf} {a a' : Nat}

/-- A new packet at the front of a buffer may be sent by the output. -/
def Stands (s : State) (r port : Nat) (b : InBuf) (a : Nat) : Prop :=
  b.out = some port ∧ ∃ f fs, b.flits = (f, a) :: fs ∧ a + 2 ≤ mcAt s r ∧ (port = 4 → endpointTakes s r b.pkt f = true)

theorem Stands.ripe (h : Stands s r port b a) : ripe s r port b = true := by
  obtain ⟨_, f, fs, hfl, ha, htakes⟩ := h
  simp only [Machine.ripe, hfl]
  by_cases h4 : port = 4
  · simp [ha, htakes h4]
  · simp [ha, h4]

theorem rrDist_eq (last k : Nat) :
    rrDist last (k / 6) = ((if k / 6 < 4 then k / 6 + 1 else if 5 ≤ k / 6 ∧ k / 6 < 8 then k / 6 else 0) + 8 - (last + 1)) % 8 := by
  simp only [rrDist, rrPlace, Bool.and_eq_true, decide_eq_true_eq]

theorem arrivalOf_eq (hget : inBuf s r i = b) (h : Stands s r port b a) : arrivalOf s r i = a := by
  obtain ⟨_, f, fs, hfl, _⟩ := h
  rw [arrivalOf, hget, hfl]
  rfl

end

/-- The timed flit that arrived first goes first. -/
theorem before_timed {p q : Nat} (h : arrivalOf s r p < arrivalOf s r q) (last : Nat) :
    before s r true last p q = true ∧ before s r true last q p = false := by
  simp only [before, if_true]
  simp [h, h.not_gt, h.ne']

/-! ### The claim -/

section
variable {s : State} {r port c : Nat}

theorem readyOf_of_one {k : Nat} {b : InBuf} {a : Nat} {vn : Bool} (hc : c < 3) (hins : (s.router r).ins = [(k, b)])
    (hk : k % 6 = pairIx vn c) (hb : Stands s r port b a) :
    let own := smGet 0 (s.router r).owner (6 * port + pairIx vn c)
    (own = k / 6 + 1 ∨ (own = 0 ∧ b.started = false) → ¬ outputHeld s r port vn c → readyOf s r port c = some (vn, k)) ∧
    (outputHeld s r port vn c ∨ (own ≠ 0 ∧ own ≠ k / 6 + 1) ∨ (own = 0 ∧ b.started = true) → readyOf s r port c = none) := by
  intro own
  have hother : pickKey s r port (!vn) c = none := pickKey_other hc (by simpa [hins] using hk)
  have hone (h : readyKeys s r port vn c = [k]) : readyOf s r port c = some (vn, k) := by
    rw [readyOf_of_other hother, pickKey_single h]
    rfl
  have hnone (h : readyKeys s r port vn c = []) : readyOf s r port c = none := by
    rw [readyOf_of_other hother, pickKey_nil h]
    rfl
  have hfree (hh : ¬ outputHeld s r port vn c) (hown : own = 0) : readyKeys s r port vn c = if b.started then [] else [k] := by
    rw [readyKeys_of_free hh hown, hins]
    cases hst : b.started <;> simp [hk, hb.1, hb.ripe, hst]
  constructor
  · rintro (hown | ⟨hown, hst⟩) hh
    · exact hone (readyKeys_of_owner hh hk (by rw [hins]; simp [smGet]) hb.ripe hown)
    · exact hone (by rw [hfree hh hown, hst]; rfl)
  · intro h
    refine hnone ?_
    by_cases hh : outputHeld s r port vn c
    · exact readyKeys_held hh
    · rcases h with h | ⟨h0, h1⟩ | ⟨h0, h1⟩
      · exact absurd h hh
      · exact readyKeys_of_other_owner hh hc hins h0 h1
      · rw [hfree hh h0, h1]
        rfl

theorem readyOf_of_two {i j : Nat} {b d : InBuf} {a a' : Nat} {vn vn' : Bool} (hc : c < 3) (hins : (s.router r).ins = [(i, b), (j, d)])
    (hij : i ≠ j) (hi : i % 6 = pairIx vn c) (hj : j % 6 = pairIx vn' c) (hb : Stands s r port b a) (hd : Stands s r port d a')
    (hbs : b.started = false) (hds : d.started = false) (hown : smGet 0 (s.router r).owner (6 * port + pairIx vn c) = 0)
    (hown' : smGet 0 (s.router r).owner (6 * port + pairIx vn' c) = 0) (hh : ¬ outputHeld s r port vn c)
    (hh' : ¬ outputHeld s r port vn' c) :
    let last := smGet 0 (s.router r).lastWin (8 * port + pairIx vn c)
    arrivalOf s r i = a ∧ arrivalOf s r j = a' ∧
    (vn = vn' → readyOf s r port c = some (vn, if before s r (c = 2) last j i then j else i)) ∧
    (vn = true → vn' = false → readyOf s r port c =
      some (if (if c = 2 then !before s r true 0 i j else smGet true (s.router r).lastVn (4 * port + c)) then (false, j) else (true, i))) ∧
    (vn = false → vn' = true → readyOf s r port c =
      some (if (if c = 2 then !before s r true 0 j i else smGet true (s.router r).lastVn (4 * port + c)) then (false, i) else (true, j))) := by
  intro last
  have hgeti : inBuf s r i = b := by
    rw [inBuf, hins]
    simp [smGet]
  have hgetj : inBuf s r j = d := by
    rw [inBuf, hins]
    simp [smGet, hij]
  have hpairs (hne : vn ≠ vn') : pairIx vn c ≠ pairIx vn' c := by
    rw [Bool.eq_not_of_ne hne]
    exact pairIx_not
  have hleft (hne : vn ≠ vn') : readyKeys s r port vn c = [i] := by
    rw [readyKeys_of_free hh hown, hins]
    simp [hi, hj, hb.1, hb.ripe, hbs, (hpairs hne).symm]
  have hright (hne : vn ≠ vn') : readyKeys s r port vn' c = [j] := by
    rw [readyKeys_of_free hh' hown', hins]
    simp [hi, hj, hd.1, hd.ripe, hds, hpairs hne]
  refine ⟨arrivalOf_eq hgeti hb, arrivalOf_eq hgetj hd, ?_, ?_, ?_⟩
  · rintro rfl
    have hkeys : readyKeys s r port vn c = [i, j] := by
      rw [readyKeys_of_free hh hown, hins]
      simp [hi, hj, hb.1, hd.1, hb.ripe, hd.ripe, hbs, hds]
    rw [readyOf_of_other (pickKey_other (vn := vn) hc (by simp [hins, hi, hj])), pickKey_pair hkeys]
    split <;> simp [*]
  · rintro rfl rfl
    exact readyOf_of_both (pickKey_single (hright (by simp))) (pickKey_single (hleft (by simp)))
  · rintro rfl rfl
    exact readyOf_of_both (pickKey_single (hleft (by simp))) (pickKey_single (hright (by simp)))

theorem claim_flitsReady : Claim.FlitsReady := by
  intro s r port c hc x now pair held stands place after
  refine ⟨fun hins => readyOf_none fun vn => readyKeys_of_not_ripe (by rw [show (s.router r).ins = [] from hins]; simp),
    fun k b a vn hins hk hb => readyOf_of_one hc hins hk hb, fun k b a f fs hins hfl hnow => readyOf_none fun vn => ?_, ?_⟩
  · refine readyKeys_of_not_ripe fun e he => ?_
    rw [show (s.router r).ins = [(k, b)] from hins] at he
    rw [List.mem_singleton.1 he]
    have hn : ¬ a + 2 ≤ mcAt s r := Nat.not_le.2 hnow
    simp [ripe, hfl, hn]
  · intro i j b d a a' vn vn' hins hij hi hj hb hd hbs hds hown hown' hh hh'
    obtain ⟨hai, haj, hsame, htf, hft⟩ := readyOf_of_two hc hins hij hi hj hb hd hbs hds hown hown' hh hh'
    have hrr (k : Nat) : rrDist (smGet 0 (s.router r).lastWin (8 * port + pairIx vn c)) (k / 6) = after vn k := rrDist_eq ..
    refine ⟨fun hv h2 => ?_, fun hv h2 => ?_, fun h2 => ?_⟩
    · subst hv
      have hbefore : before s r (decide (c = 2)) (smGet 0 (s.router r).lastWin (8 * port + pairIx vn c)) j i =
          (decide (after vn j < after vn i) || (after vn j = after vn i && decide (a' < a))) := by
        rw [decide_eq_false (show c ≠ 2 by omega)]
        simp only [before, Bool.false_eq_true, if_false, hrr, hai, haj]
      rw [hsame rfl, hbefore]
      constructor
      · intro h
        rw [if_neg]
        simp only [Bool.or_eq_true, Bool.and_eq_true, decide_eq_true_eq]
        omega
      · intro h
        rw [if_pos]
        simp only [Bool.or_eq_true, Bool.and_eq_true, decide_eq_true_eq]
        omega
    · have hc2 : c ≠ 2 := by omega
      cases vn <;> cases vn'
      · exact absurd rfl hv
      · rw [hft rfl rfl, if_neg hc2]
        exact apply_ite some _ _ _
      · rw [htf rfl rfl, if_neg hc2]
        exact apply_ite some _ _ _
      · exact absurd rfl hv
    · subst h2
      have hlast : before s r (decide (2 = 2)) (smGet 0 (s.router r).lastWin (8 * port + pairIx vn 2)) j i = before s r true 0 j i := rfl
      rw [hlast] at hsame
      rw [← hai, ← haj]
      constructor <;> intro hlt <;> obtain ⟨hwin, hlose⟩ := before_timed hlt 0
      · cases vn <;> cases vn'
        · rw [hsame rfl, hlose]
          rfl
        · rw [hft rfl rfl, hlose]
          rfl
        · rw [htf rfl rfl, hwin]
          rfl
        · rw [hsame rfl, hlose]
          rfl
      · cases vn <;> cases vn'
        · rw [hsame rfl, hwin]
          rfl
        · rw [hft rfl rfl, hwin]
          rfl
        · rw [htf rfl rfl, hlose]
          rfl
        · rw [hsame rfl, hwin]
          rfl

end

end Sys2Proof.Machine
end

section
/-! PROOFS. What an output sends in a mesh cycle (R57 to R60, R63, R78). -/

namespace Sys2Proof.Machine

/-! ### The event by its parts -/

/-- An output may send in this mesh cycle. -/
def CanSend (s : State) (r port : Nat) : Prop :=
  (port = 4 ∨ (linkOf s r port).st = .up) ∧ smGet 0 (s.router r).sent port ≠ mcAt s r + 1 ∧
    ¬ ((linkOf s r port).half = true ∧ mcAt s r % 2 = 1)

/-- A link has an acknowledgement to send. -/
def ackDue (s : State) (r port : Nat) : Bool :=
  port ≠ 4 && ((linkOf s r port).owed.isSome || (linkOf s r port).ackBy.any fun t => decide (t ≤ mcAt s r))

/-- A link takes no new flit: it sends others again, or its replay buffer is full. -/
def linkShut (s : State) (r port : Nat) : Bool :=
  port ≠ 4 && ((linkOf s r port).resend ≠ [] || decide (replayMax port ≤ (linkOf s r port).replay.length))

/-- The flit that an output may send in a class. -/
def readyAt (s : State) (r port c : Nat) : Option (Bool × Nat) := if linkShut s r port then none else readyOf s r port c

/-- This mesh cycle is a timed one of the output. -/
def timedSlot (s : State) (r port : Nat) : Bool := bitOf (smGet 0 (s.router r).tslot port) (mcAt s r % 64)

def markSent (r port : Nat) (s : State) : State := s.modRouter r fun x => { x with sent := smSet 0 x.sent port (mcAt s r + 1) }

def setUcount (r port u : Nat) (s : State) : State := s.modRouter r fun x => { x with ucount := smSet 0 x.ucount port u }

/-- The output sends the flit of a class, or none. -/
def sendClass (s : State) (r port : Nat) (v : Option Nat × Nat) : State :=
  match v.1 with
  | none => setUcount r port v.2 s
  | some c => match readyAt s r port c with
    | some (_, k) => sendFront r port k (markSent r port (setUcount r port v.2 s))
    | none => setUcount r port v.2 s

/-- A flit is sent again. -/
def resendFlit (s : State) (r port : Nat) (f : Flit) (fs : List Flit) : State :=
  flitOut r port { f with ack := if 5 ≤ port then some ((linkOf s r port).expect - 1) else none }
    (modLink r port (fun l => { l with resend := fs, replays := if l.replays = 0xFFFF then l.replays else l.replays + 1 })
      ((markSent r port s).modRouter r fun x => { x with replayed := true }))

section
variable {s : State} {r port : Nat}

theorem exec_flitTransmit_of_closed (h : ¬ CanSend s r port) : exec (.flitTransmit r port) s = .next s :=
  congrArg Host.Outcome.next (if_pos (by
    simp only [CanSend, not_and_or, not_or, not_not, ne_eq] at h
    simp only [Bool.or_eq_true, Bool.and_eq_true, decide_eq_true_eq, ne_eq]
    rcases h with h | h | h
    · exact .inl (.inl h)
    · exact .inl (.inr h)
    · exact .inr h))

theorem exec_flitTransmit_of_open (h : CanSend s r port) : exec (.flitTransmit r port) s = .next
    (if ackDue s r port && !((readyAt s r port 2).isSome && timedSlot s r port) then (markSent r port s).push (.ackSend r port)
    else match (linkOf s r port).resend with
      | f :: fs => resendFlit s r port f fs
      | [] => sendClass s r port (arbitrate (timedSlot s r port) (smGet 0 (s.router r).tslot port = 0) (readyAt s r port 2).isSome
          (readyAt s r port 1).isSome (readyAt s r port 0).isSome (smGet 0 (s.router r).ucount port))) := by
  obtain ⟨hst, hsent, hhalf⟩ := h
  have hopen : ¬ ((port ≠ 4 && (linkOf s r port).st ≠ .up) || smGet 0 (s.router r).sent port = mcAt s r + 1 ||
      ((linkOf s r port).half && mcAt s r % 2 = 1)) = true := by
    simp only [Bool.or_eq_true, Bool.and_eq_true, decide_eq_true_eq, ne_eq]
    rintro ((⟨h4, hup⟩ | hs) | hh)
    · exact hst.elim h4 hup
    · exact hsent hs
    · exact hhalf hh
  exact congrArg Host.Outcome.next ((if_neg hopen).trans rfl)

theorem onlyRouterAt_mod {f : Router → Router} {x : Router} (hx : f (s.router r) = x) : OnlyRouterAt s (s.modRouter r f) r x [] := by
  rw [← hx, ← pushAll_nil (s.modRouter r f)]
  exact onlyRouterAt_modRouter s r f []

theorem flitOut_eq (r port : Nat) (f : Flit) (s : State) :
    flitOut r port f s = s.pushAll ((neighbour r port).toList.map fun n => .linkFlitReceive n (oppPort port) f) := by
  unfold flitOut
  cases neighbour r port
  · exact (pushAll_nil s).symm
  · rfl

/-- A count that stays at its greatest value. -/
theorem saturating_add_one {w : Nat} (v : BitVec w) :
    (if v = BitVec.ofNat w (2 ^ w - 1) then v else v + 1) = BitVec.ofNat w (Nat.min (2 ^ w - 1) (v.toNat + 1)) := by
  have hlt := v.isLt
  split
  next h =>
    rw [show Nat.min (2 ^ w - 1) (v.toNat + 1) = 2 ^ w - 1 from Nat.min_eq_left (by rw [h, BitVec.toNat_ofNat, Nat.mod_eq_of_lt] <;> omega)]
    exact h
  next h =>
    have hne : v.toNat ≠ 2 ^ w - 1 := fun hv => h (by rw [← hv, BitVec.ofNat_toNat, BitVec.setWidth_eq])
    rw [show Nat.min (2 ^ w - 1) (v.toNat + 1) = v.toNat + 1 from Nat.min_eq_right (by omega), BitVec.ofNat_add, BitVec.ofNat_toNat,
      BitVec.setWidth_eq]
    rfl

/-! ### What each case changes -/

theorem router_markSent : (markSent r port s).router r = { s.router r with sent := smSet 0 (s.router r).sent port (mcAt s r + 1) } :=
  (State.router_modRouter ..).trans (if_pos rfl)

theorem markSent_only (es : List Instr) : OnlyRouterAt s ((markSent r port s).pushAll es) r
    { s.router r with sent := ((markSent r port s).router r).sent } es := by
  rw [router_markSent]
  exact onlyRouterAt_modRouter s r _ es

theorem smGet_set {β : Type} [DecidableEq β] (d : β) (m : SMap β) (i : Nat) (x : β) (j : Nat) :
    smGet d (smSet d m i x) j = if j = i then x else smGet d m j := by
  rw [smGet_smSet]
  simp only [eq_comm]

theorem sent_markSent (p : Nat) : smGet 0 ((markSent r port s).router r).sent p =
    if p = port then mcAt s r + 1 else smGet 0 (s.router r).sent p := by
  rw [markSent, State.router_modRouter, if_pos rfl, smGet_set]

theorem ucount_setUcount (u p : Nat) : smGet 0 ((setUcount r port u s).router r).ucount p =
    if p = port then u else smGet 0 (s.router r).ucount p := by
  rw [setUcount, State.router_modRouter, if_pos rfl, smGet_set]

theorem setUcount_only (u : Nat) : OnlyRouterAt s (setUcount r port u s) r
    { s.router r with ucount := smSet 0 (s.router r).ucount port u } [] := onlyRouterAt_mod rfl

/-- A flit leaves a buffer by an output: what `sendFront` does before it hands the flit on. -/
def frontOut (r port k : Nat) (f : Flit) (s : State) : State :=
  let b := inBuf s r k
  s.modRouter r fun x =>
    { x with
      ins := smSet {} x.ins k
        (if f.last then { b with flits := b.flits.drop 1, out := none, started := false, pkt := {}, last := mcAt s r }
          else { b with flits := b.flits.drop 1, started := true, last := mcAt s r })
      owner := smSet 0 x.owner (6 * port + k % 6) (if f.last then 0 else k / 6 + 1)
      lastWin := if b.started then x.lastWin else smSet 0 x.lastWin (8 * port + k % 6) (rrPlace (k / 6))
      lastVn := smSet true x.lastVn (4 * port + f.cls.toNat) f.vn }

theorem sendFront_eq {k : Nat} {f : Flit} {a : Nat} {fs : List (Flit × Nat)} (h : (inBuf s r k).flits = (f, a) :: fs) :
    sendFront r port k s =
      if port = 4 then sinkFlit r f (frontOut r port k f s) else linkSend r port (inBuf s r k).pkt f (frontOut r port k f s) := by
  simp only [sendFront, frontOut, h, List.drop_succ_cons, List.drop_zero]

/-- The state in which the flit of input `k` has left by an output. -/
def frontGone (s : State) (r port k u : Nat) (f : Flit) : State := frontOut r port k f (markSent r port (setUcount r port u s))

/-- The router whose front flit of input `k` has left. -/
def frontRouter (s : State) (r port k u : Nat) (f : Flit) : Router :=
  let b := inBuf s r k
  let x := s.router r
  { x with
    sent := smSet 0 x.sent port (mcAt s r + 1)
    ucount := smSet 0 x.ucount port u
    ins := smSet {} x.ins k
      (if f.last then { b with flits := b.flits.drop 1, out := none, started := false, pkt := {}, last := mcAt s r }
        else { b with flits := b.flits.drop 1, started := true, last := mcAt s r })
    owner := smSet 0 x.owner (6 * port + k % 6) (if f.last then 0 else k / 6 + 1)
    lastWin := if b.started then x.lastWin else smSet 0 x.lastWin (8 * port + k % 6) (rrPlace (k / 6))
    lastVn := smSet true x.lastVn (4 * port + f.cls.toNat) f.vn }

theorem inBuf_marked (k u : Nat) : inBuf (markSent r port (setUcount r port u s)) r k = inBuf s r k := by
  have hcount : OnlyRouterAt s (setUcount r port u s) r _ [] := onlyRouterAt_mod rfl
  have hmark : OnlyRouterAt (setUcount r port u s) (markSent r port (setUcount r port u s)) r _ [] := onlyRouterAt_mod rfl
  rw [inBuf, hmark.it, hcount.it]
  rfl

theorem frontGone_only (k u : Nat) (f : Flit) : OnlyRouterAt s (frontGone s r port k u f) r (frontRouter s r port k u f) [] := by
  have hcount : OnlyRouterAt s (setUcount r port u s) r _ [] := onlyRouterAt_mod rfl
  have hmark : OnlyRouterAt (setUcount r port u s) (markSent r port (setUcount r port u s)) r _ [] := onlyRouterAt_mod rfl
  have hfront : OnlyRouterAt (markSent r port (setUcount r port u s)) (frontGone s r port k u f) r _ [] := onlyRouterAt_mod rfl
  have hmc : mcAt (markSent r port (setUcount r port u s)) r = mcAt s r := rfl
  have hmc' : mcAt (setUcount r port u s) r = mcAt s r := rfl
  have h := (hcount.trans hmark).trans hfront
  rw [hmark.it, hcount.it, inBuf_marked, hmc, hmc'] at h
  exact h

theorem sendFront_gone {k u : Nat} {f : Flit} {a : Nat} {fs : List (Flit × Nat)} (h : (inBuf s r k).flits = (f, a) :: fs) :
    sendFront r port k (markSent r port (setUcount r port u s)) =
      if port = 4 then sinkFlit r f (frontGone s r port k u f)
      else linkSend r port (inBuf s r k).pkt f (frontGone s r port k u f) := by
  rw [sendFront_eq (a := a) (fs := fs) (by rw [inBuf_marked, h]), inBuf_marked]
  rfl

theorem OnlyRouterAt.rest_routers {t : State} {x : Router} (h : OnlyRouterAt s t r x []) : { t with routers := s.routers } = s := by
  have hdue : t.due = s.due := h.due.trans (List.append_nil _)
  have hrest := h.rest
  rw [← hdue] at hrest
  exact hrest

/-- What a state says of the flit that has left, when router `r` is as above but for its links. -/
theorem frontLeft_of_router {t : State} {k u : Nat} {f : Flit} {links : SMap Link}
    (hr : t.router r = { frontRouter s r port k u f with links := links }) (ho : ∀ n, n ≠ r → t.router n = s.router n) :
    FrontLeft s t r port k f ∧ ∀ p, smGet 0 (t.router r).ucount p = if p = port then u else smGet 0 (s.router r).ucount p := by
  have hu (p : Nat) : smGet 0 (t.router r).ucount p = if p = port then u else smGet 0 (s.router r).ucount p := by
    rw [hr]
    exact smGet_set _ _ _ _ _
  refine ⟨?_, hu⟩
  constructor
  case ins =>
    intro b b' j
    rw [inBuf, hr]
    exact smGet_set _ _ _ _ _
  case owner =>
    intro j
    rw [hr]
    exact smGet_set _ _ _ _ _
  case winner =>
    intro j
    rw [hr]
    simp only [frontRouter]
    cases (inBuf s r k).started
    · simp only [Bool.false_eq_true, if_false, true_and]
      exact smGet_set 0 _ _ _ _
    · simp
  case network =>
    intro j
    rw [hr]
    exact smGet_set true _ _ _ _
  case sent =>
    intro j
    rw [hr]
    exact smGet_set 0 (s.router r).sent port (mcAt s r + 1) j
  case ucount =>
    intro j hj
    rw [hu, if_neg hj]
  case router =>
    rw [hr]
    rfl
  case others => exact ho

end

/-! ### The claim -/

section
variable {s : State} {r port c k : Nat}

theorem ackDue_iff : ackDue s r port = true ↔
    port ≠ 4 ∧ ((linkOf s r port).owed ≠ none ∨ ∃ t, (linkOf s r port).ackBy = some t ∧ t ≤ mcAt s r) := by
  simp only [ackDue, Bool.and_eq_true, Bool.or_eq_true, decide_eq_true_eq, Option.any_eq_true, Option.isSome_iff_ne_none]

/-- The replay buffer of an output's link is full. -/
def ReplayFull (s : State) (r port : Nat) : Prop := port ≠ 4 ∧ (if 5 ≤ port then 512 else 64) ≤ (linkOf s r port).replay.length

theorem exists_readyAt (h : (linkOf s r port).resend = []) :
    (¬ ReplayFull s r port ∧ ∃ vn, readyOf s r port c = some (vn, k)) ↔ ∃ vn, readyAt s r port c = some (vn, k) := by
  have hshut : linkShut s r port = true ↔ ReplayFull s r port := by
    simp only [linkShut, ReplayFull, replayMax, h, Bool.and_eq_true, Bool.or_eq_true, decide_eq_true_eq]
    simp only [ne_eq, not_true, false_or]
    exact and_congr_right fun _ => decide_eq_true_iff
  by_cases hf : ReplayFull s r port
  · simp [readyAt, hshut.2 hf, hf]
  · simp [readyAt, eq_false_of_ne_true (mt hshut.1 hf), hf]

theorem isSome_readyAt (h : (linkOf s r port).resend = []) :
    (readyAt s r port c).isSome = true ↔ ∃ k, ¬ ReplayFull s r port ∧ ∃ vn, readyOf s r port c = some (vn, k) := by
  simp only [exists_readyAt h, Option.isSome_iff_exists, Prod.exists]
  exact exists_comm

theorem readyAt_of_resend {f : Flit} {fs : List Flit} (h4 : port ≠ 4) (h : (linkOf s r port).resend = f :: fs) : readyAt s r port c = none :=
  if_pos (by simp [linkShut, h4, h])

theorem sendClass_of_ready {vn : Bool} {v : Nat} (h : readyAt s r port c = some (vn, k)) :
    sendClass s r port (some c, v) = sendFront r port k (markSent r port (setUcount r port v s)) := by
  simp only [sendClass, h]

/-- The class that R57 chooses, with the next count of urgent flits. -/
theorem arbitrate_of_choice {t u b slot slotZero : Bool} {n v : Nat}
    (h : (c = 2 ∧ (t && slot) = true ∧ v = n) ∨
      ((t && slot) = false ∧ c = 0 ∧ b = true ∧ ((u || (t && slotZero)) = false ∨ n = 32) ∧ v = 0) ∨
      ((t && slot) = false ∧ (b = false ∨ n ≠ 32) ∧ ((c = 1 ∧ u = true) ∨ (c = 2 ∧ u = false ∧ t = true ∧ slotZero = true)) ∧
        v = Nat.min (n + 1) 32)) : arbitrate slot slotZero t u b n = (some c, v) := by
  unfold arbitrate
  dsimp only
  rcases h with ⟨rfl, hts, rfl⟩ | ⟨hts, rfl, rfl, hu, rfl⟩ | ⟨hts, hb, hc, rfl⟩
  · rw [if_pos hts]
  · rw [hts, if_neg Bool.false_ne_true, if_pos]
    rcases hu with hu | rfl
    · rw [hu]
      rfl
    · simp
  · have hn : (b && (!(u || (t && slotZero)) || decide (n = 32))) = false ∧ (u || (t && slotZero)) = true ∧ (if u then 1 else 2) = c := by
      rcases hc with ⟨rfl, rfl⟩ | ⟨rfl, rfl, rfl, rfl⟩ <;> rcases hb with rfl | hb <;> simp [*]
    obtain ⟨hno, huu, hcls⟩ := hn
    rw [hts, if_neg Bool.false_ne_true, hno, if_neg Bool.false_ne_true, if_pos huu, hcls]

theorem arbitrate_none {t u b slot slotZero : Bool} {n : Nat} (ht : (t && slot) = false) (hu : (u || (t && slotZero)) = false) (hb : b = false) :
    arbitrate slot slotZero t u b n = (none, 0) := by
  subst hb
  unfold arbitrate
  dsimp only
  rw [ht, hu]
  rfl

/-- The link over which a flit is sent again. -/
def resentLink (l : Link) (fs : List Flit) : Link :=
  { l with resend := fs, replays := if l.replays = 0xFFFF then l.replays else l.replays + 1 }

theorem resendFlit_only (f : Flit) (fs : List Flit) : OnlyRouterAt s (resendFlit s r port f fs) r
    { s.router r with
      sent := smSet 0 (s.router r).sent port (mcAt s r + 1), replayed := true
      links := smMod {} (s.router r).links port fun l => resentLink l fs }
    ((neighbour r port).toList.map fun n =>
      .linkFlitReceive n (oppPort port) { f with ack := if 5 ≤ port then some ((linkOf s r port).expect - 1) else none }) := by
  have hmark : OnlyRouterAt s (markSent r port s) r { s.router r with sent := smSet 0 (s.router r).sent port (mcAt s r + 1) } [] :=
    onlyRouterAt_mod rfl
  have hreplayed := onlyRouterAt_mod (s := markSent r port s) (r := r) (f := fun x => { x with replayed := true }) rfl
  have hlink := fun es => onlyRouterAt_modRouter ((markSent r port s).modRouter r fun x => { x with replayed := true }) r
    (fun x => { x with links := smMod {} x.links port fun l => resentLink l fs }) es
  rw [resendFlit, flitOut_eq]
  have h := (hmark.trans hreplayed).trans (hlink ((neighbour r port).toList.map fun n =>
    .linkFlitReceive n (oppPort port) { f with ack := if 5 ≤ port then some ((linkOf s r port).expect - 1) else none }))
  rw [hreplayed.it, hmark.it] at h
  exact h

/-- A flit as a link sends it. -/
def numbered (l : Link) (port : Nat) (f : Flit) : Flit :=
  let h := { f with seq := l.seq.setWidth 8, ext := l.seq, ack := if 5 ≤ port then some (l.expect - 1) else none }
  { h with crc := flitCrc h }

/-- A link that has sent a flit `g` of packet `p`. -/
def sentLink (port : Nat) (p : Packet) (g : Flit) (l : Link) : Link :=
  { l with
    seq := l.seq + 1, replay := l.replay ++ [g], ackBy := if 5 ≤ port then none else l.ackBy
    tails := if g.last && !g.abort then l.tails ++ [(g.ext, p)] else l.tails }

theorem linkSend_eq (p : Packet) (f : Flit) (t : State) : linkSend r port p f t =
    (modLink r port (sentLink port p (numbered (linkOf t r port) port f)) t).pushAll
      ((neighbour r port).toList.map fun n => .linkFlitReceive n (oppPort port) (numbered (linkOf t r port) port f)) :=
  flitOut_eq r port _ _

theorem frontLeft_frontGone (k u : Nat) (f : Flit) : FrontLeft s (frontGone s r port k u f) r port k f ∧
    ∀ p, smGet 0 ((frontGone s r port k u f).router r).ucount p = if p = port then u else smGet 0 (s.router r).ucount p :=
  frontLeft_of_router (links := (s.router r).links) (frontGone_only ..).it (frontGone_only ..).others

theorem linkOf_frontGone (k u : Nat) (f : Flit) (q : Nat) : linkOf (frontGone s r port k u f) r q = linkOf s r q := by
  rw [linkOf, (frontGone_only ..).it]
  rfl

theorem modLink_frontGone_only {u : Nat} {f : Flit} (F : Link → Link) (es : List Instr) :
    OnlyRouterAt s ((modLink r port F (frontGone s r port k u f)).pushAll es) r
      { frontRouter s r port k u f with links := smMod {} (s.router r).links port F } es := by
  have hgone := frontGone_only (s := s) (r := r) (port := port) k u f
  have hlink := onlyRouterAt_modRouter (frontGone s r port k u f) r (fun x => { x with links := smMod {} x.links port F }) es
  have h := hgone.trans hlink
  rw [hgone.it] at h
  exact h

theorem claim_flitsSent : Claim.FlitsSent := by
  intro s r port x l now e owed open_ full ready some_ slot timed urgent u out counts marked
  have hexec (h : open_) := exec_flitTransmit_of_open (s := s) (r := r) (port := port) h
  have howed : ackDue s r port = true ↔ owed := ackDue_iff
  have htimed (h : l.resend = []) : ((readyAt s r port 2).isSome && timedSlot s r port) = true ↔ timed :=
    (Bool.and_eq_true ..).to_iff.trans (and_congr_left' (isSome_readyAt h))
  refine ⟨exec_flitTransmit_of_closed, fun ho hd hr => ?_, fun f fs ho h4 hd hr => ?_, fun ho hr hd ht hu hb => ?_, ?_⟩
  · have hno : ((readyAt s r port 2).isSome && timedSlot s r port) = false := by
      rcases hl : l.resend with - | ⟨f, fs⟩
      · exact eq_false_of_ne_true (mt (htimed hl).1 (hr.resolve_left (not_not.2 hl)))
      · rw [readyAt_of_resend hd.1 hl]
        rfl
    refine ⟨_, (hexec ho).trans (congrArg _ (if_pos ?_)), sent_markSent, ?_⟩
    · rw [hno, howed.2 hd]
      rfl
    · exact markSent_only [.ackSend r port]
  · have hack : ackDue s r port = false := eq_false_of_ne_true (mt howed.1 hd)
    have hex := hexec ho
    rw [hack, Bool.false_and, if_neg Bool.false_ne_true, show (linkOf s r port).resend = f :: fs from hr] at hex
    have honly := resendFlit_only (s := s) (r := r) (port := port) f fs
    refine ⟨_, hex, fun p => ?_, ?_, fun p => ?_⟩
    · rw [honly.it]
      exact smGet_set 0 (s.router r).sent port (mcAt s r + 1) p
    · rw [honly.it]
      exact honly
    · rw [linkOf, honly.it]
      refine (smGet_set ({} : Link) (s.router r).links port (resentLink l fs) p).trans ?_
      rw [resentLink, show (if (linkOf s r port).replays = 0xFFFF then _ else _) = _ from saturating_add_one (linkOf s r port).replays]
      rfl
  · have hack : ackDue s r port = false := eq_false_of_ne_true (mt howed.1 hd)
    have hex := hexec ho
    have hno (c : Nat) (h : ¬ some_ c) : (readyAt s r port c).isSome = false := eq_false_of_ne_true (mt (isSome_readyAt hr).1 h)
    have hu2 : ((readyAt s r port 2).isSome && decide (smGet 0 (s.router r).tslot port = 0)) = false := by
      by_cases h2 : some_ 2
      · rw [decide_eq_false fun hz => hu (.inr ⟨h2, hz⟩), Bool.and_false]
      · rw [hno 2 h2, Bool.false_and]
    rw [hack, Bool.false_and, if_neg Bool.false_ne_true, show (linkOf s r port).resend = [] from hr,
      arbitrate_none (eq_false_of_ne_true (mt (htimed hr).1 ht)) (by rw [hno 1 fun h => hu (.inl h), hu2]; rfl) (hno 0 hb)] at hex
    have honly := setUcount_only (s := s) (r := r) (port := port) 0
    refine ⟨setUcount r port 0 s, hex, ucount_setUcount 0, ?_⟩
    rw [honly.it]
    exact honly
  · intro c k v f a fs ho hr hd hk hfl hch h g
    obtain ⟨vn, hat⟩ := (exists_readyAt hr).1 hk
    have hsome (c : Nat) : (readyAt s r port c).isSome = true ↔ some_ c := isSome_readyAt hr
    have hno (c : Nat) : (readyAt s r port c).isSome = false ↔ ¬ some_ c := by
      rw [← hsome, Bool.not_eq_true]
    have hts : ((readyAt s r port 2).isSome && timedSlot s r port) = false ↔ ¬ timed := by
      rw [← htimed hr, Bool.not_eq_true]
    have hisc : (readyAt s r port c).isSome = true := (hsome c).2 ⟨k, hk⟩
    have hurgent : ((readyAt s r port 1).isSome || ((readyAt s r port 2).isSome && decide (smGet 0 (s.router r).tslot port = 0))) = true ↔
        urgent := by
      rw [Bool.or_eq_true, Bool.and_eq_true, decide_eq_true_eq, hsome, hsome]
    have harb : arbitrate (timedSlot s r port) (smGet 0 (s.router r).tslot port = 0) (readyAt s r port 2).isSome
        (readyAt s r port 1).isSome (readyAt s r port 0).isSome (smGet 0 (s.router r).ucount port) = (some c, v) := by
      apply arbitrate_of_choice
      rcases hch with ⟨rfl, hslot, rfl⟩ | ⟨ht, rfl, hu, rfl⟩ | ⟨ht, hb, hc, rfl⟩
      · exact .inl ⟨rfl, (htimed hr).2 ⟨⟨k, hk⟩, hslot⟩, rfl⟩
      · exact .inr (.inl ⟨hts.2 ht, rfl, hisc, hu.imp_left fun h => eq_false_of_ne_true (mt hurgent.1 h), rfl⟩)
      · refine .inr (.inr ⟨hts.2 ht, hb.imp_left (hno 0).2, ?_, rfl⟩)
        rcases hc with rfl | ⟨rfl, h1, hz⟩
        · exact .inl ⟨rfl, hisc⟩
        · exact .inr ⟨rfl, (hno 1).2 h1, hisc, decide_eq_true hz⟩
    have hfront : exec (.flitTransmit r port) s = .next (sendFront r port k (markSent r port (setUcount r port v s))) := by
      rw [hexec ho, if_neg, show (linkOf s r port).resend = [] from hr, harb]
      · exact congrArg Host.Outcome.next (sendClass_of_ready hat)
      · rw [Bool.and_eq_true, howed, Bool.not_eq_true', hts]
        rintro ⟨h1, h2⟩
        exact hd.elim (fun h => h h1) h2
    rw [sendFront_gone hfl] at hfront
    constructor
    · intro h4
      have honly := modLink_frontGone_only (s := s) (r := r) (port := port) (k := k) (u := v) (f := f)
        (sentLink port (inBuf s r k).pkt (numbered l port f)) (out (numbered l port f))
      obtain ⟨hleft, hcount⟩ := frontLeft_of_router honly.it honly.others
      have hlink : exec (.flitTransmit r port) s = .next (linkSend r port (inBuf s r k).pkt f (frontGone s r port k v f)) :=
        hfront.trans (congrArg Host.Outcome.next (if_neg h4))
      rw [linkSend_eq, linkOf_frontGone] at hlink
      refine ⟨_, hlink, hleft, hcount, honly.due, fun p => ?_, honly.rest⟩
      rw [linkOf, honly.it]
      refine (smGet_set {} (s.router r).links port (sentLink port (inBuf s r k).pkt (numbered l port f) (linkOf s r port)) p).trans ?_
      have hsent : sentLink port (inBuf s r k).pkt (numbered l port f) (linkOf s r port) =
          { l with
            seq := l.seq + 1, replay := l.replay ++ [g], ackBy := if 5 ≤ port then none else l.ackBy
            tails := if f.last = true ∧ f.abort = false then l.tails ++ [(l.seq, (inBuf s r k).pkt)] else l.tails } := by
        simp only [sentLink, numbered, Bool.and_eq_true, Bool.not_eq_true']
        rfl
      rw [hsent]
      rfl
    · rintro rfl
      have honly := frontGone_only (s := s) (r := r) (port := 4) k v f
      obtain ⟨hleft, hcount⟩ := frontLeft_frontGone (s := s) (r := r) (port := 4) k v f
      have hsink : exec (.flitTransmit r 4) s = .next (sinkFlit r f (frontGone s r 4 k v f)) :=
        hfront.trans (congrArg Host.Outcome.next (if_pos rfl))
      exact ⟨_, hleft, hcount, (congrArg (fun y : Router => y.links) honly.it).trans rfl, honly.rest_routers, hsink⟩

end

end Sys2Proof.Machine
end

section
/-! PROOFS. What a router does with a flit that a link brings, and with its acknowledgements (R51, R52, R58, R61, R63, R78). -/

namespace Sys2Proof.Machine

/-! ### A flit arrives -/

/-- The acknowledgement that a flit carries, on a link that leaves the device. -/
def ackOf (r port : Nat) (f : Flit) (l : Link) : List Instr :=
  match f.ack with
  | some a => if 5 ≤ port then [.linkAck r port a (f.ctl && bitOf f.data 8) l.stop] else []
  | none => []

section
variable {s : State} {r port : Nat} {f : Flit}

theorem exec_linkFlitReceive_down (h : (linkOf s r port).st ≠ .up) : exec (.linkFlitReceive r port f) s = .next (wake r s) :=
  congrArg Host.Outcome.next (if_pos h)

theorem exec_linkFlitReceive_broken (h : (linkOf s r port).st = .up) (hc : f.crc ≠ flitCrc f) : exec (.linkFlitReceive r port f) s =
    .next (if f.ctl then wake r s else modLink r port (fun l => { l with owed := some true }) (wake r s)) :=
  congrArg Host.Outcome.next ((if_neg (not_not.2 h)).trans (if_pos hc))

theorem exec_linkFlitReceive_good (h : (linkOf s r port).st = .up) (hc : f.crc = flitCrc f) :
    let l := linkOf s r port
    let u := (wake r s).pushAll (ackOf r port f l)
    exec (.linkFlitReceive r port f) s = .next
      (if f.ctl then
        if 5 ≤ port && f.ack.isSome then u
        else u.push (.linkAck r port (BitVec.ofNat 16 (fieldOf f.data 0 8)) (bitOf f.data 8) l.stop)
      else if f.seq ≠ l.expect.setWidth 8 || (5 ≤ port && f.ext ≠ l.expect) then modLink r port (fun l => { l with owed := some true }) u
      else acceptFlit r port f
        (modLink r port (fun l => { l with expect := l.expect + 1, ackBy := some (l.ackBy.getD (mcAt u r + 31)) }) u)) := by
  intro l u
  have hu : u = match f.ack with
      | some a => if 5 ≤ port then (wake r s).push (.linkAck r port a (f.ctl && bitOf f.data 8) l.stop) else wake r s
      | none => wake r s := by
    unfold u ackOf
    cases f.ack
    · exact pushAll_nil _
    · dsimp only
      split
      · rfl
      · exact pushAll_nil _
  rw [hu]
  exact congrArg Host.Outcome.next ((if_neg (not_not.2 h)).trans (if_neg (not_not.2 hc)))

theorem mcAt_wake (es : List Instr) : mcAt ((wake r s).pushAll es) r = mcAt s r := by
  rw [wake_eq]
  rfl

/-- The router has been looked at, and what a flit acknowledges is due. -/
theorem linkIs_woken (es : List Instr) : LinkIs s ((wake r s).pushAll es) r port (linkOf s r port) es true := by
  have h := (linkIs_wake s r port).trans (linkIs_pushAll (wake r s) r port es)
  rw [(linkIs_wake s r port).it, if_pos rfl] at h
  exact h

theorem linkIs_woken_modLink (F : Link → Link) (es : List Instr) :
    LinkIs s (modLink r port F ((wake r s).pushAll es)) r port (F (linkOf s r port)) es true := by
  have h := (linkIs_woken (s := s) (r := r) (port := port) es).trans (linkIs_modLink _ r port F)
  rw [(linkIs_woken es).it, if_pos rfl, List.append_nil] at h
  exact h

theorem claim_linkFlitReceive (s : State) (r port : Nat) (f : Flit) :
    let l := linkOf s r port
    let e := Instr.linkFlitReceive r port f
    let far := 5 ≤ port
    let acks := fun (nak : Bool) => match f.ack with
      | some a => if far then [Instr.linkAck r port a nak l.stop] else []
      | none => []
    let becomes := fun (l' : Link) (more : List Instr) => ∃ t, exec e s = .next t ∧ LinkIs s t r port l' more
    (l.st ≠ .up → becomes l []) ∧
    (l.st = .up → f.crc ≠ flitCrc f → (f.ctl = true → becomes l []) ∧ (f.ctl = false → becomes { l with owed := some true } [])) ∧
    (l.st = .up → f.crc = flitCrc f → f.ctl = true →
      becomes l (if far ∧ f.ack ≠ none then acks (bitOf f.data 8) else
        [.linkAck r port (BitVec.ofNat 16 (fieldOf f.data 0 8)) (bitOf f.data 8) l.stop])) ∧
    (l.st = .up → f.crc = flitCrc f → f.ctl = false →
      let follows := f.seq = l.expect.setWidth 8 ∧ (far → f.ext = l.expect)
      (¬ follows → becomes { l with owed := some true } (acks false)) ∧
      (follows → ∃ t, LinkIs s t r port { l with expect := l.expect + 1, ackBy := some (l.ackBy.getD (mcAt s r + 31)) } (acks false) ∧
        exec e s = .next (acceptFlit r port f t))) := by
  intro l e far acks becomes
  have hacks : ackOf r port f l = acks (f.ctl && bitOf f.data 8) := rfl
  refine ⟨fun h => ⟨_, exec_linkFlitReceive_down h, linkIs_wake s r port⟩, fun h hc => ⟨fun hctl => ?_, fun hctl => ?_⟩,
    fun h hc hctl => ?_, fun h hc hctl => ?_⟩
  · refine ⟨_, exec_linkFlitReceive_broken h hc, ?_⟩
    rw [if_pos hctl]
    exact linkIs_wake s r port
  · refine ⟨_, exec_linkFlitReceive_broken h hc, ?_⟩
    rw [hctl, if_neg Bool.false_ne_true]
    have hmod := linkIs_woken_modLink (s := s) (r := r) (port := port) (fun l => { l with owed := some true }) []
    rw [pushAll_nil] at hmod
    exact hmod
  · have hex := exec_linkFlitReceive_good (s := s) (r := r) (port := port) h hc
    dsimp only at hex
    rw [if_pos hctl, show ackOf r port f (linkOf s r port) = _ from hacks, hctl, Bool.true_and] at hex
    by_cases hfar : far ∧ f.ack ≠ none
    · refine ⟨_, hex, ?_⟩
      rw [if_pos (by simpa [Option.isSome_iff_ne_none] using hfar), if_pos hfar]
      exact linkIs_woken _
    · refine ⟨_, hex, ?_⟩
      have hnone : acks (bitOf f.data 8) = [] := by
        unfold acks
        cases hack : f.ack with
        | none => rfl
        | some a => exact if_neg fun hf => hfar ⟨hf, by simp [hack]⟩
      rw [if_neg (by simpa [Option.isSome_iff_ne_none] using hfar), if_neg hfar, hnone, pushAll_nil]
      exact linkIs_woken [_]
  · intro follows
    have hex := exec_linkFlitReceive_good (s := s) (r := r) (port := port) h hc
    dsimp only at hex
    rw [hctl, if_neg Bool.false_ne_true, show ackOf r port f (linkOf s r port) = _ from hacks, hctl, Bool.false_and, mcAt_wake] at hex
    have hfollows : (f.seq ≠ l.expect.setWidth 8 || (5 ≤ port && f.ext ≠ l.expect)) = true ↔ ¬ follows := by
      simp only [Bool.or_eq_true, Bool.and_eq_true, decide_eq_true_eq, follows, not_and_or, Classical.not_imp]
      rfl
    constructor
    · intro hf
      refine ⟨_, hex, ?_⟩
      rw [if_pos (hfollows.2 hf)]
      exact linkIs_woken_modLink (fun l => { l with owed := some true }) _
    · intro hf
      rw [if_neg (mt hfollows.1 (not_not.2 hf))] at hex
      exact ⟨_, linkIs_woken_modLink (fun l => { l with expect := l.expect + 1, ackBy := some (l.ackBy.getD (mcAt s r + 31)) }) _, hex⟩

end

end Sys2Proof.Machine
end

section
/-! PROOFS. How a flit joins the buffer of its input, and what a broken packet leaves there (R52, R58, R61). -/

namespace Sys2Proof.Machine

/-! ### A buffer whose packet is cut off -/

section
variable {b : InBuf} {f : Flit} {at_ : Nat}

/-- The flits of a buffer that belong to whole packets. -/
def wholeFlits (b : InBuf) : Nat :=
  ((b.flits.zipIdx.filter fun x => x.1.1.last).getLast?.map fun x => x.2 + 1).getD 0

theorem wholeFlits_of_open (h : ∀ g ∈ b.flits, g.1.last = false) : wholeFlits b = 0 := by
  rw [wholeFlits, List.filter_eq_nil_iff.2]
  · rfl
  · intro x hx
    obtain ⟨hlt, hget⟩ := List.mem_zipIdx' hx
    rw [hget, h _ (List.getElem_mem hlt)]
    exact Bool.false_ne_true

theorem wholeFlits_of_whole (h : b.flits = [] ∨ ∃ g, b.flits.getLast? = some g ∧ g.1.last = true) : wholeFlits b = b.flits.length := by
  rcases h with h | ⟨g, hg, hlast⟩
  · simp [wholeFlits, h]
  · obtain ⟨fs, hfs⟩ := List.getLast?_eq_some_iff.1 hg
    simp [wholeFlits, hfs, List.zipIdx_append, List.filter_append, hlast]

theorem cut_eq : b.cut f at_ =
    let n := wholeFlits b
    let rest := b.flits.drop n
    if b.part.isSome && !(rest.any fun x => x.1.first) then
      { b with flits := b.flits.take n ++ [(abortTail f.vn f.cls, at_)], part := none, drop := !f.last }
    else if n = 0 && rest ≠ [] then { b with flits := [], part := none, drop := !f.last, out := none, pkt := {}, started := false }
    else { b with flits := b.flits.take n, part := none, drop := !f.last } := rfl

theorem cut_of_whole (hp : b.part = none) (h : b.flits = [] ∨ ∃ g, b.flits.getLast? = some g ∧ g.1.last = true) :
    b.cut f at_ = { b with drop := !f.last } := by
  rw [cut_eq, wholeFlits_of_whole h]
  simp [hp]

theorem cut_of_empty (hp : b.part ≠ none) (h : b.flits = []) :
    b.cut f at_ = { b with flits := [(abortTail f.vn f.cls, at_)], part := none, drop := !f.last } := by
  rw [cut_eq, wholeFlits_of_whole (.inl h), h]
  simp [Option.isSome_iff_ne_none, hp]

theorem cut_of_open (h : ∀ g ∈ b.flits, g.1.last = false) (hfirst : ∃ g ∈ b.flits, g.1.first = true) :
    b.cut f at_ = { b with flits := [], part := none, drop := !f.last, out := none, pkt := {}, started := false } := by
  have hany : (b.flits.any fun x => x.1.first) = true := List.any_eq_true.2 hfirst
  have hne : b.flits ≠ [] := by
    rintro h0
    simp [h0] at hfirst
  rw [cut_eq, wholeFlits_of_open h]
  simp [hany, hne]

end

/-! ### The count of a packet -/

section
variable {b : InBuf} {f : Flit}

theorem countBroken_eq_false (h : f.first = b.part.isNone) : countBroken b f = false ↔
    if f.first then (flitHeader f).opcode = 0x09 ∨ (f.last = true ↔ (flitHeader f).count = 0)
    else (b.part.any fun q => q.1.opcode = 0x09) = true ∨
      (if f.last then (b.part.map fun q => q.2 + 1) = some ((b.part.map fun q => q.1.count.toNat).getD 0)
      else ∃ m, (b.part.map fun q => q.2 + 1) = some m ∧ m < (b.part.map fun q => q.1.count.toNat).getD 0) := by
  unfold countBroken
  cases hf : f.first with
  | true =>
    have hz (c : BitVec 4) : c.toNat = 0 ↔ c = 0 := ⟨fun h => BitVec.eq_of_toNat_eq h, fun h => h ▸ rfl⟩
    cases f.last <;> simp [hz, eq_comm (a := 0), or_iff_not_imp_left]
  | false =>
    cases hp : b.part with
    | none => simp [hf, hp] at h
    | some q => cases f.last <;> simp [or_iff_not_imp_left]

end

/-! ### A flit that its link has brought in order -/

section
variable {s : State} {r port : Nat} {f : Flit}

/-- The buffer that a flit joins. -/
def flitKey (port : Nat) (f : Flit) : Nat := inKey port (pairIx f.vn f.cls.toNat)

/-- When a flit has arrived. -/
def arrives (s : State) (r port : Nat) : Nat := mcAt s r + 1 + if crossing r port then 4 else 0

theorem add_of_rest {b : InBuf} {at_ : Nat} (hd : b.drop = true) (hf : f.first = false) : b.add f at_ = { b with drop := !f.last } :=
  if_pos (by rw [hd, hf]; rfl)

theorem add_of_packet {b : InBuf} {at_ : Nat} (h : b.drop = false ∨ f.first = true) : b.add f at_ =
    { b with
      flits := b.flits ++ [(f, at_)], drop := false
      part := if f.last then none else if f.first then some (flitHeader f, 0) else b.part.map fun q => (q.1, q.2 + 1) } :=
  if_neg (by rcases h with h | h <;> simp [h])

theorem acceptFlit_reserved (h : f.cls = 3) : acceptFlit r port f s = setProto r s := if_pos h

theorem acceptFlit_rest (h : f.cls ≠ 3) (hd : (inBuf s r (flitKey port f)).drop = true) (hf : f.first = false) :
    acceptFlit r port f s = modIn r (flitKey port f) (·.add f (arrives s r port)) s :=
  (if_neg h).trans (if_pos (by rw [hf]; exact (Bool.and_true _).trans hd))

/-- A flit of a packet that the input does not discard. -/
theorem acceptFlit_packet (h : f.cls ≠ 3) (hd : (inBuf s r (flitKey port f)).drop = false ∨ f.first = true) : acceptFlit r port f s =
    let b := inBuf s r (flitKey port f)
    let cut := modIn r (flitKey port f) (·.cut f (arrives s r port))
    if f.first = b.part.isSome then setProto r (cut s)
    else if f.cls = 2 && !f.abort && decide (8 ≤ b.flits.length) then
      let p := if f.first then flitHeader f else (b.part.map (·.1)).getD {}
      let out := match chooseOutput s r p with
        | .go o _ | .hold o => o
        | _ => 4
      lossNotice r p 3 (logRecord (dieOfRouter r) 0x11 0 (routerPos r) 0 out
        ((cut s).modRouter r fun x => { x with tmdrop := if x.tmdrop = 0xFF then x.tmdrop else x.tmdrop + 1 }))
    else if !f.abort && countBroken b f then setProto r (cut s)
    else modIn r (flitKey port f) (·.add f (arrives s r port)) s :=
  (if_neg h).trans (if_neg (by rcases hd with hd | hd <;> simp [hd, ← flitKey.eq_1]))

/-- A router counts a dropped timed packet. -/
def timedDropped (r : Nat) (s : State) : State :=
  s.modRouter r fun x => { x with tmdrop := if x.tmdrop = 0xFF then x.tmdrop else x.tmdrop + 1 }

theorem timedDropped_only (r : Nat) (s : State) :
    ((timedDropped r s).router r).tmdrop = BitVec.ofNat 8 (Nat.min 0xFF ((s.router r).tmdrop.toNat + 1)) ∧
    OnlyRouterAt s (timedDropped r s) r { s.router r with tmdrop := ((timedDropped r s).router r).tmdrop } [] := by
  have honly : OnlyRouterAt s (timedDropped r s) r _ [] := onlyRouterAt_mod rfl
  rw [honly.it]
  exact ⟨saturating_add_one _, honly⟩

theorem claim_acceptFlit (s : State) (r port : Nat) (f : Flit) :
    let k := inKey port (3 * f.vn.toNat + f.cls.toNat)
    let b := inBuf s r k
    let at_ := mcAt s r + 1 + if crossing r port then 4 else 0
    let p := flitHeader f
    let n := b.part.map fun q => q.2 + 1
    let count := (b.part.map fun q => q.1.count.toNat).getD 0
    let stream := b.part.any fun q => q.1.opcode = 0x09
    let regular := f.cls ≠ 3 ∧ (b.drop = false ∨ f.first = true) ∧ f.first = b.part.isNone
    let timedFull := f.cls = 2 ∧ f.abort = false ∧ 8 ≤ b.flits.length
    let counted := f.abort = true ∨
      if f.first then p.opcode = 0x09 ∨ (f.last = true ↔ p.count = 0)
      else stream = true ∨ (if f.last then n = some count else ∃ m, n = some m ∧ m < count)
    let whole := b.flits = [] ∨ ∃ g, b.flits.getLast? = some g ∧ g.1.last = true
    let cut := fun (u : State) =>
      (b.part = none → whole → BufferIs s u r k { b with drop := !f.last }) ∧
      (b.part ≠ none → b.flits = [] →
        BufferIs s u r k { b with flits := [({ abort := true, last := true, vn := f.vn, cls := f.cls }, at_)], part := none, drop := !f.last }) ∧
      (b.part ≠ none → (∀ g ∈ b.flits, g.1.last = false) → (∃ g ∈ b.flits, g.1.first = true) →
        BufferIs s u r k { b with flits := [], part := none, drop := !f.last, out := none, pkt := {}, started := false })
    (f.cls = 3 → acceptFlit r port f s = setProto r s) ∧
    (f.cls ≠ 3 → b.drop = true → f.first = false → BufferIs s (acceptFlit r port f s) r k { b with drop := !f.last }) ∧
    (regular → ¬ timedFull → counted → BufferIs s (acceptFlit r port f s) r k
      { b with
        flits := b.flits ++ [(f, at_)], drop := false
        part := if f.last then none else if f.first then some (p, 0) else b.part.map fun q => (q.1, q.2 + 1) }) ∧
    (f.cls ≠ 3 → (b.drop = false ∨ f.first = true) → (f.first = b.part.isSome ∨ (¬ timedFull ∧ ¬ counted)) →
      ∃ u, cut u ∧ acceptFlit r port f s = setProto r u) ∧
    (regular → timedFull →
      let q := if f.first then p else (b.part.map (·.1)).getD {}
      ∃ u v out, cut u ∧ (v.router r).tmdrop = BitVec.ofNat 8 (Nat.min 0xFF ((u.router r).tmdrop.toNat + 1)) ∧
        OnlyRouterAt u v r { u.router r with tmdrop := (v.router r).tmdrop } [] ∧
        (∀ o detoured, chooseOutput s r q = .go o detoured → out = o) ∧
        acceptFlit r port f s = lossNotice r q 3 (logRecord (dieOfRouter r) 0x11 0 (routerPos r) 0 out v)) := by
  intro k b at_ p n count stream regular timedFull counted whole cut
  have hcut : cut (modIn r k (·.cut f at_) s) :=
    ⟨fun hp hw => bufferIs_of_modIn (cut_of_whole hp hw), fun hp he => bufferIs_of_modIn (cut_of_empty hp he),
      fun _ hl hf => bufferIs_of_modIn (cut_of_open hl hf)⟩
  have hfull : (f.cls = 2 && !f.abort && decide (8 ≤ b.flits.length)) = true ↔ timedFull := by
    simp only [Bool.and_eq_true, decide_eq_true_eq, Bool.not_eq_true', and_assoc, timedFull]
  have hcounted (hfirst : f.first = b.part.isNone) : (!f.abort && countBroken b f) = true ↔ ¬ counted := by
    rw [Bool.and_eq_true, Bool.not_eq_true', not_or, ← countBroken_eq_false hfirst]
    simp
  have hpacket (h : f.cls ≠ 3) (hd : b.drop = false ∨ f.first = true) := acceptFlit_packet (s := s) (r := r) (port := port) h hd
  have hsome (hfirst : f.first = b.part.isNone) : ¬ f.first = b.part.isSome := by
    rw [hfirst]
    cases b.part <;> simp
  have hnone (hfirst : ¬ f.first = b.part.isSome) : f.first = b.part.isNone := by
    revert hfirst
    cases f.first <;> cases b.part <;> simp
  refine ⟨acceptFlit_reserved, fun h hd hf => ?_, ?_, fun h hd hor => ?_, ?_⟩
  · rw [acceptFlit_rest h hd hf]
    exact bufferIs_of_modIn (add_of_rest hd hf)
  · rintro ⟨h, hd, hfirst⟩ htf hc
    have heq : acceptFlit r port f s = modIn r k (·.add f at_) s := (hpacket h hd).trans
      ((if_neg (hsome hfirst)).trans ((if_neg (mt hfull.1 htf)).trans (if_neg (mt (hcounted hfirst).1 (not_not.2 hc)))))
    rw [heq]
    exact bufferIs_of_modIn (add_of_packet hd)
  · refine ⟨_, hcut, (hpacket h hd).trans ?_⟩
    by_cases hfirst : f.first = b.part.isSome
    · exact if_pos hfirst
    · obtain ⟨htf, hc⟩ := hor.resolve_left hfirst
      exact (if_neg hfirst).trans ((if_neg (mt hfull.1 htf)).trans (if_pos ((hcounted (hnone hfirst)).2 hc)))
  · rintro ⟨h, hd, hfirst⟩ htf q
    have htd := timedDropped_only r (modIn r k (·.cut f at_) s)
    refine ⟨_, timedDropped r (modIn r k (·.cut f at_) s), match chooseOutput s r q with
        | .go o _ | .hold o => o
        | _ => 4, hcut, htd.1, htd.2, fun o detoured ho => by rw [ho],
      (hpacket h hd).trans ((if_neg (hsome hfirst)).trans (if_pos (hfull.2 htf)))⟩

end

end Sys2Proof.Machine
end

section
/-! PROOFS. Acknowledgements sent and received on a link (R63, R64, R78). -/

namespace Sys2Proof.Machine

section
variable {s : State} {r port : Nat}

theorem linkIs_modLink_pushAll (F : Link → Link) (es : List Instr) :
    LinkIs s ((modLink r port F s).pushAll es) r port (F (linkOf s r port)) es false := by
  have h := (linkIs_modLink s r port F).trans (linkIs_pushAll _ r port es)
  rw [(linkIs_modLink s r port F).it, if_pos rfl] at h
  exact h

theorem linkIs_modLink_woken (F : Link → Link) (es : List Instr) :
    LinkIs s ((wake r (modLink r port F s)).pushAll es) r port (F (linkOf s r port)) es true := by
  have h := (linkIs_modLink s r port F).trans (linkIs_woken (port := port) es)
  rw [(linkIs_modLink s r port F).it, if_pos rfl] at h
  exact h

theorem claim_ackSend (s : State) (r port : Nat) :
    let l := linkOf s r port
    let far := 5 ≤ port
    (l.st = .up → l.owed ≠ none ∨ l.ackBy ≠ none →
      let g : Flit := { ctl := true, data := BitVec.ofNat 512 ((l.expect - 1).toNat % 256 + if l.owed = some true then 256 else 0)
                        ack := if far then some (l.expect - 1) else none }
      ∃ t, exec (.ackSend r port) s = .next t ∧ LinkIs s t r port { l with owed := none, ackBy := none }
        ((neighbour r port).toList.map fun n => .linkFlitReceive n (oppPort port) { g with crc := flitCrc g }) false) ∧
    (l.st ≠ .up ∨ (l.owed = none ∧ l.ackBy = none) → NoEffect s (.ackSend r port)) := by
  intro l far
  constructor
  · intro hup hack g
    have hopen : ¬ (l.st ≠ .up || (l.owed.isNone && l.ackBy.isNone)) = true := by
      simp [hup, Option.isNone_iff_eq_none]
      tauto
    have hex : exec (.ackSend r port) s = .next (flitOut r port { g with crc := flitCrc g }
        (modLink r port (fun l => { l with owed := none, ackBy := none }) s)) := congrArg Host.Outcome.next (if_neg hopen)
    rw [flitOut_eq] at hex
    exact ⟨_, hex, linkIs_modLink_pushAll (fun l => { l with owed := none, ackBy := none }) _⟩
  · intro h
    exact congrArg Host.Outcome.next (if_pos (by simpa [Option.isNone_iff_eq_none] using h))

/-- A link of whose flits, the oldest being `first`, the first `n` are acknowledged; `rest` are those that are not. -/
def ackedLink (port : Nat) (first : Flit) (n naks : Nat) (nak : Bool) (stop : BitVec 4) (rest : List Flit) (l : Link) : Link :=
  { l with
    replay := rest, naks := naks, stop := if 5 ≤ port then stop else l.stop
    tails := l.tails.filter fun q => decide (n ≤ (q.1 - first.ext).toNat)
    resend := if nak then rest else l.resend.filter fun f => decide (n ≤ (f.ext - first.ext).toNat) }

theorem claim_linkAck (s : State) (r port : Nat) (seq : BitVec 16) (nak : Bool) (stop : BitVec 4) (first : Flit) (n : Nat) :
    let l := linkOf s r port
    let far := 5 ≤ port
    l.replay.headD {} = first →
      let m := (seq - first.ext + 1).toNat % if far then 65536 else 256
      n = (if m ≤ l.replay.length then m else 0) →
      let left := fun (q : BitVec 16) => n ≤ (q - first.ext).toNat
      let naks := if n ≠ 0 then 0 else if nak then l.naks + 1 else l.naks
      ∃ t, exec (.linkAck r port seq nak stop) s = .next t ∧ LinkIs s t r port
        { l with
          replay := l.replay.drop n, naks := naks, stop := if far then stop else l.stop
          tails := l.tails.filter fun q => decide (left q.1)
          resend := if nak then l.replay.drop n else l.resend.filter fun f => decide (left f.ext) }
        (if naks = 16 then [.linkTrainingStart r port] else []) := by
  intro l far hfirst m hn left naks
  have hcount : (if l.replay.length < (seq - (l.replay.headD {}).ext + 1).toNat % (if 5 ≤ port then 2 ^ 16 else 2 ^ 8) then 0
      else (seq - (l.replay.headD {}).ext + 1).toNat % if 5 ≤ port then 2 ^ 16 else 2 ^ 8) = n := by
    rw [hn, hfirst]
    simp only [← Nat.not_le, ite_not]
    rfl
  have hex : exec (.linkAck r port seq nak stop) s = .next
      (if naks = 16 then (wake r (modLink r port (ackedLink port first n naks nak stop (l.replay.drop n)) s)).push (.linkTrainingStart r port)
      else wake r (modLink r port (ackedLink port first n naks nak stop (l.replay.drop n)) s)) := by
    unfold naks
    rw [← hcount, ← hfirst]
    rfl
  rw [ite_push] at hex
  exact ⟨_, hex, linkIs_modLink_woken _ _⟩

theorem claim_flitsReceived : Claim.FlitsReceived := by
  refine ⟨claim_linkFlitReceive, claim_acceptFlit, fun s r port => ?_⟩
  obtain ⟨hsend, hno⟩ := claim_ackSend s r port
  exact ⟨hsend, hno, fun seq nak stop first n => claim_linkAck s r port seq nak stop first n⟩

end

end Sys2Proof.Machine
end

section
/-! PROOFS. Training of a link, at both its ends, and what a change of a link logs (R64, R78, R81, R126). -/

namespace Sys2Proof.Machine

/-! ### Records of a link's changes -/

/-- The record of a link's change reaches the log of its die. -/
def linkLog (r port : Nat) (l : Link) (ds : SMap Die) : SMap Die :=
  if crossing r port || 5 ≤ port then
    smMod {} ds (dieOfRouter r) fun e =>
      if e.log.en then
        { e with log := { e.log with pend := e.log.pend ++
          [(0x12 * 2 ^ 16 + (if 5 ≤ port then 0xB0 + (port - 5) else 0),
            routerPos r + 0 * 2 ^ 32 + (smGet {} ds (dieOfRouter r)).mc.toNat * 2 ^ 96 + (lnkstatOf l).toNat % 2 ^ 64 * 2 ^ 160)] } }
      else e
  else ds

section
variable (s : State) (r port : Nat)

theorem logLink_eq : logLink r port s = { s with dies := linkLog r port (linkOf s r port) s.dies } := by
  unfold logLink linkLog
  split <;> rfl

theorem logLink_busy (busy : List Nat) : logLink r port { s with busy := busy } = { logLink r port s with busy := busy } := by
  rw [logLink_eq, logLink_eq]
  rfl

/-- A change of another link and a record may change places. -/
theorem logLink_modLink {n q : Nat} (f : Link → Link) (h : ¬ (n = r ∧ q = port)) :
    logLink r port (modLink n q f s) = modLink n q f (logLink r port s) := by
  rw [logLink_eq, logLink_eq, linkOf_modLink, if_neg h]
  rfl

end

/-! ### Both ends of a link -/

theorem port_lt_of_neighbour {r port n : Nat} (h : neighbour r port = some n) : port < 4 := by
  by_contra hp
  obtain ⟨m, rfl⟩ : ∃ m, port = m + 4 := ⟨port - 4, by omega⟩
  exact absurd h (by simp [neighbour])

theorem oppPort_ne {port : Nat} (_ : port < 4) : oppPort port ≠ port := by
  rw [oppPort]
  omega

section
variable (s : State) (r port : Nat) (f : Link → Link)

/-- Both ends change by `f`. -/
def changeEnds : State := (linkEnds r port).foldl (fun s e => modLink e.1 e.2 f s) s

/-- The records of both ends. -/
def logEnds : State := (linkEnds r port).foldl (fun s e => logLink e.1 e.2 s) s

theorem linkEnds_eq : linkEnds r port = (r, port) :: (neighbour r port).toList.map fun n => (n, oppPort port) := by
  unfold linkEnds
  cases neighbour r port <;> rfl

theorem linkOf_changeEnds (n q : Nat) : linkOf (changeEnds s r port f) n q =
    if (n = r ∧ q = port) ∨ (neighbour r port = some n ∧ q = oppPort port) then f (linkOf s n q) else linkOf s n q := by
  rw [changeEnds, linkEnds_eq]
  cases hn : neighbour r port with
  | none =>
    simp only [Option.toList_none, List.map_nil, List.foldl_cons, List.foldl_nil, linkOf_modLink, reduceCtorEq, false_and, or_false,
      eq_comm (a := r), eq_comm (a := port)]
    split
    next h => rw [h.1, h.2]
    next => rfl
  | some m =>
    have hne := oppPort_ne (port_lt_of_neighbour hn)
    simp only [Option.toList_some, List.map_cons, List.map_nil, List.foldl_cons, List.foldl_nil, linkOf_modLink, Option.some.injEq]
    by_cases h1 : m = n ∧ oppPort port = q
    · obtain ⟨rfl, rfl⟩ := h1
      simp [hne.symm]
    · by_cases h2 : r = n ∧ port = q
      · obtain ⟨rfl, rfl⟩ := h2
        rw [if_neg h1]
        simp
      · rw [if_neg h1, if_neg h2, if_neg]
        rintro (⟨rfl, rfl⟩ | ⟨rfl, rfl⟩)
        · exact h2 ⟨rfl, rfl⟩
        · exact h1 ⟨rfl, rfl⟩

theorem changeEnds_routers (n : Nat) : { (changeEnds s r port f).router n with links := (s.router n).links } = s.router n := by
  unfold changeEnds
  generalize linkEnds r port = es
  induction es generalizing s with
  | nil => rfl
  | cons e es ih =>
    refine (congrArg (fun x : Router => { x with links := (s.router n).links }) (ih (modLink e.1 e.2 f s))).trans ?_
    rw [modLink, State.router_modRouter]
    split
    next h => rw [h]
    next => rfl

theorem changeEnds_rest : { changeEnds s r port f with routers := s.routers } = s := by
  unfold changeEnds
  generalize linkEnds r port = es
  induction es generalizing s with
  | nil => rfl
  | cons e es ih => exact congrArg (fun v : State => { v with routers := s.routers }) (ih (modLink e.1 e.2 f s))

theorem changeEnds_dies : (changeEnds s r port f).dies = s.dies := by
  have h := congrArg (fun v : State => v.dies) (changeEnds_rest s r port f)
  exact h

theorem changeEnds_due : (changeEnds s r port f).due = s.due := by
  have h := congrArg (fun v : State => v.due) (changeEnds_rest s r port f)
  exact h

theorem changeEnds_busy : (changeEnds s r port f).busy = s.busy := by
  have h := congrArg (fun v : State => v.busy) (changeEnds_rest s r port f)
  exact h

/-- What is recorded depends on the links and on the logs. -/
theorem logEnds_congr {s u : State} (hr : u.routers = s.routers) (hd : u.dies = s.dies) : (logEnds u r port).dies = (logEnds s r port).dies := by
  unfold logEnds
  generalize linkEnds r port = es
  induction es generalizing s u with
  | nil => exact hd
  | cons e es ih =>
    refine ih ?_ ?_
    · simp only [logLink_eq]
      exact hr
    · dsimp only
      rw [logLink_eq, logLink_eq, hd, linkOf, State.router, hr]
      rfl

theorem logEnds_eq : logEnds s r port = { s with dies := (logEnds s r port).dies } := by
  unfold logEnds
  generalize linkEnds r port = es
  induction es generalizing s with
  | nil => rfl
  | cons e es ih =>
    rw [List.foldl_cons]
    refine (ih _).trans ?_
    rw [logLink_eq]

theorem logEnds_foldl : logEnds s r port = (neighbour r port).toList.foldl (fun u n => logLink n (oppPort port) u) (logLink r port s) := by
  rw [logEnds, linkEnds_eq]
  cases neighbour r port <;> rfl

end

section
variable {s t : State} {r port : Nat} {f : Link → Link}

/-- Both ends have changed, and their records are made or not. -/
theorem endsBecome_of_routers {more : List Instr} {woken logged : Bool} (hr : t.routers = (changeEnds s r port f).routers)
    (hd : t.dies = if logged then (logEnds (changeEnds s r port f) r port).dies else s.dies) (hdue : t.due = s.due ++ more)
    (hbusy : ∀ n, n ∈ t.busy ↔ n ∈ s.busy ∨ (woken = true ∧ (n = r ∨ neighbour r port = some n)))
    (hrest : { t with routers := s.routers, due := s.due, busy := s.busy, dies := s.dies } = s) : EndsBecome s t r port f more woken logged where
  ends n q := by
    rw [← linkOf_changeEnds]
    simp only [linkOf, State.router, hr]
  routers n := by
    rw [← changeEnds_routers s r port f n]
    simp only [State.router, hr]
  logs := by
    rw [hd, ← logEnds_foldl]
    split
    · exact logEnds_congr r port hr.symm (changeEnds_dies s r port f)
    · rfl
  due := hdue
  busy := hbusy
  rest := hrest

/-- The ends change, and their records follow each change. -/
theorem foldl_log_change : (linkEnds r port).foldl (fun s e => logLink e.1 e.2 (modLink e.1 e.2 f s)) s =
    logEnds (changeEnds s r port f) r port := by
  rw [logEnds, changeEnds, linkEnds_eq]
  cases hn : neighbour r port with
  | none => simp only [Option.toList_none, List.map_nil, List.foldl_cons, List.foldl_nil]
  | some n =>
    have hne := oppPort_ne (port_lt_of_neighbour hn)
    simp only [Option.toList_some, List.map_cons, List.map_nil, List.foldl_cons, List.foldl_nil]
    rw [logLink_modLink (modLink r port f s) r port f fun h => hne h.2]

theorem foldl_wake_log (u : State) : ∃ busy,
    (linkEnds r port).foldl (fun s e => wake e.1 (logLink e.1 e.2 s)) u = { logEnds u r port with busy := busy } ∧
    ∀ n, n ∈ busy ↔ n ∈ u.busy ∨ n = r ∨ neighbour r port = some n := by
  have hlog (v : State) (r port n : Nat) : n ∈ (logLink r port v).busy ↔ n ∈ v.busy := by
    rw [logLink_eq]
  rw [logEnds, linkEnds_eq]
  cases hn : neighbour r port with
  | none =>
    refine ⟨(wake r (logLink r port u)).busy, wake_eq .., fun n => ?_⟩
    simp only [mem_busy_wake, hlog, reduceCtorEq, or_false]
  | some m =>
    simp only [Option.toList_some, List.map_cons, List.map_nil, List.foldl_cons, List.foldl_nil]
    refine ⟨(wake m (logLink m (oppPort port) (wake r (logLink r port u)))).busy, ?_, fun n => ?_⟩
    · refine (wake_eq _ m).trans ?_
      rw [wake_eq _ r, logLink_busy]
    · simp only [mem_busy_wake, hlog, Option.some.injEq, or_assoc, eq_comm (a := m)]

end

/-! ### Training -/

section
variable {s : State} {r port : Nat} {f : Link → Link}

theorem logEnds_endsBecome : EndsBecome s (logEnds (changeEnds s r port f) r port) r port f [] false true := by
  apply endsBecome_of_routers
  · rw [logEnds_eq]
  · rfl
  · rw [logEnds_eq, List.append_nil]
    exact changeEnds_due ..
  · intro n
    rw [logEnds_eq, changeEnds_busy]
    simp
  · rw [logEnds_eq]
    exact (congrArg (fun v : State => { v with due := s.due, busy := s.busy, dies := s.dies }) (changeEnds_rest s r port f))

theorem changeEnds_endsBecome (es : List Instr) : EndsBecome s ((changeEnds s r port f).pushAll es) r port f es false false := by
  apply endsBecome_of_routers
  · rfl
  · exact changeEnds_dies ..
  · rw [← changeEnds_due s r port f]
    rfl
  · intro n
    rw [← changeEnds_busy s r port f]
    simp [State.pushAll]
  · exact (congrArg (fun v : State => { v with due := s.due, busy := s.busy, dies := s.dies }) (changeEnds_rest s r port f))

theorem woken_endsBecome {busy : List Nat} (hb : ∀ n, n ∈ busy ↔ n ∈ (changeEnds s r port f).busy ∨ n = r ∨ neighbour r port = some n) :
    EndsBecome s { logEnds (changeEnds s r port f) r port with busy := busy } r port f [] true true := by
  apply endsBecome_of_routers
  · rw [logEnds_eq]
  · rfl
  · rw [logEnds_eq, List.append_nil]
    exact changeEnds_due ..
  · intro n
    rw [← changeEnds_busy s r port f]
    simpa using hb n
  · rw [logEnds_eq]
    exact (congrArg (fun v : State => { v with due := s.due, busy := s.busy, dies := s.dies }) (changeEnds_rest s r port f))

theorem oneMore_eq (v : Byte) : oneMore v = BitVec.ofNat 8 (Nat.min 0xFF (v.toNat + 1)) := saturating_add_one v

theorem claim_linkTraining (s : State) (r port : Nat) :
    let l := linkOf s r port
    let again := fun (l : Link) => BitVec.ofNat 8 (Nat.min 0xFF (l.retrains.toNat + 1))
    let goes := fun (e : Instr) (f : Link → Link) (more : List Instr) (woken logged : Bool) =>
      ∃ t, exec e s = .next t ∧ EndsBecome s t r port f more woken logged
    (l.st = .down ∨ l.st = .up ∨ (l.st = .lost ∧ l.restart = true ∧ 5 ≤ port) →
      goes (.linkTrainingStart r port) (fun l => { l with st := .training, naks := 0, retrains := again l }) [] false true) ∧
    (l.st = .lost → (l.restart = false ∨ port < 5) → NoEffect s (.linkTrainingStart r port)) ∧
    (l.st = .training → NoEffect s (.linkTrainingStart r port) ∧
      (∀ half, goes (.linkTrainingEnd r port true half) (fun l =>
        { l with st := .up, fails := 0, restart := false, half := half && decide (5 ≤ port), resend := l.replay }) [] true true) ∧
      ∀ half,
        (l.fails ≠ 2 → goes (.linkTrainingEnd r port false half) (fun l => { l with fails := l.fails + 1, retrains := again l }) []
          false false) ∧
        (l.fails = 2 → goes (.linkTrainingEnd r port false half) (fun l => { l with fails := 0, restart := false }) [.linkLost r port]
          false false)) ∧
    (∀ good half, l.st ≠ .training → NoEffect s (.linkTrainingEnd r port good half)) := by
  intro l again goes
  have hstart (h : (l.st = .down || l.st = .up || (l.st = .lost && l.restart && 5 ≤ port)) = true) : exec (.linkTrainingStart r port) s =
      .next ((linkEnds r port).foldl (fun s e => logLink e.1 e.2 (modLink e.1 e.2
        (fun l => { l with st := .training, naks := 0, retrains := oneMore l.retrains }) s)) s) := congrArg Host.Outcome.next (if_pos h)
  have hstay (h : ¬ (l.st = .down || l.st = .up || (l.st = .lost && l.restart && 5 ≤ port)) = true) :
      exec (.linkTrainingStart r port) s = .next s := congrArg Host.Outcome.next (if_neg h)
  have hagain : (fun l : Link => { l with st := .training, naks := 0, retrains := oneMore l.retrains }) =
      fun l => { l with st := .training, naks := 0, retrains := again l } :=
    funext fun l => congrArg (fun v => { l with st := .training, naks := 0, retrains := v }) (oneMore_eq l.retrains)
  have hmore : (fun l : Link => { l with fails := l.fails + 1, retrains := oneMore l.retrains }) =
      fun l => { l with fails := l.fails + 1, retrains := again l } :=
    funext fun l => congrArg (fun v => { l with fails := l.fails + 1, retrains := v }) (oneMore_eq l.retrains)
  refine ⟨fun h => ?_, fun h hr => ?_, fun h => ⟨?_, fun half => ?_, fun half => ⟨fun hf => ?_, fun hf => ?_⟩⟩, fun good half h => ?_⟩
  · refine ⟨_, hstart (by simpa [or_assoc, and_assoc] using h), ?_⟩
    rw [foldl_log_change, hagain]
    exact logEnds_endsBecome
  · refine hstay ?_
    simp only [h]
    rcases hr with hr | hr
    · simp [hr]
    · simp [Nat.not_le.2 hr]
  · refine hstay ?_
    simp [h]
  · obtain ⟨busy, hfold, hb⟩ := foldl_wake_log (r := r) (port := port) (changeEnds s r port fun l =>
      { l with st := .up, fails := 0, restart := false, half := half && decide (5 ≤ port), resend := l.replay })
    refine ⟨_, (congrArg Host.Outcome.next ((if_neg (not_not.2 h)).trans (if_pos rfl))).trans (congrArg _ hfold), woken_endsBecome hb⟩
  · refine ⟨changeEnds s r port _, congrArg Host.Outcome.next ((if_neg (not_not.2 h)).trans ((if_neg Bool.false_ne_true).trans (if_neg hf))), ?_⟩
    rw [← hmore, ← pushAll_nil (changeEnds s r port _)]
    exact changeEnds_endsBecome []
  · exact ⟨(changeEnds s r port _).pushAll [.linkLost r port],
      congrArg Host.Outcome.next ((if_neg (not_not.2 h)).trans ((if_neg Bool.false_ne_true).trans (if_pos hf))), changeEnds_endsBecome _⟩
  · exact congrArg Host.Outcome.next (if_pos h)

end

end Sys2Proof.Machine
end

section
/-! PROOFS. Loss and restart of a link: what its ends do with the packets that were on their way (R64, R65, R81). -/

namespace Sys2Proof.Machine

/-! ### One end of a lost link -/

/-- A lost link. -/
def lostLink (l : Link) : Link := { l with st := .lost, replay := [], resend := [], tails := [], naks := 0, owed := none, ackBy := none }

/-- An input whose link is lost: the packet that was arriving is closed with an ABORT tail. -/
def closedInput (port now : Nat) (e : Nat × InBuf) : Nat × InBuf :=
  if e.1 / 6 = port && (e.2.part.isSome || e.2.drop) then
    (e.1, if e.2.part.isSome then e.2.add (abortTail (decide (3 ≤ e.1 % 6)) (BitVec.ofNat 2 (e.1 % 3))) now else { e.2 with drop := false })
  else e

/-- The end's link is lost, its arriving packets are closed, and the change is recorded. -/
def endDown (r port : Nat) (s : State) : State :=
  logLink r port ((wake r (modLink r port lostLink s)).modRouter r fun x =>
    { x with
      lost := if port < 4 then x.lost ||| (1 <<< port) else x.lost
      ins := x.ins.map (closedInput port (mcAt (wake r (modLink r port lostLink s)) r)) })

/-- What becomes of a packet that was to leave by the lost link. -/
def strandFront (r port : Nat) (s : State) (e : Nat × InBuf) : State :=
  if e.2.started then
    lossNotice r e.2.pkt 3 ((modIn r e.1 InBuf.dropFront s).modRouter r fun x => { x with owner := smSet 0 x.owner (6 * port + e.1 % 6) 0 })
  else modIn r e.1 (fun b => { b with out := none }) s

/-- The changes of a lost end but for its buffers and its outputs' open packets. -/
def EndGone (s u : State) (r port : Nat) : Prop :=
  let l := linkOf s r port
  let x := s.router r
  (∀ k, linkOf u r k = if k = port then
    { l with st := .lost, replay := [], resend := [], tails := [], naks := 0, owed := none, ackBy := none } else linkOf s r k) ∧
  (u.router r).lost = (if port < 4 then x.lost ||| (1 <<< port) else x.lost) ∧
  { u.router r with links := x.links, lost := x.lost, ins := x.ins, owner := x.owner } = x ∧
  (∀ n, n ≠ r → u.router n = s.router n) ∧ (∀ n, n ∈ u.busy ↔ n ∈ s.busy ∨ n = r) ∧
  u.dies = (logLink r port { u with dies := s.dies }).dies ∧ { u with routers := s.routers, busy := s.busy, dies := s.dies } = s

section
variable {s u : State} {r port : Nat}

theorem endLost_eq : endLost r port s = (linkOf s r port).tails.foldl (fun s t => lossNotice r t.2 4 s)
    ((((endDown r port s).router r).ins.filter fun e => e.2.out = some port).foldl (strandFront r port) (endDown r port s)) := rfl

theorem router_logLink (n : Nat) : (logLink r port s).router n = s.router n := by
  rw [logLink_eq]
  rfl

theorem router_wake (n : Nat) : (wake r s).router n = s.router n := by
  rw [wake_eq]
  rfl

theorem logLink_dies_self (r port : Nat) (v : State) : (logLink r port v).dies = (logLink r port { logLink r port v with dies := v.dies }).dies := by
  rw [logLink_eq v r port, logLink_eq _ r port]

theorem router_endDown : (endDown r port s).router r =
    { s.router r with
      links := smMod {} (s.router r).links port lostLink
      lost := if port < 4 then (s.router r).lost ||| (1 <<< port) else (s.router r).lost
      ins := (s.router r).ins.map (closedInput port (mcAt s r)) } := by
  have hmc : mcAt (wake r (modLink r port lostLink s)) r = mcAt s r := mcAt_wake (s := modLink r port lostLink s) []
  rw [endDown, router_logLink, State.router_modRouter, if_pos rfl, router_wake, modLink, State.router_modRouter, if_pos rfl]
  rw [modLink] at hmc
  rw [hmc]

theorem router_endDown_other {n : Nat} (h : n ≠ r) : (endDown r port s).router n = s.router n := by
  rw [endDown, router_logLink, State.router_modRouter, if_neg h.symm, router_wake, modLink, State.router_modRouter, if_neg h.symm]

theorem linkOf_endDown (k : Nat) : linkOf (endDown r port s) r k = if k = port then lostLink (linkOf s r port) else linkOf s r k := by
  rw [linkOf, router_endDown]
  exact smGet_set {} (s.router r).links port (lostLink (linkOf s r port)) k

theorem endGone_endDown : EndGone s (endDown r port s) r port := by
  refine ⟨linkOf_endDown, ?_, ?_, fun n h => router_endDown_other h, fun n => ?_, ?_, ?_⟩
  · rw [router_endDown]
  · rw [router_endDown]
  · rw [endDown, logLink_eq]
    exact mem_busy_wake ..
  · have hdies : ((wake r (modLink r port lostLink s)).modRouter r fun x =>
        { x with
          lost := if port < 4 then x.lost ||| (1 <<< port) else x.lost
          ins := x.ins.map (closedInput port (mcAt (wake r (modLink r port lostLink s)) r)) }).dies = s.dies := by
      rw [wake_eq]
      rfl
    have h := logLink_dies_self r port ((wake r (modLink r port lostLink s)).modRouter r fun x =>
        { x with
          lost := if port < 4 then x.lost ||| (1 <<< port) else x.lost
          ins := x.ins.map (closedInput port (mcAt (wake r (modLink r port lostLink s)) r)) })
    rw [hdies] at h
    exact h
  · rw [endDown, logLink_eq, wake_eq]
    rfl

/-- A further change of the router's buffers and open packets. -/
theorem EndGone.modRouter {f : Router → Router} (h : EndGone s u r port) (hf : ∀ x, { f x with ins := x.ins, owner := x.owner } = x) :
    EndGone s (u.modRouter r f) r port := by
  obtain ⟨hlink, hlost, hrouter, hothers, hbusy, hlog, hrest⟩ := h
  have hx := hf (u.router r)
  have hlinks : (f (u.router r)).links = (u.router r).links := by
    have h := congrArg (fun x : Router => x.links) hx
    exact h
  have hr : (u.modRouter r f).router r = f (u.router r) := (State.router_modRouter ..).trans (if_pos rfl)
  have hl (k : Nat) : linkOf (u.modRouter r f) r k = linkOf u r k := by
    rw [linkOf, hr, hlinks]
    rfl
  refine ⟨fun k => (hl k).trans (hlink k), ?_, ?_, fun n hn => ?_, hbusy, ?_, hrest⟩
  · rw [hr, ← hlost]
    have h := congrArg (fun x : Router => x.lost) hx
    exact h
  · refine Eq.trans ?_ hrouter
    rw [hr]
    exact congrArg (fun y : Router =>
      { y with links := (s.router r).links, lost := (s.router r).lost, ins := (s.router r).ins, owner := (s.router r).owner }) hx
  · rw [State.router_modRouter, if_neg hn.symm]
    exact hothers n hn
  · refine hlog.trans ?_
    rw [logLink_eq, logLink_eq]
    exact congrArg (fun l => linkLog r port l s.dies) (hl port).symm

theorem EndGone.modIn {k : Nat} {f : InBuf → InBuf} (h : EndGone s u r port) : EndGone s (modIn r k f u) r port :=
  h.modRouter fun _ => rfl

end

/-! ### What leaves every link as it is -/

/-- No router's links have changed. -/
structure LinksKept (s t : State) : Prop where
  links : ∀ n, (t.router n).links = (s.router n).links

namespace LinksKept
variable {s t u : State}

theorem refl (s : State) : LinksKept s s := ⟨fun _ => rfl⟩

theorem trans (h : LinksKept s t) (h' : LinksKept t u) : LinksKept s u := ⟨fun n => (h'.links n).trans (h.links n)⟩

theorem foldl {α : Type} (f : State → α → State) (h : ∀ s a, LinksKept s (f s a)) (l : List α) (s : State) : LinksKept s (l.foldl f s) := by
  induction l generalizing s with
  | nil => exact refl s
  | cons a l ih => exact (h s a).trans (ih (f s a))

theorem modRouter (r : Nat) (f : Router → Router) (hf : ∀ x, (f x).links = x.links) (s : State) : LinksKept s (s.modRouter r f) where
  links n := by
    rw [State.router_modRouter]
    split
    next h => rw [hf, h]
    next => rfl

theorem modIn (r k : Nat) (f : InBuf → InBuf) (s : State) : LinksKept s (Machine.modIn r k f s) := modRouter r _ (fun _ => by rfl) s

theorem wake (r : Nat) (s : State) : LinksKept s (Machine.wake r s) where
  links n := by rw [router_wake]

theorem enterLocal (r inp : Nat) (fs : List Flit) (s : State) : LinksKept s (Machine.enterLocal r inp fs s) :=
  trans (modRouter r _ (fun _ => by rfl) s) (wake r _)

theorem lossNotice (r : Nat) (p : Packet) (req : BitVec 5) (s : State) : LinksKept s (Machine.lossNotice r p req s) := by
  unfold Machine.lossNotice
  split <;> exact enterLocal ..

theorem strandFront (r port : Nat) (s : State) (e : Nat × InBuf) : LinksKept s (Machine.strandFront r port s e) := by
  unfold Machine.strandFront
  split
  · refine trans ?_ (lossNotice ..)
    exact trans (modIn ..) (modRouter r _ (fun _ => by rfl) _)
  · exact modIn ..

end LinksKept

section
variable {s : State} {r port : Nat}

theorem linkOf_endLost {n q : Nat} (h : ¬ (n = r ∧ q = port)) : linkOf (endLost r port s) n q = linkOf s n q := by
  have hkept : LinksKept (endDown r port s) (endLost r port s) := by
    rw [endLost_eq]
    exact (LinksKept.foldl _ (LinksKept.strandFront r port) _ _).trans (LinksKept.foldl _ (fun s _ => LinksKept.lossNotice ..) _ _)
  rw [linkOf, hkept.links n]
  by_cases hn : n = r
  · subst hn
    exact (linkOf_endDown q).trans (if_neg fun hq => h ⟨rfl, hq⟩)
  · rw [router_endDown_other hn]
    rfl

/-- One end is lost, the other is lost already or outside the device. -/
theorem exec_linkLost_one (h : (linkOf s r port).st ≠ .lost) (hn : ∀ n, neighbour r port = some n → (linkOf s n (oppPort port)).st = .lost) :
    exec (.linkLost r port) s = .next (endLost r port s) := by
  refine congrArg Host.Outcome.next ?_
  rw [linkEnds_eq, List.foldl_cons, if_neg h]
  cases hnb : neighbour r port with
  | none => rfl
  | some n =>
    refine if_pos ?_
    rw [linkOf_endLost fun hq => oppPort_ne (port_lt_of_neighbour hnb) hq.2]
    exact hn n hnb

theorem exec_linkLost_none (h : (linkOf s r port).st = .lost) (hn : ∀ n, neighbour r port = some n → (linkOf s n (oppPort port)).st = .lost) :
    exec (.linkLost r port) s = .next s := by
  refine congrArg Host.Outcome.next ?_
  rw [linkEnds_eq, List.foldl_cons, if_pos h]
  cases hnb : neighbour r port with
  | none => rfl
  | some n => exact if_pos (hn n hnb)

/-! ### Routers with one packet -/

theorem endLost_of_no_input (h : (s.router r).ins = []) :
    endLost r port s = (linkOf s r port).tails.foldl (fun s t => lossNotice r t.2 4 s) (endDown r port s) := by
  rw [endLost_eq, router_endDown, h]
  rfl

theorem ins_endDown {k : Nat} {b : InBuf} (h : (s.router r).ins = [(k, b)]) :
    ((endDown r port s).router r).ins = [closedInput port (mcAt s r) (k, b)] := by
  rw [router_endDown, h]
  rfl

theorem owner_endDown : ((endDown r port s).router r).owner = (s.router r).owner := by
  rw [router_endDown]

theorem inBuf_single {u : State} {k : Nat} {b : InBuf} (h : (u.router r).ins = [(k, b)]) (j : Nat) : inBuf u r j = if j = k then b else {} := by
  rw [inBuf, h]
  simp only [smGet, eq_comm (a := k)]

theorem closedInput_of_quiet {now k : Nat} {b : InBuf} (h : k / 6 ≠ port ∨ (b.part = none ∧ b.drop = false)) :
    closedInput port now (k, b) = (k, b) := by
  refine if_neg ?_
  rcases h with h | ⟨hp, hd⟩
  · simp [h]
  · simp [hp, hd]

theorem endLost_of_input {k : Nat} {b b' : InBuf} (h : (s.router r).ins = [(k, b)]) (ht : (linkOf s r port).tails = [])
    (hc : closedInput port (mcAt s r) (k, b) = (k, b')) :
    endLost r port s = if b'.out = some port then strandFront r port (endDown r port s) (k, b') else endDown r port s := by
  rw [endLost_eq, ht, ins_endDown h, hc]
  by_cases ho : b'.out = some port
  · simp [ho]
  · simp [ho]

theorem claim_linkLost (s : State) (r port : Nat) :
    let l := linkOf s r port
    (l.st = .lost → (∀ n, neighbour r port = some n → (linkOf s n (oppPort port)).st = .lost) → NoEffect s (.linkLost r port)) ∧
    (l.st ≠ .lost → (∀ n, neighbour r port = some n → (linkOf s n (oppPort port)).st = .lost) →
      let x := s.router r
      let gone := fun (u : State) => EndGone s u r port
      let quiet := fun (k : Nat) (b : InBuf) => k / 6 ≠ port ∨ (b.part = none ∧ b.drop = false)
      let same := fun (u : State) => (u.router r).owner = x.owner
      (x.ins = [] → (l.tails = [] → ∃ u, gone u ∧ same u ∧ (∀ j, inBuf u r j = inBuf s r j) ∧ exec (.linkLost r port) s = .next u) ∧
        ∀ q p, l.tails = [(q, p)] → ∃ u, gone u ∧ same u ∧ (∀ j, inBuf u r j = inBuf s r j) ∧
          exec (.linkLost r port) s = .next (lossNotice r p 4 u)) ∧
      ∀ k b, x.ins = [(k, b)] → l.tails = [] →
        (quiet k b → b.out = some port → b.started = true → ∃ u, gone u ∧
          (∀ j, inBuf u r j = if j = k then b.dropFront else inBuf s r j) ∧
          (∀ j, smGet 0 (u.router r).owner j = if j = 6 * port + k % 6 then 0 else smGet 0 x.owner j) ∧
          exec (.linkLost r port) s = .next (lossNotice r b.pkt 3 u)) ∧
        (quiet k b → b.out = some port → b.started = false → ∃ u, gone u ∧ same u ∧
          (∀ j, inBuf u r j = if j = k then { b with out := none } else inBuf s r j) ∧ exec (.linkLost r port) s = .next u) ∧
        (k / 6 = port → b.out ≠ some port → b.part ≠ none → b.drop = false → ∃ u, gone u ∧ same u ∧
          (∀ j, inBuf u r j = if j = k then
            { b with
              flits := b.flits ++ [({ abort := true, last := true, vn := decide (3 ≤ k % 6), cls := BitVec.ofNat 2 (k % 3) }, mcAt s r)]
              part := none, drop := false } else inBuf s r j) ∧ exec (.linkLost r port) s = .next u)) := by
  intro l
  refine ⟨exec_linkLost_none, fun h hn => ?_⟩
  intro x gone quiet same
  have hexec := exec_linkLost_one h hn
  have hgone : gone (endDown r port s) := endGone_endDown
  constructor
  · intro hins
    have hbuf (j : Nat) : inBuf (endDown r port s) r j = inBuf s r j := by
      rw [inBuf, inBuf, router_endDown, hins]
      rfl
    rw [endLost_of_no_input hins] at hexec
    refine ⟨fun ht => ⟨_, hgone, owner_endDown, hbuf, ?_⟩, fun q p ht => ⟨_, hgone, owner_endDown, hbuf, ?_⟩⟩
    · rw [hexec, show (linkOf s r port).tails = [] from ht]
      rfl
    · rw [hexec, show (linkOf s r port).tails = [(q, p)] from ht]
      rfl
  · intro k b hins ht
    have hquiet (hq : quiet k b) (ho : b.out = some port) : endLost r port s = strandFront r port (endDown r port s) (k, b) := by
      rw [endLost_of_input hins ht (closedInput_of_quiet hq), if_pos ho]
    have hsame (hq : quiet k b) (j : Nat) : inBuf (endDown r port s) r j = inBuf s r j := by
      rw [inBuf_single ((ins_endDown hins).trans (congrArg (fun e => [e]) (closedInput_of_quiet hq))), inBuf_single hins]
    have hkb : inBuf s r k = b := (inBuf_single hins k).trans (if_pos rfl)
    refine ⟨fun hq ho hs => ?_, fun hq ho hs => ?_, fun hk ho hp hd => ?_⟩
    · rw [hquiet hq ho] at hexec
      refine ⟨_, (hgone.modIn (k := k) (f := InBuf.dropFront)).modRouter (f := fun x =>
        { x with owner := smSet 0 x.owner (6 * port + k % 6) 0 }) fun _ => rfl, fun j => ?_, fun j => ?_,
        hexec.trans (congrArg Host.Outcome.next (if_pos hs))⟩
      · rw [inBuf, State.router_modRouter, if_pos rfl]
        refine (inBuf_modIn _ r k r InBuf.dropFront j).trans ?_
        rw [hsame hq, hsame hq, hkb]
        simp only [true_and, eq_comm (a := k)]
      · rw [State.router_modRouter, if_pos rfl, ← owner_endDown (s := s) (r := r) (port := port), modIn, State.router_modRouter, if_pos rfl]
        exact smGet_set 0 _ (6 * port + k % 6) 0 j
    · rw [hquiet hq ho] at hexec
      refine ⟨_, hgone.modIn (k := k) (f := fun b => { b with out := none }), ?_, fun j => ?_,
        hexec.trans (congrArg Host.Outcome.next (if_neg (by rw [hs]; exact Bool.false_ne_true)))⟩
      · unfold same
        rw [modIn, State.router_modRouter, if_pos rfl]
        exact owner_endDown
      · rw [inBuf_modIn, hsame hq, hsame hq, hkb]
        simp only [true_and, eq_comm (a := k)]
    · have hclosed : closedInput port (mcAt s r) (k, b) = (k,
          { b with
            flits := b.flits ++ [({ abort := true, last := true, vn := decide (3 ≤ k % 6), cls := BitVec.ofNat 2 (k % 3) }, mcAt s r)]
            part := none, drop := false }) := by
        have hsome : b.part.isSome = true := Option.isSome_iff_ne_none.2 hp
        refine (if_pos (by simp [hk, hsome])).trans ?_
        rw [if_pos hsome, add_of_packet (.inl hd)]
        rfl
      rw [endLost_of_input hins ht hclosed, if_neg ho] at hexec
      refine ⟨_, hgone, owner_endDown, fun j => ?_, hexec⟩
      rw [inBuf_single ((ins_endDown hins).trans (congrArg (fun e => [e]) hclosed)), inBuf_single hins]
      split
      · rfl
      · rfl

theorem claim_lnkstatRestart (s : State) (r port d t : Nat) (hr : r = trizenRouter d t) (hp : port = 5 + t) :
    let l := linkOf s r port
    (l.st = .lost → ∃ u, LinkIs s u r port { l with restart := true } [.linkTrainingStart r port] false ∧
      exec (.lnkstatRestart d t) s = .next u) ∧
    (l.st ≠ .lost → ∃ u, LinkIs s u r port { l with restart := false } [] false ∧ exec (.lnkstatRestart d t) s = .next u) := by
  subst hr hp
  exact ⟨fun h => ⟨_, linkIs_modLink_pushAll (fun l => { l with restart := true }) [_], congrArg Host.Outcome.next (if_pos h)⟩,
    fun h => ⟨_, linkIs_modLink _ _ _ (fun l => { l with restart := false }), congrArg Host.Outcome.next (if_neg h)⟩⟩

theorem claim_linkStates : Claim.LinkStates := by
  intro s r port
  obtain ⟨hstart, hstay, htraining, hno⟩ := claim_linkTraining s r port
  obtain ⟨hnone, hlost⟩ := claim_linkLost s r port
  exact ⟨hstart, hstay, htraining, hno, hnone, hlost, fun d t => claim_lnkstatRestart s r port d t⟩

end

end Sys2Proof.Machine
end

section
/-! PROOFS. How a router gives the packet at the front of an input its output (R49, R53, R67, R76, R77, R79, R80). -/

namespace Sys2Proof.Machine

/-! ### The event, by what becomes of the packet -/

/-- The packet leaves its input. -/
def dropped (r k : Nat) (s : State) : State := modIn r k InBuf.dropFront s

def setFirewall (r : Nat) (s : State) : State := s.modRouter r fun x => { x with firewall := true }

def setUnroute (r : Nat) (s : State) : State := s.modRouter r fun x => { x with unroute := true }

def countDetour (r : Nat) (s : State) : State :=
  s.modRouter r fun x => { x with detours := if x.detours = 0xFF then x.detours else x.detours + 1 }

/-- What a router does with the packet at the front of input `k` by its turn. -/
def turned (r k : Nat) (p : Packet) (s : State) : Turn → State
  | .hold _ => s
  | .refuse c => refusePacket r p c (if c = 2 then refusalRecord r 0 p (setFirewall r (dropped r k s)) else dropped r k s)
  | .lost => lossNotice r p 3 (setUnroute r (dropped r k s))
  | .go out false => takeOutput r k out p s
  | .go out true => takeOutput r k out { p with detour := p.detour + 1 } (countDetour r s)

section
variable {s u v : State} {r k : Nat} {b : InBuf} {f : Flit} {a : Nat} {fs : List (Flit × Nat)}

theorem routeFront_of_empty (h : (inBuf s r k).flits = []) : routeFront r k s = s := by
  unfold routeFront
  dsimp only
  split
  next hf => exact absurd (h.symm.trans hf) (by simp)
  next => rfl

theorem routeFront_of_front (hb : inBuf s r k = b) (ho : b.out = none) (hf : b.flits = (f, a) :: fs) :
    let p := flitHeader f
    let d := dieOfRouter r
    routeFront r k s =
      if !knownOpcode p.opcode then refusePacket r p 6 (setProto r (dropped r k s))
      else if 5 ≤ k / 6 && k / 6 < 8 && p.dstDev = s.sr.devnum && !trizenAdmits s d (k / 6 - 5) (linkOf s r (k / 6)) p then
        refusePacket r p 2 (logRecord d 0x10 (0xB0 + (k / 6 - 5)) (routerPos r) p.pa.toNat (p.opcode.toNat + sourceOf p * 2 ^ 32)
          (setFirewall r (dropped r k s)))
      else if p.dstDev = s.sr.devnum && routerAt p.dstCol.toNat p.dstRow.toNat = r then takeOutput r k 4 p s
      else turned r k p s (chooseOutput s r p) := by
  intro p d
  unfold routeFront
  rw [hb]
  simp only [ho, hf]
  split
  · rfl
  · split
    · rfl
    · split
      · rfl
      · cases chooseOutput s r (flitHeader f) with
        | go o detoured => cases detoured <;> rfl
        | _ => rfl

end

/-! ### The other buffers of the input -/

/-- The later buffers of the same input are as before. -/
structure KeepsAfter (r k : Nat) (s u : State) : Prop where
  kept : ∀ j, k < j → j / 6 = k / 6 → inBuf u r j = inBuf s r j

theorem smGet_foldl_smMod_other {α β : Type} [DecidableEq β] (d : β) (key : α → Nat) (g : α → β → β) (l : List α) (m : SMap β)
    (j : Nat) (h : ∀ e ∈ l, key e ≠ j) : smGet d (l.foldl (fun m e => smMod d m (key e) (g e)) m) j = smGet d m j := by
  induction l generalizing m with
  | nil => rfl
  | cons e l ih =>
    rw [List.forall_mem_cons] at h
    rw [List.foldl_cons, ih _ h.2, smGet_smMod, if_neg h.1]

theorem inBuf_wake (r : Nat) (s : State) (n j : Nat) : inBuf (wake r s) n j = inBuf s n j := by
  rw [inBuf, router_wake]
  rfl

/-- Flits of an endpoint stand in its own input, or in the first buffer of the next. -/
theorem inBuf_enterLocal {r inp j : Nat} (fs : List Flit) (s : State) (h : ∀ c ≤ 6, j ≠ 6 * inp + c) :
    inBuf (enterLocal r inp fs s) r j = inBuf s r j := by
  rw [enterLocal, inBuf_wake, inBuf, State.router_modRouter, if_pos rfl]
  refine smGet_foldl_smMod_other _ (fun e : Flit × Nat => inKey inp (pairIx e.1.vn e.1.cls.toNat)) _ _ _ _ fun e _ hj => ?_
  have hlt := e.1.cls.isLt
  refine h (pairIx e.1.vn e.1.cls.toNat) ?_ hj.symm
  rw [pairIx]
  have := Bool.toNat_le e.1.vn
  omega

namespace KeepsAfter
variable {r k : Nat} {s t u : State}

theorem refl (r k : Nat) (s : State) : KeepsAfter r k s s := ⟨fun _ _ _ => rfl⟩

theorem trans (h : KeepsAfter r k s t) (h' : KeepsAfter r k t u) : KeepsAfter r k s u :=
  ⟨fun j hj hi => (h'.kept j hj hi).trans (h.kept j hj hi)⟩

theorem modIn (f : InBuf → InBuf) : KeepsAfter r k s (modIn r k f s) :=
  ⟨fun _ hj _ => (inBuf_modIn ..).trans (if_neg fun h => Nat.ne_of_lt hj h.2)⟩

theorem modRouter (f : Router → Router) (hf : ∀ x, (f x).ins = x.ins) : KeepsAfter r k s (s.modRouter r f) where
  kept j _ _ := by
    rw [inBuf, State.router_modRouter, if_pos rfl, hf]
    rfl

theorem logRecord (d code unit router pa detail : Nat) : KeepsAfter r k s (logRecord d code unit router pa detail s) := ⟨fun _ _ _ => rfl⟩

theorem setProto : KeepsAfter r k s (setProto r s) := trans (modRouter _ fun _ => by rfl) (logRecord ..)

theorem inject (hk : k / 6 ≠ 271) (p : Packet) : KeepsAfter r k s (inject r p s) :=
  ⟨fun _ hj hi => inBuf_enterLocal _ s fun c hc h => by omega⟩

theorem refusePacket (hk : k / 6 ≠ 271) (p : Packet) (code : BitVec 5) : KeepsAfter r k s (refusePacket r p code s) := by
  unfold Machine.refusePacket
  split
  · exact refl r k s
  · exact inject hk _

theorem lossNotice (hk : k / 6 ≠ 271) (p : Packet) (req : BitVec 5) : KeepsAfter r k s (lossNotice r p req s) := by
  unfold Machine.lossNotice
  split <;> exact inject hk _

theorem setFirewall : KeepsAfter r k s (setFirewall r s) := modRouter _ fun _ => by rfl

theorem setUnroute : KeepsAfter r k s (setUnroute r s) := modRouter _ fun _ => by rfl

theorem countDetour : KeepsAfter r k s (countDetour r s) := modRouter _ fun _ => by rfl

theorem refusalRecord (n : Nat) (p : Packet) : KeepsAfter r k s (refusalRecord r n p s) := logRecord ..

end KeepsAfter

/-! ### An input with one packet -/

/-- A packet that has taken its output. -/
def taken (out : Nat) (p : Packet) (b : InBuf) : InBuf :=
  { b with out := some out, pkt := p, flits := b.flits.modifyHead fun f => ({ f.1 with data := packHeader p }, f.2) }

section
variable {s u : State} {r k : Nat} {b : InBuf} {f : Flit} {a : Nat} {fs : List (Flit × Nat)}

theorem takeOutput_of_one (h : (s.router r).ins = [(k, b)]) (out : Nat) (p : Packet) : takeOutput r k out p s = modIn r k (taken out p) s := by
  unfold takeOutput
  simp only [h, List.find?_cons, List.find?_nil, ne_eq, not_true_eq_false, decide_false, Bool.false_and, ite_self]
  rfl

theorem keepsAfter_turned (h : (s.router r).ins = [(k, b)]) (hk : k / 6 ≠ 271) (p : Packet) (t : Turn) : KeepsAfter r k s (turned r k p s t) := by
  cases t with
  | go out detoured =>
    cases detoured with
    | false =>
      rw [turned, takeOutput_of_one h]
      exact KeepsAfter.modIn _
    | true =>
      have hc : ((countDetour r s).router r).ins = [(k, b)] := by
        rw [countDetour, State.router_modRouter, if_pos rfl]
        exact h
      rw [turned, takeOutput_of_one hc]
      exact KeepsAfter.countDetour.trans (KeepsAfter.modIn _)
  | hold out => exact KeepsAfter.refl r k s
  | refuse c =>
    refine KeepsAfter.trans ?_ (KeepsAfter.refusePacket hk p c)
    split
    · exact ((KeepsAfter.modIn _).trans KeepsAfter.setFirewall).trans (KeepsAfter.refusalRecord ..)
    · exact KeepsAfter.modIn _
  | lost => exact ((KeepsAfter.modIn _).trans KeepsAfter.setUnroute).trans (KeepsAfter.lossNotice hk p 3)

theorem keepsAfter_routeFront (h : (s.router r).ins = [(k, b)]) (hk : k / 6 ≠ 271) (ho : b.out = none) (hf : b.flits = (f, a) :: fs) :
    KeepsAfter r k s (routeFront r k s) := by
  rw [routeFront_of_front ((inBuf_single h k).trans (if_pos rfl)) ho hf]
  split
  · exact ((KeepsAfter.modIn _).trans KeepsAfter.setProto).trans (KeepsAfter.refusePacket hk _ 6)
  · split
    · exact (((KeepsAfter.modIn _).trans KeepsAfter.setFirewall).trans (KeepsAfter.logRecord ..)).trans (KeepsAfter.refusePacket hk _ 2)
    · split
      · rw [takeOutput_of_one h]
        exact KeepsAfter.modIn _
      · exact keepsAfter_turned h hk _ _

/-- Only one buffer of the input holds a packet: the event routes it. -/
theorem exec_packetRoute_of_one (h : ∀ j, j < k → j / 6 = k / 6 → (inBuf s r j).flits = [])
    (h' : ∀ j, k < j → j / 6 = k / 6 → (inBuf s r j).flits = []) (hu : KeepsAfter r k s (routeFront r k s)) :
    exec (.packetRoute r (k / 6)) s = .next (routeFront r k s) := by
  have hnone (js : List Nat) (u : State) (hj : ∀ j ∈ js, (inBuf u r j).flits = []) : js.foldl (fun s k => routeFront r k s) u = u := by
    induction js with
    | nil => rfl
    | cons j js ih =>
      rw [List.forall_mem_cons] at hj
      rw [List.foldl_cons, routeFront_of_empty hj.1, ih hj.2]
  have hsplit : ∀ p < 6, List.range 6 = List.range p ++ p :: List.range' (p + 1) (5 - p) := by decide
  refine congrArg Host.Outcome.next ?_
  rw [inPairs, hsplit (k % 6) (Nat.mod_lt _ (by omega)), List.map_append, List.map_cons, List.foldl_append, List.foldl_cons,
    hnone _ s fun j hj => ?_, show inKey (k / 6) (k % 6) = k from inKey_self rfl, hnone _ (routeFront r k s) fun j hj => ?_]
  · obtain ⟨i, hi, rfl⟩ := List.mem_map.1 hj
    rw [List.mem_range'_1] at hi
    have hlt : k < inKey (k / 6) i ∧ inKey (k / 6) i / 6 = k / 6 := by
      rw [inKey]
      omega
    rw [hu.kept _ hlt.1 hlt.2]
    exact h' _ hlt.1 hlt.2
  · obtain ⟨i, hi, rfl⟩ := List.mem_map.1 hj
    rw [List.mem_range] at hi
    refine h _ ?_ ?_ <;> rw [inKey] <;> omega

end

/-! ### Turns -/

section
variable {s : State} {r o n a : Nat} {p : Packet}

theorem foreignOut_iff : foreignOut s r o = true ↔ ∃ n, neighbour r o = some n ∧ s.partOf (dieOfRouter n) ≠ s.partOf (dieOfRouter r) := by
  unfold foreignOut
  cases neighbour r o <;> simp

theorem alternate_eq (cfg : BitVec 20) (o : Nat) : alternate cfg o =
    if 1 ≤ fieldOf cfg (4 * o) 4 ∧ fieldOf cfg (4 * o) 4 ≤ 4 then some (fieldOf cfg (4 * o) 4 - 1) else none := by
  unfold alternate
  simp only [Bool.and_eq_true, decide_eq_true_eq]

theorem turnFor_foreign (h : foreignOut s r o = true) : turnFor s r o n = .refuse 2 := if_pos h

section
variable (h : foreignOut s r o = false)
include h

theorem turnFor_home : turnFor s r o n = match (linkOf s r o).st with
    | .down => if o = 4 then .go o false else .hold o
    | .up | .training => .go o false
    | .lost => match alternate (s.router r).routecfg o with
      | none => .lost
      | some a =>
        if foreignOut s r a then .refuse 2
        else if (neighbour r a).isNone || n = 15 then .lost
        else match (linkOf s r a).st with
          | .lost => .lost
          | .down => .hold a
          | _ => .go a true :=
  if_neg (by rw [h]; exact Bool.false_ne_true)

theorem turnFor_up (hl : (linkOf s r o).st = .up ∨ (linkOf s r o).st = .training) : turnFor s r o n = .go o false := by
  rw [turnFor_home h]
  rcases hl with hl | hl <;> rw [hl]

theorem turnFor_down (hl : (linkOf s r o).st = .down) (h4 : o ≠ 4) : turnFor s r o n = .hold o := by
  rw [turnFor_home h, hl]
  exact if_neg h4

theorem turnFor_no_alternate (hl : (linkOf s r o).st = .lost) (ha : alternate (s.router r).routecfg o = none) : turnFor s r o n = .lost := by
  rw [turnFor_home h, hl, ha]

theorem turnFor_alternate (hl : (linkOf s r o).st = .lost) (ha : alternate (s.router r).routecfg o = some a) : turnFor s r o n =
    if foreignOut s r a then .refuse 2
    else if (neighbour r a).isNone || n = 15 then .lost
    else match (linkOf s r a).st with
      | .lost => .lost
      | .down => .hold a
      | _ => .go a true := by
  rw [turnFor_home h, hl, ha]

end

theorem chooseOutput_own (h : p.dstDev = s.sr.devnum) :
    chooseOutput s r p = turnFor s r (stepToward s r (routerAt p.dstCol.toNat p.dstRow.toNat)) p.detour.toNat :=
  if_neg (not_not.2 h)

theorem chooseOutput_device (h : p.dstDev ≠ s.sr.devnum) : chooseOutput s r p =
    let d := dieOfRouter r
    let t := (smGet 0 (s.die d).devroute p.dstDev.toNat).toNat
    if 3 ≤ t then .refuse 7
    else if trizenRouter d t ≠ r then turnFor s r (stepToward s r (trizenRouter d t)) p.detour.toNat
    else match (linkOf s r (5 + t)).st with
      | .lost => .lost
      | .down => .hold (5 + t)
      | _ => .go (5 + t) false :=
  if_pos h

theorem stepToward_eq (q : Nat) : stepToward s r q =
    let xo := if groupCol r < groupCol q then 1 else 3
    let yo := if groupRow r < groupRow q then 2 else 0
    if groupCol r = groupCol q ∧ groupRow r = groupRow q then 4
    else if dieOfRouter q ≠ dieOfRouter r ∧ bitOf (s.router r).routecfg (16 + dieOfRouter q) = true then
      (if groupRow r ≠ groupRow q then yo else xo)
    else (if groupCol r ≠ groupCol q then xo else yo) := by
  unfold stepToward outputToward
  by_cases hc : groupCol r = groupCol q <;> by_cases hw : groupRow r = groupRow q <;> simp [hc, hw]

end

/-! ### The claim -/

theorem claim_routing : Claim.Routing := by
  intro s r inp k b f a fs x d p e known own dst admitted toward foreign takes gone error source flags firewalled lost hins hk hinp ho hf
  subst hk
  have hkb : inBuf s r k = b := (inBuf_single hins k).trans (if_pos rfl)
  have hempty (j : Nat) (hj : j ≠ k) : (inBuf s r j).flits = [] := by
    rw [inBuf_single hins, if_neg hj]
  have hexec : exec e s = .next (routeFront r k s) :=
    exec_packetRoute_of_one (fun j hj _ => hempty j hj.ne) (fun j hj _ => hempty j hj.ne') (keepsAfter_routeFront hins hinp ho hf)
  rw [routeFront_of_front hkb ho hf] at hexec
  have hgone : gone (dropped r k s) := bufferIs_of_modIn (by rw [hkb])
  have hknown : (!knownOpcode p.opcode) = true ↔ ¬ known := by
    simp only [knownOpcode, Bool.not_eq_true', Bool.eq_false_iff, ne_eq, Bool.or_eq_true, Bool.and_eq_true, decide_eq_true_eq, known]
  have hadm : (5 ≤ k / 6 && k / 6 < 8 && p.dstDev = s.sr.devnum && !trizenAdmits s d (k / 6 - 5) (linkOf s r (k / 6)) p) = true ↔
      ¬ admitted := by
    simp only [Bool.and_eq_true, decide_eq_true_eq, Bool.not_eq_true', admitted, own, not_or, not_not, Nat.not_lt, Nat.not_le,
      Bool.not_eq_true, and_assoc]
  have hturn (hkn : known) (ha : admitted) (hd : ¬ (own ∧ dst = r)) : exec e s = .next (turned r k p s (chooseOutput s r p)) := by
    refine hexec.trans (congrArg Host.Outcome.next ?_)
    rw [if_neg (mt hknown.1 (not_not.2 hkn)), if_neg (mt hadm.1 (not_not.2 ha)), if_neg]
    simpa only [Bool.and_eq_true, decide_eq_true_eq] using hd
  have htaken (o : Nat) (q : Packet) : taken o q b = { b with out := some o, pkt := q, flits := ({ f with data := packHeader q }, a) :: fs } := by
    rw [taken, hf]
    rfl
  have htakes (o : Nat) (q : Packet) (h : exec e s = .next (takeOutput r k o q s)) : takes o q := by
    rw [takeOutput_of_one hins] at h
    exact ⟨_, h, bufferIs_of_modIn (by rw [hkb, htaken])⟩
  have hfirewall : flags (dropped r k s) (setFirewall r (dropped r k s)) { (dropped r k s).router r with firewall := true } :=
    onlyRouterAt_mod rfl
  have hunroute : flags (dropped r k s) (setUnroute r (dropped r k s)) { (dropped r k s).router r with unroute := true } :=
    onlyRouterAt_mod rfl
  have hfirewalled (h : exec e s = .next (turned r k p s (.refuse 2))) : firewalled := ⟨_, _, hgone, hfirewall, h⟩
  have hlost (h : exec e s = .next (turned r k p s .lost)) : lost := ⟨_, _, hgone, hunroute, h⟩
  refine ⟨fun hkn => ?_, fun hkn ha => ?_, fun hkn ha hown hr => ?_, fun q hkn ha hq => ?_, fun hkn hown => ?_⟩
  · exact ⟨_, hgone, hexec.trans (congrArg _ (if_pos (hknown.2 hkn)))⟩
  · exact ⟨_, _, hgone, hfirewall, hexec.trans (congrArg _ ((if_neg (mt hknown.1 (not_not.2 hkn))).trans (if_pos (hadm.2 ha))))⟩
  · refine htakes 4 p (hexec.trans (congrArg Host.Outcome.next ?_))
    rw [if_neg (mt hknown.1 (not_not.2 hkn)), if_neg (mt hadm.1 (not_not.2 ha)), if_pos]
    simpa only [Bool.and_eq_true, decide_eq_true_eq] using And.intro hown hr
  · intro o alt ho4
    have hchoose : chooseOutput s r p = turnFor s r o p.detour.toNat := by
      have ho : stepToward s r q = o := stepToward_eq q
      rw [← ho]
      rcases hq with ⟨hown, _, rfl⟩ | ⟨hown, ht, rfl, hr⟩
      · exact chooseOutput_own hown
      · exact (chooseOutput_device hown).trans ((if_neg (Nat.not_le.2 ht)).trans (if_pos hr))
    have hex : exec e s = .next (turned r k p s (turnFor s r o p.detour.toNat)) := by
      rw [← hchoose]
      refine hturn hkn ha ?_
      rcases hq with ⟨_, hne, _⟩ | ⟨hown, _⟩
      · exact fun h => hne h.2
      · exact fun h => hown h.1
    have hforeign (o : Nat) : foreignOut s r o = true ↔ foreign o := foreignOut_iff
    have hhome (o : Nat) (h : ¬ foreign o) : foreignOut s r o = false := eq_false_of_ne_true (mt (hforeign o).1 h)
    refine ⟨fun h => ?_, fun h => ⟨fun hup => ?_, fun hdown => ?_, fun hl => ⟨fun halt => ?_, fun h1 h4 => ⟨fun hfa => ?_, fun hfa =>
      ⟨fun hno => ?_, fun hnb h15 => ⟨fun hdown => ?_, fun hup => ?_⟩⟩⟩⟩⟩⟩
    · rw [turnFor_foreign ((hforeign o).2 h)] at hex
      exact hfirewalled hex
    · rw [turnFor_up (hhome o h) hup] at hex
      exact htakes o p hex
    · rw [turnFor_down (hhome o h) hdown (by omega)] at hex
      exact hex
    · rw [turnFor_no_alternate (hhome o h) hl ((alternate_eq ..).trans (if_neg (by change ¬ (1 ≤ alt ∧ alt ≤ 4); omega)))] at hex
      exact hlost hex
    · rw [turnFor_alternate (hhome o h) hl ((alternate_eq ..).trans (if_pos ⟨h1, h4⟩)), if_pos ((hforeign (alt - 1)).2 hfa)] at hex
      exact hfirewalled hex
    all_goals
      rw [turnFor_alternate (hhome o h) hl ((alternate_eq ..).trans (if_pos ⟨h1, h4⟩)),
        if_neg (by rw [hhome _ hfa]; exact Bool.false_ne_true)] at hex
    · by_cases hstop : ((neighbour r (alt - 1)).isNone || p.detour.toNat = 15) = true
      · rw [if_pos hstop] at hex
        exact hlost hex
      · have hl' : (linkOf s r (alt - 1)).st = .lost := by
          rw [Bool.or_eq_true, Option.isNone_iff_eq_none, decide_eq_true_eq, not_or] at hstop
          exact (hno.resolve_left hstop.1).resolve_left fun h => hstop.2 (by rw [h]; rfl)
        rw [if_neg hstop, hl'] at hex
        exact hlost hex
    all_goals
      rw [if_neg (by
        rw [Bool.or_eq_true, Option.isNone_iff_eq_none, decide_eq_true_eq, not_or]
        exact ⟨hnb, fun h => h15 (BitVec.eq_of_toNat_eq h)⟩)] at hex
    · rw [hdown] at hex
      exact hex
    · have hdetour : OnlyRouterAt s (countDetour r s) r { x with detours := BitVec.ofNat 8 (Nat.min 0xFF (x.detours.toNat + 1)) } [] := by
        rw [← show _ = BitVec.ofNat 8 (Nat.min 0xFF (x.detours.toNat + 1)) from saturating_add_one x.detours]
        exact onlyRouterAt_mod rfl
      have hins' : ((countDetour r s).router r).ins = [(k, b)] := by
        rw [hdetour.it]
        exact hins
      have hgo : exec e s = .next (turned r k p s (.go (alt - 1) true)) := by
        rcases hup with hup | hup <;> rw [hup] at hex <;> exact hex
      rw [turned, takeOutput_of_one hins'] at hgo
      refine ⟨_, _, hgo, hdetour, bufferIs_of_modIn ?_⟩
      rw [inBuf_single hins', if_pos rfl, htaken]
  · intro n
    have hex := hturn hkn (.inr (.inr (.inl hown))) fun h => hown h.1
    rw [chooseOutput_device hown] at hex
    refine ⟨fun h3 => ?_, fun h3 hr => ?_⟩
    · rw [if_pos h3] at hex
      exact ⟨_, hgone, hex⟩
    · rw [if_neg (Nat.not_le.2 h3), if_neg (not_not.2 hr)] at hex
      refine ⟨fun hup => ?_, fun hdown => ?_, fun hl => ?_⟩
      · refine htakes (5 + n) p ?_
        rcases hup with hup | hup <;> rw [hup] at hex <;> exact hex
      · rw [hdown] at hex
        exact hex
      · rw [hl] at hex
        exact hlost hex

end Sys2Proof.Machine
end

section
/-! PROOFS. Reads that join older ones (R52, R76). -/

namespace Sys2Proof.Machine

section
variable {s : State} {r k j : Nat} {b : InBuf} {p : Packet}

/-- The flit at the front of the older packet, which a younger read has joined. -/
def mergedFlit (q : Packet) (b : InBuf) : Flit × Nat :=
  let head := b.flits.headD ({}, 0)
  ({ head.1 with data := packHeader q, cls := q.cls }, head.2)

theorem takeOutput_of_merge {out : Nat} {q : Packet} (hm : (s.die (dieOfRouter r)).mergeen = true)
    (hf : (s.router r).ins.find? (fun e => e.1 ≠ k && mergesWith out p e.1 e.2) = some (j, b)) (hq : mergePacket b.pkt p = q)
    (hj : j / 6 * 6 + pairIx q.vn q.cls.toNat = j) :
    takeOutput r k out p s = dropped r k (modIn r j (fun x => { x with pkt := q, flits := mergedFlit q b :: x.flits.drop 1 }) s) := by
  unfold takeOutput
  simp only [hm, if_true, hf, hq, hj]
  rfl

theorem mergePacket_of_class (h : p.cls = b.pkt.cls) : mergePacket b.pkt p =
    { b.pkt with
      more := b.pkt.more + 1
      inline := putField b.pkt.inline (40 * b.pkt.more.toNat) 40
        (p.srcCol.toNat + 32 * p.srcRow.toNat + 1024 * p.srcEp.toNat + p.tag.toNat * 2 ^ 24) } := by
  unfold mergePacket
  rw [h]
  simp only [BitVec.lt_irrefl, ite_self]
  rfl

end

theorem dropFront_of_single {b : InBuf} {f : Flit} {a : Nat} (hf : b.flits = [(f, a)]) (hl : f.last = true) :
    b.dropFront = { b with flits := [], out := none, started := false, pkt := {} } := by
  unfold InBuf.dropFront
  simp [hf, hl]

theorem claim_readsMerge : Claim.ReadsMerge := by
  intro s r k j b d f g a a' fs x p o hins hk3 hjk hlt hk5 hmerge hbo hbs hbf hdo hdf hlast hvn hcls hck hop hdev hdst hmore heq hroom q
  have hjk' : j ≠ k := hlt.ne
  have hbj : inBuf s r j = b := by
    rw [inBuf, show (s.router r).ins = _ from hins]
    simp [smGet]
  have hbk : inBuf s r k = d := by
    rw [inBuf, show (s.router r).ins = _ from hins]
    simp [smGet, hjk']
  have hother (i : Nat) (hj : i ≠ j) (hk : i ≠ k) : (inBuf s r i).flits = [] := by
    rw [inBuf, show (s.router r).ins = _ from hins]
    simp [smGet, hj.symm, hk.symm]
  have hpcls : p.cls = o.cls := hcls
  have hpvn : p.vn = false := hvn
  have hq : mergePacket b.pkt p = q := mergePacket_of_class hpcls
  have hmerges : mergesWith 4 p j b = true := by
    have hroom' : o.more.toNat < 3 := by
      have := o.more.isLt
      have hne : o.more.toNat ≠ 3 := fun h => hroom (BitVec.eq_of_toNat_eq h)
      omega
    have hpair : j % 6 = pairIx p.vn o.cls.toNat := by
      rw [hpvn, pairIx, hck, hjk]
      simp
    have hfields : o.opcode = p.opcode ∧ o.pa = p.pa ∧ o.param = p.param ∧ o.dstDev = p.dstDev ∧ o.srcDev = p.srcDev ∧
        o.dstCol = p.dstCol ∧ o.dstRow = p.dstRow ∧ o.dstEp = p.dstEp := by
      rw [heq]
      simp only [and_self]
    obtain ⟨hopcode, hpa, hparam, hdd, hsd, hcol, hrow, hep⟩ := hfields
    unfold mergesWith
    simp only [hbo, hbs, show b.pkt = o from rfl, hopcode, hpa, hparam, hdd, hsd, hcol, hrow, hep, hop, hmore, hroom', ← hpair,
      decide_true, Bool.not_false, Bool.and_self]
  have hfind : (s.router r).ins.find? (fun e => e.1 ≠ k && mergesWith 4 p e.1 e.2) = some (j, b) := by
    rw [show (s.router r).ins = _ from hins]
    simp [hjk', hmerges]
  have hkey : j / 6 * 6 + pairIx q.vn q.cls.toNat = j := by
    have hqvn : q.vn = false := by
      have h : o.vn = p.vn := by rw [heq]
      exact h.trans hpvn
    rw [hqvn, show q.cls.toNat = k % 6 from hck, ← hjk, pairIx]
    simp only [Bool.toNat_false]
    omega
  have hfront : routeFront r k s = takeOutput r k 4 p s := by
    rw [routeFront_of_front hbk hdo hdf, if_neg, if_neg, if_pos]
    · rw [Bool.and_eq_true, decide_eq_true_eq, decide_eq_true_eq]
      exact ⟨hdev, hdst⟩
    · simp [Nat.not_le.2 hk5]
    · rw [show (flitHeader f).opcode = 1 from hop]
      decide
  rw [takeOutput_of_merge hmerge hfind hq hkey] at hfront
  have hexec : exec (.packetRoute r (k / 6)) s = .next (routeFront r k s) := by
    refine exec_packetRoute_of_one (fun i hi h => hother i ?_ hi.ne) (fun i hi _ => hother i (by omega) hi.ne') ?_
    · omega
    · rw [hfront]
      refine KeepsAfter.trans ⟨fun i hi _ => (inBuf_modIn ..).trans (if_neg fun h => ?_)⟩ (KeepsAfter.modIn _)
      omega
  rw [hfront] at hexec
  refine ⟨_, _, hexec, bufferIs_of_modIn ?_, bufferIs_of_modIn ?_⟩
  · rw [hbj, mergedFlit, hbf]
    rfl
  · rw [inBuf_modIn, if_neg fun h => hjk' h.2, hbk]
    exact dropFront_of_single hdf hlast

end Sys2Proof.Machine
end

section
/-! PROOFS. The flits of a packet at its endpoint (R48, R51, R52, R68). -/

namespace Sys2Proof.Machine

/-! ### The endpoints of R48 -/

theorem endpointListed_iff {r ep : Nat} (hep : ep < 256) : endpointListed r ep = true ↔
    let d := dieOfRouter r
    let corner := r = cornerRouter d
    ep < 0x10 ∨ ep = 0x10 ∨ ep = 0x20 ∨ ep = 0x30 ∨ ep = 0x40 ∨ (0x50 ≤ ep ∧ ep < 0x55 ∧ r % 64 = 0) ∨
      (0x80 ≤ ep ∧ ep < 0x82 ∧ r ∈ ctlRouters (2 * d + ep % 2)) ∨ ((ep = 0x90 ∨ ep = 0xA0) ∧ corner) ∨
      (0xB0 ≤ ep ∧ ep < 0xB3 ∧ r = trizenRouter d (ep - 0xB0)) ∨ ((ep = 0xC0 ∨ ep = 0xC1) ∧ corner) ∨
      (ep = 0xD0 ∧ corner ∧ d = 0) := by
  obtain ⟨q, i, hq, hi, rfl⟩ : ∃ q i, q < 16 ∧ i < 16 ∧ ep = 16 * q + i := ⟨ep / 16, ep % 16, by omega, by omega, by omega⟩
  have hdiv : (16 * q + i) / 16 = q := by omega
  have hmod : (16 * q + i) % 16 = i := by omega
  unfold endpointListed
  rw [hdiv, hmod]
  dsimp only
  have hctl (hq : q = 8) (hi : i < 2) : (16 * q + i) % 2 = i := by omega
  have htri (hq : q = 11) : 16 * q + i - 0xB0 = i := by omega
  -- by the sixteen blocks of endpoint numbers
  interval_cases q
  all_goals grind

theorem endpointListed_core {r ep : Nat} (h : ep < 16) : endpointListed r ep = true := by
  rw [endpointListed_iff (by omega)]
  exact .inl h

/-! ### Flits at their endpoint -/

/-- The flits of a pair that have gathered at a router's endpoints become `v`. -/
def setSink (r pair : Nat) (v : List Flit) (s : State) : State := s.modRouter r fun x => { x with sink := smSet [] x.sink pair v }

/-- What a stream's flit brings to its input: words, how the stream ends, whether it is suspended. -/
def streamArrival (p : Packet) (f : Flit) : List Word × Option (BitVec 2) × Bool :=
  if f.abort then ([], some 3, false)
  else if f.first then ([word (fieldOf p.inline 0 32)], none, false)
  else if f.mark then
    if bitOf (flitHeader f).param 2 then ([], none, true)
    else ([], some (if fieldOf (flitHeader f).param 0 2 = 3 then 2 else 1), false)
  else (streamWords f, none, false)

section
variable {s : State} {r : Nat} {f : Flit} {p : Packet}

theorem setSink_spec (r pair : Nat) (v : List Flit) (s : State) :
    OnlyRouterAt s (setSink r pair v s) r { s.router r with sink := ((setSink r pair v s).router r).sink } [] ∧
      ∀ j, smGet [] ((setSink r pair v s).router r).sink j = if j = pair then v else smGet [] (s.router r).sink j := by
  have honly : OnlyRouterAt s (setSink r pair v s) r _ [] := onlyRouterAt_mod rfl
  rw [honly.it]
  exact ⟨honly, fun j => smGet_set [] (s.router r).sink pair v j⟩

theorem streamFlit_eq (r : Nat) (p : Packet) (f : Flit) (s : State) : streamFlit r p f s =
    s.push (.streamDataArrive (16 * r + p.dstEp.toNat) (streamInput p) (streamSender p) (streamArrival p f).1 (streamArrival p f).2.1
      (streamArrival p f).2.2) := by
  unfold streamFlit streamArrival
  dsimp only
  split
  · rfl
  · split
    · rfl
    · split
      · split <;> rfl
      · rfl

theorem sinkFlit_eq (r : Nat) (f : Flit) (s : State) :
    let pair := 3 * f.vn.toNat + f.cls.toNat
    let fs := smGet [] (s.router r).sink pair
    let p := flitHeader (fs.headD f)
    sinkFlit r f s =
      if p.opcode = 0x09 ∧ p.dstEp.toNat < 16 then setSink r pair (if f.last then [] else (fs ++ [f]).take 1) (streamFlit r p f s)
      else if f.abort then setSink r pair [] s
      else if f.last then deliver r { p with payload := ((fs ++ [f]).drop 1).map (·.data) } (setSink r pair [] s)
      else setSink r pair (fs ++ [f]) s := by
  intro pair fs p
  have hp : flitHeader ((fs ++ [f]).headD f) = p := by
    unfold p
    cases fs <;> rfl
  have hstream : (p.opcode = 0x09 && endpointListed r p.dstEp.toNat && decide (p.dstEp.toNat < 16)) = true ↔
      p.opcode = 0x09 ∧ p.dstEp.toNat < 16 := by
    simp only [Bool.and_eq_true, decide_eq_true_eq, and_assoc]
    exact and_congr_right fun _ => and_iff_right_of_imp endpointListed_core
  have hdef (q : Packet) (hq : flitHeader ((fs ++ [f]).headD f) = q) : sinkFlit r f s =
      if q.opcode = 0x09 && endpointListed r q.dstEp.toNat && decide (q.dstEp.toNat < 16) then
        setSink r pair (if f.last then [] else (fs ++ [f]).take 1) (streamFlit r q f s)
      else if f.abort then setSink r pair [] s
      else if f.last then deliver r { q with payload := ((fs ++ [f]).drop 1).map (·.data) } (setSink r pair [] s)
      else setSink r pair (fs ++ [f]) s := by
    subst hq
    rfl
  rw [hdef p hp]
  simp only [hstream]

theorem claim_sinkFlit (s : State) (r : Nat) (f : Flit) :
    let pair := 3 * f.vn.toNat + f.cls.toNat
    let fs := smGet [] (s.router r).sink pair
    let p := flitHeader (fs.headD f)
    let sinks := fun (u : State) (v : List Flit) => OnlyRouterAt s u r { s.router r with sink := (u.router r).sink } [] ∧
      ∀ j, smGet [] (u.router r).sink j = if j = pair then v else smGet [] (s.router r).sink j
    let stream := p.opcode = 0x09 ∧ p.dstEp.toNat < 16
    let c := 16 * r + p.dstEp.toNat
    let i := fieldOf p.inline 32 2
    let sender := 4 * (16 * routerAt p.srcCol.toNat p.srcRow.toNat + p.srcEp.toNat) + fieldOf p.inline 34 2
    (¬ stream →
      (f.abort = true → sinks (sinkFlit r f s) []) ∧
      (f.abort = false → f.last = false → sinks (sinkFlit r f s) (fs ++ [f])) ∧
      (f.abort = false → f.last = true →
        ∃ u, sinks u [] ∧ sinkFlit r f s = deliver r { p with payload := ((fs ++ [f]).drop 1).map (·.data) } u)) ∧
    (stream → ∃ ws fin suspend u,
      sinks u (if f.last then [] else (fs ++ [f]).take 1) ∧
      sinkFlit r f s = { u with due := s.due ++ [.streamDataArrive c i sender ws fin suspend] } ∧
      (f.abort = true → ws = [] ∧ fin = some 3 ∧ suspend = false) ∧
      (f.abort = false → f.first = true → ws = [BitVec.ofNat 32 (fieldOf p.inline 0 32)] ∧ fin = none ∧ suspend = false) ∧
      (f.abort = false → f.first = false → f.mark = true →
        let q := flitHeader f
        ws = [] ∧ suspend = bitOf q.param 2 ∧
          fin = if bitOf q.param 2 then none else some (if fieldOf q.param 0 2 = 3 then 2 else 1)) ∧
      (f.abort = false → f.first = false → f.mark = false →
        ws = (List.range f.valid.toNat).map (fun j => BitVec.ofNat 32 (fieldOf f.data (32 * j) 32)) ∧ fin = none ∧ suspend = false)) := by
  intro pair fs p sinks stream c i sender
  have hsinks (v : List Flit) : sinks (setSink r pair v s) v := setSink_spec r pair v s
  refine ⟨fun hn => ?_, fun hst => ?_⟩
  · have heq := (sinkFlit_eq r f s).trans (if_neg hn)
    refine ⟨fun ha => ?_, fun ha hl => ?_, fun ha hl => ?_⟩
    · rw [heq, if_pos ha]
      exact hsinks []
    · rw [heq, ha, hl]
      exact hsinks _
    · refine ⟨_, hsinks [], ?_⟩
      rw [heq, ha, hl]
      rfl
  · have heq := (sinkFlit_eq r f s).trans (if_pos hst)
    rw [streamFlit_eq] at heq
    refine ⟨_, _, _, _, hsinks _, heq, fun ha => ?_, fun ha hf => ?_, fun ha hf hm => ?_, fun ha hf hm => ?_⟩
    · rw [show streamArrival p f = ([], some 3, false) from if_pos ha]
      exact ⟨rfl, rfl, rfl⟩
    · rw [show streamArrival p f = ([word (fieldOf p.inline 0 32)], none, false) by simp only [streamArrival, ha, hf]; rfl]
      exact ⟨rfl, rfl, rfl⟩
    · intro q
      simp only [streamArrival, ha, hf, hm, if_true, Bool.false_eq_true, if_false]
      cases bitOf (flitHeader f).param 2 <;> simp [q]
    · rw [show streamArrival p f = (streamWords f, none, false) by simp only [streamArrival, ha, hf, hm]; rfl]
      exact ⟨rfl, rfl, rfl⟩

end

end Sys2Proof.Machine
end

section
/-! PROOFS. A whole packet at its destination endpoint (R48, R53, R68, R74, R80, R105, R107, R217). -/

namespace Sys2Proof.Machine

/-- What a listed endpoint does with a request: by the block of sixteen endpoints and the operation. -/
def delivered (r : Nat) (p : Packet) (s : State) (block : Nat) (op : Byte) : State :=
  let d := dieOfRouter r
  match block, op with
  | 0, 0x05 => replyAck p 0 (s.push (.messageArrive (16 * r + p.dstEp.toNat) (packetMessage s p)))
  | 0, 0x06 => s.push (.remoteSpawn (16 * r + p.dstEp.toNat) (word (fieldOf p.inline 0 32))
      ((List.range 4).map fun i => word (fieldOf p.inline (32 * (i + 1)) 32)) p)
  | 1, 0x01 => s.push (.sliceRd r p)
  | 1, 0x02 => s.push (.sliceWr r p)
  | 1, 0x03 => s.push (.sliceTel r p)
  | 1, 0x04 => s.push (.sliceFe r p)
  | 1, 0x07 => s.push (.sliceQput r p)
  | 1, 0x08 => s.push (.sliceQtake r p)
  | _, 0x0B => (ctlmPacket r p s).getD (replyErr p 6 s)
  | 2, 0x01 | 2, 0x02 | 2, 0x03 | 2, 0x04 => s.push (.remoteVaultAccess (r / 64) p)
  | 8, 0x0A =>
    let st := 2 * d + p.dstEp.toNat % 16
    (s.modCtl st fun c => { c with queue := c.queue ++ [packetMcReq p] }).push (.mcRequest st)
  | 9, 0x01 | 9, 0x02 => outboundPacket r p s
  | 12, 0x05 => if p.dstEp = 0xC0 then replyAck p 0 (s.push (.messageArrive (bursarCore d) (packetMessage s p))) else replyErr p 6 s
  | 12, 0x01 | 12, 0x02 => if p.dstEp = 0xC1 then mgmtPacket r p s else replyErr p 6 s
  | _, _ => replyErr p 6 s

section
variable {s : State} {r : Nat} {p : Packet}

theorem deliver_unlisted (h : endpointListed r p.dstEp.toNat = false) : deliver r p s = setProto r s := if_pos (by rw [h]; rfl)

theorem deliver_listed (h : endpointListed r p.dstEp.toNat = true) (hv : p.vn = false) :
    deliver r p s = delivered r p s (p.dstEp.toNat / 16) p.opcode := by
  unfold deliver
  rw [h, hv]
  rfl

theorem delivered_ctlm (block : Nat) : delivered r p s block 0x0B = (ctlmPacket r p s).getD (replyErr p 6 s) := by
  unfold delivered
  split <;> simp_all

/-- The endpoints that take no request but for controller and slice control. -/
theorem delivered_none {block : Nat} {op : Byte} (hb : block = 3 ∨ block = 4 ∨ block = 5 ∨ block = 10 ∨ block = 11 ∨ block = 13)
    (ho : op ≠ 0x0B) :
    delivered r p s block op = replyErr p 6 s := by
  unfold delivered
  split <;> simp_all

theorem packetMessage_spec : (packetMessage s p).typ = p.param.setWidth 8 ∧ (packetMessage s p).seq = (p.param >>> 8).setWidth 16 ∧
    (packetMessage s p).cls = p.cls ∧ (packetMessage s p).reply = bitOf p.param 31 ∧
    ∀ i v, (packetMessage s p).words[i]? = some v → v = BitVec.ofNat 32 (fieldOf p.inline (32 * i) 32) := by
  refine ⟨?_, ?_, rfl, rfl, fun i v hv => ?_⟩
  · refine (ofNat_fieldOf ..).trans (BitVec.eq_of_toNat_eq ?_)
    rw [BitVec.toNat_ofNat, BitVec.toNat_setWidth, Nat.pow_zero, Nat.div_one]
  · refine (ofNat_fieldOf ..).trans (BitVec.eq_of_toNat_eq ?_)
    rw [BitVec.toNat_ofNat, BitVec.toNat_setWidth, BitVec.toNat_ushiftRight, Nat.shiftRight_eq_div_pow]
  · rw [packetMessage, List.getElem?_map] at hv
    obtain ⟨j, hj, rfl⟩ := Option.map_eq_some_iff.1 hv
    obtain ⟨_, hij⟩ := List.getElem?_eq_some_iff.1 hj
    rw [← hij, List.getElem_range]
    rfl

theorem natBytes_length (v n : Nat) : (natBytes v n).length = n := by
  induction n generalizing v with
  | zero => rfl
  | succ n ih => rw [natBytes, List.length_cons, ih]

theorem refusePacket_request (hv : p.vn = false) (code : BitVec 5) : refusePacket r p code s = inject r (replyTo p 0x42 0 code 0 none) s :=
  if_neg (by rw [hv]; exact Bool.false_ne_true)

theorem mgmtPacket_spec (hv : p.vn = false) :
    let d := dieOfRouter r
    let pd := dieOfRouter (routerAt p.srcCol.toNat p.srcRow.toNat)
    let source := p.srcCol.toNat + 32 * p.srcRow.toNat + 1024 * p.srcEp.toNat
    let ok := p.srcDev = s.sr.devnum ∧ (p.srcEp = 0xD0 ∨ (p.srcEp = 0xC0 ∧ s.partOf pd = s.partOf d))
    (¬ ok → mgmtPacket r p s = inject r (replyTo p 0x42 0 2 0 none) (refusalRecord r 0xC1 p s)) ∧
    (ok → p.opcode = 2 → mgmtPacket r p s = replyAck p 0
      { s with due := s.due ++ [.registerWrite p.pa.toNat (BitVec.ofNat 32 (fieldOf p.inline 0 32)) source] }) ∧
    (ok → p.opcode = 1 → ∀ v u, mgmtRead p.pa.toNat s = .ok v u → mgmtPacket r p s = replyData p v.toNat u) := by
  intro d pd source ok
  have hok : (p.srcDev = s.sr.devnum && (p.srcEp = 0xD0 || (p.srcEp = 0xC0 && s.partOf pd = s.partOf d))) = true ↔ ok := by
    simp only [Bool.and_eq_true, Bool.or_eq_true, decide_eq_true_eq, ok]
  refine ⟨fun h => ?_, fun h h2 => ?_, fun h h1 v u hm => ?_⟩
  · refine (if_pos ?_).trans (refusePacket_request hv 2)
    rw [Bool.not_eq_true', ← Bool.not_eq_true]
    exact mt hok.1 h
  · exact (if_neg (by rw [Bool.not_eq_true, Bool.not_eq_false']; exact hok.2 h)).trans (if_pos h2)
  · refine (if_neg (by rw [Bool.not_eq_true, Bool.not_eq_false']; exact hok.2 h)).trans ((if_neg (by rw [h1]; decide)).trans ?_)
    rw [hm]

theorem outboundPacket_spec (hv : p.vn = false) :
    let d := dieOfRouter r
    let x := p.pa.toNat % 0x40000000
    let ap := x / 0x800000
    let off := 0x80000 + x % 0x800000
    let n := 4 * 2 ^ (p.param.toNat % 8)
    (p.opcode = 1 →
      (outboundOk s d ap off n = false → outboundPacket r p s = inject r (replyTo p 0x42 0 2 0 none) s) ∧
      (outboundOk s d ap off n = true → n < 64 → outboundPacket r p s = replyData p (rdBytes (s.port d).store (apKey ap off) n) s)) ∧
    ∀ l, p.opcode = 2 → p.payload = [l] →
      (outboundOk s d ap off 64 = false → outboundPacket r p s = inject r (replyTo p 0x42 0 2 0 none) s) ∧
      (outboundOk s d ap off 64 = true →
        outboundPacket r p s = replyAck p 0 { s with due := s.due ++ [.outboundWrite d ap off (natBytes l.toNat 64)] }) := by
  intro d x ap off n
  have hn : 4 * 2 ^ fieldOf p.param 0 3 = n := by
    rw [fieldOf_zero]
    rfl
  refine ⟨fun h1 => ?_, fun l h2 hl => ?_⟩
  · have hdef : outboundPacket r p s = if !outboundOk s d ap off n then refusePacket r p 2 s
        else if n = 64 then sendPacket (replyTo p 0x40 0 0 0 (some (BitVec.ofNat 512 (rdBytes (s.port d).store (apKey ap off) n)))) s
        else replyData p (rdBytes (s.port d).store (apKey ap off) n) s := by
      rw [← hn]
      exact if_neg (by rw [h1]; decide)
    refine ⟨fun h => ?_, fun h hlt => ?_⟩
    · rw [hdef, h, Bool.not_false, if_pos rfl, refusePacket_request hv]
    · rw [hdef, h, Bool.not_true, if_neg Bool.false_ne_true, if_neg hlt.ne]
  · have hdef : outboundPacket r p s = if outboundOk s d ap off 64 then
          replyAck p 0 (s.pushAll [.outboundWrite d ap off (natBytes l.toNat 64)]) else refusePacket r p 2 s := by
      have hruns : writeRuns p = [(0, natBytes l.toNat 64)] := by
        rw [writeRuns, hl]
      refine (if_pos h2).trans ?_
      simp only [hruns, List.all_cons, List.all_nil, natBytes_length, Bool.and_true, List.map_cons, List.map_nil, Nat.add_zero]
      rfl
    refine ⟨fun h => ?_, fun h => ?_⟩
    · rw [hdef, h, if_neg Bool.false_ne_true, refusePacket_request hv]
    · rw [hdef, h, if_pos rfl]
      rfl

end

theorem claim_deliver (s : State) (r : Nat) (p : Packet) :
    let d := dieOfRouter r
    let ep := p.dstEp.toNat
    let lets := fun (e : Instr) => deliver r p s = { s with due := s.due ++ [e] }
    let corner := r = cornerRouter d
    let listed := ep < 0x10 ∨ ep = 0x10 ∨ ep = 0x20 ∨ ep = 0x30 ∨ ep = 0x40 ∨ (0x50 ≤ ep ∧ ep < 0x55 ∧ r % 64 = 0) ∨
      (0x80 ≤ ep ∧ ep < 0x82 ∧ r ∈ ctlRouters (2 * d + ep % 2)) ∨ ((ep = 0x90 ∨ ep = 0xA0) ∧ corner) ∨
      (0xB0 ≤ ep ∧ ep < 0xB3 ∧ r = trizenRouter d (ep - 0xB0)) ∨ ((ep = 0xC0 ∨ ep = 0xC1) ∧ corner) ∨ (ep = 0xD0 ∧ corner ∧ d = 0)
    (¬ listed → deliver r p s = setProto r s) ∧
    (listed → p.vn = false →
      (ep = 0x10 →
        (p.opcode = 1 → lets (.sliceRd r p)) ∧ (p.opcode = 2 → lets (.sliceWr r p)) ∧ (p.opcode = 3 → lets (.sliceTel r p)) ∧
        (p.opcode = 4 → lets (.sliceFe r p)) ∧ (p.opcode = 7 → lets (.sliceQput r p)) ∧ (p.opcode = 8 → lets (.sliceQtake r p))) ∧
      (ep = 0x20 → 1 ≤ p.opcode.toNat → p.opcode.toNat ≤ 4 → lets (.remoteVaultAccess (r / 64) p)) ∧
      (∀ n, (ep < 16 ∧ n = 16 * r + ep) ∨ (ep = 0xC0 ∧ n = 16384 + d) →
        (p.opcode = 5 → ∃ m : Message, m.typ = p.param.setWidth 8 ∧ m.seq = (p.param >>> 8).setWidth 16 ∧ m.cls = p.cls ∧
            m.reply = bitOf p.param 31 ∧
            (∀ i v, m.words[i]? = some v → v = BitVec.ofNat 32 (fieldOf p.inline (32 * i) 32)) ∧
            deliver r p s = replyAck p 0 { s with due := s.due ++ [.messageArrive n m] })) ∧
      (ep < 16 → p.opcode = 6 → lets (.remoteSpawn (16 * r + ep) (BitVec.ofNat 32 (fieldOf p.inline 0 32))
        ((List.range 4).map fun i => BitVec.ofNat 32 (fieldOf p.inline (32 * (i + 1)) 32)) p)) ∧
      (ep = 0x80 ∨ ep = 0x81 → p.opcode = 0x0A →
        let st := 2 * d + ep % 2
        let q : McReq := { slice := routerAt p.srcCol.toNat p.srcRow.toNat, line := p.pa.toNat / 64, stamp := p.gen
                           write := bitOf p.param 0, data := p.payload.headD 0
                           full := BitVec.ofNat 16 (fieldOf p.inline 0 16), cls := p.cls }
        ∃ u, OnlyCtlAt s u st { s.ctl st with queue := (s.ctl st).queue ++ [q] } [.mcRequest st] ∧ deliver r p s = u) ∧
      (p.opcode = 0x0B →
        let st := fieldOf p.inline 0 3
        let action := fieldOf p.param 0 4
        (action = 1 → ep / 16 = 1 → lets (.release r st)) ∧
        (action = 2 → ep / 16 = 8 → lets (.decline (2 * d + ep % 16) (p.pa.toNat / 64) (bitOf p.inline 3))) ∧
        (action = 3 → ep / 16 = 1 → lets (.mapReceive r st)) ∧
        (action = 4 → ep / 16 = 1 → lets (.sliceFlush r st (bitOf p.inline 3)
          (if bitOf p.inline 4 then some (fieldOf p.inline 5 5) else none)))) ∧
      (ep = 0xC1 → p.opcode = 1 ∨ p.opcode = 2 →
        let pd := dieOfRouter (routerAt p.srcCol.toNat p.srcRow.toNat)
        let source := p.srcCol.toNat + 32 * p.srcRow.toNat + 1024 * p.srcEp.toNat
        let ok := p.srcDev = s.sr.devnum ∧ (p.srcEp = 0xD0 ∨ (p.srcEp = 0xC0 ∧ s.partOf pd = s.partOf d))
        (¬ ok → deliver r p s = inject r (replyTo p 0x42 0 2 0 none) (refusalRecord r 0xC1 p s)) ∧
        (ok → p.opcode = 2 → deliver r p s = replyAck p 0
          { s with due := s.due ++ [.registerWrite p.pa.toNat (BitVec.ofNat 32 (fieldOf p.inline 0 32)) source] }) ∧
        (ok → p.opcode = 1 → ∀ v u, mgmtRead p.pa.toNat s = .ok v u → deliver r p s = replyData p v.toNat u)) ∧
      (let x := p.pa.toNat % 0x40000000
       let ap := x / 0x800000
       let off := 0x80000 + x % 0x800000
       let n := 4 * 2 ^ (p.param.toNat % 8)
       (ep = 0x90 → p.opcode = 1 →
         (outboundOk s d ap off n = false → deliver r p s = inject r (replyTo p 0x42 0 2 0 none) s) ∧
         (outboundOk s d ap off n = true → n < 64 → deliver r p s = replyData p (rdBytes (s.port d).store (apKey ap off) n) s)) ∧
       ∀ l, ep = 0x90 → p.opcode = 2 → p.payload = [l] →
         (outboundOk s d ap off 64 = false → deliver r p s = inject r (replyTo p 0x42 0 2 0 none) s) ∧
         (outboundOk s d ap off 64 = true →
           deliver r p s = replyAck p 0 { s with due := s.due ++ [.outboundWrite d ap off (natBytes l.toNat 64)] })) ∧
      (ep = 0x30 ∨ ep = 0x40 ∨ (0x50 ≤ ep ∧ ep < 0x55) ∨ ep = 0xA0 ∨ (0xB0 ≤ ep ∧ ep < 0xB3) ∨ ep = 0xD0 → p.opcode ≠ 0x0B →
        deliver r p s = replyErr p 6 s)) := by
  intro d ep lets corner listed
  have hlisted : endpointListed r p.dstEp.toNat = true ↔ listed := endpointListed_iff p.dstEp.isLt
  refine ⟨fun h => deliver_unlisted (eq_false_of_ne_true (mt hlisted.1 h)), fun h hv => ?_⟩
  have hd : deliver r p s = delivered r p s (ep / 16) p.opcode := deliver_listed (hlisted.2 h) hv
  have hat {block : Nat} {op : Byte} (hb : ep / 16 = block) (ho : p.opcode = op) : deliver r p s = delivered r p s block op := by
    rw [hd, hb, ho]
  refine ⟨fun he => ?_, fun he h1 h4 => ?_, fun n hn ho => ?_, fun he ho => hat (block := 0) (by omega) ho,
    fun he ho => ?_, fun ho => ?_, fun he ho => ?_, ?_, fun he ho => ?_⟩
  · have hb : ep / 16 = 1 := by omega
    exact ⟨fun ho => hat hb ho, fun ho => hat hb ho, fun ho => hat hb ho, fun ho => hat hb ho, fun ho => hat hb ho, fun ho => hat hb ho⟩
  · have hb : ep / 16 = 2 := by omega
    have hop : p.opcode = 1 ∨ p.opcode = 2 ∨ p.opcode = 3 ∨ p.opcode = 4 := by
      simp only [← BitVec.toNat_inj]
      change p.opcode.toNat = 1 ∨ p.opcode.toNat = 2 ∨ p.opcode.toNat = 3 ∨ p.opcode.toNat = 4
      omega
    rcases hop with ho | ho | ho | ho <;> exact hat hb ho
  · obtain ⟨htyp, hseq, hcls, hreply, hwords⟩ := packetMessage_spec (s := s) (p := p)
    refine ⟨packetMessage s p, htyp, hseq, hcls, hreply, hwords, ?_⟩
    rcases hn with ⟨he, rfl⟩ | ⟨he, rfl⟩
    · exact hat (block := 0) (by omega) ho
    · exact (hat (block := 12) (by omega) ho).trans (if_pos (BitVec.eq_of_toNat_eq he))
  · intro st q
    have hmod : p.dstEp.toNat % 16 = ep % 2 := by
      change ep % 16 = ep % 2
      omega
    have hctl := onlyCtlAt_modCtl s st (fun c => { c with queue := c.queue ++ [q] }) [.mcRequest st]
    refine ⟨_, hctl, (hat (block := 8) (by omega) ho).trans ?_⟩
    simp only [delivered, hmod]
    rfl
  · intro st action
    have hctlm : deliver r p s = (ctlmPacket r p s).getD (replyErr p 6 s) := by
      rw [hd, ho, delivered_ctlm]
    have hget {u : State} (h : ctlmPacket r p s = some u) : deliver r p s = u := by
      rw [hctlm, h]
      rfl
    refine ⟨fun ha hb => hget ?_, fun ha hb => hget ?_, fun ha hb => hget ?_, fun ha hb => hget ?_⟩ <;>
      rw [ctlmPacket, show fieldOf p.param 0 4 = _ from ha, show p.dstEp.toNat / 16 = _ from hb] <;> rfl
  · obtain ⟨hno, hwrite, hread⟩ := mgmtPacket_spec (s := s) (r := r) hv
    have hm : deliver r p s = mgmtPacket r p s := by
      rcases ho with ho | ho <;> exact (hat (block := 12) (by omega) ho).trans (if_pos (BitVec.eq_of_toNat_eq he))
    rw [hm]
    exact ⟨hno, hwrite, hread⟩
  · intro x ap off n
    obtain ⟨hread, hwrite⟩ := outboundPacket_spec (s := s) (r := r) hv
    refine ⟨fun he ho => ?_, fun l he ho hl => ?_⟩
    · rw [hat (block := 9) (by omega) ho]
      exact hread ho
    · rw [hat (block := 9) (by omega) ho]
      exact hwrite l ho hl
  · rw [hd]
    exact delivered_none (by omega) ho

theorem claim_deliveries : Claim.Deliveries := ⟨claim_sinkFlit, claim_deliver⟩

end Sys2Proof.Machine
end

section
/-! PROOFS. The requests that a port keeps until they are answered (R54, R66, R68, R69, R72). -/

namespace Sys2Proof.Machine

/-- The request of a list that a predicate singles out. -/
theorem find?_of_unique {α : Type} {p : α → Bool} {l : List α} {a : α} (ha : a ∈ l) (hp : p a = true) (h : ∀ x ∈ l, p x → x = a) :
    l.find? p = some a := by
  cases hf : l.find? p with
  | none => exact absurd hp (List.find?_eq_none.1 hf a ha)
  | some x => rw [h x (List.mem_of_find?_eq_some hf) (List.find?_some hf)]

/-- A reply of a network packet is that of request `q`. -/
def requestIs (o : Nat) (tag : BitVec 16) (q : Request) : Bool := q.origin = o && q.tag = tag

section
variable {s : State} {q : Request} {r ep : Nat} {code : BitVec 5}

theorem endpointCore_core (h : ep < 16) : endpointCore r ep = some (16 * r + ep) := if_pos h

theorem exec_replyTimeout (o : Nat) (tag : BitVec 16) (s : State) : exec (.replyTimeout o tag) s =
    .next (if s.requests.any (requestIs o tag) then s.push (.lostHandling o tag 4) else s) := rfl

theorem exec_requestResend (o : Nat) (tag : BitVec 16) (s : State) : exec (.requestResend o tag) s =
    .next (match s.requests.find? (requestIs o tag) with
      | none => s
      | some q => sendPacket q.pkt { s with requests := s.requests.map fun x =>
          if x = q then { q with again := none, since := mcAt s (o / 256) } else x }) := rfl

/-- A lost request is re-issued or reported. -/
def lostRequest (o : Nat) (code : BitVec 5) (q : Request) (s : State) : State :=
  let read := q.pkt.opcode = 0x01 || (q.pkt.opcode = 0x0A && !bitOf q.pkt.param 0)
  if (code = 3 || read) && q.losses < 3 then reissue q s
  else
    let s := { s with requests := s.requests.erase q }
    if q.pkt.opcode = 0x0A then logRecord (dieOfRouter (o / 256)) 0x05 (o % 256) (routerPos (o / 256)) q.pkt.pa.toNat 0 s
    else outcome q { q.pkt with opcode := 0x42, err := code, vn := true } s

theorem exec_lostHandling (o : Nat) (tag : BitVec 16) (code : BitVec 5) (s : State) : exec (.lostHandling o tag code) s =
    .next (match s.requests.find? (requestIs o tag) with
      | none => s
      | some q => lostRequest o code q s) := rfl

/-! ### The only request -/

section
variable (hq : s.requests = [q])
include hq

theorem find_request : s.requests.find? (requestIs q.origin q.tag) = some q := by
  rw [hq]
  simp [requestIs]

theorem exec_lostHandling_one : exec (.lostHandling q.origin q.tag code) s = .next (lostRequest q.origin code q s) := by
  rw [exec_lostHandling, find_request hq]

theorem exec_replyTimeout_one : exec (.replyTimeout q.origin q.tag) s = .next (s.push (.lostHandling q.origin q.tag 4)) := by
  rw [exec_replyTimeout, if_pos]
  rw [hq]
  simp [requestIs]

end

/-! ### A request that is sent again -/

/-- The waiting of a thread for its call or spawn goes over to the new tag. -/
def retagged (old new : BitVec 16) (run : Run) : Run :=
  match run with
  | .parked (.mcall id d b c) => if id = old.toNat then .parked (.mcall new.toNat d b c) else run
  | .parked (.rspawn d id) => if id = old.toNat then .parked (.rspawn d new.toNat) else run
  | x => x

/-- A request under a tag of its own. -/
def reissued (s : State) (r n : Nat) (q : Request) : Request :=
  let tag := (s.core n).nextTag
  { q with tag := tag, losses := q.losses + 1, since := mcAt s r, again := none, pkt := { q.pkt with tag := tag } }

/-- The next tag of a core is taken, and the thread of a request waits for it. -/
def retag (n : Nat) (q : Request) (s : State) : State :=
  (s.modCore n fun c => { c with nextTag := c.nextTag + 1 }).modSlot q.slot fun sl =>
    { sl with run := retagged q.tag (s.core n).nextTag sl.run }

/-- The state from which a request is sent again. -/
def retaggedState (s : State) (r n : Nat) (q : Request) : State :=
  { retag n q s with requests := s.requests.map fun x => if x = q then reissued s r n q else x }

theorem reissue_eq (ho : q.origin = 256 * r + ep) (hep : ep < 16) :
    reissue q s = sendPacket (reissued s r (16 * r + ep) q).pkt (retaggedState s r (16 * r + ep) q) := by
  have hdiv : q.origin / 256 = r := by omega
  have hmod : q.origin % 256 = ep := by omega
  have hcore : endpointCore r ep = some (16 * r + ep) := endpointCore_core hep
  simp only [reissue, hdiv, hmod, hcore]
  rfl

theorem lostRequest_again (ho : q.origin = 256 * r + ep) (hep : ep < 16)
    (h : ((code = 3 || (q.pkt.opcode = 0x01 || (q.pkt.opcode = 0x0A && !bitOf q.pkt.param 0))) && q.losses < 3) = true) :
    lostRequest q.origin code q s = sendPacket (reissued s r (16 * r + ep) q).pkt (retaggedState s r (16 * r + ep) q) :=
  (if_pos h).trans (reissue_eq ho hep)

theorem slot_retaggedState (n k : Nat) : (retaggedState s r n q).slot k =
    if k = q.slot then { s.slot k with run := retagged q.tag (s.core n).nextTag (s.slot k).run } else s.slot k := by
  change (retag n q s).slot k = _
  rw [retag, State.slot_modSlot]
  by_cases h : q.slot = k
  · subst h
    rw [if_pos rfl, if_pos rfl]
    rfl
  · rw [if_neg h, if_neg (Ne.symm h)]
    rfl

theorem core_retaggedState (n m : Nat) : (retaggedState s r n q).core m =
    if m = n then { s.core n with nextTag := (s.core n).nextTag + 1 } else s.core m := by
  change (s.modCore n fun c => { c with nextTag := c.nextTag + 1 }).core m = _
  rw [State.core_modCore]
  simp only [eq_comm (a := n)]

theorem requests_retaggedState (hq : s.requests = [q]) (n : Nat) : (retaggedState s r n q).requests = [reissued s r n q] := by
  simp [retaggedState, hq]

theorem rest_retaggedState (n : Nat) :
    { retaggedState s r n q with cores := s.cores, slots := s.slots, requests := s.requests } = s := by
  unfold retaggedState retag
  rfl

theorem retagged_other {old new : BitVec 16} {run : Run} (hm : ∀ m d b c, run ≠ .parked (.mcall m d b c))
    (hs : ∀ d m, run ≠ .parked (.rspawn d m)) : retagged old new run = run := by
  unfold retagged
  split
  next id d b c => exact absurd rfl (hm id d b c)
  next d id => exact absurd rfl (hs d id)
  next => rfl

/-! ### Replies -/

section
variable {p : Packet}

/-- The request that a packet on RSP answers. -/
theorem deliverReply_of_request (hep : p.dstEp.toNat < 16) (hq : s.requests.find? (requestIs (256 * r + p.dstEp.toNat) p.tag) = some q)
    (hport : tagPort s (16 * r + p.dstEp.toNat) p.tag = none) (hop : p.opcode ≠ 0x44) : deliverReply r p s =
      if p.opcode = 0x42 && (p.err = 3 || p.err = 4) then s.push (.lostHandling (256 * r + p.dstEp.toNat) p.tag p.err)
      else if p.opcode = 0x41 && p.param = 2 then
        let iv := if q.interval = 0 then 64 else Nat.min 4096 (2 * q.interval)
        { s with requests := s.requests.map fun x => if x = q then { q with interval := iv, again := some (mcAt s r + iv) } else x }
      else
        let s := { s with requests := s.requests.erase q }
        if p.opcode = 0x43 then
          s.push (.remap r (stackOf (p.pa.toNat / 64)) (BitVec.ofNat 4 p.param.toNat)
            { slice := r, line := p.pa.toNat / 64, stamp := q.pkt.gen, write := bitOf q.pkt.param 0, data := q.pkt.payload.headD 0
              full := BitVec.ofNat 16 (fieldOf q.pkt.inline 0 16), cls := q.pkt.cls })
        else outcome q p s := by
  have hcore : endpointCore r p.dstEp.toNat = some (16 * r + p.dstEp.toNat) := endpointCore_core hep
  unfold deliverReply
  simp only [hcore, Option.getD_some, hport, ite_self]
  split
  next h => exact absurd h (by simp)
  next h => exact absurd ‹p.opcode = _› hop
  next =>
    rw [show s.requests.find? (fun q => q.origin = originOf r p.dstEp.toNat && q.tag = p.tag) = some q from hq]
    rfl

theorem tagPort_of_closed {n : Nat} {tag : BitVec 16} (h : ∀ e ∈ (s.core n).ports, e.2.state ≠ 1) : tagPort s n tag = none := by
  unfold tagPort
  rw [List.find?_eq_none.2, Option.map_none]
  intro e he ht
  exact h e he (of_decide_eq_true ((Bool.and_eq_true ..).mp ht).1)

/-- A stream's route is closed. -/
theorem deliverReply_of_stream {i : Nat} (hep : p.dstEp.toNat < 16) (hop : p.opcode = 0x45 ∨ p.opcode = 0x42)
    (hport : tagPort s (16 * r + p.dstEp.toNat) p.tag = some i) :
    deliverReply r p s = s.push (.streamForcedClose (16 * r + p.dstEp.toNat) i) := by
  have hcore : endpointCore r p.dstEp.toNat = some (16 * r + p.dstEp.toNat) := endpointCore_core hep
  unfold deliverReply
  rcases hop with hop | hop <;> simp [hcore, hop, hport]

/-- A REPLY reaches the slot whose call awaits it. -/
theorem deliverReply_of_call {k : Nat} (hep : p.dstEp.toNat < 16) (hop : p.opcode = 0x44)
    (hcall : tagCall s (16 * r + p.dstEp.toNat) p.tag = some k) : deliverReply r p s = s.push (.replyArrival k 0 (some p)) := by
  have hcore : endpointCore r p.dstEp.toNat = some (16 * r + p.dstEp.toNat) := endpointCore_core hep
  unfold deliverReply
  simp [hcore, hop, hcall]

theorem outcome_core (ho : q.origin = 256 * r + ep) (hep : ep < 16) : outcome q p s = s.push (.replyArrival q.slot 0 (some p)) := by
  have hdiv : q.origin / 256 = r := by omega
  have hmod : q.origin % 256 = ep := by omega
  unfold outcome
  rw [hdiv, hmod]
  exact if_pos (by rw [endpointCore_core hep]; rfl)

end

/-! ### The claim -/

theorem claim_request (s : State) (q : Request) (r ep : Nat) (code : BitVec 5) (hq : s.requests = [q]) (ho : q.origin = 256 * r + ep)
    (hep : ep < 16) :
    let n := 16 * r + ep
    let read := q.pkt.opcode = 0x01 ∨ (q.pkt.opcode = 0x0A ∧ bitOf q.pkt.param 0 = false)
    let again := (code = 3 ∨ read) ∧ q.losses < 3
    let now := (s.die (dieOfRouter r)).mc.toNat
    let tag := (s.core n).nextTag
    Lets s (.replyTimeout q.origin q.tag) [.lostHandling q.origin q.tag 4] ∧
    (again → (∀ m d b c, (s.slot q.slot).run ≠ .parked (.mcall m d b c)) → (∀ d m, (s.slot q.slot).run ≠ .parked (.rspawn d m)) →
      let q' := { q with tag := tag, losses := q.losses + 1, since := now, again := none, pkt := { q.pkt with tag := tag } }
      ∃ u, exec (.lostHandling q.origin q.tag code) s = .next (sendPacket q'.pkt u) ∧ u.requests = [q'] ∧
        (∀ m, u.core m = if m = n then { s.core n with nextTag := tag + 1 } else s.core m) ∧ (∀ k, u.slot k = s.slot k) ∧
        { u with cores := s.cores, slots := s.slots, requests := s.requests } = s) ∧
    (again → ∀ d b c, (s.slot q.slot).run = .parked (.mcall q.tag.toNat d b c) → ∃ u,
      exec (.lostHandling q.origin q.tag code) s = .next (sendPacket { q.pkt with tag := tag } u) ∧
        u.slot q.slot = { s.slot q.slot with run := .parked (.mcall tag.toNat d b c) }) ∧
    (again → ∀ d, (s.slot q.slot).run = .parked (.rspawn d q.tag.toNat) → ∃ u,
      exec (.lostHandling q.origin q.tag code) s = .next (sendPacket { q.pkt with tag := tag } u) ∧
        u.slot q.slot = { s.slot q.slot with run := .parked (.rspawn d tag.toNat) }) ∧
    (¬ again → q.pkt.opcode ≠ 0x0A → exec (.lostHandling q.origin q.tag code) s = .next { s with
      requests := []
      due := s.due ++ [.replyArrival q.slot 0 (some { q.pkt with opcode := 0x42, err := code, vn := true })] }) ∧
    (¬ again → q.pkt.opcode = 0x0A → exec (.lostHandling q.origin q.tag code) s =
      .next (logRecord (dieOfRouter r) 0x05 ep (routerPos r) q.pkt.pa.toNat 0 { s with requests := [] })) ∧
    exec (.requestResend q.origin q.tag) s = .next (sendPacket q.pkt { s with requests := [{ q with again := none, since := now }] }) ∧
    ∀ p : Packet, p.vn = true → p.dstEp.toNat = ep → p.tag = q.tag → (∀ e ∈ (s.core n).ports, e.2.state ≠ 1) →
      (p.opcode = 0x42 → p.err = 3 ∨ p.err = 4 →
        deliverReply r p s = { s with due := s.due ++ [.lostHandling q.origin q.tag p.err] }) ∧
      (p.opcode = 0x41 → p.param = 2 →
        let iv := if q.interval = 0 then 64 else Nat.min 4096 (2 * q.interval)
        deliverReply r p s = { s with requests := [{ q with interval := iv, again := some (now + iv) }] }) ∧
      (p.opcode = 0x41 ∧ p.param ≠ 2 ∨ p.opcode = 0x40 ∨ (p.opcode = 0x42 ∧ p.err ≠ 3 ∧ p.err ≠ 4) →
        deliverReply r p s = { s with requests := [], due := s.due ++ [.replyArrival q.slot 0 (some p)] }) := by
  intro n read again now tag
  have hdiv : q.origin / 256 = r := by omega
  have hmod : q.origin % 256 = ep := by omega
  have hagain : ((code = 3 || (q.pkt.opcode = 0x01 || (q.pkt.opcode = 0x0A && !bitOf q.pkt.param 0))) && decide (q.losses < 3)) = true ↔ again := by
    simp only [Bool.and_eq_true, Bool.or_eq_true, decide_eq_true_eq, Bool.not_eq_true', again, read]
  have hsent (h : again) : exec (.lostHandling q.origin q.tag code) s = .next (sendPacket (reissued s r n q).pkt (retaggedState s r n q)) :=
    (exec_lostHandling_one hq).trans (congrArg _ (lostRequest_again ho hep (hagain.2 h)))
  have hslot : (retaggedState s r n q).slot q.slot = { s.slot q.slot with run := retagged q.tag tag (s.slot q.slot).run } :=
    (slot_retaggedState n q.slot).trans (if_pos rfl)
  have herase : ({ s with requests := s.requests.erase q } : State) = { s with requests := [] } := by
    rw [hq, List.erase_cons_head]
  refine ⟨exec_replyTimeout_one hq, fun h hm hs => ?_, fun h d b c hr => ⟨_, hsent h, ?_⟩, fun h d hr => ⟨_, hsent h, ?_⟩, fun h hop => ?_,
    fun h hop => ?_, ?_, fun p hv he ht hports => ?_⟩
  · refine ⟨_, hsent h, requests_retaggedState hq n, core_retaggedState n, fun k => ?_, rest_retaggedState n⟩
    rw [slot_retaggedState]
    split
    next hk => rw [hk, retagged_other hm hs]
    next => rfl
  · rw [hslot, hr, retagged, if_pos rfl]
  · rw [hslot, hr, retagged, if_pos rfl]
  · refine (exec_lostHandling_one hq).trans (congrArg Host.Outcome.next ((if_neg (mt hagain.1 h)).trans ((if_neg hop).trans ?_)))
    rw [herase, outcome_core ho hep]
    rfl
  · refine (exec_lostHandling_one hq).trans (congrArg Host.Outcome.next ((if_neg (mt hagain.1 h)).trans ((if_pos hop).trans ?_)))
    rw [herase, hdiv, hmod]
  · rw [exec_requestResend, find_request hq, hdiv, hq]
    simp only [List.map_cons, List.map_nil, if_true]
    rfl
  · subst he
    have hfind : s.requests.find? (requestIs (256 * r + p.dstEp.toNat) p.tag) = some q := by
      rw [← ho, ht]
      exact find_request hq
    have hreply := deliverReply_of_request (s := s) hep hfind (tagPort_of_closed hports)
    refine ⟨fun hop he => ?_, fun hop hp => ?_, fun h => ?_⟩
    · rw [hreply (by rw [hop]; decide), if_pos (by simpa [hop] using he), ← ho, ht]
      rfl
    · have hlost : ¬ (p.opcode = 0x42 && (p.err = 3 || p.err = 4)) = true := by simp [hop]
      have hretry : (p.opcode = 0x41 && p.param = 2) = true := by simp [hop, hp]
      rw [hreply (by rw [hop]; decide), if_neg hlost, if_pos hretry, hq]
      simp only [List.map_cons, List.map_nil, if_true]
      rfl
    · obtain ⟨h43, h44, hlost, hretry⟩ : p.opcode ≠ 0x43 ∧ p.opcode ≠ 0x44 ∧ ¬ (p.opcode = 0x42 && (p.err = 3 || p.err = 4)) = true ∧
          ¬ (p.opcode = 0x41 && p.param = 2) = true := by
        rcases h with ⟨hop, hp⟩ | hop | ⟨hop, he3, he4⟩
        · simpa [hop] using hp
        · simp [hop]
        · simpa [hop] using And.intro he3 he4
      rw [hreply h44, if_neg hlost, if_neg hretry]
      refine (if_neg h43).trans ?_
      rw [herase, outcome_core ho hep]
      rfl

theorem claim_requestsOfPorts : Claim.RequestsOfPorts := by
  refine ⟨fun s q r ep code hq ho hep => claim_request s q r ep code hq ho hep, fun s r ep k p d b c hep he hv hop hk hrun hone => ?_,
    fun s o tag code hno => ?_, fun s r ep i p x hep he hv hop hports hx ht => ?_⟩
  · subst he
    refine deliverReply_of_call hep hop (find?_of_unique ?_ ?_ fun j hj hjr => ?_)
    · exact List.mem_map.2 ⟨k % 16, List.mem_range.2 (Nat.mod_lt _ (by omega)), by omega⟩
    · rw [hrun]
      simp
    · obtain ⟨i, hi, rfl⟩ := List.mem_map.1 hj
      rw [List.mem_range] at hi
      by_contra hne
      split at hjr
      next id d' b' c' hj' =>
        rw [of_decide_eq_true hjr] at hj'
        exact hone _ d' b' c' hne (by omega) hj'
      next => exact Bool.false_ne_true hjr
  · have hfalse (q : Request) (hq : q ∈ s.requests) : ¬ requestIs o tag q = true := by
      simpa [requestIs] using hno q hq
    have hfind : s.requests.find? (requestIs o tag) = none := List.find?_eq_none.2 hfalse
    refine ⟨?_, ?_, ?_⟩
    · rw [NoEffect, exec_replyTimeout, if_neg]
      simpa using hfalse
    · rw [NoEffect, exec_lostHandling, hfind]
    · rw [NoEffect, exec_requestResend, hfind]
  · subst he
    refine deliverReply_of_stream hep hop ?_
    unfold tagPort
    rw [hports]
    simp [hx, ht]

end

end Sys2Proof.Machine
end

section
/-! PROOFS. A mesh cycle in which no router is busy (R4), and the routers and links as a whole. -/

namespace Sys2Proof.Machine

/-- The same change of different dies. -/
theorem foldl_modDie (f : Die → Die) (ds : List Nat) (hn : ds.Nodup) (s : State) :
    let t := ds.foldl (fun a d => a.modDie d f) s
    (∀ d, t.die d = if d ∈ ds then f (s.die d) else s.die d) ∧ { t with dies := s.dies } = s := by
  induction ds generalizing s with
  | nil => exact ⟨fun d => (if_neg List.not_mem_nil).symm, rfl⟩
  | cons e ds ih =>
    rw [List.nodup_cons] at hn
    obtain ⟨hd, hr⟩ := ih hn.2 (s.modDie e f)
    refine ⟨fun d => ?_, congrArg (fun v : State => { v with dies := s.dies }) hr⟩
    rw [List.foldl_cons, hd, State.die_modDie]
    by_cases he : e = d
    · subst he
      rw [if_neg hn.1, if_pos rfl, if_pos (by simp)]
    · simp only [if_neg he, List.mem_cons, Ne.symm he, false_or]

/-- The dies that run, each one mesh cycle on. -/
def diesTicked (s : State) : State :=
  ((List.range 4).filter (meshRuns s)).foldl (fun s d => s.modDie d fun D => { D with mc := D.mc + 1 }) { s with mcDue := s.mcDue - 1 }

theorem foldl_busy_nil {v : State} (h : v.busy = []) (p : Nat → Bool) (g : State → Nat → State) :
    (v.busy.filter p).foldl g { v with busy := v.busy.filter p } = v := by
  rw [h, List.filter_nil, List.foldl_nil, ← h]

theorem mcTick_idle {s : State} (hb : s.busy = []) : mcTick s =
    (diesTicked s).pushAll (((List.range 4).filter (meshRuns s)).flatMap (requestEvents (diesTicked s))) := by
  have hrest : { diesTicked s with dies := s.dies } = { s with mcDue := s.mcDue - 1 } :=
    (foldl_modDie (fun D => { D with mc := D.mc + 1 }) _ (List.nodup_range.filter _) { s with mcDue := s.mcDue - 1 }).2
  have hbusy : (diesTicked s).busy = [] := by
    have h := congrArg (fun v : State => v.busy) hrest
    exact h.trans hb
  exact foldl_busy_nil (v := (diesTicked s).pushAll (((List.range 4).filter (meshRuns s)).flatMap (requestEvents (diesTicked s)))) hbusy _ _

theorem claim_meshCycles : Claim.MeshCycles := by
  intro s n hd hm hp hb
  have hstep : step s = .next (mcTick s) := by
    have hnext : nextOf s = (mcTick s, none) := by
      unfold nextOf
      split
      next h => simp [hd] at h
      · simp [hm]
    simp [step, stuck, hp, hnext]
  have hnodup : ((List.range 4).filter (meshRuns s)).Nodup := List.nodup_range.filter _
  obtain ⟨hdie, hrest⟩ := foldl_modDie (fun D => { D with mc := D.mc + 1 }) _ hnodup { s with mcDue := s.mcDue - 1 }
  have hruns (d : Nat) : d ∈ (List.range 4).filter (meshRuns s) ↔ d < 4 ∧ bitOf s.sr.dieup d = true ∧ (s.die d).stopped = false := by
    simp [meshRuns]
  rw [mcTick_idle hb] at hstep
  have hmc : (diesTicked s).mcDue = n := by
    have h := congrArg (fun v : State => v.mcDue) hrest
    exact h.trans (congrArg (· - 1) hm)
  have hdue : (diesTicked s).due = [] := by
    have h := congrArg (fun v : State => v.due) hrest
    exact h.trans hd
  refine ⟨_, hstep, hmc, fun d h4 => ?_, fun e he => ?_, ?_⟩
  · refine (hdie d).trans ?_
    simp only [hruns, h4, true_and]
    rfl
  · have hmem : e ∈ (diesTicked s).due ++ ((List.range 4).filter (meshRuns s)).flatMap (requestEvents (diesTicked s)) := he
    rw [hdue, List.nil_append, List.mem_flatMap] at hmem
    obtain ⟨d, hds, hev⟩ := hmem
    obtain ⟨h4, hup, hst⟩ := (hruns d).1 hds
    exact ⟨d, h4, hup, hst, hev⟩
  · exact congrArg (fun v : State => { v with due := s.due, mcDue := s.mcDue }) hrest

/-- Settles O49: the claims of the parts, of which each follows the function of the model that performs it. -/
theorem meshEvents : Obligations.MeshEvents :=
  ⟨claim_flitsSent, claim_flitsReady, claim_flitsReceived, claim_linkStates, claim_routing, claim_readsMerge, claim_deliveries,
    claim_requestsOfPorts, claim_meshCycles⟩

end Sys2Proof.Machine
end

section
/-! SUPPORT. The canonical form (R23, R206): what it means that a computation, a step and a state transformer keep it. -/
namespace Sys2Proof.Machine

variable {ε α β : Type}

/-- The state that a computation leaves, whether it answers or stops, is canonical. -/
inductive Kept : EStateM.Result ε State α → Prop
  | ok {a : α} {s : State} (h : Canonical s) : Kept (.ok a s)
  | error {e : ε} {s : State} (h : Canonical s) : Kept (.error e s)

/-- A computation keeps the canonical form. -/
def Keeps (x : EStateM ε State α) : Prop := ∀ ⦃s⦄, Canonical s → Kept (x s)

/-- A step that goes on ends in a canonical state. -/
inductive Lands : Host.Outcome State Fault Refusal → Prop
  | next {s : State} (h : Canonical s) : Lands (.next s)

theorem Kept.of_ok {r : EStateM.Result ε State α} {a : α} {t : State} (h : Kept r) (e : r = .ok a t) : Canonical t := by
  subst e
  cases h
  assumption

theorem Kept.of_error {r : EStateM.Result ε State α} {x : ε} {t : State} (h : Kept r) (e : r = .error x t) : Canonical t := by
  subst e
  cases h
  assumption

theorem Lands.of_next {o : Host.Outcome State Fault Refusal} {t : State} (h : Lands o) (e : o = .next t) : Canonical t := by
  subst e
  cases h
  assumption

theorem Kept.ite {c : Prop} [Decidable c] {r q : EStateM.Result ε State α} (hr : Kept r) (hq : Kept q) :
    Kept (if c then r else q) := by split <;> assumption

theorem Lands.ite {c : Prop} [Decidable c] {o p : Host.Outcome State Fault Refusal} (ho : Lands o) (hp : Lands p) :
    Lands (if c then o else p) := by split <;> assumption

namespace Canonical

variable {s t : State}

/-- An update of the record that leaves memory and the vaults alone. -/
theorem update (h : Canonical s) {sr parts dies ctls flips memFull vfull verr banks remotes slices routers requests clusters cores slots
    engines bulk busy mcDue mcPhase hot ported cur turn due later fresh} :
    Canonical ⟨sr, parts, dies, ctls, s.mem, flips, memFull, s.vault, vfull, verr, banks, remotes, slices, routers, requests, clusters,
      cores, slots, engines, bulk, busy, mcDue, mcPhase, hot, ported, cur, turn, due, later, fresh⟩ := h

theorem ite {c : Prop} [Decidable c] (hs : Canonical s) (ht : Canonical t) : Canonical (if c then s else t) := by
  split <;> assumption

theorem of_fst {p : State × α} {a : α} (h : Canonical p.1) (e : p = (t, a)) : Canonical t := by
  subst e
  exact h

theorem of_snd {p : α × State} {a : α} (h : Canonical p.2) (e : p = (a, t)) : Canonical t := by
  subst e
  exact h

theorem foldl {f : State → α → State} {l : List α} (h : Canonical s) (hf : ∀ s a, Canonical s → Canonical (f s a)) :
    Canonical (l.foldl f s) := by
  induction l generalizing s with
  | nil => exact h
  | cons a l ih => exact ih (hf s a h)

theorem forUp {f : Nat → State → State} {lo n : Nat} (h : Canonical s) (hf : ∀ i s, Canonical s → Canonical (f i s)) :
    Canonical (forUp lo n s f) := by
  induction n generalizing lo s with
  | zero => exact h
  | succ n ih => exact ih (hf lo s h)

theorem getD {o : Option State} (h : Canonical s) (ho : ∀ t, o = some t → Canonical t) : Canonical (o.getD s) := by
  cases o with
  | none => exact h
  | some t => exact ho t rfl

end Canonical

namespace Keeps

variable {x y : EStateM ε State α} {f g : α → EStateM ε State β} {s : State}

theorem pure (a : α) : Keeps (Pure.pure a : EStateM ε State α) := fun _ h => .ok h

theorem throw (e : ε) : Keeps (MonadExcept.throw e : EStateM ε State α) := fun _ h => .error h

theorem throwThe (e : ε) : Keeps (MonadExceptOf.throw e : EStateM ε State α) := fun _ h => .error h

theorem bind (hx : Keeps x) (hf : ∀ a, Keeps (f a)) : Keeps (x >>= f) := fun s h => by
  change Kept (EStateM.bind x f s)
  unfold EStateM.bind
  split
  next a t e => exact hf a ((hx h).of_ok e)
  next e => exact .error ((hx h).of_error e)

theorem map (f : α → β) (hx : Keeps x) : Keeps (f <$> x) := fun s h => by
  change Kept (EStateM.map f x s)
  unfold EStateM.map
  split
  next e => exact .ok ((hx h).of_ok e)
  next e => exact .error ((hx h).of_error e)

theorem ite {c : Prop} [Decidable c] (hx : Keeps x) (hy : Keeps y) : Keeps (if c then x else y) := by
  split <;> assumption

/-- A step of a computation that is taken under a condition. -/
theorem guard {c : Prop} [Decidable c] {x : EStateM ε State PUnit} {f : PUnit → EStateM ε State β} (hx : Keeps x)
    (hf : ∀ u, Keeps (f u)) : Keeps (if c then x >>= f else f ⟨⟩) := (bind hx hf).ite (hf _)

theorem unlessGuard {c : Prop} [Decidable c] {x : EStateM ε State PUnit} {f : PUnit → EStateM ε State β} (hx : Keeps x)
    (hf : ∀ u, Keeps (f u)) : Keeps (if c then f ⟨⟩ else x >>= f) := (hf _).ite (bind hx hf)

theorem get : Keeps (MonadState.get : EStateM ε State State) := fun _ h => .ok h

theorem modify {f : State → State} (hf : ∀ s, Canonical s → Canonical (f s)) : Keeps (modify f : EStateM ε State PUnit) :=
  fun s h => .ok (hf s h)

theorem mapM {l : List α} (hf : ∀ a, Keeps (f a)) : Keeps (l.mapM f) := by
  induction l with
  | nil => exact List.mapM_nil (f := f) ▸ pure []
  | cons a l ih => exact List.mapM_cons (f := f) ▸ bind (hf a) fun _ => bind ih fun _ => pure _

theorem forM {f : α → EStateM ε State PUnit} {l : List α} (hf : ∀ a, Keeps (f a)) : Keeps (l.forM f) := by
  induction l with
  | nil => exact pure _
  | cons a l ih => exact bind (hf a) fun _ => ih

/-- A computation built over a list. -/
theorem foldl {f : EStateM ε State β → α → EStateM ε State β} {l : List α} {x : EStateM ε State β} (hx : Keeps x)
    (hf : ∀ x a, Keeps x → Keeps (f x a)) : Keeps (l.foldl f x) := by
  induction l generalizing x with
  | nil => exact hx
  | cons a l ih => exact ih (hf x a hx)

end Keeps

end Sys2Proof.Machine
end

section
/-! SUPPORT. The canonical form is kept. The operations over the state, threads' ends and operands. -/
namespace Sys2Proof.Machine

theorem Canonical.setSlot {s : State} {k : Nat} {v : Slot} (h : Canonical s) : Canonical (s.setSlot k v) := h

theorem Canonical.modSlot {s : State} {k : Nat} {f : Slot → Slot} (h : Canonical s) : Canonical (s.modSlot k f) := h.setSlot

theorem Canonical.modMe {s : State} {f : Slot → Slot} (h : Canonical s) : Canonical (s.modMe f) := h.modSlot

theorem Canonical.setCore {s : State} {k : Nat} {v : Core} (h : Canonical s) : Canonical (s.setCore k v) := h

theorem Canonical.modCore {s : State} {k : Nat} {f : Core → Core} (h : Canonical s) : Canonical (s.modCore k f) := h.setCore

theorem Canonical.setCluster {s : State} {k : Nat} {v : Cluster} (h : Canonical s) : Canonical (s.setCluster k v) := h

theorem Canonical.modCluster {s : State} {k : Nat} {f : Cluster → Cluster} (h : Canonical s) : Canonical (s.modCluster k f) :=
  h.setCluster

theorem Canonical.modBank {s : State} {k : Nat} {f : Bank → Bank} (h : Canonical s) : Canonical (s.modBank k f) := h

theorem Canonical.modEngine {s : State} {k : Nat} {f : Engine → Engine} (h : Canonical s) : Canonical (s.modEngine k f) := h

theorem Canonical.modBulk {s : State} {k : Nat} {f : BulkEngine → BulkEngine} (h : Canonical s) : Canonical (s.modBulk k f) := h

theorem Canonical.modSlice {s : State} {k : Nat} {f : Slice → Slice} (h : Canonical s) : Canonical (s.modSlice k f) := h

theorem Canonical.modRouter {s : State} {k : Nat} {f : Router → Router} (h : Canonical s) : Canonical (s.modRouter k f) := h

theorem Canonical.modCtl {s : State} {k : Nat} {f : Ctl → Ctl} (h : Canonical s) : Canonical (s.modCtl k f) := h

theorem Canonical.modDie {s : State} {k : Nat} {f : Die → Die} (h : Canonical s) : Canonical (s.modDie k f) := h

theorem Canonical.modPart {s : State} {k : Nat} {f : Part → Part} (h : Canonical s) : Canonical (s.modPart k f) := h

theorem Canonical.push {s : State} {e : Instr} (h : Canonical s) : Canonical (s.push e) := h

theorem Canonical.pushAll {s : State} {es : List Instr} (h : Canonical s) : Canonical (s.pushAll es) := h

theorem Canonical.pushFirst {s : State} {e : Instr} (h : Canonical s) : Canonical (s.pushFirst e) := h

theorem Canonical.defer {s : State} {e : Instr} (h : Canonical s) : Canonical (s.defer e) := h

theorem Keeps.trap {α : Type} {cause : Nat} {eval : Word} : Keeps (trap cause eval : M α) := .throw _

theorem Keeps.park {α : Type} {why : Wait} : Keeps (park why : M α) := .throw _

theorem Canonical.countN {core i n : Nat} {s : State} (h : Canonical s) : Canonical (countN core i n s) := h.modCore

theorem Canonical.count {core i : Nat} {s : State} (h : Canonical s) : Canonical (count core i s) := h.countN

theorem Canonical.qAll {k : Nat} {f : List QEntry → List QEntry} {s : State} (h : Canonical s) : Canonical (qAll k f s) :=
  .ite h.modCore.modSlot h

theorem Canonical.deviceMessage {d pos : Nat} {typ : Byte} {words : List Word} {s : State} (h : Canonical s) :
    Canonical (deviceMessage d pos typ words s) :=
  .ite h h.push

theorem Canonical.clusterMessage {c ix : Nat} {typ : Byte} {words : List Word} {s : State} (h : Canonical s) :
    Canonical (clusterMessage c ix typ words s) :=
  h.deviceMessage

theorem Canonical.coreMessage {core : Nat} {typ : Byte} {words : List Word} {s : State} (h : Canonical s) :
    Canonical (coreMessage core typ words s) :=
  h.deviceMessage

theorem Canonical.errBit {core : Nat} {b : Word} {s : State} (h : Canonical s) : Canonical (errBit core b s) := .ite h h.modCore

theorem Canonical.takeTrapAt {k cause : Nat} {eval : Word} {s : State} (h : Canonical s) : Canonical (takeTrapAt k cause eval s) := by
  unfold Machine.takeTrapAt
  extract_lets core s1 s2 s3 s4 tvec sl
  have h2 : Canonical s2 := h.qAll.count
  have h4 : Canonical s4 := .errBit (.ite h2.count (.ite h2.count h2))
  exact .ite h4.setSlot.coreMessage h4.setSlot

theorem Canonical.takeTrap {cause : Nat} {eval : Word} {s : State} (h : Canonical s) : Canonical (takeTrap cause eval s) :=
  h.takeTrapAt

theorem Canonical.returnFromTrap {step : Bool} {s : State} (h : Canonical s) : Canonical (returnFromTrap step s) := h.modMe

theorem Canonical.parkAt {k : Nat} {why : Wait} {s : State} (h : Canonical s) : Canonical (parkAt k why s) := by
  unfold Machine.parkAt
  dsimp only
  split
  · exact h.modSlot
  · exact h.modSlot.count

theorem Canonical.postRecord {c : Nat} {r : FaultRec} {s : State} (h : Canonical s) : Canonical (postRecord c r s) :=
  .ite (.ite h.setCluster.clusterMessage h.setCluster) h.setCluster

theorem Canonical.faultAt {k : Nat} {acc : AccessKind} {kind va : Nat} {s : State} (h : Canonical s) :
    Canonical (faultAt k acc kind va s) := by
  unfold Machine.faultAt
  refine .postRecord (.count (.setSlot ?_))
  split
  · exact setTcbStatus_canonical _ _ _ h.qAll
  · exact h.qAll

theorem Canonical.completeAt {k : Nat} {next : Next} {s : State} (h : Canonical s) : Canonical (completeAt k next s) := by
  unfold Machine.completeAt
  split
  · exact h.qAll
  · exact h.qAll.modSlot

theorem Canonical.finish {k : Nat} {r : EStateM.Result Stop State Next} (hr : Kept r) : Canonical (finish k r) := by
  unfold Machine.finish
  split
  · exact (hr.of_ok rfl).completeAt
  · exact (hr.of_error rfl).takeTrapAt
  · exact (hr.of_error rfl).parkAt
  · exact (hr.of_error rfl).faultAt
  · exact (hr.of_error rfl).modSlot
  · exact hr.of_error rfl

theorem Canonical.setRegOwned {owner k : Nat} {r : Reg} {v : Word} {s : State} (h : Canonical s) : Canonical
  (setRegOwned owner k r v s) := by
  unfold Machine.setRegOwned
  refine .ite h (.ite h.modSlot ?_)
  split
  · exact h.modCore
  · exact h.modSlot

theorem Canonical.setRegAt {k : Nat} {r : Reg} {v : Word} {s : State} (h : Canonical s) : Canonical (setRegAt k r v s) :=
  h.setRegOwned

theorem Canonical.setReg {s : State} {r : Reg} {v : Word} (h : Canonical s) : Canonical (s.setReg r v) := h.setRegAt

theorem Canonical.setRegsAt {k : Nat} {r : Reg} {vs : List Word} {s : State} (h : Canonical s) : Canonical (setRegsAt k r vs s) := by
  induction vs generalizing r s with
  | nil => exact h
  | cons v vs ih => exact ih h.setRegAt

theorem Canonical.takeHead {s : State} {r : Reg} (h : Canonical s) : Canonical (takeHead s r) := by
  unfold Machine.takeHead
  dsimp only
  split
  · exact h.setCore.modMe
  · exact h

theorem Canonical.reserveTail {owner : Nat} {s : State} {r : Reg} (h : Canonical s) : Canonical (reserveTail owner s r) := h.modCore

theorem Canonical.claim {f : Form} {s : State} (h : Canonical s) : Canonical (claim f s) :=
  .ite h ((h.foldl fun _ _ h => h.takeHead).foldl fun _ _ h => h.reserveTail)

theorem Canonical.unissue {s : State} (h : Canonical s) : Canonical (unissue s) := by
  unfold Machine.unissue
  split
  · exact h
  · exact .ite h.modCore.modMe h.modCore.modMe.count

theorem Canonical.heldBack {c : Cond} {s : State} (h : Canonical s) : Canonical (heldBack c s) := by
  unfold Machine.heldBack
  split
  · exact h.unissue
  · exact h

theorem Lands.instr {f : Form} {body : M Next} {s : State} (h : Canonical s) (hbody : Keeps body) : Lands (instr f body s) := by
  refine .next ?_
  split
  · exact .finish (hbody h.claim)
  · exact h.takeTrap
  · exact h.heldBack.parkAt

theorem Lands.instrUpd {f : Form} {body : State → State} {s : State} (h : Canonical s) (hbody : ∀ s, Canonical s → Canonical (body s)) :
    Lands (instrUpd f body s) :=
  .instr h fun _ h => .ok (hbody _ h)

theorem Lands.op3 {d a b : Reg} {f : Word → Word → Word} {s : State} (h : Canonical s) : Lands (op3 d a b f s) :=
  .instrUpd h fun _ h => h.setReg

theorem Lands.op2 {d a : Reg} {f : Word → Word} {s : State} (h : Canonical s) : Lands (op2 d a f s) :=
  .instrUpd h fun _ h => h.setReg

theorem Keeps.look {α : Type} {f : State → α} : Keeps (look f) := fun _ h => .ok h

theorem Keeps.upd {f : State → State} (hf : ∀ s, Canonical s → Canonical (f s)) : Keeps (upd f) := fun _ h => .ok (hf _ h)

theorem Keeps.segCheck {d : BitVec 128} {o n al : Nat} {acc : Access} : Keeps (segCheck d o n al acc) := by
  intro s h
  unfold Machine.segCheck
  split
  · exact .error h
  · exact .ok h

end Sys2Proof.Machine
end

section
/-! SUPPORT. The canonical form is kept. Counters, routes and packets. -/
namespace Sys2Proof.Machine

theorem Canonical.flagSlot {k : Nat} {fx : Fx} {s : State} (h : Canonical s) : Canonical (flagSlot k fx s) := .ite h h.modSlot

theorem Canonical.countFx {core : Nat} {fx : Fx} {s : State} (h : Canonical s) : Canonical (countFx core fx s) := by
  unfold Machine.countFx
  extract_lets s1 s2 s3
  have h1 : Canonical s1 := .ite h.countN h
  have h2 : Canonical s2 := .ite h1.countN h1
  have h3 : Canonical s3 := .ite h2.countN h2
  exact .ite h3 h3.countN

theorem Canonical.raiseAt {k : Nat} {fx : Fx} {s : State} (h : Canonical s) : Canonical (raiseAt k fx s) := h.flagSlot.countFx

theorem Canonical.raise {s : State} {fx : Fx} (h : Canonical s) : Canonical (s.raise fx) := h.raiseAt

theorem Canonical.modLink {r p : Nat} {f : Link → Link} {s : State} (h : Canonical s) : Canonical (modLink r p f s) := h.modRouter

theorem Canonical.routeMarks {x : Route} {s : State} (h : Canonical s) : Canonical (routeMarks x s) := by
  unfold Machine.routeMarks
  split
  · exact h.foldl fun _ _ h => h.modRouter
  · exact h.modRouter
  · exact h.modRouter
  · exact h

theorem Canonical.modIn {r k : Nat} {f : InBuf → InBuf} {s : State} (h : Canonical s) : Canonical (modIn r k f s) := h.modRouter

theorem Canonical.wake {r : Nat} {s : State} (h : Canonical s) : Canonical (wake r s) := .ite h h

theorem Canonical.enterLocal {r inp : Nat} {fs : List Flit} {s : State} (h : Canonical s) : Canonical (enterLocal r inp fs s) :=
  h.modRouter.wake

theorem Canonical.sendPacket {p : Packet} {s : State} (h : Canonical s) : Canonical (sendPacket p s) := h.enterLocal

theorem Canonical.replyData {q : Packet} {data : Nat} {s : State} (h : Canonical s) : Canonical (replyData q data s) := h.sendPacket

theorem Canonical.replyAck {q : Packet} {status : Word} {s : State} (h : Canonical s) : Canonical (replyAck q status s) :=
  h.sendPacket

theorem Canonical.replyErr {q : Packet} {code : BitVec 5} {s : State} (h : Canonical s) : Canonical (replyErr q code s) :=
  h.sendPacket

end Sys2Proof.Machine
end

section
/-! SUPPORT. The canonical form is kept. Homes of global lines, controllers and slices. -/
namespace Sys2Proof.Machine

theorem Canonical.dieMessage {d ep : Nat} {typ : Byte} {words : List Word} {s : State} (h : Canonical s) :
    Canonical (dieMessage d ep typ words s) :=
  h.deviceMessage

theorem Canonical.logWords {d w0 rest : Nat} {s : State} (h : Canonical s) : Canonical (logWords d w0 rest s) := h.modDie

theorem Canonical.logRecord {d code unit router pa detail : Nat} {s : State} (h : Canonical s) :
    Canonical (logRecord d code unit router pa detail s) :=
  h.logWords

theorem Canonical.ctlRecord {st code pa detail : Nat} {s : State} (h : Canonical s) : Canonical (ctlRecord st code pa detail s) :=
  h.logRecord

theorem Canonical.hotFallback {st key line : Nat} {s : State} (h : Canonical s) : Canonical (hotFallback st key line s) :=
  h.modCtl.ctlRecord

theorem Canonical.lendTouch {st ch : Nat} {s : State} (h : Canonical s) : Canonical (lendTouch st ch s) := by
  unfold Machine.lendTouch
  split
  · exact h.push
  · exact h.push
  · exact h.push
  · exact h.modCtl
  · exact h.modCtl
  · exact h

theorem Canonical.activateAt {st line : Nat} {at_ : Nat × Nat × Nat × Nat} {s : State} (h : Canonical s) :
    Canonical (activateAt st line at_ s).1 := by
  obtain ⟨ch, pc, bank, row⟩ := at_
  unfold Machine.activateAt
  extract_lets c
  split
  extract_lets key t
  split
  · exact h
  next es acts t' s1 n set _ =>
    have h1 : Canonical s1 := h.modCtl
    have hset (f : Tracker → Tracker) : Canonical (set f) := h1.modCtl
    clear_value s1 set
    split
    · split
      · exact hset _
      · exact (hset _).hotFallback
    · exact h1

theorem Canonical.activate {st line : Nat} {s : State} (h : Canonical s) : Canonical (activate st line s).1 := h.lendTouch.activateAt

theorem Canonical.logUncorrectable {st line source : Nat} {s : State} (h : Canonical s) : Canonical
  (logUncorrectable st line source s) :=
  h.modCtl.ctlRecord

theorem Canonical.mcRead {st line source : Nat} {s : State} (h : Canonical s) : Canonical (mcRead st line source s).2 := by
  unfold Machine.mcRead
  dsimp only
  split
  · exact h
  · split
    · exact .ite h h.modCtl
    · exact h.modCtl.logUncorrectable

theorem Canonical.touch {o : Obst} {s : State} (h : Canonical s) : Canonical (o.touch s) := by
  unfold Machine.Obst.touch
  split
  · exact .ite h.lendTouch h
  · exact h

theorem Canonical.routeRecord {src ep r : Nat} {code : BitVec 5} {pa opcode : Nat} {s : State} (h : Canonical s) :
    Canonical (routeRecord src ep r code pa opcode s) :=
  .ite h.logRecord h

theorem Keeps.overRoute {α : Type} {src ep dst opcode pa : Nat} {bulk : Bool} {x : HM α} (hx : Keeps x) :
    Keeps (overRoute src ep dst opcode pa bulk x) := by
  intro s h
  unfold Machine.overRoute
  refine .ite (hx h) ?_
  split
  · exact .error h
  · exact .error h
  · exact hx h.routeMarks.routeMarks
  · split
    next e1 => exact .error ((hx h.routeMarks).of_ok e1).routeMarks
    next e1 => exact .error ((hx h.routeMarks).of_error e1)
  · exact .error h.routeMarks.routeRecord
  · exact .error h.routeMarks

theorem Canonical.mcSend {r : McReq} {s : State} (h : Canonical s) : Canonical (mcSend r s) := .ite h.modSlice h.modCtl.push

theorem Canonical.writeBack {sl line : Nat} {data : Line} {full : BitVec 16} {s : State} (h : Canonical s) :
    Canonical (writeBack sl line data full s) := by
  unfold Machine.writeBack
  refine .ite h.mcSend ?_
  split
  · exact .ite h (putLine_canonical _ _ _ h.routeMarks.activate)
  · exact h.routeMarks.logRecord

theorem Canonical.sliceEvict {sl line : Nat} {s : State} (h : Canonical s) : Canonical (sliceEvict sl line s) := by
  unfold Machine.sliceEvict
  refine .ite h ?_
  split
  · exact h
  · exact .ite h.modSlice.writeBack h.modSlice

theorem Canonical.sliceInstall {sl line : Nat} {data : Line} {full : BitVec 16} {dirty capture parity : Bool} {s : State}
  (h : Canonical s) :
    Canonical (sliceInstall sl line data full dirty capture parity s) :=
  .ite h.sliceEvict.modSlice.push h.sliceEvict.modSlice

theorem Keeps.sliceEnsure {sl line : Nat} : Keeps (sliceEnsure sl line) := by
  intro s h
  unfold Machine.sliceEnsure
  refine .ite (.ok h.modSlice) (.ite (.error h) ?_)
  split
  · refine .ite (.error h.routeMarks.routeMarks) ?_
    split
    next e1 =>
      split
      next e2 => exact .ok (((h.routeMarks.routeMarks.activate.of_fst e1).mcRead).of_snd e2).sliceInstall
      next e2 => exact .error (((h.routeMarks.routeMarks.activate.of_fst e1).mcRead).of_snd e2)
  · exact .error h.routeMarks
  · exact .error h.routeMarks

theorem Canonical.sliceMod {sl line : Nat} {f : SliceLine → SliceLine} {s : State} (h : Canonical s) : Canonical
  (sliceMod sl line f s) :=
  h.modSlice

theorem Keeps.homeRead {sl pa n : Nat} : Keeps (homeRead sl pa n) := by
  intro s h
  unfold Machine.homeRead
  split
  next e => exact .ok ((Keeps.sliceEnsure h).of_ok e)
  next e => exact .error ((Keeps.sliceEnsure h).of_error e)

theorem Keeps.homeWrite {sl pa n v : Nat} : Keeps (homeWrite sl pa n v) := by
  intro s h
  unfold Machine.homeWrite
  refine .ite (.ite (.error h) (.ok h.sliceInstall)) ?_
  split
  next e => exact .ok ((Keeps.sliceEnsure h).of_ok e).sliceMod
  next e => exact .error ((Keeps.sliceEnsure h).of_error e)

theorem Canonical.sliceWake {sl word : Nat} {s : State} (h : Canonical s) : Canonical (sliceWake sl word s) := .ite h.push h

theorem Canonical.homeSetFull {sl pa : Nat} {b : Bool} {s : State} (h : Canonical s) : Canonical (homeSetFull sl pa b s) :=
  .ite h h.sliceMod.sliceWake

theorem Keeps.homeTeller {sl pa code : Nat} {v v2 : Word} : Keeps (homeTeller sl pa code v v2) := by
  unfold Machine.homeTeller
  refine .bind .homeRead fun _ => ?_
  split
  · exact .bind .homeWrite fun _ => .pure _
  · exact .throw _

theorem Keeps.homeFe {sl pa code : Nat} {v : Word} : Keeps (homeFe sl pa code v) := by
  unfold Machine.homeFe
  refine .bind .sliceEnsure fun _ => .bind (fun _ h => .ok h) fun _ => .guard (.throw _) fun _ => ?_
  dsimp only
  split
  · exact .pure _
  · exact .bind (.ite (.pure _) .homeWrite) fun _ => .bind (fun _ h => .ok h.homeSetFull) fun _ => .pure _

end Sys2Proof.Machine
end

section
/-! SUPPORT. The canonical form is kept. The vaults. -/
namespace Sys2Proof.Machine

theorem Canonical.hold {r : BankReq} {s : State} (h : Canonical s) : Canonical (hold r s) := heat_canonical _ h.modBank

theorem Canonical.modIO {u e job : Nat} {f : LineIO → LineIO} {s : State} (h : Canonical s) : Canonical (modIO u e job f s) :=
  .ite h.modEngine h.modBulk

theorem Canonical.ioStep {u e job : Nat} {f : LineIO → LineIO} {s : State} (h : Canonical s) : Canonical (ioStep u e job f s) :=
  .ite h.modIO.push h.modIO

theorem Canonical.replyDue {k at_ : Nat} {s : State} (h : Canonical s) : Canonical (replyDue k at_ s) := by
  unfold Machine.replyDue
  split
  · exact .ite h.push h
  · exact h

theorem Canonical.answerThread {k : Nat} {v : Word} {at_ : Nat} {s : State} (h : Canonical s) : Canonical (answerThread k v at_ s) := by
  unfold Machine.answerThread
  split
  · exact h.modSlot.replyDue
  · exact h

theorem Canonical.answerAccess {k part : Nat} {v : Word} {err : Option (BitVec 5)} {at_ : Nat} {s : State} (h : Canonical s) :
    Canonical (answerAccess k part v err at_ s) :=
  h.modSlot.replyDue

theorem Canonical.answerRelaxed {k id part : Nat} {v : Word} {err : Option (BitVec 5)} {at_ : Nat} {s : State} (h : Canonical s) :
    Canonical (answerRelaxed k id part v err at_ s) :=
  h.modSlot

theorem Canonical.answerRemote {id part : Nat} {v : Word} {err : Option (BitVec 5)} {s : State} (h : Canonical s) :
    Canonical (answerRemote id part v err s) := by
  unfold Machine.answerRemote
  split
  · exact h
  · refine .ite h ?_
    dsimp only
    split
    · exact h.update.replyErr
    · exact .ite h.update.sendPacket (.ite h.update.replyData h.update.replyAck)

theorem Canonical.answer {a : Asker} {isRead : Bool} {v : Except (BitVec 5) Word} {at_ : Nat} {s : State} (h : Canonical s) :
    Canonical (answer a isRead v at_ s) := by
  unfold Machine.answer
  split
  · exact h
  · exact h.answerThread
  · split
    · exact .ite h.modSlot.modSlot h.modSlot.modSlot.takeTrapAt
    · exact h
  · exact h.answerAccess
  · exact h.answerAccess
  · exact h.answerRelaxed
  · exact h.answerRelaxed
  · exact h.answerRemote
  · exact h.answerRemote
  · exact h.ioStep
  · exact h.ioStep
  · exact .ite h.replyData h.replyAck
  · exact h.replyErr

theorem Keeps.vRead {k n : Nat} : Keeps (vRead k n) := fun _ h => .ite (.error h) (.ok (h.foldl fun _ _ h => vTouch_canonical _ h))

theorem Keeps.vWrite {k n v : Nat} : Keeps (vWrite k n v) := fun _ h => .ite (.error h) (.ok ⟨h.1, wrBytes_wf _ _ _ h.2⟩)

/-- A word of a vault is written as its bank is touched. -/
theorem Canonical.touchWrite {w v : Nat} {s : State} (h : Canonical s) :
    Canonical { vTouch w s with vault := wrBytes s.vault (4 * w) v 4 } :=
  ⟨(vTouch_canonical w h).1, wrBytes_wf _ _ _ h.2⟩

theorem Keeps.vTeller {w code : Nat} {v v2 : Word} : Keeps (vTeller w code v v2) := by
  intro s h
  refine .ite (.error h) ?_
  split
  · exact .ok h.touchWrite
  · exact .error h

theorem Keeps.vFe {w code : Nat} {v : Word} : Keeps (vFe w code v) := by
  intro s h
  refine .ite (.error h) (.ite (.error h) ?_)
  split
  · exact .ok h
  · exact .ok (vSetFull_canonical _ _ h.touchWrite)

theorem Keeps.vJoin {w : Nat} {up : Bool} : Keeps (vJoin w up) := by
  intro s h
  refine .ite (.error h) ?_
  split
  · exact .ok h
  · exact .ok (vSetFull_canonical _ _ h.touchWrite)

theorem Keeps.vWriteWord {w : Nat} {mask : BitVec 4} {data : Word} : Keeps (vWriteWord w mask data) :=
  fun _ h => .ite (.error h) (Keeps.vWrite h)

theorem Keeps.wordOp {w : Nat} {op : WordOp} : Keeps (wordOp w op) := by
  unfold Machine.wordOp
  split
  · exact .bind .vRead fun _ => .pure _
  · exact .bind .vWriteWord fun _ => .pure _
  · exact .bind .vTeller fun _ => .pure _
  · exact .vFe
  · exact .bind .vJoin fun _ => .pure _

theorem Canonical.listFull {r : BankReq} {s : State} (h : Canonical s) : Canonical (listFull r s) := by
  unfold Machine.listFull
  split
  · exact h.modSlot
  · split
    · exact h.update.replyAck
    · exact h
  · exact h

theorem Canonical.bankPerform {r : BankReq} {s : State} (h : Canonical s) : Canonical (bankPerform r s) := by
  unfold Machine.bankPerform
  split
  next e => exact ((Keeps.wordOp h).of_ok e).answer
  next e => exact .ite ((Keeps.wordOp h).of_ok e).modBank ((Keeps.wordOp h).of_ok e).listFull
  next e => exact ((Keeps.wordOp h).of_error e).answer

theorem Lands.execBankGrant {b : Nat} {s : State} (h : Canonical s) : Lands (execBankGrant b s) := by
  unfold Machine.execBankGrant
  refine .next ?_
  split
  · exact h
  · exact h.modBank.bankPerform

theorem Lands.execWaitlistRetry {w : Nat} {s : State} (h : Canonical s) : Lands (execWaitlistRetry w s) := by
  unfold Machine.execWaitlistRetry
  refine .next ?_
  dsimp only
  split
  · exact h.modBank
  · split
    next e1 => exact (Keeps.wordOp h.modBank).of_ok e1
    next e1 => exact ((Keeps.wordOp h.modBank).of_ok e1).modBank.answer
    next e1 => exact ((Keeps.wordOp h.modBank).of_error e1).modBank.answer

theorem Lands.execFeResend {k : Nat} {s : State} (h : Canonical s) : Lands (execFeResend k s) := by
  unfold Machine.execFeResend
  refine .next ?_
  split
  next e =>
    dsimp only
    split
    · exact h.modSlot.hold
    · split
      next e => exact ((Keeps.homeFe h).of_ok e).modSlot.answerThread
      next e => exact .ite ((Keeps.homeFe h).of_ok e).modSlice.modSlot ((Keeps.homeFe h).of_ok e).modSlot
      · exact h
      next e => exact ((Keeps.homeFe h).of_error e).answer
    · exact h
  · exact h

theorem Canonical.lineAsk {u e job : Nat} {rs : List (Nat × LineReq)} {s : State} (h : Canonical s) : Canonical
  (lineAsk u e job rs s) :=
  (h.foldl fun _ _ h => heat_canonical _ h.modBank).modIO

theorem Canonical.farAsk {u e job : Nat} {ops : List (Nat × WordOp)} {s : State} (h : Canonical s) : Canonical (farAsk u e job ops s) :=
  (h.foldl fun _ _ h => h.hold).modIO

theorem Canonical.lineReads {u e job : Nat} {near far : List Nat} {s : State} (h : Canonical s) :
    Canonical (lineReads u e job near far s) :=
  h.lineAsk.farAsk

theorem Canonical.lineWrites {u e job : Nat} {s : State} (h : Canonical s) : Canonical (lineWrites u e job s) :=
  h.modIO.lineAsk.farAsk

theorem Canonical.lineWord {b : Nat} {r : LineReq} {lane : Nat} {s : State} (h : Canonical s) : Canonical (lineWord b r lane s) := by
  unfold Machine.lineWord
  refine .ite h (.ite ?_ (vTouch_canonical _ h.modIO))
  split
  next e => exact .ite (vSetFull_canonical _ _ ((Keeps.vWriteWord h).of_ok e)) ((Keeps.vWriteWord h).of_ok e)
  next e => exact ((Keeps.vWriteWord h).of_error e).modIO

theorem Lands.execLinePortAccess {b : Nat} {s : State} (h : Canonical s) : Lands (execLinePortAccess b s) := by
  unfold Machine.execLinePortAccess
  refine .next ?_
  dsimp only
  split
  · exact h
  · exact (h.modBank.foldl fun _ _ h => h.lineWord).ioStep

theorem Canonical.portTick {s : State} (h : Canonical s) : Canonical (portTick s) := h.pushAll.update

theorem Lands.execRemoteVaultAccess {c : Nat} {p : Packet} {s : State} (h : Canonical s) : Lands (execRemoteVaultAccess c p s) :=
  .next (.ite h.replyErr (.ite h.replyAck (h.update.foldl fun _ _ h => h.hold)))

end Sys2Proof.Machine
end

section
/-! SUPPORT. The canonical form is kept. Controllers' and slices' events. -/
namespace Sys2Proof.Machine

theorem Canonical.slicePerform {sl : Nat} {p : Packet} {s : State} (h : Canonical s) : Canonical (slicePerform sl p s) := by
  unfold Machine.slicePerform
  dsimp only
  split
  · refine h.foldl fun _ _ h1 => ?_
    split
    next e1 => exact .ite ((Keeps.homeRead h1).of_ok e1).sendPacket ((Keeps.homeRead h1).of_ok e1).replyData
    next e1 => exact ((Keeps.homeRead h1).of_error e1).replyErr
  · split
    · split
      next e2 => exact ((Keeps.homeWrite h).of_ok e2).replyAck
      next e2 => exact ((Keeps.homeWrite h).of_error e2).replyErr
    · refine .replyAck (h.foldl fun _ _ h1 => .ite ?_ h1)
      split
      next e2 => exact (Keeps.homeWrite h1).of_ok e2
      next e2 => exact (Keeps.homeWrite h1).of_error e2
  · split
    next e1 => exact ((Keeps.homeTeller h).of_ok e1).replyData
    next e1 => exact ((Keeps.homeTeller h).of_error e1).replyErr
  · split
    next e1 => exact .ite ((Keeps.homeFe h).of_ok e1).replyData ((Keeps.homeFe h).of_ok e1).replyAck
    next e1 => exact .ite ((Keeps.homeFe h).of_ok e1).modSlice ((Keeps.homeFe h).of_ok e1).replyAck
    next e1 => exact ((Keeps.homeFe h).of_error e1).replyErr
  · exact h.replyErr

theorem Canonical.missError {sl line : Nat} {code : BitVec 5} {s : State} (h : Canonical s) : Canonical (missError sl line code s) :=
  h.modSlice.foldl fun _ _ h => .ite h.slicePerform h.replyErr

theorem Canonical.missSend {r : McReq} {s : State} (h : Canonical s) : Canonical (missSend r s) := by
  unfold Machine.missSend
  split
  · exact h.routeMarks.mcSend
  · exact h.mcSend
  · exact h.routeMarks.missError

theorem Canonical.mcAnswer {st : Nat} {r : McReq} {cap : Bool} {s : State} (h : Canonical s) : Canonical (mcAnswer st r cap s) := by
  unfold Machine.mcAnswer
  split
  next e => exact (h.mcRead.of_snd e).missError
  next e =>
    split
    · exact (h.mcRead.of_snd e).routeMarks.missError
    · exact (h.mcRead.of_snd e).routeMarks.missError
    · exact (h.mcRead.of_snd e).routeMarks.push

theorem Lands.execMcRequest {st : Nat} {s : State} (h : Canonical s) : Lands (execMcRequest st s) := by
  unfold Machine.execMcRequest
  refine .next ?_
  dsimp only
  split
  · exact h.foldl fun _ _ h => h.lendTouch
  · exact .ite (h.foldl fun _ _ h => h.lendTouch).modCtl.push (.ite (h.foldl fun _ _ h => h.lendTouch).modCtl.push (.ite (h.foldl
      fun _ _ h => h.lendTouch).modCtl.missError (.ite (putLine_canonical _ _ _ (h.foldl fun _ _ h => h.lendTouch).modCtl.activate)
      (h.foldl fun _ _ h => h.lendTouch).modCtl.activate.mcAnswer)))

theorem Lands.execDecline {st line : Nat} {parity : Bool} {s : State} (h : Canonical s) : Lands (execDecline st line parity s) := by
  unfold Machine.execDecline
  refine .next ?_
  split
  exact .ite h.hotFallback h

theorem Lands.execPatrolScrub {st line : Nat} {s : State} (h : Canonical s) : Lands (execPatrolScrub st line s) := by
  unfold Machine.execPatrolScrub
  refine .next ?_
  split
  · refine .ite h.lendTouch.defer ?_
    dsimp only
    split
    next e1 =>
      exact .ite (.ite (putLine_canonical _ _ _ (h.lendTouch.activateAt.mcRead.of_snd e1))
        (h.lendTouch.activateAt.mcRead.of_snd e1).update) (h.lendTouch.activateAt.mcRead.of_snd e1)
    next e1 => exact h.lendTouch.activateAt.mcRead.of_snd e1

theorem Canonical.modPair {st j : Nat} {f : Pair → Pair} {s : State} (h : Canonical s) : Canonical (modPair st j f s) := h.modCtl

theorem Canonical.lendMove {st j : Nat} {src dst : Lend} {s : State} (h : Canonical s) : Canonical (lendMove st j src dst s) :=
  .ite h.modPair h

theorem Canonical.lendFail {st j : Nat} {s : State} (h : Canonical s) : Canonical (lendFail st j s) :=
  .ite h.modPair.modPair.modCtl.ctlRecord h.modPair

theorem Canonical.mcWake {st : Nat} {s : State} (h : Canonical s) : Canonical (mcWake st s) := h.pushAll

theorem Canonical.mapProceed {st : Nat} {s : State} (h : Canonical s) : Canonical (mapProceed st s) := .ite h h.pushAll

theorem Lands.execLendRetrainDone {st j : Nat} {good : Bool} {s : State} (h : Canonical s) : Lands (execLendRetrainDone st j good s) :=
  .next (.ite h (.ite (.ite h.modPair.mcWake.push h.modPair.mcWake) h.modPair.lendFail))

theorem Lands.execLendReclaimDone {st j : Nat} {good : Bool} {s : State} (h : Canonical s) : Lands (execLendReclaimDone st j good s) :=
  .next (.ite h (.mapProceed (.mcWake (.ite h.modPair h.modPair.lendFail))))

theorem Canonical.reclaimAll {st : Nat} {s : State} (h : Canonical s) : Canonical (reclaimAll st s) := h.pushAll

theorem Lands.execCopyGranule {st : Nat} {s : State} (h : Canonical s) : Lands (execCopyGranule st s) :=
  .next (.ite (.ite (h.activateAt.activateAt.foldl fun _ _ h => h.mcRead.update).modCtl.push (h.activateAt.activateAt.foldl fun _ _ h =>
    h.mcRead.update).modCtl) h)

theorem Lands.execMapActivate {st : Nat} {s : State} (h : Canonical s) : Lands (execMapActivate st s) := by
  unfold Machine.execMapActivate
  refine .next (.ite h (.ite h.defer (.pushAll (.ctlRecord (.modCtl (.ite (h.foldl fun s a h => .ite ?_ h) h))))))
  split
  · exact putLine_canonical _ _ _ h
  · exact h

theorem Lands.execMapReceive {sl st : Nat} {s : State} (h : Canonical s) : Lands (execMapReceive sl st s) :=
  .next (.ite (h.modSlice.foldl fun _ _ h => h.mcSend).modCtl (h.modSlice.foldl fun _ _ h => h.mcSend))

theorem Canonical.sliceRequest {sl : Nat} {p : Packet} {s : State} (h : Canonical s) : Canonical (sliceRequest sl p s) :=
  .ite h.modSlice (.ite h.slicePerform h.modSlice.missSend)

theorem Lands.sliceInput {i : Instr} {sl : Nat} {p : Packet} {s : State} (h : Canonical s) : Lands (sliceInput i sl p s) :=
  .next (.ite h.defer h.sliceRequest)

theorem Lands.execSliceFill {sl line : Nat} {data : BitVec 512} {full : BitVec 16} {cap parity : Bool} {s : State} (h : Canonical s) :
    Lands (execSliceFill sl line data full cap parity s) :=
  .next (.foldl (.ite h.modSlice h.modSlice.sliceInstall) fun _ _ h => h.slicePerform)

theorem Lands.execSliceWaiterRetry {sl w : Nat} {s : State} (h : Canonical s) : Lands (execSliceWaiterRetry sl w s) := by
  unfold Machine.execSliceWaiterRetry
  refine .next ?_
  split
  · exact h
  · dsimp only
    split
    · split
      next e2 => exact (Keeps.homeFe h).of_ok e2
      next e2 => exact ((Keeps.homeFe h).of_ok e2).modSlice.answer.push
      · exact h.defer
      next e2 => exact ((Keeps.homeFe h).of_error e2).modSlice.answer.push
    · exact h.modSlice

theorem Lands.execSliceFlush {sl st : Nat} {inval : Bool} {s : State} {chan : Option Nat} (h : Canonical s) :
    Lands (execSliceFlush sl st inval s chan) :=
  .next (h.foldl fun _ _ h => .ite h.writeBack h).modSlice

end Sys2Proof.Machine
end

section
/-! SUPPORT. The canonical form is kept. The host port and the management region. -/
namespace Sys2Proof.Machine

theorem Canonical.modPort {d : Nat} {f : HostPort → HostPort} {s : State} (h : Canonical s) : Canonical (modPort d f s) := h.modDie

theorem Canonical.modAp {d a : Nat} {f : Aperture → Aperture} {s : State} (h : Canonical s) : Canonical (modAp d a f s) := h.modPort

theorem Lands.execHostRefresh {d : Nat} {s : State} {cmd : HostCmd} (h : Canonical s) :
    Lands (execHostRefresh d s cmd) := by
  unfold Machine.execHostRefresh
  refine .next ?_
  split
  · exact h
  · exact h.modPort
  · exact h.modPort

theorem Canonical.setHole {d a : Nat} {s : State} (h : Canonical s) : Canonical (setHole d a s) := h.modAp

theorem Lands.execHostRead {d ch bank col len : Nat} {s : State} (h : Canonical s) : Lands (execHostRead d ch bank col len s) := by
  unfold Machine.execHostRead
  refine .next ?_
  split
  · exact h
  · exact .ite h.modPort.setHole h.modPort

theorem Canonical.apRegWrite {d a off : Nat} {v m : Word} {s : State} (h : Canonical s) : Canonical (apRegWrite d a off v m s) :=
  .ite h.modAp (.ite h.modAp (.ite h.modAp (.ite h.modAp.push h)))

theorem Canonical.storeBytes {d key : Nat} {bs : List (Option Byte)} {s : State} (h : Canonical s) : Canonical
  (storeBytes d key bs s) :=
  h.modPort

theorem Canonical.ctlWrite {d off : Nat} {bs : List (Option Byte)} {s : State} (h : Canonical s) : Canonical (ctlWrite d off bs s) := by
  unfold Machine.ctlWrite
  dsimp only
  split
  · exact h.storeBytes
  · exact .ite h.push (.ite (.ite h.modPort h) (.ite (.ite h h.modPort) (.ite h.push h)))

theorem Canonical.hostWriteWord {d w : Nat} {bs : List (Option Byte)} {s : State} (h : Canonical s) : Canonical
  (hostWriteWord d w bs s) :=
  .ite h (.ite h.ctlWrite (.ite h (.ite (.ite (.ite (.ite h.push h.modAp) h) h.storeBytes) (.ite h.setHole
    (.ite h.apRegWrite h.storeBytes)))))

theorem Lands.execHostWrite {d ch bank col : Nat} {bs : List (Option Byte)} {s : State} (h : Canonical s) :
    Lands (execHostWrite d ch bank col bs s) := by
  unfold Machine.execHostWrite
  refine .next ?_
  split
  · exact h
  · exact .ite h (.ite (.ite h.push h) (h.foldl fun _ _ h => h.hostWriteWord))

theorem Keeps.homeBurst {sl pa : Nat} {bs : List (Option Byte)} : Keeps (homeBurst sl pa bs) := by
  refine .ite .homeWrite (.foldl (.pure _) fun m b hm => ?_)
  split
  · exact .bind hm fun _ => .homeWrite
  · exact hm

theorem Lands.execInboundForward {d : Nat} {s : State} (h : Canonical s) : Lands (execInboundForward d s) := by
  unfold Machine.execInboundForward
  refine .next ?_
  split
  · exact h
  · refine .ite h.modPort.push ?_
    dsimp only
    split
    next e1 => exact ((Keeps.overRoute .homeBurst h).of_ok e1).modPort.push
    · exact h.touch.defer
    next e1 => exact ((Keeps.overRoute .homeBurst h).of_error e1).modPort.push

theorem Lands.execInboundAck {d : Nat} {err : Option (BitVec 5)} {s : State} (h : Canonical s) : Lands (execInboundAck d err s) := by
  unfold Machine.execInboundAck
  refine .next ?_
  split
  · exact h
  · exact .ite (.ite h.modPort.modAp h.modPort) (.push (.ite h.modPort.modAp h.modPort))

theorem Lands.execCompletionRecordWrite {d a q : Nat} {s : State} (h : Canonical s) : Lands (execCompletionRecordWrite d a q s) := by
  unfold Machine.execCompletionRecordWrite
  refine .next ?_
  dsimp only
  split
  · exact h
  · exact .ite h (.push (.ite h.modPort.modAp h.modPort.modAp.push))

theorem Canonical.modSq {sl q : Nat} {f : SQueue → SQueue} {s : State} (h : Canonical s) : Canonical (modSq sl q f s) := h.modSlice

theorem Canonical.modInput {c i : Nat} {f : StreamIn → StreamIn} {s : State} (h : Canonical s) : Canonical (modInput c i f s) :=
  h.modCore

theorem Canonical.unlist {k : Nat} {s : State} (h : Canonical s) : Canonical (unlist k s) := by
  unfold Machine.unlist
  dsimp only
  split
  · exact h
  · exact h.modSq
  · exact h.modCore
  · exact h.modInput
  · exact h

theorem Canonical.clusterWrite {c x : Nat} {v : Word} {s : State} (h : Canonical s) : Canonical (clusterWrite c x v s) := by
  unfold Machine.clusterWrite
  refine .ite (.ite (.ite (.push (.ite h.modCore h.modCore.push)) (.ite h.modCore h.modCore.push)) (.ite h.modCore h)) (.ite (.ite
    (.modSlot (.ite h.unlist h)) h) ?_)
  split
  · exact h.modCluster
  · exact h.modCluster
  · exact h.push
  · split
    · exact h.push
    · exact h.push
    · exact h.modCluster
  · exact h.modCluster
  · exact h.push
  · exact .ite (.push (.ite h.modCluster.push h.modCluster)) (.ite h.modCluster.push h.modCluster)
  · exact h.modCluster
  · exact .ite h.modCluster.modCluster.push h.modCluster
  · exact h.modCluster
  · exact h.modCluster.push
  · exact h.modCluster
  · exact h.modCluster
  · exact .ite h.push h
  · exact h.modCluster
  · exact h.modCluster
  · exact h

theorem Canonical.ctlRegWrite {st y : Nat} {v : Word} {s : State} (h : Canonical s) : Canonical (ctlRegWrite st y v s) := by
  unfold Machine.ctlRegWrite
  split
  · exact .ite (.push (.ite h.modCtl.push h.modCtl)) (.ite h.modCtl.push h.modCtl)
  · exact h.modCtl.pushAll
  · exact h.modCtl
  · exact h.modCtl
  · exact h

theorem Canonical.regionWrite {src d x : Nat} {v : Word} {s : State} (h : Canonical s) : Canonical (regionWrite src d x v s) := by
  unfold Machine.regionWrite
  refine .ite h.ctlRegWrite (.ite (.ite h.modDie h) (.ite (.ite h.modRouter (.ite h.modRouter (.ite h.modRouter h))) (.ite (.ite ?_
    (.ite h.modDie (.ite h.modDie h))) (.ite (.ite h.modSlice h) (.ite (.ite (.ite h.modDie h.modDie.push) (.ite h.modDie h)) (.ite
    (.ite h.modDie (.ite h.push (.ite h.push h))) (.ite (.ite (.ite h h.modDie) (.ite h.push (.ite h.modDie (.ite h.modDie
    (.ite h.push h))))) (.ite (.ite (.ite h.modPort.push h.modPort) (.ite h.modPort (.ite h.push h))) (.ite (.ite h.modPart h)
    (.ite h.clusterWrite (.ite ?_ h)))))))))))
  · dsimp only
    split
    · exact h.modRouter.push
    · exact h.modRouter
  · dsimp only
    split
    · exact .ite h.modDie (.ite h.modDie.push (.ite h.modDie h.modDie))
    · exact h.modDie
    · exact h.modDie
    · exact h.modDie
    · exact h

theorem Keeps.mgmtRead {pa : Nat} : Keeps (mgmtRead pa) := fun _ h => .ite (.ok h) (.error h)

theorem Canonical.mgmtWrite {src pa : Nat} {v : Word} {s : State} (h : Canonical s) : Canonical (mgmtWrite src pa v s) :=
  .ite h.regionWrite h

theorem Lands.execRegisterWrite {pa : Nat} {v : Word} {s : State} {src : Nat} (h : Canonical s) :
    Lands (execRegisterWrite pa v s src) :=
  .next h.mgmtWrite

theorem Lands.execVibindWrite {d v wd : Nat} {value : Word} {s : State} {src : Nat} (h : Canonical s) :
    Lands (execVibindWrite d v wd value s src) :=
  .next (.ite h.logRecord (.ite h.modPort.modAp h.modAp))

end Sys2Proof.Machine
end

section
/-! SUPPORT. The canonical form is kept. The mesh. -/
namespace Sys2Proof.Machine

theorem Canonical.setProto {r : Nat} {s : State} (h : Canonical s) : Canonical (setProto r s) := h.modRouter.logRecord

theorem Canonical.inject {r : Nat} {p : Packet} {s : State} (h : Canonical s) : Canonical (inject r p s) := h.enterLocal

theorem Canonical.lossNotice {r : Nat} {p : Packet} {req : BitVec 5} {s : State} (h : Canonical s) : Canonical (lossNotice r p req s) :=
  .ite h.inject h.inject

theorem Canonical.refusePacket {r : Nat} {p : Packet} {code : BitVec 5} {s : State} (h : Canonical s) :
    Canonical (refusePacket r p code s) :=
  .ite h h.inject

theorem Canonical.refusalRecord {r unit : Nat} {p : Packet} {s : State} (h : Canonical s) : Canonical (refusalRecord r unit p s) :=
  h.logRecord

theorem Canonical.trackRequest {k : Nat} {p : Packet} {s : State} (h : Canonical s) : Canonical (trackRequest k p s) := h

theorem Canonical.outcome {q : Request} {p : Packet} {s : State} (h : Canonical s) : Canonical (outcome q p s) :=
  .ite h.push (.ite h.push h)

theorem Canonical.deliverReply {r : Nat} {p : Packet} {s : State} (h : Canonical s) : Canonical (deliverReply r p s) := by
  unfold Machine.deliverReply
  dsimp only
  split
  · exact h.push
  · split
    · exact h.push
    · exact h
  · split
    · exact h
    · exact .ite h.push (.ite h (.ite h.update.push h.update.outcome))

theorem Canonical.reissue {q : Request} {s : State} (h : Canonical s) : Canonical (reissue q s) := by
  unfold Machine.reissue
  refine .sendPacket (.update ?_)
  split
  · exact h.modCore.modSlot
  · exact h

theorem Lands.execLostHandling {o : Nat} {tag : BitVec 16} {code : BitVec 5} {s : State} (h : Canonical s) :
    Lands (execLostHandling o tag code s) := by
  unfold Machine.execLostHandling
  refine .next ?_
  split
  · exact h
  · exact .ite h.reissue (.ite h.update.logRecord h.update.outcome)

theorem Lands.execRequestResend {o : Nat} {tag : BitVec 16} {s : State} (h : Canonical s) : Lands (execRequestResend o tag s) := by
  unfold Machine.execRequestResend
  refine .next ?_
  split
  · exact h
  · exact h.update.sendPacket

theorem Canonical.pumpQueue {n : Nat} {rsp : Bool} {s : State} (h : Canonical s) : Canonical (pumpQueue n rsp s) := by
  unfold Machine.pumpQueue
  dsimp only
  split
  · exact h
  · exact .ite h h.modCore.sendPacket

theorem Canonical.enqueueSend {n : Nat} {p : Packet} {s : State} (h : Canonical s) : Canonical (enqueueSend n p s) :=
  h.modCore.pumpQueue

theorem Canonical.mgmtPacket {r : Nat} {p : Packet} {s : State} (h : Canonical s) : Canonical (mgmtPacket r p s) := by
  unfold Machine.mgmtPacket
  refine .ite h.refusalRecord.refusePacket (.ite h.push.replyAck ?_)
  split
  next e => exact ((Keeps.mgmtRead h).of_ok e).replyData
  next e => exact ((Keeps.mgmtRead h).of_error e).replyErr

theorem Canonical.outboundPacket {r : Nat} {p : Packet} {s : State} (h : Canonical s) : Canonical (outboundPacket r p s) :=
  .ite (.ite h.pushAll.replyAck h.refusePacket) (.ite h.refusePacket (.ite h.sendPacket h.replyData))

theorem Canonical.of_ctlmPacket {r : Nat} {p : Packet} {s t : State} (h : Canonical s) (e : ctlmPacket r p s = some t) :
    Canonical t := by
  unfold ctlmPacket at e
  dsimp only at e
  split at e
  · exact Option.some.inj e ▸ h.push
  · exact Option.some.inj e ▸ h.push
  · exact Option.some.inj e ▸ h.push
  · exact Option.some.inj e ▸ h.push
  · cases e

theorem Canonical.deliver {r : Nat} {p : Packet} {s : State} (h : Canonical s) : Canonical (deliver r p s) := by
  refine .ite h.setProto (.ite h.deliverReply ?_)
  split
  · exact h.push.replyAck
  · exact h.push
  · exact h.push
  · exact h.push
  · exact h.push
  · exact h.push
  · exact h.push
  · exact h.push
  · exact .getD h.replyErr fun _ e => h.of_ctlmPacket e
  · exact h.push
  · exact h.push
  · exact h.push
  · exact h.push
  · exact h.modCtl.push
  · exact h.outboundPacket
  · exact h.outboundPacket
  · exact .ite h.push.replyAck h.replyErr
  · exact .ite h.mgmtPacket h.replyErr
  · exact .ite h.mgmtPacket h.replyErr
  · exact h.replyErr

theorem Canonical.streamFlit {r : Nat} {p : Packet} {f : Flit} {s : State} (h : Canonical s) : Canonical (streamFlit r p f s) :=
  .ite h.push (.ite h.push (.ite (.ite h.push h.push) h.push))

theorem Canonical.takeOutput {r k out : Nat} {p : Packet} {s : State} (h : Canonical s) : Canonical (takeOutput r k out p s) := by
  unfold Machine.takeOutput
  dsimp only
  split
  · exact h.modIn
  · exact .ite h.modIn.modIn (.ite h.modIn h.modIn.modIn.modIn)

theorem Canonical.routeFront {r k : Nat} {s : State} (h : Canonical s) : Canonical (routeFront r k s) := by
  unfold Machine.routeFront
  dsimp only
  split
  · refine .ite h.modIn.setProto.refusePacket (.ite h.modIn.modRouter.logRecord.refusePacket (.ite h.takeOutput ?_))
    split
    · exact h
    · exact .refusePacket (.ite h.modIn.modRouter.refusalRecord h.modIn)
    · exact h.modIn.modRouter.lossNotice
    · exact h.takeOutput
    · exact h.modRouter.takeOutput
  · exact h

theorem Canonical.flitOut {r port : Nat} {f : Flit} {s : State} (h : Canonical s) : Canonical (flitOut r port f s) := by
  unfold Machine.flitOut
  split
  · exact h.push
  · exact h

theorem Canonical.linkSend {r port : Nat} {p : Packet} {f : Flit} {s : State} (h : Canonical s) : Canonical (linkSend r port p f s) :=
  h.modLink.flitOut

theorem Canonical.sinkFlit {r : Nat} {f : Flit} {s : State} (h : Canonical s) : Canonical (sinkFlit r f s) :=
  .ite h.streamFlit.modRouter (.ite h.modRouter (.ite h.modRouter.deliver h.modRouter))

theorem Canonical.sendFront {r port k : Nat} {s : State} (h : Canonical s) : Canonical (sendFront r port k s) := by
  unfold Machine.sendFront
  dsimp only
  split
  · exact h
  · exact .ite h.modRouter.sinkFlit h.modRouter.linkSend

theorem Lands.execFlitTransmit {r port : Nat} {s : State} (h : Canonical s) : Lands (execFlitTransmit r port s) := by
  unfold Machine.execFlitTransmit
  refine .next (.ite h (.ite h.modRouter.push ?_))
  split
  · exact h.modRouter.modRouter.modLink.flitOut
  · split
    · dsimp only
      split
      · exact h.modRouter
      · split
        · exact h.modRouter.modRouter.sendFront
        · exact h.modRouter

theorem Canonical.acceptFlit {r port : Nat} {f : Flit} {s : State} (h : Canonical s) : Canonical (acceptFlit r port f s) :=
  .ite h.setProto (.ite h.modIn (.ite h.modIn.setProto (.ite h.modIn.modRouter.logRecord.lossNotice (.ite h.modIn.setProto h.modIn))))

theorem Lands.execLinkFlitReceive {r port : Nat} {f : Flit} {s : State} (h : Canonical s) : Lands (execLinkFlitReceive r port f s) := by
  unfold Machine.execLinkFlitReceive
  refine .next (.ite h.wake (.ite (.ite h.wake h.wake.modLink) (.ite (.ite ?_ (.push ?_)) (.ite (.modLink ?_) (.acceptFlit
    (.modLink ?_))))))
  · split
    · exact .ite h.wake.push h.wake
    · exact h.wake
  · split
    · exact .ite h.wake.push h.wake
    · exact h.wake
  · split
    · exact .ite h.wake.push h.wake
    · exact h.wake
  · split
    · exact .ite h.wake.push h.wake
    · exact h.wake

theorem Lands.execLinkAck {r port : Nat} {seq : BitVec 16} {nak : Bool} {s : State} {stop : BitVec 4} (h : Canonical s) :
    Lands (execLinkAck r port seq nak s stop) :=
  .next (.ite h.modLink.wake.push h.modLink.wake)

theorem Canonical.logLink {r port : Nat} {s : State} (h : Canonical s) : Canonical (logLink r port s) := .ite h.logRecord h

theorem Lands.execLinkTrainingStart {r port : Nat} {s : State} (h : Canonical s) : Lands (execLinkTrainingStart r port s) :=
  .next (.ite (h.foldl fun _ _ h => h.modLink.logLink) h)

theorem Lands.execLinkTrainingEnd {r port : Nat} {good : Bool} {s : State} {half : Bool} (h : Canonical s) :
    Lands (execLinkTrainingEnd r port good s half) :=
  .next (.ite h (.ite ((h.foldl fun _ _ h => h.modLink).foldl fun _ _ h => h.logLink.wake) (.ite (h.foldl fun _ _ h => h.modLink).push
    (h.foldl fun _ _ h => h.modLink))))

theorem Canonical.endLost {r port : Nat} {s : State} (h : Canonical s) : Canonical (endLost r port s) :=
  (h.modLink.wake.modRouter.logLink.foldl fun _ _ h => .ite h.modIn.modRouter.lossNotice h.modIn).foldl fun _ _ h => h.lossNotice

theorem Canonical.streamTick {r : Nat} {s : State} (h : Canonical s) : Canonical (streamTick r s) :=
  h.foldl fun _ _ h => .ite h h.modCore.pushAll

theorem Canonical.routerTick {r : Nat} {s : State} (h : Canonical s) : Canonical (routerTick r s) :=
  (h.foldl fun _ _ h => h.pumpQueue.pumpQueue).streamTick.pushAll

theorem Canonical.mcTick {s : State} (h : Canonical s) : Canonical (mcTick s) :=
  (h.update.foldl fun _ _ h => h.modDie).pushAll.update.foldl fun _ _ h => .ite h.routerTick h

end Sys2Proof.Machine
end

section
/-! SUPPORT. The canonical form is kept. Accesses of threads. -/
namespace Sys2Proof.Machine

theorem Keeps.refuse {α : Type} {rq : Rq} {r unit pa opcode : Nat} : Keeps (refuse rq r unit pa opcode : HM α) :=
  fun _ h => .error h.logRecord

theorem Keeps.deny {α : Type} : Keeps (deny : HM α) := fun _ h => .error h

theorem Canonical.logPlacement {core : Nat} {l : BitVec 64} {acc : AccessKind} {va : Nat} {s : State} (h : Canonical s) :
    Canonical (logPlacement core l acc va s) :=
  .ite h.logRecord h

theorem Canonical.tlbTouch {core : Nat} {e : TlbEntry} {s : State} (h : Canonical s) : Canonical (tlbTouch core e s) := h.modCore

theorem Keeps.translate {acc : Access} {va : Nat} : Keeps (translate acc va) := by
  intro s h
  unfold Machine.translate
  split
  · exact .error h.push
  · refine .ite (.error h.tlbTouch) ?_
    split
    · exact .ok h.tlbTouch
    · exact .error h.tlbTouch.logPlacement

theorem Keeps.physical {rq : Rq} {pa : Nat} : Keeps (physical rq pa) := by
  intro s h
  unfold Machine.physical
  refine .ite (.ite (Keeps.refuse h) ?_) (.ok h)
  split
  · exact .ok h
  · exact Keeps.deny h

theorem Keeps.home {α : Type} {acc : AccessKind} {va : Nat} {x : HM α} (hx : Keeps x) : Keeps (home acc va x) := by
  intro s h
  unfold Machine.home
  split
  next e => exact .ok ((hx h).of_ok e)
  next e => exact .error ((hx h).of_error e)
  next e => exact .error ((hx h).of_error e)
  · exact .error h.touch

theorem Keeps.homeParked {α : Type} {acc : AccessKind} {va : Nat} {x : HM α} (hx : Keeps x) : Keeps (homeParked acc va x) := by
  intro s h
  unfold Machine.homeParked
  split
  next e => exact .ok ((Keeps.home hx h).of_ok e).count
  next e => exact .error ((Keeps.home hx h).of_error e)
  next e => exact .error ((Keeps.home hx h).of_error e).count

theorem Keeps.resolve {d : BitVec 128} {a : Nat} {acc : Access} : Keeps (resolve d a acc) :=
  fun _ h => .ite (.ite (.ok h) (.ite (.ok h) (.ite (.ok h) (.ok h)))) (.ite (Keeps.home .physical h) (Keeps.translate h))

theorem Keeps.peerAsk {rq : Rq} {dev pa opcode : Nat} : Keeps (peerAsk rq dev pa opcode) := by
  intro s h
  unfold Machine.peerAsk
  refine .ite (.error h) ((Keeps.overRoute fun s h => ?_) h)
  split
  · exact .error h.routeMarks
  · exact .ite (.ok h) (.error h)
  · exact .error h

theorem Keeps.ioCheck {rq : Rq} {pa n opcode : Nat} : Keeps (ioCheck rq pa n opcode) := by
  intro s h
  unfold Machine.ioCheck
  split
  · exact .ite (.ok h) (Keeps.deny h)
  · exact .ite (Keeps.deny h) (.ite (Keeps.refuse h) (.ite (.ok h) (Keeps.deny h)))

theorem Keeps.ioRefuse {α : Type} {rq : Rq} {pa opcode : Nat} : Keeps (ioRefuse rq pa opcode : HM α) := .ite .refuse .deny

theorem Keeps.atPlace {α : Type} {rq : Rq} {pl : Place} {opcode : Nat} {x : HM α} (hx : Keeps x) : Keeps (atPlace rq pl opcode x) := by
  unfold Machine.atPlace
  split
  · exact .overRoute hx
  · exact hx

theorem Keeps.placeRead {rq : Rq} {pl : Place} {n : Nat} : Keeps (placeRead rq pl n) := by
  unfold Machine.placeRead
  refine .atPlace ?_
  split
  · exact .vRead
  · exact .homeRead
  · exact .bind (.mapM fun _ => .peerAsk) fun _ => .pure _
  · exact fun _ h => .ok h
  · refine .bind .ioCheck fun _ => ?_
    split
    · exact fun _ h => .ok h
    · exact .bind .mgmtRead fun _ => .pure _

theorem Keeps.placeWrite {rq : Rq} {pl : Place} {n v : Nat} : Keeps (placeWrite rq pl n v) := by
  unfold Machine.placeWrite
  refine .atPlace ?_
  split
  · exact .vWrite
  · exact .homeWrite
  · exact .bind .peerAsk fun _ => .pure _
  · exact .pure _
  · refine .bind .ioCheck fun _ => ?_
    split
    · exact fun _ h => .ok h.modPort
    · exact fun _ h => .ok h.mgmtWrite

theorem Keeps.placeTeller {rq : Rq} {pl : Place} {code : Nat} {v v2 : Word} : Keeps (placeTeller rq pl code v v2) := by
  unfold Machine.placeTeller
  refine .atPlace ?_
  split
  · exact .vTeller
  · exact .homeTeller
  · exact .bind .peerAsk fun _ => .pure _
  · exact .throw _
  · exact .ioRefuse

theorem Keeps.placeFe {rq : Rq} {pl : Place} {code : Nat} {v : Word} : Keeps (placeFe rq pl code v) := by
  unfold Machine.placeFe
  refine .atPlace ?_
  split
  · exact .vFe
  · exact .homeFe
  · exact .bind .peerAsk fun _ => .pure _
  · exact .throw _
  · exact .ioRefuse

theorem Canonical.placeSetFull {pl : Place} {b : Bool} {s : State} (h : Canonical s) : Canonical (placeSetFull pl b s) := by
  unfold Machine.placeSetFull
  split
  · exact vSetFull_canonical _ _ h
  · exact h.homeSetFull
  · exact h

theorem Keeps.await {c : Cond} {p : State → Bool} : Keeps (await c p) := fun _ h => .ite (.ok h) (.error h)

theorem Keeps.awaitOrder : Keeps awaitOrder := .await

theorem Keeps.notePark : Keeps notePark := .upd fun _ h => h.count

theorem Keeps.awaitQueue : Keeps awaitQueue := .await

theorem Keeps.awaitRoom {rsp : Bool} : Keeps (awaitRoom rsp) := fun _ h => .ite (.ok h) (.ite (.error h) (.error h))

theorem Keeps.sendGate {pl : Place} : Keeps (sendGate pl) := .ite (.pure _) .awaitQueue

theorem Keeps.sendHeld {pl : Place} : Keeps (sendHeld pl) := .ite (.pure _) .await

theorem Keeps.placed {α : Type} {pl : Place} {acc : AccessKind} {va : Nat} {x : HM α} (hx : Keeps x) : Keeps (placed pl acc va x) :=
  .ite (.home hx) (.homeParked hx)

theorem Canonical.sendWords {asker : Nat → Asker} {k u off n : Nat} {far : Bool} {op : Nat → WordOp} {s : State} (h : Canonical s) :
    Canonical (sendWords asker k u off n far op s) :=
  h.foldl fun _ _ h => h.hold

theorem Canonical.orphanWords {k : Nat} {s : State} (h : Canonical s) : Canonical (orphanWords k s) := h

theorem Keeps.vaultAsk {rq : Rq} {pl : Place} {opcode k : Nat} {asker : Nat → Asker} {n : Nat} {op : Nat → WordOp} :
    Keeps (vaultAsk rq pl opcode k asker n op) := by
  unfold Machine.vaultAsk
  cases pl with
  | vault =>
    intro s h
    dsimp only
    split
    next e => exact .error (((Keeps.atPlace fun _ h => .ite (.error h) (.ok h.sendWords)) h).of_error e).orphanWords
    · exact (Keeps.atPlace fun _ h => .ite (.error h) (.ok h.sendWords)) h
  | _ => exact .pure ()

theorem Keeps.vaultAccess {α : Type} {rq : Rq} {pl : Place} {acc : AccessKind} {va opcode : Nat} {a : VaultAccess} {n : Nat}
    {op : Nat → WordOp} : Keeps (vaultAccess rq pl acc va opcode a n op : M α) := by
  intro s h
  unfold Machine.vaultAccess
  split
  · dsimp only
    split
    next e => exact .error (((Keeps.home .vaultAsk) h).of_ok e).modMe
    next e => exact .error (((Keeps.home .vaultAsk) h).of_error e)
  · exact .error h

theorem Keeps.vaultAccessAll {α : Type} {rq : Rq} {acc : AccessKind} {va opcode : Nat} {a : VaultAccess} {ps : List Place}
    {op : Nat → WordOp} : Keeps (vaultAccessAll rq acc va opcode a ps op : M α) := by
  intro s h
  unfold Machine.vaultAccessAll
  dsimp only
  split
  next e => exact .error (((Keeps.home (.forM fun _ => .vaultAsk)) h).of_ok e).modMe
  next e => exact .error (((Keeps.home (.forM fun _ => .vaultAsk)) h).of_error e)

theorem Keeps.mintTest {pl : Place} {n : Nat} : Keeps (mintTest pl n) := by
  intro s h
  unfold Machine.mintTest
  split
  · split
    · exact .error h
    · exact .ok h
  · exact .ok h

theorem Keeps.accessPlace {d : BitVec 128} {o n : Nat} {acc : Access} : Keeps (accessPlace d o n acc) :=
  .bind .segCheck fun _ => .bind .resolve fun _ => .bind .mintTest fun _ => .pure _

theorem Keeps.ownRead {v : Nat} : Keeps (ownRead v) :=
  .bind .look fun _ => .bind .look fun _ => .bind (.home .placeRead) fun _ => .pure _

end Sys2Proof.Machine
end

section
/-! SUPPORT. The canonical form is kept. Instructions that compute and branch. -/
namespace Sys2Proof.Machine

theorem Lands.op3f {d a b : Reg} {f : Word → Word → Word × Fx} {s : State} (h : Canonical s) : Lands (op3f d a b f s) :=
  .instrUpd h fun _ h => h.setReg.raise

theorem Lands.execMulh {d a b : Reg} {s : State} (h : Canonical s) : Lands (execMulh d a b s) := .op3 h

theorem Lands.execMulhn {d a b : Reg} {s : State} (h : Canonical s) : Lands (execMulhn d a b s) := .op3 h

theorem Lands.execMulhsn {d a b : Reg} {s : State} (h : Canonical s) : Lands (execMulhsn d a b s) := .op3 h

theorem Lands.packed {d a b : Reg} {z : PackSize} {f : Word → Word → Nat → Int × Bool} {s : State} (h : Canonical s) :
    Lands (packed d a b z f s) :=
  .op3f h

theorem Lands.packS {d a b : Reg} {z : PackSize} {f : Int → Int → Int} {s : State} (h : Canonical s) : Lands (packS d a b z f s) :=
  .packed h

theorem Lands.packN {d a b : Reg} {z : PackSize} {f : Nat → Nat → Nat} {s : State} (h : Canonical s) : Lands (packN d a b z f s) :=
  .packed h

theorem Lands.execPdot {d a b : Reg} {z : PackSize} {s : State} (h : Canonical s) : Lands (execPdot d a b z s) := .op3 h

theorem Lands.op2f {d a : Reg} {f : Word → Word × Fx} {s : State} (h : Canonical s) : Lands (op2f d a f s) :=
  .instrUpd h fun _ h => h.setReg.raise

theorem Lands.op4f {d a b c : Reg} {f : Word → Word → Word → Word × Fx} {s : State} (h : Canonical s) : Lands (op4f d a b c f s) :=
  .instrUpd h fun _ h => h.setReg.raise

theorem Lands.fpOp {d a b c : Reg} {src : List Reg} {p : Bool} {op : Nat → Nat → Nat → LaneOp} {s : State} (h : Canonical s) :
    Lands (fpOp d a b c src p op s) :=
  .instrUpd h fun _ h => h.setReg.raise

theorem Lands.fp1 {d a : Reg} {p : Bool} {op : Nat → LaneOp} {s : State} (h : Canonical s) : Lands (fp1 d a p op s) := .fpOp h

theorem Lands.fp2 {d a b : Reg} {p : Bool} {op : Nat → Nat → LaneOp} {s : State} (h : Canonical s) : Lands (fp2 d a b p op s) :=
  .fpOp h

theorem Lands.fp3 {d a b c : Reg} {p : Bool} {op : Nat → Nat → Nat → LaneOp} {s : State} (h : Canonical s) : Lands
  (fp3 d a b c p op s) :=
  .fpOp h

theorem Lands.cvtToInt {d a : Reg} {lo hi : Int} {s : State} (h : Canonical s) : Lands (cvtToInt d a lo hi s) :=
  .instrUpd h fun _ h => h.setReg.raise

theorem Lands.cvtOfInt {d a : Reg} {f : Word → Int} {s : State} (h : Canonical s) : Lands (cvtOfInt d a f s) :=
  .instrUpd h fun _ h => h.setReg.raise

theorem Lands.cvtLane {d a : Reg} {lane : Nat} {s : State} (h : Canonical s) : Lands (cvtLane d a lane s) :=
  .instrUpd h fun _ h => h.setReg.raise

theorem Lands.branchOn {w : Nat} {src : List Reg} {o : BitVec w} {c : State → Bool} {s : State} (h : Canonical s) :
    Lands (branchOn src o c s) :=
  .instr h fun _ h => .ok h

theorem Lands.jumpLink {d : Reg} {src : List Reg} {t : State → Word} {s : State} (h : Canonical s) : Lands (jumpLink d src t s) :=
  .instr h fun _ h => .ok h.setReg

theorem Lands.calu {d a : BitVec 3} {f : Word → Word → Word} {s : State} (h : Canonical s) : Lands (calu d a f s) := .op3 h

theorem Canonical.setX {s : State} {n : Nat} {v : Word} (h : Canonical s) : Canonical (s.setX n v) := h.modMe

theorem Lands.prefixStep {own : Nat} {set : BitVec 16 → BitVec 16} {s : State} (h : Canonical s) : Lands (prefixStep own set s) :=
  .next (.ite h.takeTrap h.modMe)

end Sys2Proof.Machine
end

section
/-! SUPPORT. The canonical form is kept. Memory instructions. -/
namespace Sys2Proof.Machine

theorem Keeps.sendRelaxed {cls : Nat} {pl : Place} {n : Nat} {isStore : Bool} {data : Nat} {t : Reg} {signed : Bool} :
    Keeps (sendRelaxed cls pl n isStore data t signed) := by
  intro s h
  unfold Machine.sendRelaxed
  dsimp only
  split
  · split
    next e => exact .ok ((Keeps.vaultAsk (.ite h.modMe.modCore h.modMe)).of_ok e)
    · exact .error h
    next e => exact .ok ((Keeps.vaultAsk (.ite h.modMe.modCore h.modMe)).of_error e).modMe.push
  · exact .ok (.push (.ite h.modMe.modCore h.modMe))

theorem Canonical.writeLoad {owner k n : Nat} {t : Reg} {signed : Bool} {v : Nat} {s : State} (h : Canonical s) :
    Canonical (writeLoad owner k n t signed v s) :=
  h.foldl fun _ _ h => h.setRegOwned

theorem Canonical.noteMiss {core : Nat} {issued : Option Nat} {ready : Nat} {s : State} (h : Canonical s) :
    Canonical (noteMiss core issued ready s) := by
  unfold Machine.noteMiss
  split
  · exact .ite h.count h
  · exact h

theorem Canonical.relaxedReply {k id : Nat} {s : State} (h : Canonical s) : Canonical (relaxedReply k id s) := by
  unfold Machine.relaxedReply
  split
  · exact h
  · extract_lets rq gone settle bad load
    have hsettle {t : State} (h : Canonical t) : Canonical (settle t) := .ite h h.modCore
    have hbad (c : BitVec 5) {t : State} (h : Canonical t) : Canonical (bad c t) := hsettle h.modSlot.modSlot
    have hload (v : Nat) {t : State} (h : Canonical t) : Canonical (load v t) := hsettle h.modSlot.writeLoad
    split
    · refine .ite h ?_
      split
      · exact hbad _ h.noteMiss
      · exact .ite (hsettle h.noteMiss.modSlot) (hload _ h.noteMiss)
    · extract_lets x
      have hx : Keeps x := .ite (.bind .placeWrite fun _ => .pure _) .placeRead
      split
      next e => exact .ite (hsettle ((hx h).of_ok e).modSlot) (hload _ ((hx h).of_ok e))
      · exact h.touch.defer
      next e => exact hbad _ ((hx h).of_error e)

theorem Canonical.accessReply {more : Nat → VaultAccess → State → State} {k : Nat} {a : VaultAccess} {s : State} (h : Canonical s)
  (hmore : ∀ k a s, Canonical s → Canonical (more k a s)) :
    Canonical (accessReply more k a s) := by
  unfold Machine.accessReply
  dsimp only
  split
  · exact h.modSlot.noteMiss.takeTrapAt
  · exact h.modSlot.noteMiss.writeLoad.completeAt
  · exact h.modSlot.noteMiss.completeAt
  · exact h.modSlot.noteMiss.completeAt
  · exact h.modSlot.noteMiss.setRegAt.completeAt
  · exact hmore _ _ _ h.modSlot.noteMiss

theorem Keeps.relaxedAt {d : BitVec 128} {o n : Nat} {isStore : Bool} {data : Nat} {t : Reg} {signed : Bool} :
    Keeps (relaxedAt d o n isStore data t signed) :=
  .bind .accessPlace fun _ => .bind .await fun _ => .bind .sendGate fun _ => .bind .look fun _ => .sendRelaxed

theorem Lands.loadOp {n : Nat} {signed : Bool} {t a : Reg} {sg : Nat} {imm : Word} {s : State} (h : Canonical s) :
    Lands (loadOp n signed t a sg imm s) := by
  unfold Machine.loadOp
  refine .instr h (.bind .look fun _ => .bind .look fun _ => .bind .look fun _ => .ite (.bind .relaxedAt fun _ => .pure _) (.bind
    .accessPlace fun _ => .bind .awaitOrder fun _ => .bind .sendGate fun _ => .bind .look fun _ => ?_))
  split
  · exact .bind .vaultAccess fun _ => .pure _
  · exact .bind (.placed .placeRead) fun _ => .bind (.upd fun _ h => h.writeLoad) fun _ => .pure _

theorem Lands.storeOp {n : Nat} {t a : Reg} {sg : Nat} {imm : Word} {s : State} (h : Canonical s) : Lands (storeOp n t a sg imm s) := by
  unfold Machine.storeOp
  refine .instr h (.bind .look fun _ => .bind .look fun _ => .bind .look fun _ => .bind .look fun _ => .ite (.bind .relaxedAt fun _ =>
    .pure _) (.bind .accessPlace fun _ => .bind .awaitOrder fun _ => .bind .sendGate fun _ => .bind .look fun _ => ?_))
  split
  · exact .bind .vaultAccess fun _ => .pure _
  · exact .bind (.placed .placeWrite) fun _ => .pure _

theorem Keeps.feAt {rq : Rq} {pl : Place} {acc : AccessKind} {va code : Nat} {v : Word} {dst : Option Reg} :
    Keeps (feAt rq pl acc va code v dst) := by
  unfold Machine.feAt
  split
  · exact .bind .look fun _ => .bind (.home .vaultAsk) fun _ => .park
  · refine .bind (.home .placeFe) fun _ => ?_
    split
    · exact .bind .notePark fun _ => .pure _
    · intro s h
      dsimp only
      split
      · exact .ite (.error h.modSlice) (.error h)
      · exact .ok h

theorem Lands.feOp {code : Nat} {t a : Reg} {sg : Nat} {imm : Word} {s : State} (h : Canonical s) : Lands (feOp code t a sg imm s) :=
  .instr h (.bind .look fun _ => .bind .look fun _ => .bind .look fun _ => .bind .segCheck fun _ => .bind .resolve fun _ => .bind
    .awaitOrder fun _ => .bind .sendGate fun _ => .bind .look fun _ => .bind .feAt fun _ => .bind (.upd fun _ h => .ite h.setReg h)
    fun _ => .pure _)

theorem Lands.tellerOp {code : Nat} {d a b : Reg} {sg : Nat} {s : State} (h : Canonical s) : Lands (tellerOp code d a b sg s) := by
  unfold Machine.tellerOp
  refine .instr h (.bind .look fun _ => .bind .look fun _ => .bind .look fun _ => .bind .look fun _ => .bind .segCheck fun _ => .bind
    .resolve fun _ => .bind .awaitOrder fun _ => .bind .sendGate fun _ => .bind .look fun _ => ?_)
  dsimp only
  split
  · exact .bind .vaultAccess fun _ => .pure _
  · exact .bind (.homeParked .placeTeller) fun _ => .bind (.upd fun _ h => h.setReg) fun _ => .pure _

theorem Lands.execIfence {s : State} (h : Canonical s) : Lands (execIfence s) :=
  .instr h (.bind .await fun _ => .bind (.upd fun _ h => h.modCore) fun _ => .pure _)

end Sys2Proof.Machine
end

section
/-! SUPPORT. The canonical form is kept. Queues and streams. -/
namespace Sys2Proof.Machine

theorem Keeps.sqCheck {rq : Rq} {opcode sl q : Nat} : Keeps (sqCheck rq opcode sl q) :=
  fun _ h => .ite (Keeps.refuse h) (.ite (Keeps.deny h) (.ok h))

theorem Keeps.sqWriteLines {sl a v i n : Nat} : Keeps (sqWriteLines sl a v i n) := by
  induction n generalizing i with
  | zero => exact .pure _
  | succ n ih => exact .bind .homeWrite fun _ => ih

theorem Keeps.sqReadLines {sl a n : Nat} : Keeps (sqReadLines sl a n) := by
  induction n with
  | zero => exact .pure _
  | succ n ih => exact .bind ih fun _ => .bind .homeRead fun _ => .pure _

theorem Keeps.putLines {rq : Rq} {k v : Nat} {ps : List Place} : Keeps (putLines rq k v ps) := by
  induction ps generalizing v with
  | nil => exact .pure _
  | cons pl r ih =>
    intro s h
    unfold Machine.putLines
    extract_lets one
    have hone : Keeps one := by
      unfold one
      split
      · exact .bind .vaultAsk fun _ => .pure _
      · exact .bind .placeWrite fun _ => .pure _
    split
    next e => exact .error ((hone h).of_error e)
    next e => exact (Keeps.bind ih fun _ => .pure _) ((hone h).of_error e)
    next e => exact (Keeps.bind ih fun _ => .pure _) ((hone h).of_ok e)

theorem Keeps.entryEnd {cls k v : Nat} {d : Reg} {cnt : Nat} {dest : List Place} : Keeps (entryEnd cls k v d cnt dest) := by
  intro s h
  unfold Machine.entryEnd
  split
  · exact .error h.touch
  next e => exact .error ((Keeps.putLines h).of_error e)
  next e => exact .error ((Keeps.putLines h).of_ok e)
  next e => exact .ok ((Keeps.putLines h).of_ok e).setRegsAt
  next e => exact .error (.modSlot (.ite ((Keeps.putLines h).of_ok e) ((Keeps.putLines h).of_ok e).setRegsAt))

theorem Canonical.entryGo {cls k v : Nat} {d : Reg} {cnt : Nat} {dest : List Place} {s : State} (h : Canonical s) :
    Canonical (entryGo cls k v d cnt dest s) := by
  unfold Machine.entryGo
  split
  next e => exact ((Keeps.entryEnd h).of_error e).modSlot
  · exact .finish (Keeps.entryEnd h)

theorem Canonical.giveEntry {k v lines : Nat} {s : State} (h : Canonical s) : Canonical (giveEntry k v lines s) := by
  unfold Machine.giveEntry
  split
  · exact h.entryGo
  · exact h

theorem Canonical.answerTaker {a : Asker} {v lines : Nat} {s : State} (h : Canonical s) : Canonical (answerTaker a v lines s) := by
  unfold Machine.answerTaker
  split
  · exact h.giveEntry
  · exact h.sendPacket
  · exact h

theorem Keeps.sqPut {rq : Rq} {sl q v : Nat} : Keeps (sqPut rq sl q v) := by
  unfold Machine.sqPut
  refine .bind .sqCheck fun _ => .bind (fun _ h => .ok h) fun _ => .ite (.pure _) ?_
  split
  · exact .bind (.modify fun _ h => h.modSq.answerTaker) fun _ => .pure _
  · exact .ite (.pure _) (.bind .sqWriteLines fun _ => .bind (.modify fun _ h => h.modSq) fun _ => .pure _)

theorem Keeps.sqTake {rq : Rq} {sl q : Nat} {wait : Bool} {a : Asker} : Keeps (sqTake rq sl q wait a) :=
  .bind .sqCheck fun _ => .bind (fun _ h => .ok h) fun _ => .ite (.pure _) (.ite (.ite (.pure _) (.bind (.modify fun _ h => h.modSq)
    fun _ => .pure _)) (.bind .sqReadLines fun _ => .bind (.modify fun _ h => h.modSq) fun _ => .pure _))

theorem Lands.execSliceQput {sl : Nat} {p : Packet} {s : State} (h : Canonical s) : Lands (execSliceQput sl p s) := by
  unfold Machine.execSliceQput
  refine .next ?_
  split
  next e => exact ((Keeps.sqPut h).of_ok e).replyAck
  · exact h.defer
  next e => exact ((Keeps.sqPut h).of_error e).replyErr

theorem Lands.execSliceQtake {sl : Nat} {p : Packet} {s : State} (h : Canonical s) : Lands (execSliceQtake sl p s) := by
  unfold Machine.execSliceQtake
  refine .next ?_
  dsimp only
  split
  next e => exact ((Keeps.sqTake h).of_ok e).answerTaker
  next e => exact (Keeps.sqTake h).of_ok e
  next e => exact ((Keeps.sqTake h).of_ok e).replyAck
  next e => exact ((Keeps.sqTake h).of_ok e).replyAck
  · exact h.defer
  next e => exact ((Keeps.sqTake h).of_error e).replyErr

theorem Keeps.sqOver {α : Type} {rq : Rq} {opcode sl : Nat} {x : HM α} (hx : Keeps x) : Keeps (sqOver rq opcode sl x) :=
  .overRoute hx

theorem Keeps.qputSend {d a : Reg} {cnt : Nat} : Keeps (qputSend d a cnt) :=
  .bind .awaitOrder fun _ => .bind .awaitQueue fun _ => .bind .look fun _ => .bind .look fun _ => .bind .look fun _ => .bind (.home
    (.sqOver .sqPut)) fun _ => .pure _

theorem Lands.execQput {d a : Reg} {c : BitVec 3} {s : State} (h : Canonical s) : Lands (execQput d a c s) :=
  .instr h (.bind .qputSend fun _ => .ite (.bind .notePark fun _ => .pure _) (.bind .look fun _ => .park))

theorem Lands.execQputt {d a b : Reg} {c : BitVec 3} {s : State} (h : Canonical s) : Lands (execQputt d a b c s) :=
  .instr h (.bind .qputSend fun _ => .bind .notePark fun _ => .bind (.upd fun _ h => h.setReg) fun _ => .pure _)

theorem Keeps.qtakeDest {sg o : Nat} : Keeps (qtakeDest sg o) :=
  .bind .look fun _ => .bind .segCheck fun _ => .mapM fun _ => .resolve

theorem Lands.execQtake {d a b : Reg} {sg c : BitVec 3} {s : State} (h : Canonical s) : Lands (execQtake d a b sg c s) := by
  unfold Machine.execQtake
  refine .instr h (.bind .look fun _ => .bind .look fun _ => .ite (.bind (.pure _) fun _ => .bind .awaitOrder fun _ => .bind .awaitQueue
    fun _ => .bind .look fun _ => .bind .look fun _ => .bind (.home (.sqOver .sqTake)) fun _ => ?_) (.bind .look fun _ => .bind
    .qtakeDest fun _ => .bind .awaitOrder fun _ => .bind .awaitQueue fun _ => .bind .look fun _ => .bind .look fun _ => .bind (.home
    (.sqOver .sqTake)) fun _ => ?_))
  · split
    · exact .bind .look fun _ => .bind .entryEnd fun _ => .bind .notePark fun _ => .pure _
    · exact .park
    · exact .bind .look fun _ => .park
  · split
    · exact .bind .look fun _ => .bind .entryEnd fun _ => .bind .notePark fun _ => .pure _
    · exact .park
    · exact .bind .look fun _ => .park

theorem Lands.execQtaket {d a b : Reg} {c : BitVec 3} {s : State} (h : Canonical s) : Lands (execQtaket d a b c s) := by
  unfold Machine.execQtaket
  refine .instr h (.bind .look fun _ => .bind .awaitOrder fun _ => .bind .awaitQueue fun _ => .bind .look fun _ => .bind (.home (.sqOver
    .sqTake)) fun _ => .bind .notePark fun _ => ?_)
  dsimp only
  split
  · exact .bind (.upd fun _ h => h.setRegsAt.setReg) fun _ => .pure _
  · exact .bind (.upd fun _ h => h.setReg) fun _ => .pure _

theorem Canonical.queuePoll {k : Nat} {s : State} (h : Canonical s) : Canonical (queuePoll k s) := by
  unfold Machine.queuePoll
  extract_lets mc again
  have hagain (e : HErr) {t : State} (h : Canonical t) : Canonical (again e t) := by
    unfold again
    split
    · exact h.modSlot
    · exact h.modSlot.takeTrapAt
  split
  · refine .ite h ?_
    dsimp only
    split
    next e => exact ((Keeps.sqOver .sqPut h).of_ok e).completeAt
    next e => exact ((Keeps.sqOver .sqPut h).of_ok e).modSlot
    · exact h
    next e => exact hagain _ ((Keeps.sqOver .sqPut h).of_error e)
  · refine .ite h ?_
    dsimp only
    split
    next e => exact ((Keeps.sqOver .sqTake h).of_ok e).giveEntry
    next e => exact ((Keeps.sqOver .sqTake h).of_ok e).modSlot
    next e => exact ((Keeps.sqOver .sqTake h).of_ok e).modSlot
    · exact h
    next e => exact hagain _ ((Keeps.sqOver .sqTake h).of_error e)
  · exact h.entryGo
  · exact h

theorem Canonical.modSend {c p : Nat} {f : SendPort → SendPort} {s : State} (h : Canonical s) : Canonical (modSend c p f s) :=
  h.modCore

theorem Canonical.inputServe {c i n : Nat} {s : State} (h : Canonical s) : Canonical (inputServe c i n s) := by
  induction n generalizing s with
  | zero => exact h
  | succ n ih =>
    unfold Machine.inputServe
    extract_lets x
    split
    · exact h
    · split
      · extract_lets give
        split
        · exact ih h.modInput.setRegAt.setRegAt.completeAt
        · exact .ite h (ih h.modInput.setRegAt.setRegAt.completeAt)
      · exact ih h.modInput

theorem Canonical.streamEnd {c p : Nat} {param : Word} {s : State} (h : Canonical s) : Canonical (streamEnd c p param s) :=
  h.modSend.enterLocal

theorem Lands.execSopen {a : Reg} {p : BitVec 2} {s : State} (h : Canonical s) : Lands (execSopen a p s) :=
  .instr h (.bind .look fun _ => .bind .look fun _ => .bind .look fun _ => .guard .trap fun _ => .guard .trap fun _ => .bind (.upd
    fun _ h => h.modSend) fun _ => .pure _)

theorem Lands.execSput {a : Reg} {p : BitVec 2} {s : State} (h : Canonical s) : Lands (execSput a p s) :=
  .instr h (.bind .look fun _ => .ite (.bind (.upd fun _ h => h.modSend) fun _ => .bind .trap fun _ => .guard .trap fun _ => .bind
    .await fun _ => .bind (.upd fun _ h => .ite (.push (.wake (.modSend (.ite h.modSend.modCore h)))) (.wake (.modSend
    (.ite h.modSend.modCore h)))) fun _ => .pure _) (.guard .trap fun _ => .bind .await fun _ => .bind (.upd fun _ h => .ite (.push
    (.wake (.modSend (.ite h.modSend.modCore h)))) (.wake (.modSend (.ite h.modSend.modCore h)))) fun _ => .pure _))

theorem Lands.execSget {d b : Reg} {i : BitVec 2} {s : State} (h : Canonical s) : Lands (execSget d b i s) := by
  unfold Machine.execSget
  refine .instr h fun _ h1 => ?_
  dsimp only
  split
  · exact .ok h1.setReg.setReg.modInput
  · exact .ite (.error h1.modInput) (.ok h1.setReg.setReg.modInput)

end Sys2Proof.Machine
end

section
/-! SUPPORT. The canonical form is kept. Launches' threads, fork-join and tasks. -/
namespace Sys2Proof.Machine

theorem Canonical.noteWork {c : Nat} {s : State} (h : Canonical s) : Canonical (noteWork c s) := .ite h.modCluster h

theorem Canonical.disown {k : Nat} {s : State} (h : Canonical s) : Canonical (disown k s) :=
  .ite (.ite h h.modBulk) (.modEngine (.ite h h.modBulk))

theorem Canonical.startThread {l : Launch} {k : Nat} {f : Slot → Slot} {s : State} (h : Canonical s) : Canonical
  (startThread l k f s) :=
  h.setSlot.disown.noteWork

theorem Canonical.freeTimer {k : Nat} {s : State} (h : Canonical s) : Canonical (freeTimer k s) := .ite h.modCluster.modSlot h

theorem Canonical.emptyMail {c : Nat} {s : State} (h : Canonical s) : Canonical (emptyMail c s) := .ite h h.modCore.pushAll

theorem Canonical.endThread {k : Nat} {s : State} (h : Canonical s) : Canonical (endThread k s) :=
  .pushAll (.ite h.freeTimer.modSlot h.freeTimer.modSlot.emptyMail)

theorem Canonical.expireTimer {c t k : Nat} {s : State} (h : Canonical s) : Canonical (expireTimer c t k s) := h.modCluster.modSlot

theorem Canonical.settleTimer {s : State} (h : Canonical s) : Canonical (settleTimer s) := by
  unfold Machine.settleTimer
  split
  · exact .ite h.expireTimer h
  · exact h

theorem Canonical.dldisAt {d : Reg} {s : State} (h : Canonical s) : Canonical (dldisAt d s) := h.settleTimer.freeTimer.modMe.setReg

theorem Canonical.dlarmAt {d : Reg} {n : Word} {typ : Option Byte} {s : State} (h : Canonical s) : Canonical (dlarmAt d n typ s) := by
  unfold Machine.dlarmAt
  refine .ite h.dldisAt ?_
  dsimp only
  split
  · exact h.settleTimer.setReg
  · exact h.settleTimer.modCluster.modMe.setReg

theorem Canonical.withdraw {k : Nat} {s : State} (h : Canonical s) : Canonical (withdraw k s) := h.unlist.modSlot.qAll

theorem Lands.execDeadlineExpiry {c t : Nat} {s : State} (h : Canonical s) : Lands (execDeadlineExpiry c t s) := by
  unfold Machine.execDeadlineExpiry
  refine .next (.ite h ?_)
  dsimp only
  split
  · refine .ite h.expireTimer.push ?_
    split
    · exact h.expireTimer.push
    · exact h.expireTimer
  · exact h.expireTimer

theorem Lands.execWithdrawal {k : Nat} {s : State} (h : Canonical s) : Lands (execWithdrawal k s) := by
  unfold Machine.execWithdrawal
  refine .next ?_
  split
  · exact .ite h.withdraw.modSlot h
  · exact h

theorem Lands.execWaitExpire {k : Nat} {s : State} (h : Canonical s) : Lands (execWaitExpire k s) := by
  unfold Machine.execWaitExpire
  refine .next ?_
  split
  · exact h.setRegAt.completeAt
  · exact h

theorem Lands.execDeadlineTrap {s : State} (h : Canonical s) : Lands (execDeadlineTrap s) := by
  unfold Machine.execDeadlineTrap
  refine .next ?_
  split
  · exact h.modMe.takeTrap
  · exact h

theorem Lands.execDeferredMemerr {s : State} (h : Canonical s) : Lands (execDeferredMemerr s) := by
  unfold Machine.execDeferredMemerr
  refine .next ?_
  split
  · exact h.modMe.takeTrap
  · exact h

theorem Keeps.homeJoin {sl pa : Nat} {up : Bool} : Keeps (homeJoin sl pa up) := by
  unfold Machine.homeJoin
  refine .bind .homeRead fun _ => ?_
  split
  · exact .pure _
  · exact .bind .homeWrite fun _ => .bind (.modify fun _ h => h.homeSetFull) fun _ => .pure _

theorem Keeps.joinAdd {rq : Rq} {pl : Place} {va : Nat} {child : Option Word} : Keeps (joinAdd rq pl va child) := by
  unfold Machine.joinAdd
  dsimp only
  split
  · exact .vaultAccess
  · refine .bind (.homeParked ?_) fun _ => ?_
    · split
      · exact .atPlace .homeJoin
      · exact .placeTeller
    · split
      · exact .trap
      · exact .pure _

theorem Keeps.joinPlace {a : Reg} {sg : Nat} : Keeps (joinPlace a sg) :=
  .bind .look fun _ => .bind .look fun _ => .bind .segCheck fun _ => .bind .resolve fun _ => .pure _

theorem Canonical.modDeque {c : Nat} {f : List DequeEntry → List DequeEntry} {s : State} (h : Canonical s) : Canonical
  (modDeque c f s) :=
  h.modCore

theorem Canonical.sendSteal {c : Nat} {e : DequeEntry} {s : State} (h : Canonical s) : Canonical (sendSteal c e s) := by
  unfold Machine.sendSteal
  split
  · exact h
  · exact h.modCore.modCore.push

theorem Canonical.resumeIn {l : Launch} {k : Nat} {e : DequeEntry} {s : State} (h : Canonical s) : Canonical (resumeIn l k e s) := by
  unfold Machine.resumeIn
  exact h.update.startThread

theorem Canonical.resumeOwn {l : Launch} {k : Nat} {e : DequeEntry} {s : State} (h : Canonical s) : Canonical (resumeOwn l k e s) :=
  h.freeTimer.modSlot

theorem Canonical.spawnBody {k : Nat} {s : State} (h : Canonical s) : Canonical (spawnBody k s) := by
  unfold Machine.spawnBody
  refine .ite (.ite h.modDeque h.modSlot.setRegAt) ?_
  split
  · exact .ite h.sendSteal.modDeque.modDeque h.sendSteal.modDeque.modSlot.setRegAt
  · exact .ite h.sendSteal (.ite h.modDeque h.modSlot.setRegAt)

theorem Lands.execSpawn {a b : Reg} {sg : BitVec 3} {s : State} (h : Canonical s) : Lands (execSpawn a b sg s) :=
  .instr h (.bind .look fun _ => .bind .look fun _ => .bind .look fun _ => .bind .segCheck fun _ => .bind .look fun _ => .bind .look
    fun _ => .guard .trap fun _ => .bind .resolve fun _ => .bind .awaitOrder fun _ => .bind .sendHeld fun _ => .bind .look fun _ =>
    .bind .joinAdd fun _ => .bind (.upd fun _ h => h.spawnBody) fun _ => .pure _)

theorem Keeps.awaitQuiet : Keeps awaitQuiet := .await

theorem Canonical.spretBody {k : Nat} {s : State} (h : Canonical s) : Canonical (spretBody k s).2 := by
  unfold Machine.spretBody
  dsimp only
  split
  · exact h.modDeque.resumeOwn
  · split
    · exact h.modSlot
    · exact h.endThread

theorem Lands.execSpret {a : Reg} {sg : BitVec 3} {s : State} (h : Canonical s) : Lands (execSpret a sg s) :=
  .instr h (.bind .joinPlace fun _ => .bind .awaitQuiet fun _ => .bind .look fun _ => .bind .sendHeld fun _ => .bind .joinAdd fun _ =>
    fun _ h => .ok h.spretBody)

theorem Canonical.joined {k : Nat} {child : Option Word} {old : Word} {s : State} (h : Canonical s) : Canonical
  (joined k child old s) := by
  unfold Machine.joined
  split
  · exact h.takeTrapAt
  · exact .ite h.takeTrapAt h.spawnBody.completeAt
  · exact h.spretBody.completeAt

theorem Lands.execJoin {a : Reg} {sg : BitVec 3} {s : State} (h : Canonical s) : Lands (execJoin a sg s) :=
  .instr h (.bind .joinPlace fun _ => .bind .awaitOrder fun _ => .bind .sendGate fun _ => .bind .look fun _ => .bind .feAt fun _ =>
    .pure _)

theorem Canonical.stealAttempt {l : Launch} {k : Nat} {s : State} (h : Canonical s) : Canonical (stealAttempt l k s) :=
  .ite h h.setCore.push

theorem Canonical.release {c off : Nat} {s : State} (h : Canonical s) : Canonical (release c off s) :=
  (setTcbStatus_canonical _ _ _ h).modCluster.noteWork

theorem Canonical.linkTask {c off : Nat} {s : State} (h : Canonical s) : Canonical (linkTask c off s) := by
  unfold Machine.linkTask
  refine .modCluster ?_
  split
  · exact setTcbWord_canonical _ _ _ _ (setTcbWord_canonical _ _ _ _ h)
  · exact setTcbWord_canonical _ _ _ _ h

theorem Canonical.linkReleased {c : Nat} {s : State} (h : Canonical s) : Canonical (linkReleased c s) := by
  unfold Machine.linkReleased
  split
  · exact h
  · exact h.modCluster.foldl fun _ _ h => h.linkTask

theorem Canonical.takeReady {c p off : Nat} {s : State} (h : Canonical s) : Canonical (takeReady c p off s) := h.modCluster

theorem Canonical.startTask {l : Launch} {k off : Nat} {s : State} (h : Canonical s) : Canonical (startTask l k off s) := by
  unfold Machine.startTask
  exact (setTcbStatus_canonical _ _ _ h).startThread

theorem Canonical.handOut {l : Launch} {c n : Nat} {slots : List Nat} {s : State} (h : Canonical s) :
    Canonical (handOut l c n slots s) := by
  induction n generalizing slots s with
  | zero => exact h
  | succ n ih =>
    unfold Machine.handOut
    split
    · exact h
    · split
      · exact h
      · exact ih h.takeReady.startTask

theorem Lands.execReadyQueueTake {c : Nat} {slots : List Nat} {s : State} (h : Canonical s) : Lands (execReadyQueueTake c slots s) := by
  unfold Machine.execReadyQueueTake
  refine .next ?_
  split
  · exact h
  · exact h.handOut.foldl fun _ _ h => .ite h.stealAttempt h

theorem Canonical.startEntry {l : Launch} {k n : Nat} {s : State} (h : Canonical s) : Canonical (startEntry l k n s) := h.startThread

theorem Canonical.of_nextEntry {l : Launch} {k : Nat} {s t : State} (h : Canonical s) (e : nextEntry l k s = some t) : Canonical t := by
  unfold nextEntry at e
  split at e
  · cases e
  · obtain ⟨_, _, rfl⟩ := Option.map_eq_some_iff.1 e
    exact h.modSlot.startEntry

theorem Lands.execIdleSlotWorkSearch {k : Nat} {s : State} (h : Canonical s) : Lands (execIdleSlotWorkSearch k s) := by
  refine .next ?_
  dsimp only
  split
  · exact h
  · refine .ite h ?_
    split
    next e => exact h.of_nextEntry e
    · refine .ite h ?_
      split
      · exact .ite h h.modCore.resumeIn.count
      · split
        · exact h.modDeque.resumeIn
        · exact .ite h (.ite h.push h.stealAttempt)

theorem Lands.execStealReply {thief : Nat} {s : State} (h : Canonical s) : Lands (execStealReply thief s) := by
  unfold Machine.execStealReply
  refine .next ?_
  dsimp only
  split
  · exact h.modCore.modCore.resumeIn.count
  · exact h.modCore

theorem Lands.execRemoteSpawn {c : Nat} {pc : Word} {args : List Word} {req : Packet} {s : State} (h : Canonical s) :
    Lands (execRemoteSpawn c pc args req s) := by
  unfold Machine.execRemoteSpawn
  refine .next ?_
  split
  · exact h.replyAck
  · dsimp only
    split
    · exact .ite h.replyAck h.startThread.replyAck
    · exact h.replyAck

theorem Lands.execRspawn {d a b : Reg} {s : State} (h : Canonical s) : Lands (execRspawn d a b s) := by
  unfold Machine.execRspawn
  refine .instr h (.bind .look fun _ => ?_)
  split
  · exact .trap
  · exact .bind .awaitOrder fun _ => .bind .awaitQueue fun _ => .bind .look fun _ => .bind (.upd fun _ h => h.trackRequest.enqueueSend)
      fun _ => .park

theorem Lands.execTsubmit {a : Reg} {s : State} (h : Canonical s) : Lands (execTsubmit a s) :=
  .instr h (.bind .look fun _ => .guard .trap fun _ => .bind .awaitQuiet fun _ => .bind .look fun _ => .bind .notePark fun _ => .bind
    .look fun _ => .guard .trap fun _ => .bind .look fun _ => .guard .trap fun _ => .bind (.upd fun _ h => .ite
    (setTcbStatus_canonical _ _ _ h).release (setTcbStatus_canonical _ _ _ h)) fun _ => .pure _)

theorem Canonical.depsDown {c : Nat} {s : State} {t : Nat} (h : Canonical s) : Canonical (depsDown c s t) :=
  .ite (setTcbWord_canonical _ _ _ _ h) (.ite (setTcbWord_canonical _ _ _ _ h).push (setTcbWord_canonical _ _ _ _ h))

theorem Lands.execTdone {s : State} (h : Canonical s) : Lands (execTdone s) := by
  unfold Machine.execTdone
  refine .instr h (.bind .look fun _ => ?_)
  split
  · exact .trap
  · refine .bind .awaitQuiet fun _ => .bind .look fun _ => .bind .look fun _ => .guard .trap fun _ => .bind .look fun _ => .guard .trap
      fun _ => .bind .look fun _ => ?_
    split
    · exact .trap
    · exact .bind .look fun _ => .guard .trap fun _ => .bind .notePark fun _ => .bind (.upd fun _ h1 =>
        ((setTcbStatus_canonical _ _ _ h1).foldl fun _ _ h => h.depsDown).endThread) fun _ => .pure _

end Sys2Proof.Machine
end

section
/-! SUPPORT. The canonical form is kept. Messages, barriers and SYSTEM. -/
namespace Sys2Proof.Machine

theorem Canonical.sendTracked {p : Packet} {s : State} (h : Canonical s) : Canonical (sendTracked p s) := h.trackRequest.enqueueSend

theorem Keeps.messageOf {d a b : Reg} {cnt : Nat} {call : Bool} : Keeps (messageOf d a b cnt call) := by
  unfold Machine.messageOf
  refine .bind .look fun _ => .bind .look fun _ => ?_
  split
  · exact .trap
  · exact .guard .trap fun _ => .look

theorem Lands.execMsend {d a b : Reg} {c : BitVec 3} {s : State} (h : Canonical s) : Lands (execMsend d a b c s) :=
  .instr h (.bind .messageOf fun _ => .bind .awaitOrder fun _ => .bind .awaitRoom fun _ => .bind (.upd fun _ h => h.sendTracked)
    fun _ => .pure _)

theorem Lands.execMcall {d a b : Reg} {c : BitVec 3} {s : State} (h : Canonical s) : Lands (execMcall d a b c s) :=
  .instr h (.bind .messageOf fun _ => .bind .awaitOrder fun _ => .bind .awaitRoom fun _ => .bind (.upd fun _ h => h.sendTracked)
    fun _ => .park)

theorem Lands.execMreply {d : Reg} {c : BitVec 3} {s : State} (h : Canonical s) : Lands (execMreply d c s) :=
  .instr h (.bind .look fun _ => .guard .trap fun _ => .bind .awaitOrder fun _ => .bind .awaitRoom fun _ => .bind (.upd fun _ h =>
    h.modMe.enqueueSend) fun _ => .pure _)

theorem Canonical.sendNoReply {c : Nat} {m : Message} {s : State} (h : Canonical s) : Canonical (sendNoReply c m s) :=
  .ite h.enqueueSend h

theorem Canonical.coreReply {k : Nat} {p : Packet} {s : State} (h : Canonical s) : Canonical (coreReply k p s) := by
  unfold Machine.coreReply
  dsimp only
  split
  · exact .ite h h.setRegsAt.setRegAt.completeAt
  · exact .ite h.modSlot.takeTrapAt (.ite h h.modSlot)
  · exact .ite h.modSlot.takeTrapAt (.ite h h.modSlot)
  · exact .ite h h.setRegAt.completeAt
  · exact .ite h h.modSlot
  · exact h

theorem Canonical.accessGo {k : Nat} {a : VaultAccess} {s : State} (h : Canonical s) : Canonical (accessGo k a s) := by
  unfold Machine.accessGo
  generalize a.data.setWidth 32 = w
  cases a.use_ with
  | join child => exact h.joined
  | classMap v old =>
    cases old with
    | none => exact h.modCore.completeAt
    | some x => exact h.modCore.setRegAt.completeAt
  | segment n i => exact .ite h.modSlot.completeAt h.takeTrapAt
  | mint => exact h.modCluster.completeAt
  | _ => exact h.completeAt

theorem Lands.execReplyArrival {k id : Nat} {s : State} {pkt : Option Packet} (h : Canonical s) :
    Lands (execReplyArrival k id s pkt) := by
  refine .next ?_
  split
  · exact h.coreReply
  · refine .ite h.relaxedReply ?_
    split
    · exact .ite (h.accessReply fun _ _ _ h => h.accessGo) h
    · exact h

theorem Canonical.takeMessage {k : Nat} {d b : Reg} {cnt : Nat} {m : Message} {s : State} (h : Canonical s) :
    Canonical (takeMessage k d b cnt m s) :=
  h.setRegsAt.setRegAt

theorem Lands.recvOp {d a b : Reg} {c : BitVec 3} {timeout : State → Option Nat} {poll : Bool} {s : State} (h : Canonical s) :
    Lands (recvOp d a b c timeout poll s) := by
  unfold Machine.recvOp
  refine .instr h fun _ h1 => ?_
  dsimp only
  split
  · exact .ok h1.modCore.takeMessage
  · exact .ite (.ok h1.setReg) (.error h1.modCore)

theorem Lands.execMrecvTimeout {k : Nat} {s : State} (h : Canonical s) : Lands (execMrecvTimeout k s) := by
  unfold Machine.execMrecvTimeout
  refine .next ?_
  split
  · exact h.unlist.setRegAt.completeAt
  · exact h

theorem Canonical.startHandler {k : Nat} {m : Message} {s : State} (h : Canonical s) : Canonical (startHandler k m s) := by
  unfold Machine.startHandler
  dsimp only
  split
  · exact h.startThread
  · exact h.setSlot

theorem Lands.execHandlerStart {k : Nat} {s : State} (h : Canonical s) : Lands (execHandlerStart k s) := by
  unfold Machine.execHandlerStart
  refine .next (.ite h ?_)
  split
  · exact h
  · exact h.modCore.startHandler

theorem Canonical.startTimers {c : Nat} {y : Byte} {s : State} (h : Canonical s) : Canonical (startTimers c y s) :=
  h.modCluster.foldl fun _ _ h => h.modSlot

theorem Lands.execMessageArrive {c : Nat} {m : Message} {s : State} (h : Canonical s) : Lands (execMessageArrive c m s) := by
  unfold Machine.execMessageArrive
  refine .next (.ite h.defer (.ite ?_ (.ite h.count.sendNoReply h.modCore.startTimers.noteWork.pushAll)))
  split
  · split
    · exact h.unlist.takeMessage.completeAt
    · exact h
  · exact h.modCore

theorem Lands.execHalt {s : State} (h : Canonical s) : Lands (execHalt s) :=
  .instr h (.bind .look fun _ => .guard .trap fun _ => .guard .trap fun _ => .bind .await fun _ => .bind (.upd fun _ h => .endThread
    (.ite (.ite h.sendNoReply h) (.modCore (.ite h.sendNoReply h)))) fun _ => .pure _)

theorem Canonical.modBarrier {c : Nat} {b : BitVec 5} {f : Barrier → Barrier} {s : State} (h : Canonical s) :
    Canonical (modBarrier c b f s) :=
  h.modCluster

theorem Canonical.writeStatement {c : Nat} {x : Barrier} {s : State} (h : Canonical s) : Canonical (writeStatement c x s) := by
  unfold Machine.writeStatement
  split
  · exact h
  · exact vSetFull_canonical _ _ (h.foldl fun _ _ h => setTcbWord_canonical _ _ _ _ h)

theorem Canonical.barrierWake {c : Nat} {b : BitVec 5} {s : State} (h : Canonical s) : Canonical (barrierWake c b s) := by
  refine h.foldl fun s e h => ?_
  split
  · exact .ite h.setRegAt.completeAt h
  · exact h

theorem Canonical.barrierStep {c : Nat} {b : BitVec 5} {s : State} (h : Canonical s) : Canonical (barrierStep c b s) :=
  .ite h h.writeStatement.modBarrier.barrierWake

theorem Canonical.arrive {c : Nat} {b : BitVec 5} {n : Nat} {v : Word} {rec : Option Word} {s : State} (h : Canonical s) :
    Canonical (arrive c b n v rec s) :=
  .ite h.modBarrier h.modBarrier.barrierStep

theorem Lands.arrivalOp {d : Reg} {b : BitVec 5} {src : List Reg} {v : State → Word} {rec : State → Option Word} {s : State}
  (h : Canonical s) :
    Lands (arrivalOp d b src v rec s) := by
  unfold Machine.arrivalOp
  refine .instr h (.bind .look fun _ => ?_)
  dsimp only
  split
  · refine .guard .trap fun _ => .bind .awaitQuiet fun _ => .bind .await fun _ => .bind .notePark fun _ => .bind .look fun _ => .bind
      .look fun _ => ?_
    split
    · exact .trap
    · exact .bind (.upd fun _ h => h.arrive.setReg) fun _ => .pure _
  · refine .bind .awaitQuiet fun _ => .bind .await fun _ => .bind .notePark fun _ => .bind .look fun _ => .bind .look fun _ => ?_
    split
    · exact .trap
    · exact .bind (.upd fun _ h => h.arrive.setReg) fun _ => .pure _

theorem Lands.execBarw {d a : Reg} {n : BitVec 5} {s : State} (h : Canonical s) : Lands (execBarw d a n s) :=
  .instr h (.bind .awaitOrder fun _ => .bind .look fun _ => .bind .look fun _ => .ite (.bind .notePark fun _ => .bind (.upd fun _ h =>
    h.setReg) fun _ => .pure _) .park)

theorem Lands.execBarcfg {a : Reg} {n : BitVec 5} {s : State} (h : Canonical s) : Lands (execBarcfg a n s) :=
  .instr h (.bind .look fun _ => .guard .trap fun _ => .bind .await fun _ => .bind .awaitOrder fun _ => .bind .notePark fun _ => .bind
    (.mapM fun _ => .ownRead) fun _ => .bind .look fun _ => .bind .look fun _ => .guard .trap fun _ => .guard .trap fun _ => .guard
    .trap fun _ => .bind (.upd fun _ h => h.modBarrier) fun _ => .pure _)

theorem Canonical.haltAtBreak {s : State} (h : Canonical s) : Canonical (haltAtBreak s) := h.modCore

theorem Lands.returnOp {step : Bool} {s : State} (h : Canonical s) : Lands (returnOp step s) :=
  .instr h fun _ h => .ite (.ok h.returnFromTrap) (.error h)

theorem Lands.yieldOp {s : State} (h : Canonical s) : Lands (yieldOp s) := .instrUpd h fun _ h => h.modMe

theorem Canonical.setSeg {s : State} {n : Nat} {d : BitVec 128} (h : Canonical s) : Canonical (s.setSeg n d) := h.modMe

theorem Lands.execSegld {n : BitVec 3} {a : Reg} {s : State} (h : Canonical s) : Lands (execSegld n a s) :=
  .instr h (.bind .look fun _ => .bind .look fun _ => .bind .look fun _ => .bind .look fun _ => .guard .trap fun _ => .guard .trap
    fun _ => .guard .trap fun _ => .bind .awaitOrder fun _ => .bind .look fun _ => .bind .look fun _ => .vaultAccess)

theorem Canonical.tlbRemove {c va pages : Nat} {s : State} (h : Canonical s) : Canonical (tlbRemove c va pages s) :=
  h.modCluster.update

theorem Lands.execTlbInvalidation {c k : Nat} {s : State} (h : Canonical s) : Lands (execTlbInvalidation c k s) := by
  unfold Machine.execTlbInvalidation
  refine .next ?_
  split
  · exact .completeAt (.ite h.tlbRemove h)
  · exact h

theorem Lands.execTlbinv {a b : Reg} {s : State} (h : Canonical s) : Lands (execTlbinv a b s) :=
  .instr h (.bind .look fun _ => .bind .look fun _ => .bind .look fun _ => .bind .look fun _ => .bind .awaitOrder fun _ => .bind
    .awaitQueue fun _ => .bind .look fun _ => .bind (.home (.overRoute fun _ h => .ite (Keeps.refuse h) (.ok h))) fun _ => .bind (.upd
    fun _ h => h.push) fun _ => .park)

theorem Keeps.mintPlaces {n : Nat} {a : Reg} {acc : Access} : Keeps (mintPlaces n a acc) :=
  .bind .look fun _ => .bind .look fun _ => .guard .trap fun _ => .bind .segCheck fun _ => .mapM fun _ => .bind .resolve fun _ =>
    .pure _

theorem Lands.execMintld {a : Reg} {n : BitVec 3} {s : State} (h : Canonical s) : Lands (execMintld a n s) :=
  .instr h (.bind .mintPlaces fun _ => .bind .awaitOrder fun _ => .guard .awaitQueue fun _ => .bind .look fun _ => .guard
    .vaultAccessAll fun _ => .bind .notePark fun _ => .bind (.mapM fun _ => .bind .mintTest fun _ => .home .placeRead) fun _ => .bind
    (.upd fun _ h => h.modCluster) fun _ => .pure _)

theorem Keeps.wholly {x : M Unit} (hx : Keeps x) : Keeps (wholly x) := by
  intro s h
  unfold Machine.wholly
  split
  next e => exact .ok ((hx h).of_ok e)
  · exact .error h

theorem Lands.execMintsv {a : Reg} {n : BitVec 3} {s : State} (h : Canonical s) : Lands (execMintsv a n s) :=
  .instr h (.bind .mintPlaces fun _ => .bind .awaitOrder fun _ => .guard .awaitQueue fun _ => .bind .look fun _ => .bind .look fun _ =>
    .guard .vaultAccessAll fun _ => .bind .notePark fun _ => .bind (.wholly (.bind (.mapM fun _ => .home .placeWrite) fun _ => .pure _))
    fun _ => .pure _)

theorem Canonical.csrReadStep {c : Nat} {s : State} (h : Canonical s) : Canonical (csrReadStep c s) := .ite h.modMe (.ite h h)

theorem Keeps.csrWrite {c : Nat} {v : Word} {old : Option (Reg × Word)} : Keeps (csrWrite c v old) := by
  unfold Machine.csrWrite
  dsimp only
  split
  · exact .upd fun _ h => h.modMe
  · exact .upd fun _ h => h.modMe
  · exact .upd fun _ h => h.modMe
  · exact .upd fun _ h => h.modMe
  · exact .upd fun _ h => h.modCore
  · exact .upd fun _ h => h.modMe
  · refine .bind .look fun _ => ?_
    split
    · exact .trap
    · exact .upd fun _ h => h.modMe
  · exact .bind .look fun _ => .ite (.pure _) (.upd fun _ h => h.modCore)
  · exact .bind .look fun _ => .ite (.bind .notePark fun _ => .upd fun _ h => h.modCore) (.ite .trap (.bind .awaitOrder fun _ => .bind
      .look fun _ => .bind .look fun _ => .vaultAccess))
  · exact .upd fun _ h => h.modMe
  · exact .upd fun _ h => h.modCore
  · exact .upd fun _ h => h.modCore
  · exact .upd fun _ h => h.modMe
  · exact .upd fun _ h => h.modCluster
  · exact .upd fun _ h => h.push
  · exact .ite (.upd fun _ h => h.modCore) (.ite (.bind .awaitOrder fun _ => .bind .notePark fun _ => .upd fun _ h => h.modCluster)
      (.ite (.bind .awaitOrder fun _ => .bind .notePark fun _ => .upd fun _ h => h.modCluster) (.pure _)))

theorem Keeps.csrAwait {c : Nat} : Keeps (csrAwait c) := .ite .await (.pure _)

theorem Lands.execCsrr {d : Reg} {c : BitVec 12} {s : State} (h : Canonical s) : Lands (execCsrr d c s) :=
  .instr h (.bind .csrAwait fun _ => .bind (.upd fun _ h => h.csrReadStep.setReg) fun _ => .pure _)

theorem Lands.execCsrw {a : Reg} {c : BitVec 12} {s : State} (h : Canonical s) : Lands (execCsrw a c s) :=
  .instr h (.bind .csrAwait fun _ => .bind .look fun _ => .bind .csrWrite fun _ => .pure _)

theorem Lands.execCsrx {d a : Reg} {c : BitVec 12} {s : State} (h : Canonical s) : Lands (execCsrx d a c s) :=
  .instr h (.bind .csrAwait fun _ => .bind .look fun _ => .bind .look fun _ => .bind (.upd fun _ h => h.csrReadStep) fun _ => .bind
    .csrWrite fun _ => .bind (.upd fun _ h => h.setReg) fun _ => .pure _)

theorem Lands.execCsrm {v m : Reg} {c : BitVec 12} {s : State} (h : Canonical s) : Lands (execCsrm v m c s) :=
  .instr h (.bind .csrAwait fun _ => .bind .look fun _ => .bind .look fun _ => .bind .look fun _ => .unlessGuard .csrWrite fun _ =>
    .pure _)

end Sys2Proof.Machine
end

section
/-! SUPPORT. The canonical form is kept. Walks, TLBs and instruction fetches. -/
namespace Sys2Proof.Machine

theorem Keeps.tableHome {rq : Rq} {pa : Nat} : Keeps (tableHome rq pa) := by
  unfold Machine.tableHome
  refine .bind .physical fun _ => ?_
  split
  · exact .pure _
  · exact .deny

theorem Keeps.firstTouch {sl ea grp : Nat} {l : BitVec 64} : Keeps (firstTouch sl ea grp l) :=
  .ite (.bind .homeWrite fun _ => .pure _) (.pure _)

theorem Keeps.walkLevels {rq : Rq} {grp va : Nat} {ls : List (Nat × Nat)} {table : Nat} : Keeps (walkLevels rq grp va ls table) := by
  induction ls generalizing table with
  | nil => exact .pure _
  | cons l r ih =>
    exact .bind .tableHome fun _ => .bind (.overRoute .homeRead) fun _ => .ite (.pure _)
      (.ite (.ite (.pure _) ih) (.ite (.bind (.overRoute .firstTouch) fun _ => .pure _) (.pure _)))

theorem Keeps.walkTree {c core va : Nat} : Keeps (walkTree c core va) := fun _ h => .ite (.ok h) (Keeps.walkLevels h)

theorem Canonical.tlb2Install {c va : Nat} {leaf : BitVec 64} {s : State} (h : Canonical s) : Canonical (tlb2Install c va leaf s) :=
  h.modCluster

theorem Canonical.tlb1Install {core va : Nat} {leaf : BitVec 64} {s : State} (h : Canonical s) : Canonical
  (tlb1Install core va leaf s) :=
  h.modCore

theorem Canonical.wakeFill {k va : Nat} {s : State} (h : Canonical s) : Canonical (wakeFill k va s) := .ite h.modSlot h

theorem Lands.execTlb2Lookup {k va : Nat} {acc : Access} {s : State} (h : Canonical s) : Lands (execTlb2Lookup k va acc s) := by
  unfold Machine.execTlb2Lookup
  refine .next ?_
  dsimp only
  split
  · exact h.modCluster.tlb1Install.wakeFill
  · exact .ite h.defer h.modCluster.push

theorem Canonical.fillStop {k va : Nat} {st : Stop} {s : State} (h : Canonical s) : Canonical (fillStop k va st s) :=
  .ite (.finish (.error h.modSlot)) h

theorem Lands.execWalk {c : Nat} {s : State} (h : Canonical s) : Lands (execWalk c s) := by
  unfold Machine.execWalk
  refine .next ?_
  split
  · exact h
  · dsimp only
    split
    · exact h.modCluster.tlb1Install.wakeFill
    · split
      next e2 =>
        split
        · exact .fillStop (.ite ((Keeps.walkTree h.modCluster).of_ok e2).logPlacement ((Keeps.walkTree h.modCluster).of_ok e2))
        · exact ((Keeps.walkTree h.modCluster).of_ok e2).tlb2Install.tlb1Install.wakeFill
      next e2 => exact ((Keeps.walkTree h.modCluster).of_ok e2).fillStop
      · exact h.modCluster.modCluster.touch.defer
      next e2 => exact ((Keeps.walkTree h.modCluster).of_error e2).fillStop

theorem Keeps.engTranslate {core : Nat} {acc : Access} {va : Nat} : Keeps (engTranslate core acc va) := by
  intro s h
  unfold Machine.engTranslate
  extract_lets c use
  have huse (l : BitVec 64) {t : State} (h : Canonical t) : Kept (use l t) := by
    refine .ite (.error h) ?_
    split
    · exact .ok h
    · exact .error h.logPlacement
  split
  · exact huse _ h
  · split
    next e =>
      split
      next e1 => exact .ok ((huse _ ((Keeps.walkTree h).of_ok e)).of_ok e1).tlb2Install
      next e1 => exact .error ((huse _ ((Keeps.walkTree h).of_ok e)).of_error e1)
    next e => exact .error ((Keeps.walkTree h).of_ok e)
    next e => exact .error ((Keeps.walkTree h).of_error e)
    next e => exact .error ((Keeps.walkTree h).of_error e)

theorem Canonical.icInstall {core va : Nat} {data : Line} {s : State} (h : Canonical s) : Canonical (icInstall core va data s) :=
  h.modCore

theorem Lands.execIcacheFill {k va : Nat} {s : State} (h : Canonical s) : Lands (execIcacheFill k va s) := by
  unfold Machine.execIcacheFill
  extract_lets core rq la pl
  refine .next ?_
  clear_value pl
  cases pl with
  | none => exact h.wakeFill
  | some p =>
    have hr : Kept ((match p with
        | .io pa => ioRefuse rq pa 1
        | p => placeRead rq p 64) s) := by
      split
      · exact Keeps.ioRefuse h
      · exact Keeps.placeRead h
    dsimp only
    split
    next e => exact (hr.of_ok e).icInstall.wakeFill
    · exact h.touch.defer
    next e => exact (hr.of_error e).fillStop
    next e => exact (hr.of_error e).fillStop

theorem Lands.execFetchFailure {s : State} (h : Canonical s) : Lands (execFetchFailure s) := by
  unfold Machine.execFetchFailure
  refine .next ?_
  split
  · refine .finish (.error ?_)
    split
    · split
      · exact h.logPlacement
      · exact h
    · exact h
  · exact h

end Sys2Proof.Machine
end

section
/-! SUPPORT. The canonical form is kept. Matrix commands. -/
namespace Sys2Proof.Machine

theorem Canonical.modMyEngine {s : State} {f : Engine → Engine} (h : Canonical s) : Canonical (s.modMyEngine f) := h.modEngine

theorem Keeps.putTiles {t : Nat} {ls : List (List Word)} : Keeps (putTiles t ls) := by
  induction ls generalizing t with
  | nil => exact .pure _
  | cons l r ih => exact .bind (.upd fun _ h => h.modMyEngine) fun _ => ih

theorem Keeps.getTile {t : Nat} : Keeps (getTile t) := .look

theorem Keeps.matrixTrap {α : Type} {code : Nat} : Keeps (matrixTrap code : M α) := .trap

theorem Keeps.tests {l : List Test} : Keeps (tests l) := by
  unfold Machine.tests
  split
  · exact .trap
  · exact .pure _

theorem Keeps.operCheck {d : BitVec 128} {o rows pitch len : Nat} {acc : Access} : Keeps (operCheck d o rows pitch len acc) := .tests

theorem Keeps.ofEng {α : Type} {x : EM α} (hx : Keeps x) : Keeps (ofEng x) := by
  intro s h
  unfold Machine.ofEng
  split
  next e => exact .ok ((hx h).of_ok e)
  next e => exact .error ((hx h).of_error e)
  next e => exact .error ((hx h).of_error e)
  next e => exact .error ((hx h).of_error e)
  next e => exact .error ((hx h).of_error e)

theorem Keeps.engPlace {d : BitVec 128} {acc : Access} {va : Nat} : Keeps (engPlace d acc va) :=
  fun _ h => .ite (.ite (.ok h) (.ite (.ok h) (.ok h))) (Keeps.engTranslate h)

theorem Keeps.mintOpen {d : BitVec 128} {ps : List (Nat × Nat)} : Keeps (mintOpen d ps) := fun _ h => .ite (.error h) (.ok h)

theorem Keeps.partPlacesBy {near : Bool} {d : BitVec 128} {acc : Access} {ps : List (Nat × Nat)} :
    Keeps (partPlacesBy near d acc ps) := by
  induction ps with
  | nil => exact .pure _
  | cons p r ih => exact .bind (.ofEng .engPlace) fun _ => .bind .look fun _ => .bind ih fun _ => .pure _

theorem Keeps.partPlaces {d : BitVec 128} {acc : Access} {ps : List (Nat × Nat)} : Keeps (partPlaces d acc ps) :=
  .bind .look fun _ => .partPlacesBy

theorem Keeps.portOpen {rq : Rq} {pl : Place} {opcode : Nat} : Keeps (portOpen rq pl opcode) :=
  .atPlace fun _ h => .ite (.error h) (.ok h)

theorem Keeps.value {p : OpPart} {io : LineIO} : Keeps (p.value io) := by
  unfold Machine.OpPart.value
  refine .bind (.mapM fun _ => ?_) fun _ => .pure _
  split
  · exact .trap
  · exact .pure _
  · exact .pure _

theorem Keeps.readEach {ps : List OpPart} : Keeps (readEach ps) := by
  induction ps with
  | nil => exact .pure _
  | cons p r ih =>
    unfold Machine.readEach
    dsimp only
    split
    · exact .bind .look fun _ => .bind .value fun _ => .bind ih fun _ => .pure _
    · exact .bind .look fun _ => .bind (.home .placeRead) fun _ => .bind ih fun _ => .pure _

theorem Keeps.readParts {ps : List OpPart} : Keeps (readParts ps) :=
  .bind .look fun _ => .ite (.bind (.forM fun _ => .bind .look fun _ => .home .portOpen) fun _ => .throw _) .readEach

theorem Keeps.readOperand {d : BitVec 128} {o rows pitch len : Nat} : Keeps (readOperand d o rows pitch len) :=
  .bind .mintOpen fun _ => .bind .partPlaces fun _ => .readParts

theorem Canonical.fillPart {n : Nat} {pl : Place} {off : Nat} {s : State} (h : Canonical s) : Canonical (fillPart n pl off s) :=
  h.forUp fun _ _ h => h.placeSetFull

theorem Keeps.engWrote {α : Type} {x : HM α} (hx : Keeps x) : Keeps (engWrote x) := by
  intro s h
  unfold Machine.engWrote
  split
  next e => exact .ok ((hx h).of_ok e)
  next e => exact .error ((hx h).of_error e)
  next e => exact .ok ((hx h).of_error e)

theorem Keeps.writePart {setFull late : Bool} {p : OpPart} {v : Nat} : Keeps (writePart setFull late p v) := by
  unfold Machine.writePart
  split
  · exact .ite (.bind .look fun _ => .bind (.engWrote .portOpen) fun _ => .ite (.pure _) (.bind (.upd fun _ h => h.modMyEngine) fun _ =>
      .pure _)) (.bind (.pure _) fun _ => .ite (.pure _) (.bind (.upd fun _ h => h.modMyEngine) fun _ => .pure _))
  · exact .bind .look fun _ => .bind (.engWrote .placeWrite) fun _ => .bind (.upd fun _ h => .ite h.fillPart h) fun _ => .pure _

theorem Keeps.writeParts {setFull : Bool} {ps : List OpPart} {v : Nat} : Keeps (writeParts setFull ps v) := by
  induction ps generalizing v with
  | nil => exact .pure _
  | cons p r ih => exact .bind .writePart fun _ => .bind ih fun _ => .pure _

theorem Keeps.wroteAll {e : Option (BitVec 5)} : Keeps (wroteAll e) := by
  unfold Machine.wroteAll
  split
  · exact .pure _
  · exact .trap

theorem Keeps.writeOperand {setFull : Bool} {ps : List OpPart} {v : Nat} : Keeps (writeOperand setFull ps v) :=
  .bind .writeParts fun _ => .wroteAll

theorem Keeps.ownParts {lo len : Nat} {acc : Access} {ps : List (Nat × Nat)} : Keeps (ownParts lo len acc ps) :=
  .bind .look fun _ => .partPlacesBy

theorem Keeps.readOwn {v n : Nat} : Keeps (readOwn v n) := .bind .mintOpen fun _ => .bind .ownParts fun _ => .readParts

theorem Keeps.writeOwn {lo len v n x : Nat} : Keeps (writeOwn lo len v n x) := .bind .ownParts fun _ => .writeOperand

theorem Keeps.writeStatus {lo len : Nat} {w : Word} : Keeps (writeStatus lo len w) :=
  .bind .ownParts fun _ => .bind (.mapM fun _ => .writePart) fun _ => .wroteAll

theorem Keeps.ownFull {v : Nat} {b : Bool} : Keeps (ownFull v b) := .upd fun _ h => h.placeSetFull

theorem Keeps.ownIsFull {v : Nat} : Keeps (ownIsFull v) := .look

theorem Keeps.commitLater {f : Fx} : Keeps (commitLater f) := fun _ h => .ok h.modEngine.push

theorem Keeps.commitNow {f : Fx} : Keeps (commitNow f) := fun _ h => .ok (.ite h.raise h.modMyEngine)

theorem Keeps.runZero {td : Tile} : Keeps (runZero td) := .bind .putTiles fun _ => .commitLater

theorem Keeps.runMovt {td ta : Tile} : Keeps (runMovt td ta) := .bind .getTile fun _ => .bind .putTiles fun _ => .commitLater

theorem Keeps.runRsn {d : Reg} : Keeps (runRsn d) := .bind (.upd fun _ h => h.setReg) fun _ => .commitLater

theorem Keeps.runLdb {c : MCmd} : Keeps (runLdb c) :=
  .bind .readOperand fun _ => .bind (.upd fun _ h => h.modMyEngine) fun _ => .commitLater

theorem Keeps.runLds {c : MCmd} {b : Bool} : Keeps (runLds c b) :=
  .bind .readOperand fun _ => .bind (.upd fun _ h => h.modMyEngine) fun _ => .commitLater

theorem Keeps.runWra {c : MCmd} {td : Tile} : Keeps (runWra c td) :=
  .bind .readOperand fun _ => .bind .putTiles fun _ => .commitLater

theorem Keeps.runRing : Keeps runRing := fun _ h => .ok (.ite h.modEngine.push h.modEngine)

theorem Keeps.runMma {c : MCmd} {kind : Nat} {td : Tile} : Keeps (runMma c kind td) := by
  unfold Machine.runMma
  refine .bind .look fun _ => .ite .matrixTrap (.bind (.upd fun _ h => h.modMyEngine) fun _ => .bind .readOperand fun _ => ?_)
  refine .ite (.ite ?_ ?_) (.ite ?_ ?_)
  · exact .bind .putTiles fun _ => .commitLater
  · exact .bind .putTiles fun _ => .commitLater
  · exact .bind .putTiles fun _ => .commitLater
  · exact .bind .putTiles fun _ => .commitLater

theorem Keeps.epiTile {td : Tile} {f : Nat → Word × Fx} : Keeps (epiTile td f) := .bind .putTiles fun _ => .commitLater

theorem Keeps.runEpi2 {fn : Nat} {td ta tb : Tile} : Keeps (runEpi2 fn td ta tb) := .bind .look fun _ => .epiTile

theorem Keeps.runEpiScale {c : MCmd} {td ta : Tile} : Keeps (runEpiScale c td ta) := .bind .look fun _ => .epiTile

theorem Keeps.runEpiBias {c : MCmd} {col : Bool} {td ta : Tile} : Keeps (runEpiBias c col td ta) :=
  .bind .readOwn fun _ => .bind .look fun _ => .epiTile

theorem Keeps.runEpi1 {fn : Nat} {td ta : Tile} : Keeps (runEpi1 fn td ta) := .bind .look fun _ => .epiTile

theorem Keeps.runTran {td ta : Tile} : Keeps (runTran td ta) := .bind .getTile fun _ => .bind .putTiles fun _ => .commitLater

theorem Keeps.runStt {c : MCmd} {setFull : Bool} {ta : Tile} : Keeps (runStt c setFull ta) :=
  .bind .partPlaces fun _ => .bind .look fun _ => .bind .writeOperand fun _ => .commitNow

theorem Keeps.runRed {c : MCmd} {kind : Nat} {neg : Bool} {ta : Tile} : Keeps (runRed c kind neg ta) :=
  .bind .look fun _ => .bind .writeOwn fun _ => .commitNow

theorem Keeps.writeBoth {ps qs : List OpPart} {v w : Nat} : Keeps (writeBoth ps qs v w) :=
  .bind .writeParts fun _ => .bind .writeParts fun _ => .wroteAll

theorem Keeps.runQnt {c : MCmd} {ta : Tile} : Keeps (runQnt c ta) :=
  .bind .partPlaces fun _ => .bind .partPlaces fun _ => .bind .look fun _ => .bind .writeBoth fun _ => .commitNow

theorem Keeps.runDqnt {c : MCmd} {td : Tile} : Keeps (runDqnt c td) :=
  .bind .mintOpen fun _ => .bind .partPlaces fun _ => .bind .partPlaces fun _ => .bind .readParts fun _ => .bind .readParts fun _ =>
    .bind .putTiles fun _ => .commitLater

theorem Keeps.cvtRead {near : Bool} {d : BitVec 128} {r : Nat × Nat} : Keeps (cvtRead near d r) :=
  .bind .partPlacesBy fun _ => .readParts

theorem Keeps.cvtGo {fn : Nat} {c : MCmd} {srcNear dstNear : Bool} {i : Nat} {rs : List CvtRun} :
    Keeps (cvtGo fn c srcNear dstNear i rs) := by
  induction rs generalizing i with
  | nil => exact .pure _
  | cons r rs ih =>
    exact .bind .cvtRead fun _ => .bind .cvtRead fun _ => .bind .partPlacesBy fun _ => .bind .partPlacesBy fun _ =>
      .bind .writeParts fun _ => .bind .writeParts fun _ => .bind ih fun _ => .pure _

theorem Keeps.runCvt {fn : Nat} {c : MCmd} : Keeps (runCvt fn c) :=
  .bind .mintOpen fun _ => .bind .partPlaces fun _ => .bind .partPlaces fun _ => .bind .readParts fun _ => .bind .look fun _ => .bind
    .cvtGo fun _ => .bind .wroteAll fun _ => .commitNow

theorem Keeps.loadSv {fa t : Nat} : Keeps (loadSv fa t) := .look

theorem Keeps.storeSv {t : Nat} {v : Sv} : Keeps (storeSv t v) := .bind (.upd fun _ h => h) fun _ => .putTiles

theorem Keeps.endSolve {v n : Nat} {w : Word} {fx : Fx} : Keeps (endSolve v n w fx) := .bind .writeStatus fun _ => .commitNow

theorem Keeps.runPotrf {c : MCmd} {td : Tile} : Keeps (runPotrf c td) :=
  .bind .ownFull fun _ => .bind .loadSv fun _ => .bind .storeSv fun _ => .endSolve

theorem Keeps.runGetrf {c : MCmd} {td : Tile} : Keeps (runGetrf c td) :=
  .bind .ownFull fun _ => .bind .loadSv fun _ => .bind .storeSv fun _ => .bind .writeOwn fun _ => .endSolve

theorem Keeps.runTrsm {c : MCmd} {right upper unit : Bool} {op : Nat} {td ta : Tile} : Keeps (runTrsm c right upper unit op td ta) :=
  .bind .ownFull fun _ => .bind .loadSv fun _ => .bind .loadSv fun _ => .bind .storeSv fun _ => .endSolve

theorem Keeps.runDelta {c : MCmd} : Keeps (runDelta c) := by
  unfold Machine.runDelta
  refine .bind .readOwn fun _ => .bind .readOwn fun _ => .ite .matrixTrap (.bind .readOwn fun _ => .bind .ownFull fun _ => .bind
    .ownIsFull fun _ => .ite .endSolve (.ite .endSolve ?_))
  split
  · exact .endSolve
  · exact .bind (.forM fun _ => .writeOwn) fun _ => .bind .ownFull fun _ => .endSolve

theorem Keeps.runShift {c : MCmd} {zero : Bool} : Keeps (runShift c zero) :=
  .bind .readOwn fun _ => .ite .matrixTrap (.bind .readOwn fun _ => .bind .ownFull fun _ => .ite (.bind .writeOwn fun _ => .bind
    .writeOwn fun _ => .endSolve) (.bind .writeOwn fun _ => .endSolve))

end Sys2Proof.Machine
end

section
/-! SUPPORT. The canonical form is kept. The matrix engine's queue and its instructions. -/
namespace Sys2Proof.Machine

theorem Keeps.runCmd {c : MCmd} : Keeps (runCmd c) := by
  unfold Machine.runCmd
  split
  · exact .runZero
  · exact .runLdb
  · exact .runLds
  · exact .runWra
  · exact .runRing
  · exact .runMovt
  · exact .runRsn
  · exact .runMma
  · exact .runEpi2
  · exact .runEpiScale
  · exact .runEpiBias
  · exact .runEpi1
  · exact .runStt
  · exact .runTran
  · exact .runRed
  · exact .runPotrf
  · exact .runGetrf
  · exact .runTrsm
  · exact .runDelta
  · exact .runShift
  · exact .runQnt
  · exact .runDqnt
  · exact .runCvt

theorem Canonical.engineFree {g : Nat} {s : State} (h : Canonical s) : Canonical (engineFree g s) :=
  .ite h.modEngine h.modEngine.push

theorem Keeps.engineStep {c : MCmd} : Keeps (engineStep c) := by
  intro s h
  unfold Machine.engineStep
  dsimp only
  split
  · exact .error h.modEngine.lineReads
  · exact .error h.modEngine.touch.defer
  next e =>
    exact .ite (.error ((Keeps.runCmd h.modEngine).of_error e).modIO.lineWrites) (.error
      ((Keeps.runCmd h.modEngine).of_error e).engineFree)
  next e => exact .ite (.error ((Keeps.runCmd h.modEngine).of_ok e).lineWrites) (.ok ((Keeps.runCmd h.modEngine).of_ok e).engineFree)

theorem Keeps.engineIssue {c : MCmd} : Keeps (engineIssue c) := by
  intro s h
  unfold Machine.engineIssue
  refine .ite ?_ (.ite (.error h.modEngine) (.error h))
  split
  next e => exact .error ((Keeps.engineStep h).of_error e)
  next e => exact .error ((Keeps.engineStep h).of_error e).count
  next e => exact .ok ((Keeps.engineStep h).of_ok e).count

theorem Canonical.engineGo {c : MCmd} {s : State} (h : Canonical s) : Canonical (engineGo c s) := by
  unfold Machine.engineGo
  dsimp only
  split
  next e => exact ((Keeps.engineStep h.modSlot.update).of_error e).modSlot.update
  · exact Canonical.update (.finish (Keeps.engineStep h.modSlot.update))

theorem Canonical.engineWrote {g : Nat} {c : MCmd} {s : State} (h : Canonical s) : Canonical (engineWrote g c s) := by
  unfold Machine.engineWrote
  dsimp only
  split
  · exact h.modSlot.engineFree.takeTrapAt
  · exact h.modSlot.engineFree.raiseAt.completeAt

theorem Lands.execMatrixCommandTaken {g : Nat} {s : State} (h : Canonical s) : Lands (execMatrixCommandTaken g s) := by
  unfold Machine.execMatrixCommandTaken
  refine .next ?_
  dsimp only
  split
  · exact .ite h (.ite h.engineFree (.ite h.engineGo (.ite h.engineWrote h.lineWrites)))
  · exact h
  · exact .ite h (.ite h.modEngine.engineGo h.modEngine.engineFree)

theorem Lands.execMatrixRetire {g : Nat} {s : State} (h : Canonical s) : Lands (execMatrixRetire g s) := by
  unfold Machine.execMatrixRetire
  refine .next ?_
  split
  · exact h
  · exact h.modEngine.raiseAt

theorem Lands.execRingStepComplete {q : Nat} {s : State} (h : Canonical s) : Lands (execRingStepComplete q s) :=
  .next (.ite h (h.forUp fun _ _ h => .ite h.modEngine.pushAll h.modEngine.pushAll.push))

theorem Lands.plainCmd {f : Form} {op : MOp} {s : State} (h : Canonical s) : Lands (plainCmd f op s) :=
  .instr h (.bind .look fun _ => .engineIssue)

theorem Keeps.needs {ok : Bool} {code : Nat} : Keeps (needs ok code) := .ite (.pure _) .matrixTrap

theorem Lands.execMring {s : State} (h : Canonical s) : Lands (execMring s) :=
  .instr h (.bind .look fun _ => .bind .needs fun _ => .bind .look fun _ => .engineIssue)

theorem Lands.execMldb {a : Reg} {sg : BitVec 3} {s : State} (h : Canonical s) : Lands (execMldb a sg s) :=
  .instr h (.bind .look fun _ => .bind .operCheck fun _ => .bind .needs fun _ => .engineIssue)

theorem Lands.ldsOp {b : Bool} {a : Reg} {sg : BitVec 3} {s : State} (h : Canonical s) : Lands (ldsOp b a sg s) :=
  .instr h (.bind .look fun _ => .bind .operCheck fun _ => .engineIssue)

theorem Keeps.rows16 {c : MCmd} {ok : Bool} {acc : Access} : Keeps (rows16 c ok acc) := .bind .operCheck fun _ => .needs

theorem Lands.execMwra {t : Tile} {a : Reg} {sg : BitVec 3} {s : State} (h : Canonical s) : Lands (execMwra t a sg s) :=
  .instr h (.bind .look fun _ => .bind .rows16 fun _ => .engineIssue)

theorem Lands.mmaOp {kind : Nat} {t : Tile} {a : Reg} {sg : BitVec 3} {s : State} (h : Canonical s) : Lands (mmaOp kind t a sg s) :=
  .instr h (.bind .look fun _ => .bind .operCheck fun _ => .bind .needs fun _ => .bind .needs fun _ => .bind .needs fun _ =>
    .engineIssue)

theorem Keeps.vecCheck {v : Word} {top : Nat} : Keeps (vecCheck v top) := .ite .trap (.ite .trap (.pure _))

theorem Lands.biasOp {col : Bool} {t u : Tile} {a : Reg} {s : State} (h : Canonical s) : Lands (biasOp col t u a s) :=
  .instr h (.bind .look fun _ => .bind .vecCheck fun _ => .engineIssue)

theorem Lands.sttOp {setFull : Bool} {u : Tile} {a : Reg} {sg : BitVec 3} {s : State} (h : Canonical s) : Lands
  (sttOp setFull u a sg s) :=
  .instr h (.bind .look fun _ => .bind .rows16 fun _ => .bind .needs fun _ => .engineIssue)

theorem Lands.redOp {kind : Nat} {u : Tile} {a : Reg} {n : Bool} {s : State} (h : Canonical s) : Lands (redOp kind u a n s) :=
  .instr h (.bind .look fun _ => .bind .vecCheck fun _ => .engineIssue)

theorem Lands.solveOp {op : MOp} {tiles : List Tile} {n : Nat} {a : Reg} {s : State} (h : Canonical s) : Lands
  (solveOp op tiles n a s) :=
  .instr h (.bind .look fun _ => .bind .needs fun _ => .bind .needs fun _ => .bind .needs fun _ => .engineIssue)

theorem Lands.execMdelta {a : Reg} {s : State} (h : Canonical s) : Lands (execMdelta a s) :=
  .instr h (.bind .look fun _ => .bind .needs fun _ => .engineIssue)

theorem Lands.shiftOp {zero : Bool} {a : Reg} {s : State} (h : Canonical s) : Lands (shiftOp zero a s) :=
  .instr h (.bind .look fun _ => .bind .needs fun _ => .engineIssue)

theorem Lands.tileCvt {op : MOp} {t : Tile} {a : Reg} {sg : BitVec 3} {acc : Access} {s : State} (h : Canonical s) :
    Lands (tileCvt op t a sg acc s) :=
  .instr h (.bind .look fun _ => .bind .tests fun _ => .bind .needs fun _ => .bind .needs fun _ => .engineIssue)

theorem Lands.memCvt {fn : Nat} {d a b : Reg} {sg e : BitVec 3} {s : State} (h : Canonical s) : Lands (memCvt fn d a b sg e s) :=
  .instr h (.bind .look fun _ => .bind .tests fun _ => .bind .needs fun _ => .bind .needs fun _ => .engineIssue)

end Sys2Proof.Machine
end

section
/-! SUPPORT. The canonical form is kept. Ethernet. -/
namespace Sys2Proof.Machine

theorem Canonical.modEth {d : Nat} {f : Eth → Eth} {s : State} (h : Canonical s) : Canonical (modEth d f s) := h.modDie

theorem Canonical.ethCount {d i : Nat} {s : State} (h : Canonical s) : Canonical (ethCount d i s) := h.modEth

theorem Canonical.sendSegments {d : Nat} {x : RxFrame} {cap nseg seg n : Nat} {s : State} (h : Canonical s) :
    Canonical (sendSegments d x cap nseg seg n s).2 := by
  induction n generalizing seg s with
  | zero => exact h
  | succ n ih =>
    unfold Machine.sendSegments
    extract_lets rq
    split
    next e => exact ih ((Keeps.sqOver .sqPut h).of_ok e)
    · exact h.touch
    next e => exact (Keeps.sqOver .sqPut h).of_ok e
    next e => exact (Keeps.sqOver .sqPut h).of_error e

theorem Canonical.deliverFrame {d : Nat} {acc : List Nat × State} {x : RxFrame} (h : Canonical acc.2) :
    Canonical (deliverFrame d acc x).2 := by
  unfold Machine.deliverFrame
  extract_lets s key keep gone cap nseg x
  split
  · exact h.modEth
  · split
    next e => exact (h.sendSegments.of_snd e).modEth.modEth.ethCount
    next e => exact (h.sendSegments.of_snd e).modEth.pushFirst
    next e => exact (h.sendSegments.of_snd e).modEth

theorem Canonical.pauseDue {d : Nat} {s : State} (h : Canonical s) : Canonical (pauseDue d s) := .ite h.push h

theorem Canonical.deliverFrames {d : Nat} {s : State} (h : Canonical s) : Canonical (deliverFrames d s) := by
  have key (l : List RxFrame) : ∀ acc : List Nat × State, Canonical acc.2 → Canonical (l.foldl (Machine.deliverFrame d) acc).2 := by
    induction l with
    | nil => exact fun _ h => h
    | cons x l ih => exact fun _ h => ih _ h.deliverFrame
  exact .ite h (.pauseDue (key _ _ h.modEth))

theorem Lands.execEthFrameReceive {d : Nat} {frame : List Byte} {fcs : Bool} {s : State} (h : Canonical s) :
    Lands (execEthFrameReceive d frame fcs s) :=
  .next (.ite h (.ite h.ethCount (.ite h.ethCount (.ite h.ethCount (.ite h.ethCount
    (.ite h.logRecord.ethCount h.modEth.pauseDue.deliverFrames))))))

theorem Lands.execEthPauseReceive {d : Nat} {pfc : Option Byte} {pause : Bool} {s : State} (h : Canonical s) :
    Lands (execEthPauseReceive d pfc pause s) :=
  .next (.ite h.modEth h.modEth.push)

theorem Lands.execEthTxQueueWrite {d q : Nat} {bytes : List Byte} {s : State} (h : Canonical s) :
    Lands (execEthTxQueueWrite d q bytes s) :=
  .next (.ite h h.modEth.push)

theorem Lands.execEthTransmit {d : Nat} {s : State} (h : Canonical s) : Lands (execEthTransmit d s) := by
  unfold Machine.execEthTransmit
  refine .next (.ite h ?_)
  split
  · exact h
  · exact h.modEth.ethCount.push

end Sys2Proof.Machine
end

section
/-! SUPPORT. The canonical form is kept. Bulk copies. -/
namespace Sys2Proof.Machine

theorem Keeps.cmEng {α : Type} {x : EM α} (hx : Keeps x) : Keeps (cmEng x) := by
  intro s h
  unfold Machine.cmEng
  split
  next e => exact .ok ((hx h).of_ok e)
  next e => exact .error ((hx h).of_error e)
  next e => exact .error ((hx h).of_error e)
  next e => exact .error ((hx h).of_error e)
  next e => exact .error ((hx h).of_error e)

theorem Keeps.cmHome {α : Type} {x : HM α} (hx : Keeps x) : Keeps (cmHome x) := by
  intro s h
  unfold Machine.cmHome
  split
  next e => exact .ok ((hx h).of_ok e)
  next e => exact .error ((hx h).of_error e)
  next e => exact .error ((hx h).of_error e)

theorem Keeps.cmLook {α : Type} {f : State → α} : Keeps (cmLook f) := fun _ h => .ok h

theorem Keeps.copyParts {c : Copy} {d : BitVec 128} {acc : Access} {a n : Nat} : Keeps (copyParts c d acc a n) :=
  .mapM fun _ => .bind (.cmEng .engPlace) fun _ => .pure _

theorem Keeps.copyOpen {ps : List OpPart} : Keeps (copyOpen ps) := by
  unfold Machine.copyOpen
  refine .forM fun _ => .bind .cmLook fun _ => .guard (.throw _) fun _ => ?_
  dsimp only
  split
  · exact .bind .cmLook fun _ => .cmHome .ioRefuse
  · exact .pure _

theorem Keeps.copyValue {io : LineIO} {p : OpPart} : Keeps (copyValue io p) := by
  unfold Machine.copyValue
  split
  · refine .bind (.mapM fun _ => ?_) fun _ => .pure _
    split
    · exact .pure _
    · exact .throw _
    · exact .pure _
  · exact .bind .cmLook fun _ => .cmHome .placeRead

theorem Keeps.copyRead {c : Copy} {ps : List OpPart} : Keeps (copyRead c ps) :=
  .bind .copyOpen fun _ => .bind .cmLook fun _ => .ite (.bind (.forM fun _ => .bind .cmLook fun _ => .cmHome .portOpen) fun _ =>
    .throw _) (.mapM fun _ => .copyValue)

theorem Keeps.copyWrite {c : Copy} {a n v : Nat} : Keeps (copyWrite c a n v) := by
  unfold Machine.copyWrite
  refine .bind .copyParts fun _ => .forM fun _ => .bind .cmLook fun _ => .bind (.ite (fun _ h => .ok h.modBulk) (.pure _)) fun _ => ?_
  split
  · exact .bind (.ite (.cmHome .portOpen) (.pure _)) fun _ => fun _ h => .ok h.modBulk
  · exact .cmHome (.ite .placeWrite .ioRefuse)
  · exact .bind (.cmHome .placeWrite) fun _ => fun _ h => .ok (.ite h.fillPart h)

theorem Keeps.copyMove {c : Copy} {src dst n : Nat} : Keeps (copyMove c src dst n) :=
  .bind .copyParts fun _ => .bind .copyRead fun _ => .bind .cmLook fun _ => .bind (fun _ h => .ok h) fun _ => .copyWrite

theorem Keeps.copyIndex {c : Copy} {r : Nat} : Keeps (copyIndex c r) := .bind .copyParts fun _ => .bind .copyRead fun _ => .pure _

theorem Keeps.copyFrame {c : Copy} {die q off : Nat} : Keeps (copyFrame c die q off) := by
  refine .bind .cmLook fun _ => .ite (.throw _) (.ite (.throw _) (.ite (.throw _) (.bind .copyParts fun _ => .bind .copyParts fun _ =>
    .bind .copyRead fun _ s h => .ite ?_ (.error h))))
  split
  next e => exact .ok ((Lands.execEthTxQueueWrite h).of_next e)
  · exact .ok h

theorem Keeps.copyIndexed {c : Copy} {r i m : Nat} : Keeps (copyIndexed c r i m) :=
  .ite (.bind .copyIndex fun _ => .ite (.ite (.bind (.throw _) fun _ => .pure _) (.bind .copyMove fun _ => .pure _)) (.ite (.bind
    (.throw _) fun _ => .pure _) (.ite (.bind (.throw _) fun _ => .pure _) (.bind .copyMove fun _ => .pure _)))) (.bind (.pure _)
    fun _ => .ite (.ite (.bind (.throw _) fun _ => .pure _) (.bind .copyMove fun _ => .pure _)) (.ite (.bind (.throw _) fun _ =>
    .pure _) (.ite (.bind (.throw _) fun _ => .pure _) (.bind .copyMove fun _ => .pure _))))

theorem Keeps.copyUnit {c : Copy} : Keeps (copyUnit c) := by
  unfold Machine.copyUnit
  refine .ite (.bind (.pure _) fun _ => ?_) (.bind (.cmEng .engPlace) fun _ => .bind (.pure _) fun _ => ?_)
  · dsimp only
    split
    · exact .bind .copyFrame fun _ => .pure _
    · refine .ite (.pure _) ?_
      split
      · exact .bind .copyMove fun _ => .bind (.pure _) fun _ => .pure _
      · exact .bind .copyMove fun _ => .bind (.pure _) fun _ => .pure _
      · exact .bind .copyWrite fun _ => .bind (.pure _) fun _ => .pure _
      · exact .bind .copyIndexed fun _ => .pure _
  · dsimp only
    split
    · exact .bind .copyFrame fun _ => .pure _
    · refine .ite (.pure _) ?_
      split
      · exact .bind .copyMove fun _ => .bind (.pure _) fun _ => .pure _
      · exact .bind .copyMove fun _ => .bind (.pure _) fun _ => .pure _
      · exact .bind .copyWrite fun _ => .bind (.pure _) fun _ => .pure _
      · exact .bind .copyIndexed fun _ => .pure _

theorem Canonical.cancelDone {g id : Nat} {s : State} (h : Canonical s) : Canonical (cancelDone g id s) := by
  unfold Machine.cancelDone
  refine h.forUp fun _ _ h1 => ?_
  split
  · exact .ite h1.setRegAt.completeAt h1.modSlot
  · exact h1

theorem Canonical.modCopy {g id : Nat} {f : Copy → Copy} {s : State} (h : Canonical s) : Canonical (modCopy g id f s) := h.modBulk

theorem Canonical.dropCopy {g : Nat} {c : Copy} {s : State} (h : Canonical s) : Canonical (dropCopy g c s) := by
  unfold Machine.dropCopy
  exact .ite h.modBulk.cancelDone.push h.modBulk.cancelDone

theorem Canonical.endCopy {g : Nat} {c : Copy} {code : Nat} {s : State} (h : Canonical s) : Canonical (endCopy g c code s) := by
  unfold Machine.endCopy
  dsimp only
  split
  · exact .dropCopy (.ite h h.errBit)
  · exact .lineWrites (.modCopy (.ite h h.errBit))

theorem Canonical.unitDone {g : Nat} {c : Copy} {x : Nat} {last : Bool} {s : State} (h : Canonical s) :
    Canonical (unitDone g c x last s) :=
  .ite h.modCopy.endCopy h.modCopy

theorem Lands.execCopyComplete {g id : Nat} {s : State} (h : Canonical s) : Lands (execCopyComplete g id s) := by
  unfold Machine.execCopyComplete
  refine .next ?_
  split
  · exact h
  · refine .ite h (.ite h.dropCopy ?_)
    split
    · exact h.endCopy
    · refine .ite ?_ ?_
      · split
        · exact h.endCopy
        · exact h.unitDone
      · dsimp only
        split
        · exact h.lineReads
        · exact h.touch
        · exact h
        next e2 => exact ((Keeps.copyUnit h.update).of_error e2).update.endCopy
        next e2 =>
          exact .ite ((Keeps.copyUnit h.update).of_ok e2).update.unitDone ((Keeps.copyUnit h.update).of_ok e2).update.modCopy.lineWrites

theorem Canonical.acceptCopy {g : Nat} {c : Copy} {s : State} (h : Canonical s) : Canonical (acceptCopy g c s) := by
  unfold Machine.acceptCopy
  refine .push (.modBulk ?_)
  split
  · exact h
  · exact h.placeSetFull

theorem Lands.execCopyAccept {g : Nat} {s : State} (h : Canonical s) : Lands (execCopyAccept g s) := by
  unfold Machine.execCopyAccept
  refine .next ?_
  dsimp only
  split
  · exact h
  · exact .ite h.update.acceptCopy.update.completeAt h.update.acceptCopy.update

theorem Keeps.copyIssue {c : Copy} : Keeps (copyIssue c) :=
  fun _ h => .ite (.ok h.count.modBulk.acceptCopy) (.ite (.error h.modBulk.push) (.error h))

theorem Lands.copyOp {fn : Nat} {d a b : Reg} {sg e : BitVec 3} {setFull : Bool} {s : State} (h : Canonical s) :
    Lands (copyOp fn d a b sg e setFull s) :=
  .instr h (.bind .look fun _ => .bind .look fun _ => .bind .tests fun _ => .copyIssue)

theorem Lands.execBcancel {d b : Reg} {s : State} (h : Canonical s) : Lands (execBcancel d b s) :=
  .instr h fun _ h => .ite (.ok h.setReg) (.error h.modBulk.pushAll)

end Sys2Proof.Machine
end

section
/-! SUPPORT. The canonical form is kept. Boot, resets and launches. -/
namespace Sys2Proof.Machine

theorem Canonical.routersUp {b : List Byte} {d : Nat} {s : State} (h : Canonical s) : Canonical (routersUp b d s) :=
  h.foldl fun _ _ h => h.modRouter

theorem Canonical.linksUp {ds : List Nat} {s : State} (h : Canonical s) : Canonical (linksUp ds s) := by
  refine .foldl (.foldl h fun s e h => ?_) fun s e h => ?_
  · refine .ite (.ite h (h.foldl fun _ _ h => h.endLost)) (.ite ?_ h)
    split
    next e => exact ((Lands.execLinkTrainingStart h).of_next e).push
    · exact h
  · split
    next e => exact (Lands.execLinkTrainingStart h).of_next e
    · exact h

theorem Canonical.bootStop {code : BitVec 4} {s : State} (h : Canonical s) : Canonical (bootStop code s) := h

theorem Canonical.partFail {p : Nat} {code : BitVec 4} {s : State} (h : Canonical s) : Canonical (partFail p code s) := h

theorem Canonical.bootPartition {p : Nat} {s : State} (h : Canonical s) : Canonical (bootPartition p s) := by
  have hload (b : List Byte) (ds : List Nat) (v : SMap Byte) (hv : Memory.wf v = true) :
      Memory.wf (ds.foldl (fun v d => smBlock (vKey (16 + d) 0) b v) v) = true := by
    induction ds generalizing v with
    | nil => exact hv
    | cons d ds ih => exact ih _ (smBlock_wf _ _ hv)
  unfold Machine.bootPartition
  extract_lets b
  split
  · exact h.modPart.partFail
  next im _ =>
    extract_lets s1
    have h1 : Canonical s1 := h.modPart
    clear_value s1
    split
    · exact h1.partFail
    next ds s2 _ =>
      have h2 : Canonical s2 := ⟨h1.1, hload _ _ _ h1.2⟩
      clear_value s2
      exact h2.linksUp.pushAll

theorem Canonical.bootFirmware {fw : Image} {s : State} (h : Canonical s) : Canonical (bootFirmware fw s) := by
  unfold Machine.bootFirmware
  extract_lets b ms sr s1
  have h1 : Canonical s1 := h.update
  clear_value s1
  split
  · extract_lets s2 s3 s4
    have h2 : Canonical s2 := h1.update
    have h3 : Canonical s3 := h2.foldl fun _ _ h => h.routersUp
    have h4 : Canonical s4 := h3.foldl fun _ _ h => h.bootPartition
    exact .ite h2.bootStop h4.update
  · exact h1.bootStop

theorem Lands.execBoot {s : State} (h : Canonical s) : Lands (execBoot s) := by
  unfold Machine.execBoot
  refine .next (.ite h (.ite h.update.bootStop ?_))
  split
  · exact h.update.bootStop
  · exact h.update.bootFirmware

theorem Canonical.alertApplied {ds : List Nat} {s : State} (h : Canonical s) : Canonical (alertApplied ds s) :=
  .ite h (h.foldl fun _ _ h => h.modCluster)

theorem Lands.execPorstnAssert {s : State} {cycled : Bool} (h : Canonical s) : Lands (execPorstnAssert s cycled) :=
  .next (.ite h (.alertApplied ⟨rfl, rfl⟩))

theorem Canonical.dieReset {d : Nat} {s : State} (h : Canonical s) : Canonical (dieReset d s) :=
  .alertApplied (.modDie ⟨h.1, filter_wf _ h.2⟩)

theorem Canonical.bridgeClose {r port : Nat} {s : State} (h : Canonical s) : Canonical (bridgeClose r port s) :=
  .modRouter (.modLink (.ite h.endLost h))

theorem Lands.execPartitionReset {p : Nat} {s : State} (h : Canonical s) : Lands (execPartitionReset p s) := by
  unfold Machine.execPartitionReset
  refine .next ?_
  split
  · exact h
  · exact .ite h ((((h.foldl fun _ _ h => h.bridgeClose).foldl fun _ _ h => h.dieReset).update).foldl fun _ _ h =>
      h.routersUp).bootPartition

theorem Canonical.requestReset {p : Nat} {s : State} (h : Canonical s) : Canonical (requestReset p s) := .ite h h.modPart.push

theorem Lands.execI3cPrivateWrite {d : Nat} {index : Byte} {value : Option Word} {s : State} {addr : optParam (BitVec 7) (BitVec.ofNat 7
  (48 + d))} (h : Canonical s) :
    Lands (execI3cPrivateWrite d index value s addr) := by
  unfold Machine.execI3cPrivateWrite
  refine .next (.ite h (.ite h.modDie ?_))
  dsimp only
  split
  · exact .ite h.modDie.push h.modDie
  · exact h.modDie

theorem Keeps.readImage {rq : Rq} {pa n : Nat} : Keeps (readImage rq pa n) :=
  .bind (.mapM fun _ => .bind .physical fun _ => .placeRead) fun _ => .pure _

theorem Keeps.readMint {rq : Rq} {pa : Nat} {en : BitVec 16} : Keeps (readMint rq pa en) :=
  .bind (.mapM fun _ => .ite (.pure _) (.bind .physical fun _ => .placeRead)) fun _ => .pure _

theorem Canonical.postCompletion {d v q : Nat} {ws : List Word} {s : State} (h : Canonical s) : Canonical (postCompletion d v q ws s) :=
  h.modAp.push

/-- The definition is opened by its name alone: with its arguments the kernel would run the write to compare the two sides. -/
theorem Canonical.of_bursarCompletion {c : Nat} {ws : List Word} {s t : State} (h : Canonical s)
    (e : bursarCompletion c ws s = .ok t) : Canonical t := by
  generalize hf : bursarCompletion = f at e
  delta bursarCompletion at hf
  subst hf
  dsimp only at e
  have hgo (v : Nat) : Keeps (do
      let rq ← fun s => .ok (launchRq c s) s
      placeWrite rq (← physical rq ((s.cluster c).lbcompLo.toNat + (s.cluster c).lbcompHi.toNat * 2 ^ 32)) 32 v) :=
    .bind (fun _ h => .ok h) fun _ => .bind .physical fun _ => .placeWrite
  split at e
  · cases e
  next e1 => exact Except.ok.inj e ▸ ((hgo _ h.update).of_ok e1).clusterMessage
  next e1 => exact Except.ok.inj e ▸ ((hgo _ h.update).of_error e1).clusterMessage

theorem Canonical.orLater {e : Instr} {s : State} {x : Except Obst State} (h : Canonical s)
    (hx : ∀ t, x = .ok t → Canonical t) : Canonical (orLater e s x) := by
  unfold Machine.orLater
  split
  · exact hx _ rfl
  · exact h.touch.defer

theorem Canonical.startLaunch {l : Launch} {s : State} (h : Canonical s) : Canonical (startLaunch l s) :=
  h.foldl fun _ _ h => h.modCluster.push

theorem Canonical.of_tryPair {s t : State} {p n : Nat} (h : Canonical s) (e : tryPair s p n = some (.ok t)) : Canonical t := by
  unfold tryPair at e
  extract_lets v q at e
  split at e
  · cases e
  · extract_lets x slot r rq inb took refused at e
    have hrefused {u : State} {m : Nat} (hu : Canonical u) (e : refused u m = some (.ok t)) : Canonical t := by
      cases e
      exact hu.modAp.postCompletion
    split at e
    · cases e
    split at e
    · cases e
    next e1 => exact hrefused ((Keeps.readImage h).of_error e1) e
    next e1 =>
      have h1 := (Keeps.readImage h).of_ok e1
      extract_lets mp at e
      split at e
      · split at e
        · cases e
        · split at e
          · cases e
          next e2 => exact hrefused ((Keeps.readMint h1).of_error e2) e
          next e2 =>
            cases e
            exact ((Keeps.readMint h1).of_ok e2).modAp.modAp.modPart.startLaunch
      · exact hrefused h1 e

theorem Lands.execLaunchDispatch {p : Nat} {s : State} (h : Canonical s) : Lands (execLaunchDispatch p s) := by
  refine .next ?_
  split
  next e =>
    obtain ⟨i, -, he⟩ := List.exists_of_findSome?_eq_some e
    exact (h.of_tryPair he).push
  · exact h.touch.defer
  · exact h

theorem Lands.execBursarLaunch {c : Nat} {s : State} (h : Canonical s) : Lands (execBursarLaunch c s) := by
  unfold Machine.execBursarLaunch
  extract_lets x d p rq refused held
  have hrefused (tag : Word) (n : Nat) {t : State} (ht : Canonical t) : Canonical (refused t tag n) :=
    h.orLater fun _ e => ht.of_bursarCompletion e
  have hheld (o : Obst) : Canonical (held o) := h.touch.defer
  clear_value refused held
  refine .next ?_
  split
  · exact hheld _
  next e => exact hrefused _ _ ((Keeps.readImage h).of_error e)
  next e =>
    have h1 := (Keeps.readImage h).of_ok e
    split
    · exact hheld _
    next e1 => exact hrefused _ _ ((Keeps.readImage h1).of_error e1)
    next e1 =>
      have h2 := (Keeps.readImage h1).of_ok e1
      extract_lets mp
      split
      · refine .ite h2.modCluster ?_
        split
        · exact hheld _
        next e2 => exact hrefused _ _ ((Keeps.readMint h2).of_error e2)
        next e2 => exact ((Keeps.readMint h2).of_ok e2).startLaunch
      · exact hrefused _ _ h2

theorem Canonical.clearCluster {c : Nat} {s : State} (h : Canonical s) : Canonical (clearCluster c s) := ⟨h.1, filter_wf _ h.2⟩

theorem Canonical.loadContext {l : Launch} {c : Nat} {s : State} (h : Canonical s) : Canonical (loadContext l c s) :=
  .modCluster (.ite h h.modCluster.update)

theorem Canonical.setupCore {l : Launch} {s : State} {n : Nat} (h : Canonical s) : Canonical (setupCore l s n) :=
  .ite h.modCore.modCore h.modCore

theorem Canonical.startSlots {l : Launch} {s : State} {n : Nat} (h : Canonical s) : Canonical (startSlots l s n) :=
  h.foldl fun _ _ h => .ite (.getD h.modSlot fun _ e => h.modSlot.of_nextEntry e) h.startEntry

theorem Lands.execLaunchSetup {c : Nat} {s : State} (h : Canonical s) : Lands (execLaunchSetup c s) := by
  unfold Machine.execLaunchSetup
  refine .next ?_
  split
  · exact h
  · exact .foldl (.foldl (.foldl (.modCluster (.loadContext (.ite h h.clearCluster))) fun _ _ h => h.modEngine) fun _ _ h =>
      h.setupCore) fun _ _ h => h.startSlots

theorem Canonical.startRound {root : Nat} {s : State} (h : Canonical s) : Canonical (startRound root s) :=
  .ite h h.modCluster.pushAll

theorem Canonical.discardThreads {c : Nat} {s : State} (h : Canonical s) : Canonical (discardThreads c s) :=
  ((h.foldl fun _ _ h => .modSlot (.disown (.freeTimer (.qAll (.unlist (.ite h.orphanWords h)))))).foldl fun _ _ h =>
    h.modCore).modCluster

theorem Lands.execClose {c : Nat} {s : State} (h : Canonical s) : Lands (execClose c s) := by
  unfold Machine.execClose
  refine .next ?_
  split
  · exact h
  · exact .foldl (.ite h.discardThreads h) fun _ _ h => h.modCore.push

theorem Canonical.releaseClusters {l : Launch} {s : State} (h : Canonical s) : Canonical (releaseClusters l s) :=
  h.foldl fun _ _ h1 => (h1.foldl fun _ _ h => h.modCore).modCluster.push

theorem Canonical.of_completeLaunch {l : Launch} {ending : Option (Nat × Byte)} {m : DoneMsg} {s t : State} (h : Canonical s)
    (e : completeLaunch l ending m s = .ok t) : Canonical t := by
  unfold completeLaunch at e
  extract_lets err status cause ws at e
  split at e
  · cases hb : bursarCompletion l.queue ws s with
    | error o => rw [hb] at e; cases e
    | ok u =>
      rw [hb] at e
      exact Except.ok.inj e ▸ (h.of_bursarCompletion hb).releaseClusters
  · exact Except.ok.inj e ▸ (Canonical.ite h.modAp.postCompletion h).releaseClusters

theorem Lands.execDoneMessage {n : Nat} {s : State} (h : Canonical s) : Lands (execDoneMessage n s) := by
  unfold Machine.execDoneMessage
  extract_lets s0 x c
  refine .next ?_
  split
  · exact h
  split
  · exact h
  next m s1 root s2 r _ _ _ _ =>
    have h1 : Canonical s1 := h.modCore
    have h2 : Canonical s2 := h1.modCluster
    split
    · exact h1.modCore.push
    · exact .ite h2 (h.orLater fun _ e => h2.of_completeLaunch e)

theorem Lands.execStallAll {root : Nat} {s : State} (h : Canonical s) : Lands (execStallAll root s) := by
  unfold Machine.execStallAll
  refine .next ?_
  split
  · exact h
  · exact .ite h (.ite h.modCluster.clusterMessage h.modCluster)

end Sys2Proof.Machine
end

section
/-! SUPPORT. The canonical form is kept. Pre-emption, firmware and clocks. -/
namespace Sys2Proof.Machine

theorem Canonical.dropQueued {k : Nat} {s : State} (h : Canonical s) : Canonical (dropQueued k s) := h.modEngine.modBulk

theorem Canonical.stopSlot {k : Nat} {s : State} (h : Canonical s) : Canonical (stopSlot k s) := by
  unfold Machine.stopSlot
  dsimp only
  split
  · split
    · exact h
    · exact h
    · exact h
    · exact h
    · exact h
    · exact h
    · exact h
    · exact h.setRegAt.completeAt
    · exact .ite h h.dropQueued.withdraw.modSlot
    · exact h.dropQueued.withdraw.modSlot
    · exact h.withdraw.modSlot
  · exact h

theorem Canonical.stopCore {n : Nat} {s : State} (h : Canonical s) : Canonical (stopCore n s) :=
  h.modCore.pushAll.foldl fun _ _ h => .ite h.streamEnd h

theorem Canonical.stopClusters {ks : List Nat} {s : State} (h : Canonical s) : Canonical (stopClusters ks s) :=
  (h.foldl fun _ _ h => h.modCluster).foldl fun _ _ h1 => (h1.foldl fun _ _ h => h.stopSlot).foldl fun _ _ h => h.stopCore

theorem Lands.execPreempt {c : Nat} {s : State} (h : Canonical s) : Lands (execPreempt c s) :=
  .next (.ite h.modCluster (h.foldl fun _ _ h => h.modCluster).stopClusters.pushAll)

theorem Keeps.writeLines {rq : Rq} {n pa : Nat} {ws : List Word} : Keeps (writeLines rq n pa ws) := by
  induction n generalizing pa ws with
  | zero => exact .pure _
  | succ n ih => exact .bind .physical fun _ => .bind .placeWrite fun _ => ih

theorem Keeps.writeWords {rq : Rq} {pa : Nat} {ws : List Word} : Keeps (writeWords rq pa ws) := .writeLines

theorem Keeps.readWords {rq : Rq} {pa n : Nat} : Keeps (readWords rq pa n) := .bind .readImage fun _ => .pure _

theorem Keeps.saveCluster {c : Nat} : Keeps (saveCluster c) :=
  .bind .get fun _ => .bind .writeWords fun _ => .bind .writeWords fun _ => .bind (.forM fun _ => .bind .writeWords fun _ =>
    .writeWords) fun _ => .bind (.forM fun _ => .writeWords) fun _ => .ite (.guard (.throw _) fun _ => .bind .writeWords fun _ => .bind
    .writeWords fun _ => .writeWords) .writeWords

theorem Canonical.faultLaunch {c : Nat} {s : State} (h : Canonical s) : Canonical (faultLaunch c s) :=
  (h.modCluster.foldl fun _ _ h => h.modCluster).modCluster.pushAll

theorem Canonical.emptyCluster {c : Nat} {s : State} (h : Canonical s) : Canonical (emptyCluster c s) :=
  (h.foldl fun _ _ h => h.modCore).update

theorem Canonical.stopCopies {c : Nat} {s : State} (h : Canonical s) : Canonical (stopCopies c s) :=
  h.foldl fun _ _ h => h.modCopy.push

theorem Lands.execPreemptSave {c : Nat} {s : State} (h : Canonical s) : Lands (execPreemptSave c s) := by
  unfold Machine.execPreemptSave
  refine .next (.ite h (.ite h.stopCopies.defer ?_))
  split
  · exact h.stopCopies.touch.defer
  next e => exact ((Keeps.saveCluster h.stopCopies).of_error e).faultLaunch
  next e => exact ((Keeps.saveCluster h.stopCopies).of_ok e).modCluster.emptyCluster

theorem Canonical.of_endSaved {l : Launch} {ending : Nat × Byte} {s t : State} (h : Canonical s)
    (e : endSaved l ending s = .ok t) : Canonical t := by
  unfold endSaved at e
  extract_lets ks s1 at e
  have h1 : Canonical s1 := h.foldl fun _ _ h => h.modCluster.emptyCluster
  clear_value s1
  exact h1.of_completeLaunch e

theorem Keeps.restoreVault {c base : Nat} {rq : Rq} : Keeps (restoreVault c base rq) :=
  .bind .readImage fun _ => .bind .readImage fun _ => .modify fun _ h => ⟨h.1, smBlock_wf _ _ h.2⟩

theorem Keeps.readSave {rq : Rq} {base : Nat} {b : List Word} : Keeps (readSave rq base b) :=
  .bind (.mapM fun _ => .readWords) fun _ => .bind (.mapM fun _ => .readWords) fun _ => .bind (.mapM fun _ => .readWords) fun _ => .bind
    (.mapM fun _ => .readWords) fun _ => .pure _

theorem Canonical.taskResumed {c k : Nat} {s : State} (h : Canonical s) : Canonical (taskResumed c k s) := by
  unfold Machine.taskResumed
  split
  · exact .ite (setTcbStatus_canonical _ _ _ h) h
  · exact h

theorem Canonical.putSave {c : Nat} {l : Launch} {m : SaveImage} {s : State} (h : Canonical s) : Canonical (putSave c l m s) :=
  (((h.emptyCluster.foldl fun _ _ h => h.modCore).foldl fun _ _ h => h.modSlot).foldl fun _ _ h =>
    h.modEngine).modCluster.loadContext.foldl fun _ _ h => h.taskResumed

theorem Canonical.resumeLaunch {l : Launch} {s : State} (h : Canonical s) : Canonical (resumeLaunch l s) := by
  unfold Machine.resumeLaunch
  split
  · exact h
  · exact ((h.foldl fun _ _ h => h.modCluster).foldl fun _ _ h1 => h1.foldl fun _ _ h => h.modCore).foldl fun _ _ h1 => h1.foldl
      fun _ _ h => h.modSlot

theorem Keeps.vaultBack {c base : Nat} {rq : Rq} {saved : Bool} : Keeps (vaultBack c base rq saved) :=
  .bind (.modify fun _ h => .ite h h.clearCluster) fun _ => .ite .restoreVault (.pure _)

theorem Lands.execRestore {c : Nat} {s : State} (h : Canonical s) : Lands (execRestore c s) := by
  unfold Machine.execRestore
  extract_lets x bad held rq base
  have hbad {t : State} (h : Canonical t) : Canonical (bad t) := h.modCluster
  have hheld (o : Obst) : Canonical (held o) := h.touch.defer
  clear_value bad held
  refine .next (.ite (hbad h) ?_)
  split
  · exact hheld _
  next e => exact hbad ((Keeps.readWords h).of_error e)
  next e =>
    have h1 := (Keeps.readWords h).of_ok e
    extract_lets w
    split
    · exact hbad h1
    next l fail _ =>
      have hfail {t : State} (ht : Canonical t) : Canonical (fail t) := h.orLater fun _ e => (hbad ht).of_endSaved e
      split
      · exact hheld _
      next e1 => exact hfail ((Keeps.readSave h1).of_error e1)
      next e1 =>
        have h2 := (Keeps.readSave h1).of_ok e1
        refine .ite (hbad h2) ?_
        split
        · exact hheld _
        next e2 => exact hfail ((Keeps.vaultBack h2).of_error e2)
        next e2 => exact ((Keeps.vaultBack h2).of_ok e2).putSave.resumeLaunch

theorem Lands.execCancel {c : Nat} {s : State} (h : Canonical s) : Lands (execCancel c s) := by
  unfold Machine.execCancel
  extract_lets x e
  refine .next ?_
  split
  · exact h.modCluster
  · refine .ite (h.orLater fun _ e => h.of_endSaved e) (.ite h ?_)
    extract_lets ks s1 s2 s3
    have h1 : Canonical s1 := h.stopClusters
    have h2 : Canonical s2 := h1.foldl fun _ _ h => h.discardThreads.stopCopies
    have h3 : Canonical s3 := h2.foldl fun _ _ h => h.modCluster
    exact h3.modCluster.pushAll

theorem Canonical.dropBanks {c : Nat} {s : State} (h : Canonical s) : Canonical (dropBanks c s) :=
  h.update.foldl fun _ _ h => h.answer

theorem Canonical.acceptHeld {c n : Nat} {s : State} (h : Canonical s) : Canonical (acceptHeld c n s) := by
  induction n generalizing s with
  | zero => exact h
  | succ n ih =>
    refine .ite h ?_
    split
    · exact h
    · exact ih h.setCluster.postRecord

theorem Canonical.badWake {c : Nat} {s : State} (h : Canonical s) : Canonical (badWake c s) := h.modCluster

theorem Lands.execFbwakeRetry {c k : Nat} {s : State} (h : Canonical s) : Lands (execFbwakeRetry c k s) := by
  unfold Machine.execFbwakeRetry
  refine .next ?_
  dsimp only
  split
  · refine .push (.parkAt ?_)
    split
    · exact setTcbStatus_canonical _ _ _ h
    · exact h
  · exact h.modSlot
  · exact h.badWake

theorem Lands.execFbwakeKill {c k : Nat} {cause : Byte} {s : State} (h : Canonical s) : Lands (execFbwakeKill c k cause s) := by
  unfold Machine.execFbwakeKill
  refine .next (.ite h.badWake ?_)
  extract_lets s1 s2 s3 s4
  have h1 : Canonical s1 := h.stopSlot.qAll
  have h2 : Canonical s2 := .ite h1.orphanWords h1
  have h3 : Canonical s3 := by
    unfold s3
    split
    · exact setTcbWord_canonical _ _ _ _ h2.errBit
    · exact h2
  have h4 : Canonical s4 := h3.modCore
  exact h4.modSlot.endThread

theorem Canonical.applyAfter {c wait : Nat} {v : Cluster → BitVec 4} {s : State} (h : Canonical s) : Canonical
  (applyAfter c wait v s) :=
  h.modCluster

theorem Lands.execClthrWrite {c : Nat} {bursar csr : Option Word} {s : State} (h : Canonical s) : Lands
  (execClthrWrite c bursar csr s) := by
  unfold Machine.execClthrWrite
  refine .next ?_
  split
  · exact h
  · exact .ite h.modCluster.applyAfter h.modCluster

theorem Lands.execPwralertnEdge {level : Bool} {s : State} {cause : BitVec 3} (h : Canonical s) :
    Lands (execPwralertnEdge level s cause) :=
  .next (.ite (.ite h h) (.foldl (.foldl (.update (.ite h h.update)) fun _ _ h => h.applyAfter) fun _ _ h => h.logRecord))

theorem Lands.execThermalSample {d : Nat} {temps : List (BitVec 16)} {s : State} (h : Canonical s) : Lands
  (execThermalSample d temps s) :=
  .next (.ite (.push (.ite h.modDie.dieMessage h.modDie)) (.ite h.modDie.dieMessage h.modDie))

theorem Canonical.modI3c {d : Nat} {f : I3c → I3c} {s : State} (h : Canonical s) : Canonical (modI3c d f s) := h.modDie

theorem Canonical.i3cEnd {d : Nat} {nack err : Bool} {s : State} (h : Canonical s) : Canonical (i3cEnd d nack err s) :=
  h.modI3c.dieMessage

theorem Canonical.carrierTurn {cool w1c : Word} {s : State} (h : Canonical s) : Canonical (carrierTurn cool w1c s) :=
  .ite h.update.push h

theorem Lands.execI3cTransferDone {d : Nat} {nack err : Bool} {data : List Byte} {s : State} {cool : Word} (h : Canonical s) :
    Lands (execI3cTransferDone d nack err data s cool) :=
  .next (.ite h (.i3cEnd (.ite (.modI3c (.ite h.carrierTurn h)) (.ite h.carrierTurn h))))

end Sys2Proof.Machine
end

section
/-! SUPPORT. The canonical form is kept. The issue of an instruction and the end of a work cycle. -/
namespace Sys2Proof.Machine

theorem Canonical.bubble {n : Nat} {s : State} (h : Canonical s) : Canonical (bubble n s) := .ite h h.count

theorem Canonical.clearStall {c : Nat} {s : State} (h : Canonical s) : Canonical (clearStall c s) := by
  unfold Machine.clearStall
  dsimp only
  split
  · exact .ite h.modCluster h
  · exact h

theorem Canonical.icTouch {n va len : Nat} {s : State} (h : Canonical s) : Canonical (icTouch n va len s) := h.modCore

theorem Canonical.loadInstr {k : Nat} {lent : Bool} {bits : Word} {len : Nat} {s : State} (h : Canonical s) :
    Canonical (loadInstr k lent bits len s) :=
  .clearStall (.modSlot (.ite (.modCore (.ite h.icTouch (.count (.ite h.icTouch.count h.icTouch)))) (.ite h.icTouch (.count
    (.ite h.icTouch.count h.icTouch)))))

theorem Canonical.issueSlot {k : Nat} {lent : Bool} {s : State} (h : Canonical s) : Canonical (issueSlot k lent s).1 := by
  unfold Machine.issueSlot
  dsimp only
  split
  · exact h.update.modMe.bubble
  · split
    · exact h.update.modMe.bubble
    · split
      · exact h.update.modMe.bubble
      · split
        · exact h.update.parkAt.push.bubble
        · exact h.update.parkAt.push.bubble
        · exact h.update.modMe.bubble.modCore
        · exact h.update.loadInstr

theorem Canonical.unitTick {c : Nat} {s : State} (h : Canonical s) : Canonical (unitTick c s) := by
  unfold Machine.unitTick
  refine .pushAll (.ite ?_ h.setCluster)
  split
  · exact h.setCluster.foldl fun _ _ h => h.count
  · exact h.setCluster

theorem Canonical.yieldTick {s : State} {k : Nat} {sl : Slot} (h : Canonical s) : Canonical (yieldTick s k sl) := .ite h.modSlot h

theorem Canonical.coreTick {s : State} {n : Nat} {x : Core} (h : Canonical s) : Canonical (coreTick s n x) :=
  .pushAll (.ite h h.modCore)

theorem Canonical.logDrop {d : Nat} {s : State} (h : Canonical s) : Canonical (logDrop d s) := h.modDie

theorem Canonical.of_logPut {d : Nat} {r : Nat × Nat} {s t : State} (h : Canonical s) (e : logPut d r s = some t) : Canonical t := by
  unfold logPut at e
  extract_lets l n ix pa at e
  split at e
  · exact Option.some.inj e ▸ h
  split at e
  · exact Option.some.inj e ▸ h.logDrop
  split at e
  · exact Option.some.inj e ▸ h.logDrop
  split at e
  · cases e
  next e1 => exact Option.some.inj e ▸ ((Keeps.placeWrite h).of_error e1).logDrop
  next e1 =>
    have ht := (Keeps.placeWrite h).of_ok e1
    exact Option.some.inj e ▸ .ite ht.modDie.dieMessage ht.modDie

theorem Canonical.logFlush {d n : Nat} {s : State} (h : Canonical s) : Canonical (logFlush d n s) := by
  induction n generalizing s with
  | zero => exact h
  | succ n ih =>
    unfold Machine.logFlush
    split
    · exact h
    · split
      next e => exact ih (Canonical.of_logPut (Canonical.modDie h) e)
      · exact h

theorem Canonical.dieTick {s : State} {d : Nat} (h : Canonical s) : Canonical (dieTick s d) := .ite h h.deliverFrames.logFlush

theorem Canonical.tick {s : State} (h : Canonical s) : Canonical (tick s) :=
  (((((h.foldl fun _ _ h => .ite h.linkReleased h).foldl fun _ _ h => h.yieldTick.queuePoll).foldl fun _ _ h => .ite h.coreTick h).foldl
    fun _ _ h => h.dieTick).foldl fun _ _ h => h.unitTick).pushAll.update

theorem Canonical.coreTurn {n : Nat} {s : State} (h : Canonical s) : Canonical (coreTurn n s).1 := by
  unfold Machine.coreTurn
  dsimp only
  split
  · exact h.update.issueSlot
  · exact h.update.bubble

theorem Canonical.nextOf {s : State} (h : Canonical s) : Canonical (nextOf s).1 := by
  unfold Machine.nextOf
  split
  · exact h
  · split
    · exact h.mcTick
    · split
      · exact h.coreTurn
      · exact .ite h.portTick h.tick

end Sys2Proof.Machine
end

section
/-! PROOFS. The canonical form is kept by every step, and the device has it at reset (O26, O27). -/
namespace Sys2Proof.Machine

/-- Every instruction and event that goes on ends in a canonical state. -/
theorem lands_exec {i : Instr} {s : State} (h : Canonical s) : Lands (exec i s) := by
  cases i with
  | porstnAssert => exact .execPorstnAssert h
  | railFault => exact (.next (.ite h h) : Lands (execRailFault ..))
  | boot => exact .execBoot h
  | bursarStart => exact (.next h.update.setSlot : Lands (execBursarStart ..))
  | bursarInit => exact (.next (.modPort ⟨filter_wf _ h.1, h.2⟩) : Lands (execBursarInit ..))
  | partitionReset => exact .execPartitionReset h
  | mprstReq => exact (.next (.ite h.requestReset h) : Lands (execMprstReq ..))
  | preset => exact (.next (.ite h.requestReset (.ite h.logRecord h)) : Lands (execPreset ..))
  | i3cPrivateWrite => exact .execI3cPrivateWrite h
  | i3cDynamicAddress => exact (.next h.modDie : Lands (execI3cDynamicAddress ..))
  | dieThermalTrip => exact (.next h.modDie.update.pushAll : Lands (execDieThermalTrip ..))
  | thermalSample => exact .execThermalSample h
  | talstatClear => exact (.next h.modDie : Lands (execTalstatClear ..))
  | pwralertnEdge => exact .execPwralertnEdge h
  | clthrWrite => exact .execClthrWrite h
  | throttleApply => exact (.next h.modCluster : Lands (execThrottleApply ..))
  | stackTempUpdate => exact (.next h.modCtl : Lands (execStackTempUpdate ..))
  | clrst => exact (.next (.ite h.modCluster h.setCluster.push) : Lands (execClrst ..))
  | clusterResetDone => exact (.next (.ite h h.clearCluster.modCluster.update.dropBanks) : Lands (execClusterResetDone ..))
  | mcRequest => exact .execMcRequest h
  | refreshWindowEnd => exact (.next h.modCtl.pushAll : Lands (execRefreshWindowEnd ..))
  | release => exact (.next h.modSlice : Lands (execRelease ..))
  | decline => exact .execDecline h
  | patrolScrub => exact .execPatrolScrub h
  | lendStart => exact (.next (.ite h.modPair h) : Lands (execLendStart ..))
  | lendAck => exact (.next h.lendMove : Lands (execLendAck ..))
  | lendAbort => exact (.next h.lendMove.lendMove.mcWake.mapProceed : Lands (execLendAbort ..))
  | lendDrainDone => exact (.next h.lendMove : Lands (execLendDrainDone ..))
  | lendQuiesceDone => exact (.next h.lendMove : Lands (execLendQuiesceDone ..))
  | lendRetrainDone => exact .execLendRetrainDone h
  | lendReclaimStart => exact (.next h.lendMove : Lands (execLendReclaimStart ..))
  | lendReclaimDone => exact .execLendReclaimDone h
  | mcmapRetire => exact (.next (.ite h.modCtl h.modCtl.reclaimAll) : Lands (execMcmapRetire ..))
  | mcmapFence => exact (.next (.ite h.modCtl h.modCtl.reclaimAll.mapProceed) : Lands (execMcmapFence ..))
  | copyGranule => exact .execCopyGranule h
  | mapDrainStart => exact (.next (.ite h.modCtl.push (.ite h h)) : Lands (execMapDrainStart ..))
  | mapActivate => exact .execMapActivate h
  | mapReceive => exact .execMapReceive h
  | remap => exact (.next (.ite h.missError (.ite h.mcSend h.modSlice)) : Lands (execRemap ..))
  | flitTransmit => exact .execFlitTransmit h
  | linkFlitReceive => exact .execLinkFlitReceive h
  | linkAck => exact .execLinkAck h
  | ackSend => exact (.next (.ite h h.modLink.flitOut) : Lands (execAckSend ..))
  | packetRoute => exact (.next (h.foldl fun _ _ h => h.routeFront) : Lands (execPacketRoute ..))
  | linkTrainingStart => exact .execLinkTrainingStart h
  | linkTrainingEnd => exact .execLinkTrainingEnd h
  | linkLost => exact (.next (h.foldl fun _ _ h => .ite h h.endLost) : Lands (execLinkLost ..))
  | lnkstatRestart => exact (.next (.ite h.modLink.push h.modLink) : Lands (execLnkstatRestart ..))
  | replyTimeout => exact (.next (.ite h.push h) : Lands (execReplyTimeout ..))
  | lostHandling => exact .execLostHandling h
  | streamFlush => exact (.next (.ite h h.enterLocal.modSend) : Lands (execStreamFlush ..))
  | streamIdleExpire => exact (.next (.ite h h.modSend.enterLocal.inject) : Lands (execStreamIdleExpire ..))
  | streamForcedClose => exact (.next (.ite h (.modSend (.ite h.enterLocal h))) : Lands (execStreamForcedClose ..))
  | streamDataArrive => exact (.next h.modInput.inputServe : Lands (execStreamDataArrive ..))
  | sliceRd => exact (.sliceInput h : Lands (execSliceRd ..))
  | sliceWr => exact (.sliceInput h : Lands (execSliceWr ..))
  | sliceTel => exact (.sliceInput h : Lands (execSliceTel ..))
  | sliceFe => exact (.sliceInput h : Lands (execSliceFe ..))
  | sliceWaiterRetry => exact .execSliceWaiterRetry h
  | sliceFill => exact .execSliceFill h
  | sliceFlush => exact .execSliceFlush h
  | sliceQput => exact .execSliceQput h
  | sliceQtake => exact .execSliceQtake h
  | requestResend => exact .execRequestResend h
  | hostActivate => exact (.next h.modPort : Lands (execHostActivate ..))
  | hostPrecharge => exact (.next h.modPort : Lands (execHostPrecharge ..))
  | hostRefresh => exact .execHostRefresh h
  | hostRead => exact .execHostRead h
  | hostWrite => exact .execHostWrite h
  | inboundWrite => exact (.next (.ite (.ite h.modAp h.modPort.push) h) : Lands (execInboundWrite ..))
  | inboundForward => exact .execInboundForward h
  | inboundAck => exact .execInboundAck h
  | notification => exact (.next (.ite (.ite h h.modAp.modPort.push) h.modAp) : Lands (execNotification ..))
  | notifyForward => exact (.next (h.modPort.foldl fun _ _ h => h.modAp.push) : Lands (execNotifyForward ..))
  | completionRecordWrite => exact .execCompletionRecordWrite h
  | outboundWrite => exact (.next (.ite h.modPort h) : Lands (execOutboundWrite ..))
  | mbdoor => exact (.next h.dieMessage : Lands (execMbdoor ..))
  | mbset => exact (.next h.modPort : Lands (execMbset ..))
  | attcmd => exact (.next (.ite h (.ite h.modPort h.modPort.push)) : Lands (execAttcmd ..))
  | attestReport => exact (.next (.ite h (.ite h.modPort h.modPort)) : Lands (execAttestReport ..))
  | ethFrameReceive => exact .execEthFrameReceive h
  | ethSegmentRefused => exact (.next h.ethCount.modEth : Lands (execEthSegmentRefused ..))
  | ethPause => exact (.next h.modEth : Lands (execEthPause ..))
  | ethPauseReceive => exact .execEthPauseReceive h
  | ethTxQueueWrite => exact .execEthTxQueueWrite h
  | ethTransmit => exact .execEthTransmit h
  | vibindWrite => exact .execVibindWrite h
  | i3cGo => exact (.next (.ite h h.modI3c) : Lands (execI3cGo ..))
  | i3cRoleGrant => exact (.next (.ite h.modI3c h) : Lands (execI3cRoleGrant ..))
  | i3cRoleTimeout => exact (.next (.ite h.i3cEnd h) : Lands (execI3cRoleTimeout ..))
  | i3cTransferDone => exact .execI3cTransferDone h
  | i3cRel => exact (.next (.ite h.modI3c h) : Lands (execI3cRel ..))
  | elpost => exact (.next (.ite h.modDie.logWords h.modDie) : Lands (execElpost ..))
  | elctlWrite => exact (.next h.modDie : Lands (execElctlWrite ..))
  | registerWrite => exact .execRegisterWrite h
  | launchDispatch =>
    unfold exec
    exact .execLaunchDispatch h
  | launchSetup => exact .execLaunchSetup h
  | bursarLaunch => exact .execBursarLaunch h
  | clusterDrained => exact (.next (.ite h h.modCluster.push) : Lands (execClusterDrained ..))
  | drained => exact (.next (.ite h.modCluster.startRound h) : Lands (execDrained ..))
  | confirm => exact (.next h.modCluster.push : Lands (execConfirm ..))
  | confirmAnswer => exact (.next (.ite h (.ite h.modCluster.pushAll h.modCluster)) : Lands (execConfirmAnswer ..))
  | close => exact .execClose h
  | coreDone => exact (.next (.ite h.modCore.push h) : Lands (execCoreDone ..))
  | doneMessage => exact .execDoneMessage h
  | stallAll => exact .execStallAll h
  | preempt => exact .execPreempt h
  | preemptSave => exact .execPreemptSave h
  | restore => exact .execRestore h
  | cancel => exact .execCancel h
  | lownerWrite => exact (.next (.ite h h.modCluster.push) : Lands (execLownerWrite ..))
  | idleSlotWorkSearch => exact .execIdleSlotWorkSearch h
  | readyQueueTake => exact .execReadyQueueTake h
  | stealRequest => exact (.next (.ite h.push h.modCore) : Lands (execStealRequest ..))
  | stealTimeout => exact (.next h.modCore.pushAll : Lands (execStealTimeout ..))
  | stealReply => exact .execStealReply h
  | remoteSpawn => exact .execRemoteSpawn h
  | taskReleaseRequest => exact (.next (.ite h.release h) : Lands (execTaskReleaseRequest ..))
  | messageArrive => exact .execMessageArrive h
  | handlerStart => exact .execHandlerStart h
  | replyArrival => exact .execReplyArrival h
  | mrecvTimeout => exact .execMrecvTimeout h
  | barrierArrival => exact (.next (.ite h h.arrive) : Lands (execBarrierArrival ..))
  | deadlineExpiry => exact .execDeadlineExpiry h
  | withdrawal => exact .execWithdrawal h
  | deadlineTrap => exact .execDeadlineTrap h
  | deferredMemerr => exact .execDeferredMemerr h
  | stepBreak => exact (.next (.ite h (.ite h.modMe.setCore h.modMe.takeTrap)) : Lands (execStepBreak ..))
  | fbtailWrite => exact (.next (.ite h h.setCluster.acceptHeld) : Lands (execFbtailWrite ..))
  | fbwakeRetry => exact .execFbwakeRetry h
  | fbwakeKill => exact .execFbwakeKill h
  | coreHalt => exact (.next h.modCore : Lands (execCoreHalt ..))
  | coreResume => exact (.next (h.modCore.foldl fun _ _ h => h.pushAll) : Lands (execCoreResume ..))
  | coreStep => exact (.next (.ite h.modCore h) : Lands (execCoreStep ..))
  | icacheFill => exact .execIcacheFill h
  | tlb2Lookup => exact .execTlb2Lookup h
  | walk => exact .execWalk h
  | bankGrant => exact .execBankGrant h
  | waitlistRetry => exact .execWaitlistRetry h
  | feResend => exact .execFeResend h
  | linePortAccess => exact .execLinePortAccess h
  | vaultCorrectRewrite => exact (.next (.ite h.modBank.update h.modBank) : Lands (execVaultCorrectRewrite ..))
  | remoteVaultAccess => exact .execRemoteVaultAccess h
  | ringStep => exact (.next (.ite h ((h.forUp fun _ _ h => h.modEngine).push)) : Lands (execRingStep ..))
  | ringStepComplete => exact .execRingStepComplete h
  | copyAccept => exact .execCopyAccept h
  | copyComplete => exact .execCopyComplete h
  | waitExpire => exact .execWaitExpire h
  | matrixCommandTaken => exact .execMatrixCommandTaken h
  | matrixRetire => exact .execMatrixRetire h
  | tlbInvalidation => exact .execTlbInvalidation h
  | ethLinkDown => exact (.next h.modEth : Lands (execEthLinkDown ..))
  | ethLinkUp => exact (.next (.ite h.modEth.push h) : Lands (execEthLinkUp ..))
  | illegalEncoding => exact (.next h.takeTrap : Lands (execIllegalEncoding ..))
  | fetchFailure => exact .execFetchFailure h
  | add => exact (.op3 h : Lands (execAdd ..))
  | sub => exact (.op3 h : Lands (execSub ..))
  | adds => exact (.op3f h : Lands (execAdds ..))
  | subs => exact (.op3f h : Lands (execSubs ..))
  | and => exact (.op3 h : Lands (execAnd ..))
  | or => exact (.op3 h : Lands (execOr ..))
  | xor => exact (.op3 h : Lands (execXor ..))
  | andn => exact (.op3 h : Lands (execAndn ..))
  | sll => exact (.op3 h : Lands (execSll ..))
  | srl => exact (.op3 h : Lands (execSrl ..))
  | sra => exact (.op3 h : Lands (execSra ..))
  | ror => exact (.op3 h : Lands (execRor ..))
  | slt => exact (.op3 h : Lands (execSlt ..))
  | sltn => exact (.op3 h : Lands (execSltn ..))
  | min => exact (.op3 h : Lands (execMin ..))
  | max => exact (.op3 h : Lands (execMax ..))
  | minn => exact (.op3 h : Lands (execMinn ..))
  | maxn => exact (.op3 h : Lands (execMaxn ..))
  | bext => exact (.op3 h : Lands (execBext ..))
  | bexts => exact (.op3 h : Lands (execBexts ..))
  | lzc => exact (.op2 h : Lands (execLzc ..))
  | tzc => exact (.op2 h : Lands (execTzc ..))
  | ones => exact (.op2 h : Lands (execOnes ..))
  | bswap => exact (.op2 h : Lands (execBswap ..))
  | brev => exact (.op2 h : Lands (execBrev ..))
  | extb => exact (.op2 h : Lands (execExtb ..))
  | exth => exact (.op2 h : Lands (execExth ..))
  | addi => exact (.op2 h : Lands (execAddi ..))
  | andi => exact (.op2 h : Lands (execAndi ..))
  | ori => exact (.op2 h : Lands (execOri ..))
  | xori => exact (.op2 h : Lands (execXori ..))
  | slli => exact (.op2 h : Lands (execSlli ..))
  | srli => exact (.op2 h : Lands (execSrli ..))
  | srai => exact (.op2 h : Lands (execSrai ..))
  | rori => exact (.op2 h : Lands (execRori ..))
  | slti => exact (.op2 h : Lands (execSlti ..))
  | sltni => exact (.op2 h : Lands (execSltni ..))
  | lui => exact (.instrUpd h fun _ h => h.setReg : Lands (execLui ..))
  | pcrel => exact (.instrUpd h fun _ h => h.setReg : Lands (execPcrel ..))
  | mul => exact (.op3 h : Lands (execMul ..))
  | mulq => exact (.op3f h : Lands (execMulq ..))
  | mulh => exact .execMulh h
  | mulhn => exact .execMulhn h
  | mulhsn => exact .execMulhsn h
  | div => exact (.op3f h : Lands (execDiv ..))
  | divn => exact (.op3f h : Lands (execDivn ..))
  | rem => exact (.op3f h : Lands (execRem ..))
  | remn => exact (.op3f h : Lands (execRemn ..))
  | padd => exact (.packS h : Lands (execPadd ..))
  | psub => exact (.packS h : Lands (execPsub ..))
  | padds => exact (.packed h : Lands (execPadds ..))
  | psubs => exact (.packed h : Lands (execPsubs ..))
  | paddsn => exact (.packed h : Lands (execPaddsn ..))
  | psubsn => exact (.packed h : Lands (execPsubsn ..))
  | pmin => exact (.packS h : Lands (execPmin ..))
  | pmax => exact (.packS h : Lands (execPmax ..))
  | pminn => exact (.packN h : Lands (execPminn ..))
  | pmaxn => exact (.packN h : Lands (execPmaxn ..))
  | pavg => exact (.packS h : Lands (execPavg ..))
  | pmul => exact (.packS h : Lands (execPmul ..))
  | pmulq => exact (.packed h : Lands (execPmulq ..))
  | psll => exact (.packed h : Lands (execPsll ..))
  | psrl => exact (.packed h : Lands (execPsrl ..))
  | psra => exact (.packed h : Lands (execPsra ..))
  | pdot => exact .execPdot h
  | ppkl => exact (.packed h : Lands (execPpkl ..))
  | ppkh => exact (.packed h : Lands (execPpkh ..))
  | cadd => exact (.op3f h : Lands (execCadd ..))
  | csub => exact (.op3f h : Lands (execCsub ..))
  | cmul => exact (.op3f h : Lands (execCmul ..))
  | cmulc => exact (.op3f h : Lands (execCmulc ..))
  | cconj => exact (.op2f h : Lands (execCconj ..))
  | cmulj => exact (.op2f h : Lands (execCmulj ..))
  | cmag2 => exact (.op2 h : Lands (execCmag2 ..))
  | cshr => exact (.op3f h : Lands (execCshr ..))
  | pdotaH => exact (.op4f h : Lands (execPdotaH ..))
  | pdotaB => exact (.op4f h : Lands (execPdotaB ..))
  | pdotasH => exact (.op4f h : Lands (execPdotasH ..))
  | pdotasB => exact (.op4f h : Lands (execPdotasB ..))
  | cmac => exact (.op4f h : Lands (execCmac ..))
  | cmacc => exact (.op4f h : Lands (execCmacc ..))
  | fadd => exact (.fp2 h : Lands (execFadd ..))
  | fsub => exact (.fp2 h : Lands (execFsub ..))
  | fmul => exact (.fp2 h : Lands (execFmul ..))
  | fdiv => exact (.fp2 h : Lands (execFdiv ..))
  | fsqrt => exact (.fp1 h : Lands (execFsqrt ..))
  | fmin => exact (.fp2 h : Lands (execFmin ..))
  | fabs => exact (.fp1 h : Lands (execFabs ..))
  | fneg => exact (.fp1 h : Lands (execFneg ..))
  | fcpys => exact (.fp2 h : Lands (execFcpys ..))
  | fxors => exact (.fp2 h : Lands (execFxors ..))
  | fcmpeq => exact (.fp2 h : Lands (execFcmpeq ..))
  | fcmplt => exact (.fp2 h : Lands (execFcmplt ..))
  | fcmple => exact (.fp2 h : Lands (execFcmple ..))
  | fclass => exact (.fp1 h : Lands (execFclass ..))
  | fmax => exact (.fp2 h : Lands (execFmax ..))
  | fmadd => exact (.fp3 h : Lands (execFmadd ..))
  | fmsub => exact (.fp3 h : Lands (execFmsub ..))
  | fnmsub => exact (.fp3 h : Lands (execFnmsub ..))
  | fnmadd => exact (.fp3 h : Lands (execFnmadd ..))
  | fcvtWF => exact (.cvtToInt h : Lands (execFcvtWF ..))
  | fcvtWnF => exact (.cvtToInt h : Lands (execFcvtWnF ..))
  | fcvtFW => exact (.cvtOfInt h : Lands (execFcvtFW ..))
  | fcvtFWn => exact (.cvtOfInt h : Lands (execFcvtFWn ..))
  | fcvtH2F => exact (.instrUpd h fun _ h => h.setReg.raise : Lands (execFcvtH2F ..))
  | fcvtFHl => exact (.cvtLane h : Lands (execFcvtFHl ..))
  | fcvtFHh => exact (.cvtLane h : Lands (execFcvtFHh ..))
  | fcvtH2H2 => exact (.instrUpd h fun _ h => h.setReg.raise : Lands (execFcvtH2H2 ..))
  | lb => exact (.loadOp h : Lands (execLb ..))
  | lbn => exact (.loadOp h : Lands (execLbn ..))
  | lh => exact (.loadOp h : Lands (execLh ..))
  | lhn => exact (.loadOp h : Lands (execLhn ..))
  | lw => exact (.loadOp h : Lands (execLw ..))
  | ld => exact (.loadOp h : Lands (execLd ..))
  | lq => exact (.loadOp h : Lands (execLq ..))
  | sb => exact (.storeOp h : Lands (execSb ..))
  | sh => exact (.storeOp h : Lands (execSh ..))
  | sw => exact (.storeOp h : Lands (execSw ..))
  | sd => exact (.storeOp h : Lands (execSd ..))
  | sq => exact (.storeOp h : Lands (execSq ..))
  | lwf => exact (.feOp h : Lands (execLwf ..))
  | lwt => exact (.feOp h : Lands (execLwt ..))
  | swp => exact (.feOp h : Lands (execSwp ..))
  | swf => exact (.feOp h : Lands (execSwf ..))
  | ferd => exact (.feOp h : Lands (execFerd ..))
  | feset => exact (.feOp h : Lands (execFeset ..))
  | tadd => exact (.tellerOp h : Lands (execTadd ..))
  | tand => exact (.tellerOp h : Lands (execTand ..))
  | tor => exact (.tellerOp h : Lands (execTor ..))
  | txor => exact (.tellerOp h : Lands (execTxor ..))
  | tmin => exact (.tellerOp h : Lands (execTmin ..))
  | tmax => exact (.tellerOp h : Lands (execTmax ..))
  | tminn => exact (.tellerOp h : Lands (execTminn ..))
  | tmaxn => exact (.tellerOp h : Lands (execTmaxn ..))
  | tswap => exact (.tellerOp h : Lands (execTswap ..))
  | tcas => exact (.tellerOp h : Lands (execTcas ..))
  | tfadd => exact (.tellerOp h : Lands (execTfadd ..))
  | twinc => exact (.tellerOp h : Lands (execTwinc ..))
  | fenceV => exact (.instr h (.bind .await fun _ => .pure _) : Lands (execFenceV ..))
  | fenceG => exact (.instr h (.bind .await fun _ => .pure _) : Lands (execFenceG ..))
  | fenceA => exact (.instr h (.bind .await fun _ => .pure _) : Lands (execFenceA ..))
  | ifence => exact .execIfence h
  | beq => exact (.branchOn h : Lands (execBeq ..))
  | bne => exact (.branchOn h : Lands (execBne ..))
  | blt => exact (.branchOn h : Lands (execBlt ..))
  | bge => exact (.branchOn h : Lands (execBge ..))
  | bltn => exact (.branchOn h : Lands (execBltn ..))
  | bgen => exact (.branchOn h : Lands (execBgen ..))
  | bbs => exact (.branchOn h : Lands (execBbs ..))
  | bbc => exact (.branchOn h : Lands (execBbc ..))
  | jal => exact (.jumpLink h : Lands (execJal ..))
  | jalr => exact (.jumpLink h : Lands (execJalr ..))
  | bara => exact (.arrivalOp h : Lands (execBara ..))
  | barw => exact .execBarw h
  | barsum => exact (.arrivalOp h : Lands (execBarsum ..))
  | barstmt => exact (.arrivalOp h : Lands (execBarstmt ..))
  | barcfg => exact .execBarcfg h
  | msend => exact .execMsend h
  | mcall => exact .execMcall h
  | mrecv => exact (.recvOp h : Lands (execMrecv ..))
  | mrecvt => exact (.recvOp h : Lands (execMrecvt ..))
  | mpoll => exact (.recvOp h : Lands (execMpoll ..))
  | mreply => exact .execMreply h
  | qput => exact .execQput h
  | qputt => exact .execQputt h
  | qtake => exact .execQtake h
  | qtaket => exact .execQtaket h
  | sopen => exact .execSopen h
  | sput => exact .execSput h
  | sclose => exact (.instrUpd h fun _ h => .modSend (.ite h.streamEnd h) : Lands (execSclose ..))
  | sget => exact .execSget h
  | spawn => exact .execSpawn h
  | spret => exact .execSpret h
  | join => exact .execJoin h
  | rspawn => exact .execRspawn h
  | tsubmit => exact .execTsubmit h
  | tdone => exact .execTdone h
  | wid => exact (.instrUpd h fun _ h => h.setReg : Lands (execWid ..))
  | coreid => exact (.instrUpd h fun _ h => h.setReg : Lands (execCoreid ..))
  | dlarm => exact (.instrUpd h fun _ h => h.dlarmAt : Lands (execDlarm ..))
  | dlarmm => exact (.instrUpd h fun _ h => h.dlarmAt : Lands (execDlarmm ..))
  | dldis => exact (.instrUpd h fun _ h => h.dldisAt : Lands (execDldis ..))
  | mzero => exact (.plainCmd h : Lands (execMzero ..))
  | mldb => exact .execMldb h
  | mldsA => exact (.ldsOp h : Lands (execMldsA ..))
  | mldsB => exact (.ldsOp h : Lands (execMldsB ..))
  | mwra => exact .execMwra h
  | mring => exact .execMring h
  | mmovt => exact (.plainCmd h : Lands (execMmovt ..))
  | mrsn => exact (.plainCmd h : Lands (execMrsn ..))
  | mma => exact (.mmaOp h : Lands (execMma ..))
  | mmas => exact (.mmaOp h : Lands (execMmas ..))
  | mmaz => exact (.mmaOp h : Lands (execMmaz ..))
  | mepiAdd => exact (.plainCmd h : Lands (execMepiAdd ..))
  | mepiMul => exact (.plainCmd h : Lands (execMepiMul ..))
  | mepiMax => exact (.plainCmd h : Lands (execMepiMax ..))
  | mepiScale => exact (.instr h (.bind .look fun _ => .engineIssue) : Lands (execMepiScale ..))
  | mepiBiasRow => exact (.biasOp h : Lands (execMepiBiasRow ..))
  | mepiBiasCol => exact (.biasOp h : Lands (execMepiBiasCol ..))
  | mepiExp2 => exact (.plainCmd h : Lands (execMepiExp2 ..))
  | mepiSigmoid => exact (.plainCmd h : Lands (execMepiSigmoid ..))
  | mepiSilu => exact (.plainCmd h : Lands (execMepiSilu ..))
  | mepiTanh => exact (.plainCmd h : Lands (execMepiTanh ..))
  | mepiRecip => exact (.plainCmd h : Lands (execMepiRecip ..))
  | mepiRsqrt => exact (.plainCmd h : Lands (execMepiRsqrt ..))
  | mstt => exact (.sttOp h : Lands (execMstt ..))
  | msttF => exact (.sttOp h : Lands (execMsttF ..))
  | mtran => exact (.plainCmd h : Lands (execMtran ..))
  | mredRowmax => exact (.redOp h : Lands (execMredRowmax ..))
  | mredRowsum => exact (.redOp h : Lands (execMredRowsum ..))
  | mredColmax => exact (.redOp h : Lands (execMredColmax ..))
  | mredColsum => exact (.redOp h : Lands (execMredColsum ..))
  | mpotrf => exact (.solveOp h : Lands (execMpotrf ..))
  | mgetrf => exact (.solveOp h : Lands (execMgetrf ..))
  | mtrsm => exact (.solveOp h : Lands (execMtrsm ..))
  | mdelta => exact .execMdelta h
  | mshiftDup => exact (.shiftOp h : Lands (execMshiftDup ..))
  | mshiftZero => exact (.shiftOp h : Lands (execMshiftZero ..))
  | bcopy => exact (.copyOp h : Lands (execBcopy ..))
  | bcopy2 => exact (.copyOp h : Lands (execBcopy2 ..))
  | bfill => exact (.copyOp h : Lands (execBfill ..))
  | bgath => exact (.copyOp h : Lands (execBgath ..))
  | bscat => exact (.copyOp h : Lands (execBscat ..))
  | bcancel => exact .execBcancel h
  | bstat => exact (.instrUpd h fun _ h => h.setReg : Lands (execBstat ..))
  | mqnt => exact (.tileCvt h : Lands (execMqnt ..))
  | mdqnt => exact (.tileCvt h : Lands (execMdqnt ..))
  | cvtblk => exact (.memCvt h : Lands (execCvtblk ..))
  | cvtunb => exact (.memCvt h : Lands (execCvtunb ..))
  | cvtv => exact (.memCvt h : Lands (execCvtv ..))
  | syscall => exact (.instr h .trap : Lands (execSyscall ..))
  | brk => exact (.instr h fun _ h => .ite (.ok h.haltAtBreak) (.error h) : Lands (execBrk ..))
  | eret => exact (.returnOp h : Lands (execEret ..))
  | dret => exact (.returnOp h : Lands (execDret ..))
  | wait => exact (.instr h fun _ h => .ite (.ok h.setReg) (.error h) : Lands (execWait ..))
  | yield => exact (.yieldOp h : Lands (execYield ..))
  | halt => exact .execHalt h
  | segld => exact .execSegld h
  | segrd => exact (.instrUpd h fun _ h => h.setRegsAt : Lands (execSegrd ..))
  | tlbinv => exact .execTlbinv h
  | segnull => exact (.instrUpd h fun _ h => h.setSeg : Lands (execSegnull ..))
  | mintld => exact .execMintld h
  | mintsv => exact .execMintsv h
  | csrr => exact .execCsrr h
  | csrw => exact .execCsrw h
  | csrx => exact .execCsrx h
  | csrm => exact .execCsrm h
  | cAddi => exact (.op2 h : Lands (execCAddi ..))
  | cLi => exact (.op2 h : Lands (execCLi ..))
  | cMv => exact (.op2 h : Lands (execCMv ..))
  | cAdd => exact (.calu h : Lands (execCAdd ..))
  | cSub => exact (.calu h : Lands (execCSub ..))
  | cAnd => exact (.calu h : Lands (execCAnd ..))
  | cOr => exact (.calu h : Lands (execCOr ..))
  | cXor => exact (.calu h : Lands (execCXor ..))
  | cSll => exact (.calu h : Lands (execCSll ..))
  | cSrl => exact (.calu h : Lands (execCSrl ..))
  | cSra => exact (.calu h : Lands (execCSra ..))
  | cLw => exact (.loadOp h : Lands (execCLw ..))
  | cSw => exact (.storeOp h : Lands (execCSw ..))
  | cBeqz => exact (.branchOn h : Lands (execCBeqz ..))
  | cBnez => exact (.branchOn h : Lands (execCBnez ..))
  | cJ => exact (.jumpLink h : Lands (execCJ ..))
  | cNop => exact (.instrUpd h fun _ h => h : Lands (execCNop ..))
  | cYield => exact (.yieldOp h : Lands (execCYield ..))
  | movxToX => exact (.instrUpd h fun _ h => h.setX : Lands (execMovxToX ..))
  | movxToG => exact (.instrUpd h fun _ h => h.setReg : Lands (execMovxToG ..))
  | lox => exact (.instrUpd h fun _ h => h.setX : Lands (execLox ..))
  | fmt => exact (.prefixStep h : Lands (execFmt ..))
  | rel => exact (.prefixStep h : Lands (execRel ..))
  | cls => exact (.prefixStep h : Lands (execCls ..))

theorem Canonical.of_step {s t : State} (h : Canonical s) (e : step s = .next t) : Canonical t := by
  have hn : Canonical (Machine.nextOf s).1 := h.nextOf
  unfold Machine.step at e
  split at e
  · cases e
  · split at e
    next e1 => exact (lands_exec (hn.of_fst e1)).of_next e
    next e1 =>
      cases e
      exact hn.of_fst e1

/-- Settles O26: every function of the model that gives a new state keeps the canonical form, up to the step. -/
theorem stepKeepsCanonical : Obligations.StepKeepsCanonical := fun _ _ h e => h.of_step e

/-- Settles O27: memory and the vaults are empty at reset. -/
theorem resetCanonical : Obligations.ResetCanonical := ⟨rfl, rfl⟩

end Sys2Proof.Machine
end

section
/-! PROOFS. The memory controllers: a patrol scrub above the eight controllers (O48). -/
namespace Sys2Proof.Machine

/-- The memory at a line key after a patrol scrub; 0 when the scrub does not go on. -/
def scrubbedLine (st line l : Nat) (s : State) : Line :=
  match exec (.patrolScrub st line) s with
  | .next t => memLine t l
  | _ => 0

theorem scrubbedLine_of_next {st line l : Nat} {s t : State} (h : exec (.patrolScrub st line) s = .next t) :
    scrubbedLine st line l s = memLine t l := by
  unfold scrubbedLine
  rw [h]

/-- Refutes O48: the clause of R42 holds for every number of a controller, also above 7. There a mapped line's key is not below 2^33,
and the model scrubs it as a reserve line: it clears the pattern and leaves memory as it is. The reserve line 2^33 + 32 of controller 8,
whose channel 0 is retired, holds the line 2^33; its three wrong check symbols are decoded as one wrong data symbol (R39), so that
the statement asks for a memory line of 1 where the model leaves 0. -/
theorem not_controllerEvents : ¬ Obligations.ControllerEvents := by
  unfold Obligations.ControllerEvents Claim.WindowsAndScrub
  rintro ⟨-, ⟨-, -, -, hscrub⟩, -, -⟩
  obtain ⟨-, hserved⟩ :=
    hscrub { ctls := [(8, { retired := some 0 })], flips := [(2 ^ 33, [(0, 8), (1, 14), (2, 7)])] } 8 (2 ^ 33 + 32)
  obtain ⟨-, hcorrect, -⟩ := hserved (by decide +kernel)
  obtain ⟨t, hexec, -, hmem, -⟩ := hcorrect [(0, 8), (1, 14), (2, 7), (3, 1)] (by decide +kernel) (by decide +kernel)
    (by decide +kernel)
  rw [← scrubbedLine_of_next hexec] at hmem
  exact absurd hmem (by decide +kernel)

end Sys2Proof.Machine
end

section
/-! SUPPORT. What a fill, an installed entry and a page fault between instructions leave (R184, R196, R197, R239). -/
namespace Sys2Proof.Machine

/-! ### A woken slot -/

section
variable (k va : Nat) (s : State)

theorem wakeFill_slot (j : Nat) : (wakeFill k va s).slot j = if j = k then Claim.woken s k va else s.slot j := by
  unfold wakeFill Claim.woken
  split
  · rw [State.slot_modSlot]
    by_cases hj : j = k
    · rw [if_pos hj.symm, if_pos hj]
    · rw [if_neg (Ne.symm hj), if_neg hj]
  · split
    next hj => rw [hj]
    · rfl

theorem wakeFill_rest : { wakeFill k va s with slots := s.slots } = s := by
  unfold wakeFill
  split <;> rfl

@[simp] theorem wakeFill_core (n : Nat) : (wakeFill k va s).core n = s.core n := congrArg (·.core n) (wakeFill_rest k va s)

@[simp] theorem wakeFill_cluster (c : Nat) : (wakeFill k va s).cluster c = s.cluster c :=
  congrArg (·.cluster c) (wakeFill_rest k va s)

end

/-! ### The entry that gives way -/

section
variable {α : Type} (used : α → Nat)

theorem foldl_least (w : α) (r : List α) :
    r.foldl (fun a e => if used e < used a then e else a) w ∈ w :: r ∧
      ∀ y ∈ w :: r, used (r.foldl (fun a e => if used e < used a then e else a) w) ≤ used y := by
  induction r generalizing w with
  | nil => simp
  | cons e r ih =>
    obtain ⟨hmem, hle⟩ := ih (if used e < used w then e else w)
    have hfirst : used (if used e < used w then e else w) ≤ used w ∧ used (if used e < used w then e else w) ≤ used e := by
      split <;> omega
    have hhead := hle _ List.mem_cons_self
    rw [List.foldl_cons]
    refine ⟨?_, fun y hy => ?_⟩
    · rcases List.mem_cons.1 hmem with h | h
      · rw [h]
        split <;> simp
      · exact List.mem_cons_of_mem _ (List.mem_cons_of_mem _ h)
    · rcases List.mem_cons.1 hy with rfl | hy
      · exact hhead.trans hfirst.1
      · rcases List.mem_cons.1 hy with rfl | hy
        · exact hhead.trans hfirst.2
        · exact hle y (List.mem_cons_of_mem _ hy)

variable [DecidableEq α] {used}

theorem installed_of {l l' : List α} {new : α} {p : α → Bool} {n : Nat} (hroom : (l.filter p).length < n → l' = l ++ [new])
    (hfull : n ≤ (l.filter p).length → ∀ w r, l.filter p = w :: r →
      l' = l.erase (r.foldl (fun a e => if used e < used a then e else a) w) ++ [new]) : Claim.installed l l' new p used n := by
  refine ⟨hroom, fun hn h0 => ?_⟩
  cases hf : l.filter p with
  | nil =>
    rw [hf, List.length_nil] at hn
    omega
  | cons w r =>
    obtain ⟨hmem, hle⟩ := foldl_least used w r
    exact ⟨_, hmem, hle, hfull hn w r hf⟩

end

theorem tlbMake_installed (n : Nat) (p : TlbEntry → Bool) (l : List TlbEntry) (new : TlbEntry) :
    Claim.installed l (tlbMake n p l ++ [new]) new p (·.used) n := by
  refine installed_of (fun h => ?_) fun h w r hf => ?_
  · rw [tlbMake, if_pos h]
  · rw [tlbMake, if_neg (Nat.not_lt.2 h), hf]

/-! ### The instruction cache -/

section
variable (n la : Nat) (data : Line) (s : State)

theorem icInstall_installed (hla : la / 64 * 64 = la) :
    Claim.installed ((s.core n).icache.filter fun l => l.va ≠ la) ((icInstall n la data s).core n).icache
      { va := la, data := data, used := (s.core n).stamp + 1 } (fun l => l.va / 64 % 32 = la / 64 % 32) (·.used) 4 := by
  unfold icInstall
  rw [State.core_modCore, if_pos rfl]
  dsimp only
  rw [hla]
  refine installed_of (fun h => ?_) fun h w r hf => ?_
  · rw [if_pos h]
  · rw [if_neg (Nat.not_lt.2 h), hf]

theorem icInstall_core (m : Nat) : { (icInstall n la data s).core m with icache := (s.core m).icache, stamp := (s.core m).stamp } = s.core m := by
  unfold icInstall
  rw [State.core_modCore]
  split
  next h => rw [h]
  · rfl

theorem icInstall_others {m : Nat} (h : m ≠ n) : (icInstall n la data s).core m = s.core m :=
  (State.core_modCore ..).trans (if_neg (Ne.symm h))

end

/-! ### A page fault between instructions (R196, R197) -/

theorem deviceMessage_rest (d pos : Nat) (typ : Byte) (words : List Word) (s : State) :
    { deviceMessage d pos typ words s with due := s.due } = s := by
  unfold deviceMessage
  split <;> rfl

section
variable (c : Nat) (r : FaultRec) (s : State)

/-- A fault record changes the buffer of its cluster and may let a message of the cluster be due. -/
theorem postRecord_rest : { postRecord c r s with clusters := s.clusters, due := s.due } = s := by
  unfold postRecord
  dsimp only
  split
  · split
    · exact congrArg (fun x : State => { x with clusters := s.clusters, due := s.due }) (deviceMessage_rest ..)
    · rfl
  · rfl

theorem postRecord_tlb2 (d : Nat) : ((postRecord c r s).cluster d).tlb2 = (s.cluster d).tlb2 := by
  have hset (x : Cluster) (hx : x.tlb2 = (s.cluster c).tlb2) : ((s.setCluster c x).cluster d).tlb2 = (s.cluster d).tlb2 := by
    rw [State.cluster_setCluster]
    split
    next h => rw [hx, h]
    · rfl
  unfold postRecord
  dsimp only
  split
  · split
    · exact (congrArg (fun x : State => (x.cluster d).tlb2) (deviceMessage_rest ..)).trans (hset _ rfl)
    · exact hset _ rfl
  · exact hset _ rfl

end

theorem countN_tlb (core i n : Nat) (s : State) (m : Nat) : ((countN core i n s).core m).tlb = (s.core m).tlb := by
  unfold countN
  rw [State.core_modCore]
  split
  next h => rw [h]
  · rfl

/-- What a page fault leaves: its slot faulted at the address, and the entries of every TLB. -/
structure FaultedAt (s t : State) (k va : Nat) : Prop where
  run : (t.slot k).run = .faulted
  va : (t.slot k).faultVa = va
  tlb2 : ∀ c, (t.cluster c).tlb2 = (s.cluster c).tlb2
  tlb : ∀ n, (t.core n).tlb = (s.core n).tlb

theorem postRecord_faulted {s s1 : State} (h : { s1 with vault := s.vault } = s) (core c k : Nat) (r : FaultRec) {x : Slot} {va : Nat}
    (hrun : x.run = .faulted) (hva : x.faultVa = va) : FaultedAt s (postRecord c r (count core 6 (s1.setSlot k x))) k va := by
  have hset : (s1.setSlot k x).slot k = x := (State.slot_setSlot s1 k k x).trans (if_pos rfl)
  have hslot : (postRecord c r (count core 6 (s1.setSlot k x))).slot k = x :=
    (congrArg (·.slot k) (postRecord_rest c r (count core 6 (s1.setSlot k x)))).trans hset
  refine ⟨by rw [hslot, hrun], by rw [hslot, hva], fun d => ?_, fun n => ?_⟩
  · have hcluster : (count core 6 (s1.setSlot k x)).cluster d = s.cluster d := congrArg (·.cluster d) h
    rw [postRecord_tlb2, hcluster]
  · have hpost := congrArg (fun x : State => (x.core n).tlb) (postRecord_rest c r (count core 6 (s1.setSlot k x)))
    have hcount := countN_tlb core 6 1 (s1.setSlot k x) n
    have hcore : (s1.setSlot k x).core n = s.core n := congrArg (·.core n) h
    exact hpost.trans (hcount.trans (congrArg Core.tlb hcore))

theorem faultAt_faulted {s : State} {k : Nat} (hu : Unheld s k) (acc : AccessKind) (kind va : Nat) :
    FaultedAt s (faultAt k acc kind va s) k va := by
  unfold faultAt
  rw [qAll_eq_self hu.2]
  refine postRecord_faulted ?_ _ _ _ _ rfl rfl
  split <;> rfl

theorem fillStop_faulted {s : State} {k va : Nat} (hr : (s.slot k).run = .parked (.fill va)) (hu : Unheld s k) (acc : AccessKind)
    (kind : Nat) : FaultedAt s (fillStop k va (.pageFault acc kind va) s) k va := by
  rw [fillStop, if_pos hr]
  obtain ⟨hrun, hva, htlb2, htlb⟩ := faultAt_faulted (s := s.modSlot k fun sl => { sl with run := .ready }) (k := k)
    ⟨by rw [State.slot_modSlot, if_pos rfl]; exact hu.1, hu.2⟩ acc kind va
  exact ⟨hrun, hva, htlb2, htlb⟩

end Sys2Proof.Machine
end

section
/-! PROOFS. Instruction cache fills and second-level lookups (O59: R33, R184, R233, R239). -/
namespace Sys2Proof.Machine

section
variable {s : State} {k va : Nat}

theorem woken_congr {u : State} (hk : u.slot k = s.slot k) : Claim.woken u k va = Claim.woken s k va := by
  unfold Claim.woken
  rw [hk]

/-- Where the line of a fetch is: the bursar's own vault, or as the first-level TLB translates it. -/
def fetchPlace (s : State) (k va : Nat) : Option Place :=
  if isBursar (coreOf k) then some (Place.vault (unitOf (coreOf k)) (va / 64 * 64) false)
  else (tlbFind (s.core (coreOf k)) (va / 64 * 64)).bind fun e =>
    leafTarget s (s.partOf (dieOfCluster (unitOf (coreOf k)))) e.leaf (va / 64 * 64)

/-- What a fill of the instruction cache does with the answer of its home. -/
def fillAnswer (k va : Nat) (s : State) : EStateM.Result HErr State Nat → State
  | .ok v u => wakeFill k va (icInstall (coreOf k) (va / 64 * 64) (BitVec.ofNat 512 v) u)
  | .error (.wait o) _ => (o.touch s).defer (.icacheFill k va)
  | .error .fenced u => fillStop k va (.pageFault .fetch 4 va) u
  | .error (.err c) u => fillStop k va (.trap cMEMERR (c.setWidth 32)) u

theorem exec_icacheFill_of_none (h : fetchPlace s k va = none) : exec (.icacheFill k va) s = .next (wakeFill k va s) := by
  show execIcacheFill k va s = _
  unfold fetchPlace at h
  simp only [execIcacheFill, h]

theorem exec_icacheFill_of_io {pa : Nat} (h : fetchPlace s k va = some (.io pa)) :
    exec (.icacheFill k va) s = .next (fillAnswer k va s (ioRefuse (rqOf (coreOf k) 1 s) pa 1 s)) := by
  show execIcacheFill k va s = _
  unfold fetchPlace at h
  simp only [execIcacheFill, h]
  rfl

theorem exec_icacheFill_of_some {p : Place} (h : fetchPlace s k va = some p) (hp : ∀ pa, p ≠ .io pa) :
    exec (.icacheFill k va) s = .next (fillAnswer k va s (placeRead (rqOf (coreOf k) 1 s) p 64 s)) := by
  show execIcacheFill k va s = _
  unfold fetchPlace at h
  simp only [execIcacheFill, h]
  cases p with
  | io pa => exact absurd rfl (hp pa)
  | _ => rfl

/-- A trap of a fetch of the thread in execution. -/
theorem fillStop_trapped (hk : s.cur = k) (hr : s.me.run = .parked (.fill va)) (hh : Handles s) (hu : Unheld s k) (cause : Nat)
    (eval : Word) :
    Trapped (s.modMe fun y => { y with run := .ready }) (fillStop k va (.trap cause eval) s) cause eval := by
  subst hk
  rw [fillStop, if_pos (show (s.slot s.cur).run = _ from hr)]
  exact takeTrap_trapped (hu.modMe _ rfl) (hh.modMe _ rfl) cause eval

theorem wakeFill_icInstall_slot {u : State} (hk : u.slot k = s.slot k) (n la : Nat) (data : Line) (j : Nat) :
    (wakeFill k va (icInstall n la data u)).slot j = if j = k then Claim.woken s k va else u.slot j := by
  rw [wakeFill_slot, woken_congr (s := s) (u := icInstall n la data u) hk]
  rfl

theorem wakeFill_icInstall_rest (u : State) (n la : Nat) (data : Line) :
    { wakeFill k va (icInstall n la data u) with slots := u.slots, cores := u.cores } = u :=
  congrArg (fun x : State => { x with cores := u.cores }) (wakeFill_rest k va (icInstall n la data u))

end

section
variable (s : State) (k va : Nat) (acc : Access)

/-- The state after a hit of the second-level TLB before the thread issues again. -/
def tlb2Touched (e : TlbEntry) : State :=
  s.modCluster (unitOf (coreOf k)) fun x =>
    { x with tlbStamp := x.tlbStamp + 1, tlb2 := x.tlb2.map fun y => if y = e then { y with used := x.tlbStamp + 1 } else y }

end

theorem tlb2Touched_cluster (s : State) (k : Nat) (e : TlbEntry) : (tlb2Touched s k e).cluster (unitOf (coreOf k)) =
    { s.cluster (unitOf (coreOf k)) with
      tlbStamp := (s.cluster (unitOf (coreOf k))).tlbStamp + 1
      tlb2 := (s.cluster (unitOf (coreOf k))).tlb2.map fun y =>
        if y = e then { y with used := (s.cluster (unitOf (coreOf k))).tlbStamp + 1 } else y } :=
  (State.cluster_modCluster ..).trans (if_pos rfl)

theorem tlb2Touched_cluster_other (s : State) (k : Nat) (e : TlbEntry) {m : Nat} (h : m ≠ unitOf (coreOf k)) :
    (tlb2Touched s k e).cluster m = s.cluster m :=
  (State.cluster_modCluster ..).trans (if_neg (Ne.symm h))

section
variable {s : State} {k va : Nat} {acc : Access}

theorem exec_tlb2Lookup_of_some {e : TlbEntry} (h : tlb2Find (s.cluster (unitOf (coreOf k))) va = some e) :
    exec (.tlb2Lookup k va acc) s = .next (wakeFill k va (tlb1Install (coreOf k) va e.leaf (tlb2Touched s k e))) := by
  show execTlb2Lookup k va acc s = _
  simp only [execTlb2Lookup, h]
  rfl

theorem exec_tlb2Lookup_of_none (h : tlb2Find (s.cluster (unitOf (coreOf k))) va = none) :
    exec (.tlb2Lookup k va acc) s = .next (if 256 ≤ (s.cluster (unitOf (coreOf k))).walkQueue.length then s.defer (.tlb2Lookup k va acc)
      else (s.modCluster (unitOf (coreOf k)) fun x => { x with walkQueue := x.walkQueue ++ [{ slot := k, va := va, acc := acc }] }).push
        (.walk (unitOf (coreOf k)))) := by
  show execTlb2Lookup k va acc s = _
  simp only [execTlb2Lookup, h]

theorem tlb2Find_eq_none {x : Cluster} (h : ∀ y ∈ x.tlb2, ¬ va / pageBytes y.size = y.va / pageBytes y.size) : tlb2Find x va = none :=
  List.find?_eq_none.2 fun y hy => by simpa using h y hy

theorem tlb2Find_of_first {x : Cluster} {pre post : List TlbEntry} {y : TlbEntry} (h : x.tlb2 = pre ++ y :: post)
    (hy : va / pageBytes y.size = y.va / pageBytes y.size)
    (hpre : ∀ z ∈ pre, ¬ va / pageBytes z.size = z.va / pageBytes z.size) : tlb2Find x va = some y := by
  rw [tlb2Find, h, List.find?_append, List.find?_eq_none.2 fun z hz => by simpa using hpre z hz]
  simp [hy]

/-- An entry that stands once in a list is changed there and nowhere else. -/
theorem map_at_once {l pre post : List TlbEntry} {y : TlbEntry} (h : l = pre ++ y :: post) (hd : l.Nodup) (f : TlbEntry → TlbEntry) :
    l.map (fun z => if z = y then f z else z) = pre ++ f y :: post := by
  subst h
  have hout (m : List TlbEntry) (hm : y ∉ m) : m.map (fun z => if z = y then f z else z) = m :=
    (List.map_congr_left fun z hz => if_neg fun (hzy : z = y) => hm (hzy ▸ hz)).trans (List.map_id m)
  obtain ⟨-, hpost, hdisj⟩ := List.nodup_append.1 hd
  rw [List.map_append, List.map_cons, if_pos rfl, hout pre fun hy => hdisj y hy y List.mem_cons_self rfl,
    hout post (List.nodup_cons.1 hpost).1]

end

section
variable (n va : Nat) (leaf : BitVec 64) (s : State)

theorem tlb1Install_core_self : (tlb1Install n va leaf s).core n =
    { s.core n with
      stamp := (s.core n).stamp + 1
      tlb := tlbMake 256 (fun _ => true) ((s.core n).tlb.filter fun y =>
          !(y.size = leafSize leaf && y.va = va / pageBytes (leafSize leaf) * pageBytes (leafSize leaf))) ++
        [{ va := va / pageBytes (leafSize leaf) * pageBytes (leafSize leaf), size := leafSize leaf, leaf := leaf
           used := (s.core n).stamp + 1 }] } :=
  (State.core_modCore ..).trans (if_pos rfl)

theorem tlb1Install_core_other {m : Nat} (h : m ≠ n) : (tlb1Install n va leaf s).core m = s.core m :=
  (State.core_modCore ..).trans (if_neg (Ne.symm h))

end

theorem tlb1Install_rest (n va : Nat) (leaf : BitVec 64) (s : State) : { tlb1Install n va leaf s with cores := s.cores } = s := rfl

theorem tlb2Touched_rest (s : State) (k : Nat) (e : TlbEntry) : { tlb2Touched s k e with clusters := s.clusters } = s := rfl

theorem wakeFill_tlb_rest (s : State) (k va : Nat) (leaf : BitVec 64) (e : TlbEntry) :
    { wakeFill k va (tlb1Install (coreOf k) va leaf (tlb2Touched s k e)) with
      slots := s.slots, cores := s.cores, clusters := s.clusters } = s := by
  have hwake := congrArg (fun x : State => { x with cores := s.cores, clusters := s.clusters })
    (wakeFill_rest k va (tlb1Install (coreOf k) va leaf (tlb2Touched s k e)))
  have hinstall := congrArg (fun x : State => { x with clusters := s.clusters })
    (tlb1Install_rest (coreOf k) va leaf (tlb2Touched s k e))
  exact hwake.trans (hinstall.trans (tlb2Touched_rest s k e))

/-- R33, R184, R233, R239. -/
theorem claim_fillsAndLookups : Claim.FillsAndLookups := by
  refine ⟨fun s k va => ⟨fun h => ?_, fun pa h hm hk hr hh hu => ?_, fun p o u h hp he => ?_, fun p u h hp he hr hu => ?_,
    fun p v u h hp he hk => ?_⟩, fun s k va acc => ⟨fun h hn => ?_, fun h hn => ?_, fun pre y post h hy hpre hd => ?_⟩⟩
  · exact ⟨_, exec_icacheFill_of_none h, wakeFill_slot k va s, wakeFill_rest k va s⟩
  · have hdeny : ioRefuse (α := Nat) (rqOf (coreOf k) 1 s) pa 1 s = .error (.err 2) s := by
      rw [ioRefuse, if_neg (by simp [hm])]
      rfl
    refine ⟨_, exec_icacheFill_of_io h, ?_⟩
    rw [hdeny]
    exact fillStop_trapped hk hr hh hu cMEMERR 2
  · rw [exec_icacheFill_of_some h hp, he]
    rfl
  · obtain ⟨hrun, hva, -, -⟩ := fillStop_faulted hr hu .fetch 4
    refine ⟨_, exec_icacheFill_of_some h hp, ?_⟩
    rw [he]
    exact ⟨hrun, hva⟩
  · have hla : va / 64 * 64 / 64 * 64 = va / 64 * 64 := by omega
    refine ⟨_, exec_icacheFill_of_some h hp, ?_⟩
    rw [he]
    refine ⟨wakeFill_icInstall_slot hk _ _ _, ?_, ?_, fun m hm => ?_, wakeFill_icInstall_rest u _ _ _⟩
    · rw [fillAnswer, wakeFill_core]
      exact icInstall_installed _ _ _ _ hla
    · rw [fillAnswer, wakeFill_core]
      exact icInstall_core _ _ _ _ _
    · rw [fillAnswer, wakeFill_core]
      exact icInstall_others _ _ _ _ hm
  · show exec _ s = _
    rw [exec_tlb2Lookup_of_none (tlb2Find_eq_none h), if_pos hn]
    rfl
  · refine clusterBecomes_of_push (f := fun x => { x with walkQueue := x.walkQueue ++ [{ slot := k, va := va, acc := acc }] })
      (es := [.walk (unitOf (coreOf k))]) ?_ rfl rfl
    rw [exec_tlb2Lookup_of_none (tlb2Find_eq_none h), if_neg (Nat.not_le.2 hn)]
    rfl
  · refine ⟨_, exec_tlb2Lookup_of_some (tlb2Find_of_first h hy hpre), fun j => ?_, ?_, ?_, ?_, ?_, fun m hm => ?_, fun m hm => ?_, ?_⟩
    · rw [wakeFill_slot]
      rfl
    · rw [wakeFill_cluster]
      exact (congrArg Cluster.tlb2 (tlb2Touched_cluster s k y)).trans
        (map_at_once h hd fun z => { z with used := (s.cluster (unitOf (coreOf k))).tlbStamp + 1 })
    · rw [wakeFill_core, tlb1Install_core_self]
      exact tlbMake_installed ..
    · rw [wakeFill_core, tlb1Install_core_self]
      rfl
    · rw [wakeFill_cluster]
      exact congrArg (fun x : Cluster =>
        { x with tlb2 := (s.cluster (unitOf (coreOf k))).tlb2, tlbStamp := (s.cluster (unitOf (coreOf k))).tlbStamp })
        (tlb2Touched_cluster s k y)
    · rw [wakeFill_core, tlb1Install_core_other _ _ _ _ hm]
      rfl
    · rw [wakeFill_cluster]
      exact tlb2Touched_cluster_other s k y hm
    · exact wakeFill_tlb_rest s k va y.leaf y

end Sys2Proof.Machine
end

section
/-! SUPPORT. What the walk of the page tables answers, level by level (R234 to R236). -/
namespace Sys2Proof.Machine

/-! ### Accesses of the walker -/

theorem hm_bind_of_ok {α β : Type} {x : HM α} {s u : State} {a : α} (h : x s = .ok a u) (f : α → HM β) : (x >>= f) s = f a u := by
  show EStateM.bind x f s = _
  simp only [EStateM.bind, h]

/-- An access that goes over a route and is answered was performed at its home. -/
theorem overRoute_ok {α : Type} {src ep dst opcode pa : Nat} {bulk : Bool} {x : HM α} {s u : State} {a : α}
    (h : overRoute src ep dst opcode pa bulk x s = .ok a u) : ∃ v, x v = .ok a u := by
  unfold overRoute at h
  split at h
  · exact ⟨_, h⟩
  · split at h
    · cases h
    · cases h
    · exact ⟨_, h⟩
    · split at h <;> cases h
    · cases h
    · cases h

/-- R236: a leaf of placement mode 2 takes the group that first touches it. -/
theorem firstTouch_ok {sl ea grp : Nat} {e l : BitVec 64} {s u : State} (h : firstTouch sl ea grp e s = .ok l u) :
    l = if leafKind e = 0 ∧ leafPlaceMode e = 2 then putField (putField e 10 2 1) 12 10 grp else e := by
  unfold firstTouch at h
  by_cases hp : leafKind e = 0 ∧ leafPlaceMode e = 2
  · rw [if_pos hp]
    rw [if_pos (by simpa using hp)] at h
    change EStateM.bind _ _ _ = _ at h
    unfold EStateM.bind at h
    split at h
    · injection h with hl _
      exact hl.symm
    · cases h
  · rw [if_neg hp]
    rw [if_neg (by simpa using hp)] at h
    injection h with hl _
    exact hl.symm

/-! ### One level of the walk -/

/-- An entry that points to a table: valid, a pointer, and its reserved fields are 0. -/
def isPointer (e : BitVec 64) : Prop := fieldOf e 0 2 = 3 ∧ fieldOf e 48 16 = 0 ∧ fieldOf e 2 12 = 0

/-- What the walk does with an entry it has read at one level. -/
def walkEntry (rq : Rq) (grp va lvl sl ea : Nat) (r : List (Nat × Nat)) (e : BitVec 64) : HM (Option (BitVec 64)) :=
  if !bitOf e 0 then pure none
  else if bitOf e 1 then
    if fieldOf e 48 16 ≠ 0 || fieldOf e 2 12 ≠ 0 then pure none
    else walkLevels rq grp va r (fieldOf e 14 34 * 0x4000)
  else if leafOk lvl e then do
    let l ← overRoute rq.router rq.ep sl 3 ea rq.bulk (firstTouch sl ea grp e)
    pure (some l)
  else pure none

section
variable {rq : Rq} {grp va lvl sh table : Nat} {r : List (Nat × Nat)} {e : BitVec 64} {s u : State}

theorem bits_of_pointer (h : isPointer e) : bitOf e 0 = true ∧ bitOf e 1 = true := by
  obtain ⟨h3, -, -⟩ := h
  unfold fieldOf at h3
  unfold bitOf
  constructor
  · rw [BitVec.getLsbD, Nat.testBit_eq_decide_div_mod_eq]
    simp only [Nat.shiftRight_zero] at h3
    simp
    omega
  · rw [BitVec.getLsbD, Nat.testBit_eq_decide_div_mod_eq]
    simp only [Nat.shiftRight_zero] at h3
    simp
    omega

theorem pointer_of_bits (h0 : bitOf e 0 = true) (h1 : bitOf e 1 = true) (h48 : fieldOf e 48 16 = 0) (h2 : fieldOf e 2 12 = 0) :
    isPointer e := by
  refine ⟨?_, h48, h2⟩
  unfold bitOf at h0 h1
  rw [BitVec.getLsbD, Nat.testBit_eq_decide_div_mod_eq] at h0 h1
  simp at h0 h1
  unfold fieldOf
  simp only [Nat.shiftRight_zero]
  omega

theorem walkLevels_cons {sl : Nat} {w : State} (hsl : tableHome rq (table + 8 * (va / 2 ^ sh % 2048)) s = .ok sl w)
    (he : overRoute rq.router rq.ep sl 1 (table + 8 * (va / 2 ^ sh % 2048)) rq.bulk (homeRead sl (table + 8 * (va / 2 ^ sh % 2048)) 8) w =
      .ok e.toNat u) :
    walkLevels rq grp va ((lvl, sh) :: r) table s = walkEntry rq grp va lvl sl (table + 8 * (va / 2 ^ sh % 2048)) r e u := by
  rw [walkLevels]
  refine (hm_bind_of_ok hsl _).trans ((hm_bind_of_ok he _).trans ?_)
  rw [BitVec.ofNat_toNat, BitVec.setWidth_eq]
  rfl

section
variable {sl ea : Nat}

theorem walkEntry_of_invalid (h : bitOf e 0 = false) : walkEntry rq grp va lvl sl ea r e u = .ok none u := by
  rw [walkEntry, if_pos (by simp [h])]
  rfl

theorem walkEntry_of_bad_pointer (h0 : bitOf e 0 = true) (h1 : bitOf e 1 = true) (h : ¬ isPointer e) :
    walkEntry rq grp va lvl sl ea r e u = .ok none u := by
  have hfields : fieldOf e 48 16 ≠ 0 ∨ fieldOf e 2 12 ≠ 0 := by
    by_contra hn
    obtain ⟨h48, h2⟩ := not_or.1 hn
    exact h (pointer_of_bits h0 h1 (not_not.1 h48) (not_not.1 h2))
  rw [walkEntry, if_neg (by simp [h0]), if_pos h1, if_pos (by simpa using hfields)]
  rfl

theorem walkEntry_of_pointer (h : isPointer e) :
    walkEntry rq grp va lvl sl ea r e u = walkLevels rq grp va r (fieldOf e 14 34 * 0x4000) u := by
  obtain ⟨h0, h1⟩ := bits_of_pointer h
  obtain ⟨-, h48, h2⟩ := h
  rw [walkEntry, if_neg (by simp [h0]), if_pos h1, if_neg (by simp [h48, h2])]

theorem walkEntry_of_bad_leaf (h0 : bitOf e 0 = true) (h1 : bitOf e 1 = false) (h : leafOk lvl e = false) :
    walkEntry rq grp va lvl sl ea r e u = .ok none u := by
  rw [walkEntry, if_neg (by simp [h0]), if_neg (by simp [h1]), if_neg (by simp [h])]
  rfl

theorem walkEntry_of_leaf {l : BitVec 64} {v : State} (h0 : bitOf e 0 = true) (h1 : bitOf e 1 = false) (h : leafOk lvl e = true)
    (hl : overRoute rq.router rq.ep sl 3 ea rq.bulk (firstTouch sl ea grp e) u = .ok l v) :
    walkEntry rq grp va lvl sl ea r e u = .ok (some l) v := by
  rw [walkEntry, if_neg (by simp [h0]), if_neg (by simp [h1]), if_pos h]
  exact hm_bind_of_ok hl _

/-- R235: the last level has no table below it. -/
theorem walkEntry_last_of_pointer (h0 : bitOf e 0 = true) (h1 : bitOf e 1 = true) :
    walkEntry rq grp va lvl sl ea [] e u = .ok none u := by
  by_cases h : isPointer e
  · rw [walkEntry_of_pointer h]
    rfl
  · exact walkEntry_of_bad_pointer h0 h1 h

end

/-- R235: no leaf stands at the first level. -/
theorem leafOk_one (e : BitVec 64) : leafOk 1 e = false := by
  simp [leafOk]

theorem walkLevels_of_reads (h : Claim.walkReads rq s (table + 8 * (va / 2 ^ sh % 2048)) e u) :
    ∃ sl, walkLevels rq grp va ((lvl, sh) :: r) table s = walkEntry rq grp va lvl sl (table + 8 * (va / 2 ^ sh % 2048)) r e u := by
  obtain ⟨sl, w, hsl, he⟩ := h
  exact ⟨sl, walkLevels_cons hsl he⟩

theorem walkLevels_of_invalid (h : Claim.walkReads rq s (table + 8 * (va / 2 ^ sh % 2048)) e u) (h0 : bitOf e 0 = false) :
    walkLevels rq grp va ((lvl, sh) :: r) table s = .ok none u := by
  obtain ⟨sl, hl⟩ := walkLevels_of_reads (grp := grp) (lvl := lvl) (r := r) h
  exact hl.trans (walkEntry_of_invalid h0)

theorem walkLevels_of_bad_pointer (h : Claim.walkReads rq s (table + 8 * (va / 2 ^ sh % 2048)) e u) (h0 : bitOf e 0 = true)
    (h1 : bitOf e 1 = true) (hp : ¬ isPointer e) : walkLevels rq grp va ((lvl, sh) :: r) table s = .ok none u := by
  obtain ⟨sl, hl⟩ := walkLevels_of_reads (grp := grp) (lvl := lvl) (r := r) h
  exact hl.trans (walkEntry_of_bad_pointer h0 h1 hp)

theorem walkLevels_of_pointer (h : Claim.walkReads rq s (table + 8 * (va / 2 ^ sh % 2048)) e u) (hp : isPointer e) :
    walkLevels rq grp va ((lvl, sh) :: r) table s = walkLevels rq grp va r (fieldOf e 14 34 * 0x4000) u := by
  obtain ⟨sl, hl⟩ := walkLevels_of_reads (grp := grp) (lvl := lvl) (r := r) h
  exact hl.trans (walkEntry_of_pointer hp)

theorem walkLevels_of_bad_leaf (h : Claim.walkReads rq s (table + 8 * (va / 2 ^ sh % 2048)) e u) (h0 : bitOf e 0 = true)
    (h1 : bitOf e 1 = false) (hk : leafOk lvl e = false) : walkLevels rq grp va ((lvl, sh) :: r) table s = .ok none u := by
  obtain ⟨sl, hl⟩ := walkLevels_of_reads (grp := grp) (lvl := lvl) (r := r) h
  exact hl.trans (walkEntry_of_bad_leaf h0 h1 hk)

theorem walkLevels_last_of_none (h : Claim.walkReads rq s (table + 8 * (va / 2 ^ sh % 2048)) e u)
    (hn : bitOf e 0 = false ∨ bitOf e 1 = true ∨ leafOk lvl e = false) : walkLevels rq grp va [(lvl, sh)] table s = .ok none u := by
  obtain ⟨sl, hl⟩ := walkLevels_of_reads (grp := grp) (lvl := lvl) (r := []) h
  rw [hl]
  by_cases h0 : bitOf e 0 = true
  · by_cases h1 : bitOf e 1 = true
    · exact walkEntry_last_of_pointer h0 h1
    · exact walkEntry_of_bad_leaf h0 (by simpa using h1) (by simpa [h0, h1] using hn)
  · exact walkEntry_of_invalid (by simpa using h0)

theorem walkLevels_of_leaf {l : BitVec 64} {v : State} (h : Claim.walkLeaf rq grp s (table + 8 * (va / 2 ^ sh % 2048)) e u l v)
    (h0 : bitOf e 0 = true) (h1 : bitOf e 1 = false) (hk : leafOk lvl e = true) :
    walkLevels rq grp va ((lvl, sh) :: r) table s = .ok (some l) v := by
  obtain ⟨sl, w, hsl, he, hl⟩ := h
  exact (walkLevels_cons hsl he).trans (walkEntry_of_leaf h0 h1 hk hl)

theorem leaf_of_walkLeaf {l : BitVec 64} {ea : Nat} {v : State} (h : Claim.walkLeaf rq grp s ea e u l v) :
    l = if leafKind e = 0 ∧ leafPlaceMode e = 2 then putField (putField e 10 2 1) 12 10 grp else e := by
  obtain ⟨_, _, _, _, hl⟩ := h
  obtain ⟨_, hl⟩ := overRoute_ok hl
  exact firstTouch_ok hl

end

section
variable {c core va : Nat} {s : State}

theorem walkTree_of_bad_root (h : bitOf (s.cluster c).root 0 = false ∨ fieldOf (s.cluster c).root 48 16 ≠ 0 ∨
    fieldOf (s.cluster c).root 1 13 ≠ 0) : walkTree c core va s = .ok none s :=
  if_pos (by simpa [or_assoc] using h)

theorem walkTree_of_root (h0 : bitOf (s.cluster c).root 0 = true) (h48 : fieldOf (s.cluster c).root 48 16 = 0)
    (h1 : fieldOf (s.cluster c).root 1 13 = 0) :
    walkTree c core va s = walkLevels (rqUnit (64 * c) 0x53 false s) (groupOf core) va [(1, 45), (2, 34), (3, 23), (4, 12)]
      (fieldOf (s.cluster c).root 14 34 * 0x4000) s :=
  if_neg (by simp [h0, h48, h1])

end

/-! ### What a walk leaves -/

theorem lendTouch_rest (st ch : Nat) (s : State) : { lendTouch st ch s with ctls := s.ctls, due := s.due } = s := by
  unfold lendTouch
  split <;> rfl

theorem touch_rest (o : Obst) (s : State) : { o.touch s with ctls := s.ctls, due := s.due } = s := by
  unfold Obst.touch
  split
  · split
    · exact lendTouch_rest ..
    · rfl
  · rfl

theorem logPlacement_rest (core : Nat) (l : BitVec 64) (acc : AccessKind) (va : Nat) (s : State) :
    { logPlacement core l acc va s with dies := s.dies } = s := by
  unfold logPlacement
  dsimp only
  split <;> rfl

theorem tlb1Install_cluster (n va : Nat) (leaf : BitVec 64) (s : State) (c : Nat) : (tlb1Install n va leaf s).cluster c = s.cluster c :=
  rfl

theorem tlb1Install_mem (n va : Nat) (leaf : BitVec 64) (s : State) : ∃ y ∈ ((tlb1Install n va leaf s).core n).tlb,
    y.va = va / pageBytes (leafSize leaf) * pageBytes (leafSize leaf) ∧ y.size = leafSize leaf ∧ y.leaf = leaf := by
  rw [tlb1Install_core_self]
  exact ⟨_, List.mem_append_right _ (List.mem_singleton.2 rfl), rfl, rfl, rfl⟩

theorem tlb2Install_mem (c va : Nat) (leaf : BitVec 64) (s : State) : ∃ y ∈ ((tlb2Install c va leaf s).cluster c).tlb2,
    y.va = va / pageBytes (leafSize leaf) * pageBytes (leafSize leaf) ∧ y.size = leafSize leaf ∧ y.leaf = leaf := by
  unfold tlb2Install
  rw [State.cluster_modCluster, if_pos rfl]
  exact ⟨_, List.mem_append_right _ (List.mem_singleton.2 rfl), rfl, rfl, rfl⟩

end Sys2Proof.Machine
end

section
/-! PROOFS. Walks of the page tables (O59: R234 to R236, R238, R240). -/
namespace Sys2Proof.Machine

/-- The state in which a walker serves the oldest miss: the misses behind it remain. -/
def walkStart (s : State) (c : Nat) (more : List WalkReq) : State := s.modCluster c fun x => { x with walkQueue := more }

/-- What a walker does with the answer of the walk, begun in state `d`, of miss `r`. -/
def walkAnswer (c : Nat) (r : WalkReq) (d : State) : EStateM.Result HErr State (Option (BitVec 64)) → State
  | .ok (some l) u =>
    (match walkFault u (coreOf r.slot) r.va r.acc l with
    | some kind =>
      fillStop r.slot r.va (.pageFault r.acc.kind kind r.va)
        (if kind = 3 then logPlacement (coreOf r.slot) l r.acc.kind r.va u else u)
    | none => wakeFill r.slot r.va (tlb1Install (coreOf r.slot) r.va l (tlb2Install c r.va l u)))
  | .ok none u => fillStop r.slot r.va (.pageFault r.acc.kind 1 r.va) u
  | .error (.wait o) _ => (o.touch (d.modCluster c fun x => { x with walkQueue := x.walkQueue ++ [r] })).defer (.walk c)
  | .error e u => fillStop r.slot r.va (.trap cMEMERR (e.code.setWidth 32)) u

section
variable {s : State} {c : Nat} {r : WalkReq} {more : List WalkReq}

theorem walkStart_cluster (s : State) (c : Nat) (more : List WalkReq) :
    (walkStart s c more).cluster c = { s.cluster c with walkQueue := more } :=
  (State.cluster_modCluster ..).trans (if_pos rfl)

theorem exec_walk_of_nil (h : (s.cluster c).walkQueue = []) : exec (.walk c) s = .next s := by
  show execWalk c s = _
  simp only [execWalk, h]

theorem tlb2Find_walkStart (va : Nat) : tlb2Find ((walkStart s c more).cluster c) va = tlb2Find (s.cluster c) va := by
  rw [walkStart_cluster]
  rfl

theorem exec_walk_of_hit {y : TlbEntry} (h : (s.cluster c).walkQueue = r :: more) (hy : tlb2Find (s.cluster c) r.va = some y) :
    exec (.walk c) s = .next (wakeFill r.slot r.va (tlb1Install (coreOf r.slot) r.va y.leaf (walkStart s c more))) := by
  have hfind := (tlb2Find_walkStart (s := s) (c := c) (more := more) r.va).trans hy
  unfold walkStart at hfind
  show execWalk c s = _
  simp only [execWalk, h, hfind]
  rfl

theorem exec_walk_of_miss (h : (s.cluster c).walkQueue = r :: more) (hy : tlb2Find (s.cluster c) r.va = none) :
    exec (.walk c) s =
      .next (walkAnswer c r (walkStart s c more) (walkTree c (coreOf r.slot) r.va (walkStart s c more))) := by
  have hfind := (tlb2Find_walkStart (s := s) (c := c) (more := more) r.va).trans hy
  unfold walkStart at hfind
  show execWalk c s = _
  simp only [execWalk, h, hfind]
  rfl

/-- The walk's thread, which still waits for the translation in `u`, faults at its address, and the TLBs stay as they are in `u`. -/
def WalkFaults (s : State) (c : Nat) (r : WalkReq) (u : State) : Prop :=
  (s.slot r.slot).run = .parked (.fill r.va) → u.slot r.slot = s.slot r.slot → Unheld u r.slot →
    ∃ t, exec (.walk c) s = .next t ∧ (t.slot r.slot).run = .faulted ∧ (t.slot r.slot).faultVa = r.va ∧
      (t.cluster c).tlb2 = (u.cluster c).tlb2 ∧ (t.core (coreOf r.slot)).tlb = (u.core (coreOf r.slot)).tlb

section
variable {u : State} (h : (s.cluster c).walkQueue = r :: more) (hy : tlb2Find (s.cluster c) r.va = none)
include h hy

theorem walkFaults_of_none (hw : walkTree c (coreOf r.slot) r.va (walkStart s c more) = .ok none u) : WalkFaults s c r u := by
  intro hr hk hu
  obtain ⟨hrun, hva, htlb2, htlb⟩ := fillStop_faulted (hk ▸ hr) hu r.acc.kind 1
  refine ⟨_, exec_walk_of_miss h hy, ?_⟩
  rw [hw]
  exact ⟨hrun, hva, htlb2 c, htlb _⟩

theorem walkFaults_of_leaf {l : BitVec 64} {kind : Nat} (hw : walkTree c (coreOf r.slot) r.va (walkStart s c more) = .ok (some l) u)
    (hf : walkFault u (coreOf r.slot) r.va r.acc l = some kind) : WalkFaults s c r u := by
  intro hr hk hu
  have hlogged : { (if kind = 3 then logPlacement (coreOf r.slot) l r.acc.kind r.va u else u) with dies := u.dies } = u := by
    split
    · exact logPlacement_rest ..
    · rfl
  refine ⟨_, exec_walk_of_miss h hy, ?_⟩
  rw [hw, walkAnswer, hf]
  dsimp only
  generalize (if kind = 3 then logPlacement (coreOf r.slot) l r.acc.kind r.va u else u) = v at hlogged
  have hslot : v.slot r.slot = u.slot r.slot := congrArg (·.slot r.slot) hlogged
  have hcore : v.core (coreOf r.slot) = u.core (coreOf r.slot) := congrArg (·.core (coreOf r.slot)) hlogged
  have hcluster : v.cluster c = u.cluster c := congrArg (·.cluster c) hlogged
  have hv : Unheld v r.slot := by
    unfold Unheld
    rw [hslot, hcore]
    exact hu
  obtain ⟨hrun, hva, htlb2, htlb⟩ := fillStop_faulted (hslot ▸ hk ▸ hr) hv r.acc.kind kind
  exact ⟨hrun, hva, (htlb2 c).trans (congrArg Cluster.tlb2 hcluster), (htlb _).trans (congrArg Core.tlb hcore)⟩

theorem walk_held {o : Obst} (hw : walkTree c (coreOf r.slot) r.va (walkStart s c more) = .error (.wait o) u) :
    ∃ t, exec (.walk c) s = .next t ∧ (t.cluster c).walkQueue = more ++ [r] ∧ t.later = s.later ++ [.walk c] ∧
      ∀ j, t.slot j = s.slot j := by
  refine ⟨_, exec_walk_of_miss h hy, ?_⟩
  rw [hw, walkAnswer]
  generalize hd : (walkStart s c more).modCluster c (fun x => { x with walkQueue := x.walkQueue ++ [r] }) = d
  have htouch := touch_rest o d
  have hcluster : (o.touch d).cluster c = d.cluster c := congrArg (·.cluster c) htouch
  have hlater : (o.touch d).later = d.later := congrArg (·.later) htouch
  have hslot (j : Nat) : (o.touch d).slot j = d.slot j := congrArg (·.slot j) htouch
  subst hd
  refine ⟨?_, congrArg (fun l => l ++ [Instr.walk c]) hlater, hslot⟩
  show ((o.touch _).cluster c).walkQueue = _
  rw [hcluster, State.cluster_modCluster, if_pos rfl, walkStart_cluster]

theorem walk_installs {l : BitVec 64} (hw : walkTree c (coreOf r.slot) r.va (walkStart s c more) = .ok (some l) u)
    (hf : walkFault u (coreOf r.slot) r.va r.acc l = none) :
    exec (.walk c) s = .next (wakeFill r.slot r.va (tlb1Install (coreOf r.slot) r.va l (tlb2Install c r.va l u))) := by
  rw [exec_walk_of_miss h hy, hw, walkAnswer, hf]

end

theorem walkFault_isSome {u : State} {core va : Nat} {acc : Access} {l : BitVec 64}
    (h : leafAllows l acc = false ∨ leafTarget u (u.partOf (dieOfCluster (unitOf core))) l va = none) :
    ∃ kind, walkFault u core va acc l = some kind := by
  unfold walkFault
  by_cases ha : leafAllows l acc = true
  · exact ⟨3, by simp [ha, show leafTarget u _ l va = none by simpa [ha] using h]⟩
  · exact ⟨2, by simp [ha]⟩

theorem walkFault_eq_none {u : State} {core va : Nat} {acc : Access} {l : BitVec 64} (ha : leafAllows l acc = true)
    (hp : leafTarget u (u.partOf (dieOfCluster (unitOf core))) l va ≠ none) : walkFault u core va acc l = none := by
  unfold walkFault
  simp [ha, hp]

end

/-- R234 to R236, R238, R240. -/
theorem claim_walks : Claim.Walks := by
  refine ⟨fun s c h => exec_walk_of_nil h, fun s c r more h hc => ⟨fun y hy => ?_, fun hy => ⟨fun o u hw => walk_held h hy hw, fun hroot => ?_,
    fun h0 h48 h1 e1 u1 hr1 => ?_⟩⟩⟩
  · refine ⟨_, exec_walk_of_hit h hy, ?_, ?_, ?_, ?_⟩
    · rw [wakeFill_slot, if_pos rfl]
      exact woken_congr rfl
    · rw [wakeFill_cluster, tlb1Install_cluster, walkStart_cluster]
    · rw [wakeFill_cluster, tlb1Install_cluster, walkStart_cluster]
    · obtain ⟨z, hz, -, -, hleaf⟩ := tlb1Install_mem (coreOf r.slot) r.va y.leaf (walkStart s c more)
      rw [wakeFill_core]
      exact ⟨z, hz, hleaf⟩
  · refine walkFaults_of_none h hy (walkTree_of_bad_root ?_)
    rw [walkStart_cluster]
    exact hroot
  · have htree : walkTree c (coreOf r.slot) r.va (walkStart s c more) =
        walkLevels (rqUnit (64 * c) 0x53 false (walkStart s c more)) (groupOf (coreOf r.slot)) r.va [(1, 45), (2, 34), (3, 23), (4, 12)]
          (fieldOf (s.cluster c).root 14 34 * 0x4000) (walkStart s c more) := by
      rw [walkTree_of_root (by rwa [walkStart_cluster]) (by rwa [walkStart_cluster]) (by rwa [walkStart_cluster]), walkStart_cluster]
    refine ⟨fun hi => walkFaults_of_none h hy (htree.trans (walkLevels_of_invalid hr1 hi)),
      fun hv hb hp => walkFaults_of_none h hy (htree.trans (walkLevels_of_bad_pointer hr1 hv hb hp)),
      fun hv hb => walkFaults_of_none h hy (htree.trans (walkLevels_of_bad_leaf hr1 hv hb (leafOk_one e1))),
      fun hp1 e2 u2 hr2 hp2 e3 u3 hr3 hp3 => ?_⟩
    have hlast := htree.trans ((walkLevels_of_pointer hr1 hp1).trans ((walkLevels_of_pointer hr2 hp2).trans
      (walkLevels_of_pointer hr3 hp3)))
    refine ⟨fun e4 u4 hr4 hn => walkFaults_of_none h hy (hlast.trans (walkLevels_last_of_none hr4 hn)),
      fun e4 u4 l u hl hv hb hk => ⟨leaf_of_walkLeaf hl, fun hf => ?_, fun ha hp => ?_⟩⟩
    · obtain ⟨kind, hkind⟩ := walkFault_isSome (core := coreOf r.slot) (hc.symm ▸ hf)
      exact walkFaults_of_leaf h hy (hlast.trans (walkLevels_of_leaf hl hv hb hk)) hkind
    · refine ⟨_, walk_installs h hy (hlast.trans (walkLevels_of_leaf hl hv hb hk)) (walkFault_eq_none ha (hc.symm ▸ hp)), ?_, fun j hj => ?_,
        ?_, ?_⟩
      · rw [wakeFill_slot, if_pos rfl]
        exact woken_congr rfl
      · rw [wakeFill_slot, if_neg hj]
        rfl
      · rw [wakeFill_cluster, tlb1Install_cluster]
        exact tlb2Install_mem ..
      · rw [wakeFill_core]
        exact tlb1Install_mem ..

/-- Settles O59: a fill, a lookup or a walk ends in one of the ways that its home, its TLB or its table entries allow. -/
theorem translationEvents : Obligations.TranslationEvents := ⟨claim_fillsAndLookups, claim_walks⟩

end Sys2Proof.Machine
end
